-- ==== Sys2Proof/Word.lean ====
section
/-! DEFINITION. The word types, the index types of "Table: unit names" (R10) and their plainest arithmetic. -/

namespace Sys2Proof

/-- A byte (R4). -/
abbrev Byte := BitVec 8
/-- A register word (R5). -/
abbrev Word := BitVec 32
/-- A data-path word of 32 bytes, the unit of items and queues (R5). -/
abbrev Line := BitVec 256
/-- The configuration bits of a carrel-folio (R69). -/
abbrev ConfigBits := BitVec 655360

/-- Port index p: slot ports 0 to 127, trunk Tnn is 128 + nn (R10). -/
abbrev Port := Fin 144
/-- Trunk number nn of Tnn. -/
abbrev Trunk := Fin 16
abbrev Bay := Fin 32
/-- Physical carrel position of a bay, C00 to C37 (R11). -/
abbrev Phys := Fin 38
/-- Logical carrel position of a bay, C00 to C35 (R11). -/
abbrev Pos := Fin 36
abbrev Folio := Fin 8
abbrev Engine := Fin 16
abbrev Queue := Fin 16384
abbrev Flow := Fin 65536
abbrev Volume := Fin 32
/-- A slip channel: 0 to 3 host rings, 4 sideband, 5 in-band (R357). -/
abbrev Channel := Fin 6
/-- A thermal-model node (R313). -/
abbrev Node := Fin 48
/-- A side-store master m of R251. -/
abbrev SideMaster := Fin 39

end Sys2Proof
end

