-- ==== Sys2Proof/Syntax.lean ====
section
/-! DEFINITION. The commands of the block: one constructor per row of spec/opcode_table.json, with the operands the
outside world or the physics supplies. What a check code finds, what a counter counted, what a design drove: operands. -/

namespace Sys2Proof

/-- The four register masters (R341). -/
inductive Master where
  | pcie | i2c | desk | readingRoom
deriving DecidableEq, Repr

/-- A mode domain (R14). -/
inductive Domain where
  | house
  | bay (b : Bay)
  | port (p : Port)
deriving DecidableEq, Repr

/-- What the check code, or after it the MAC, of a location finds at a read (R227, R228, R249). -/
inductive Found where
  | clean
  /-- corrected: bit or symbol position, and the error value of a symbol -/
  | corrected (pos : Nat) (value : Byte)
  | uncorrectable (syndrome : Byte)
  /-- side store only: the check code is clean and the MAC fails -/
  | macFail
deriving DecidableEq, Repr

/-- An upset of held-twice or parity-guarded state that a use finds (R169, R189, R289, R410). -/
inductive Upset where
  | none
  /-- the shadow write pointer reads with these bits flipped -/
  | writePtr (flip : BitVec 17)
  | readPtr (flip : BitVec 17)
  | parity
deriving DecidableEq, Repr

/-- The common header of a call slip, less the opcode, which the constructor gives (R366). -/
structure SlipHdr where
  ch : Channel
  flags : Byte
  count : Byte
  tag : BitVec 16
  seq : BitVec 16
  /-- bytes 8 to 15, which must be zero -/
  reserved : BitVec 64
deriving DecidableEq, Repr

/-- An invalid symbol that a lane receives (R116): a 10-bit group, bit a first and highest, with the running disparity (positive
or not) that it meets; or a comma at another alignment than the lane's. -/
inductive BadSymbol where
  | group (g : BitVec 10) (positive : Bool)
  | misplacedComma
deriving DecidableEq, Repr

/-- The first comma that a lane accepts: the lane, and the running disparity, positive or not, that it leaves (R115). -/
structure LaneComma where
  lane : Fin 4
  positive : Bool
deriving DecidableEq, Repr

/-- A foreign port whose partner answers, and the base page that a 1000BASE-X partner advertises (R134). -/
structure Partner where
  port : Port
  page : BitVec 16
deriving DecidableEq, Repr

/-- A kind of phase-sensor fault, coded as PWR_PHASE_n.fault (R323). -/
inductive SensorKind where
  | outOfRange | stuck | sisterMismatch
deriving DecidableEq, Repr

/-- A block with a gate request bit (R307). -/
inductive GateBlock where
  | bay (b : Bay) | port (p : Port) | engine (e : Engine) | side0 | pcie
deriving DecidableEq, Repr

/-- Upsets that have struck a folio's state store since its latest save: the state bits and parity bits flipped (R87). -/
structure StoreUpset where
  bits : BitVec 4096
  parity : BitVec 128
deriving DecidableEq, Repr

/-- What the design of the entry that ends leaves at its turn (R74, R75, R80 to R82): the flip-flop values captured at the end
of its last active cycle; the mesh wires that it drove, with the last value on each (wire n of edge e is bit 128e + n); the lift
outputs in its last active cycles, five at most, oldest first; and EDITION_READY as last driven. -/
structure TurnIn where
  live : BitVec 4096
  drove : BitVec 512
  mesh : BitVec 512
  lifts : List (BitVec 256)
  ready : Bool
deriving DecidableEq, Repr

/-- What is sampled at a slot boundary: the 96 phase currents in mA (R309), the input current in mA and VIN12 in mV; and
the rail types of which a rail lies outside ±2 % (R311). And what the lanes did in the slot that ends: the steps by which phase
trackers moved (R129) and the bits in error that locked checkers counted (R138), by port * 4 + lane. -/
structure SlotIn where
  phases : List Int
  inputMa : Int
  vinMv : Nat
  railsOut : BitVec 6
  moves : List (Nat × Int)
  errors : List (Nat × Nat)
deriving DecidableEq, Repr

/-- What the analogue side gives at a frame boundary: the measured frequency error (R39, R40), the true length of the frame
that ends against IOSC_F (R313), and the samples of slot 0. -/
structure FrameIn where
  freqErrPpb : Int
  dtNs : Nat
  sample : SlotIn
  /-- upsets of the stores that the turns into entry 0 at the frame's end read: carrel key and upset -/
  restores : List (Nat × StoreUpset)
deriving DecidableEq, Repr

/-- One failure that a whole-bay test finds and diagnoses (R334). -/
inductive TestFault where
  | logic (carrel : Phys) (block : Nat) (diag : Option (Nat × Nat × Nat))
  /-- the failing cells of a bank, as line and stored bit (R327) -/
  | bank (carrel : Phys) (bank : Fin 4) (cells : List (Nat × Nat))
deriving DecidableEq, Repr

/-- What a whole-bay test got through: the blocks it ran, and the physical banks it tested. -/
structure TestRun where
  blocks : Nat
  banks : List Nat
deriving DecidableEq, Repr

/-- How a whole-bay test ends (R332). -/
inductive TestEnd where
  | done | budget | conditions | superseded
deriving DecidableEq, Repr

/-- What the read of one ledger node on the path of an access finds (R247, R250): its level and the finding; cacheLoss
is an uncorrectable error in a dirty cached entry. -/
structure NodeFound where
  level : Fin 4
  found : Found
  cacheLoss : Bool
deriving DecidableEq, Repr

/-- What a unit of a memory slip met (R226, R228): the unit's byte address, and the finding. -/
abbrev UnitFound := Nat × Found

inductive Instr where
  -- supplies and reset
  | vstbyRise | vstbyLoss
  /-- the straps as they stand when the internal reset of R426 ends -/
  | vin12Rise (addr : BitVec 3) (bootSrc : BitVec 2)
  | vin12Shutdown | porstNAssert
  | porstNRelease (addr : BitVec 3) (bootSrc : BitVec 2)
  | leaveReset
  -- clocks
  /-- the nine counts of "Table: monitor pairings", the counts of the REFA and REFB pins, and the lock detects -/
  | monitorWindowEnd (counts : List Nat) (refA refB : Nat) (lock : BitVec 6)
  | clockStoppedDetect (pairing : Fin 9)
  | ioscSStopped
  /-- switches 0 to 5 are the reference inputs of the loops, 6 to 11 the clocks of their consumers -/
  | glitchFreeSwitchDone (sw : Fin 12)
  | switchForced (sw : Fin 12)
  | overrideQualifyTimeout (refB : Bool)
  | trunkRefLost (t : Trunk)
  -- frame
  | frameBoundary (fi : FrameIn)
  | slotBoundary (si : SlotIn)
  | changeAbandoned (ch : Channel)
  | frameOutEdge (rising : Bool)
  /-- the edge's place from the nearest frame boundary, in core cycles -/
  | frameInEdge (offset : Int)
  | frameSourceLoss | frameSourceQualified | frameSourceQualifyTimeout
  | loopLocked | frameUnlocked
  | frameOverrun (unit : Fin 6)
  | bayNotReady (b : Bay)
  | closingDrainEnd (d : Domain)
  -- fabric
  /-- the upsets are those of the store of the folio that comes in -/
  | turn (b : Bay) (c : Pos) (t : TurnIn) (u : StoreUpset)
  /-- what the 64 scan chains shifted out in the block, a word for each shift (R326) -/
  | stockBlockCompare (b : Bay) (c : Pos) (chains : List (BitVec 64))
  | carrelBankAccess (b : Bay) (c : Pos) (bank : Fin 4) (cycle : Fin 250) (rd : Option (BitVec 11))
      (wr : Option (BitVec 11 × Line)) (found : List Found)
  | folioWriteComplete (b : Bay) (c : Pos) (f : Folio)
  | reloadRewriteStart (b : Bay) (c : Pos) (f : Folio)
  | archiveReadError (b : Bay)
  -- attaches: succ marks the successor edition of a switch
  | lineAttachTake (p : Port) (succ : Bool)
  | lineAttachSend (p : Port) (succ : Bool) (data : BitVec 64) (k : BitVec 8)
  | itemAttachBeat (p : Port) (succ : Bool) (beat : BitVec 64)
  | egressTake (p : Port) (succ : Bool)
  | liRelease (p : Port) | loRelease (p : Port) | ixRelease (p : Port)
  | editionSwitchForced (p : Port)
  -- lanes
  | laneSyncAcquired (p : Port) (comma : LaneComma)
  | laneSyncLost (p : Port) (k : Fin 4)
  | invalidSymbol (p : Port) (k : Fin 4) (kind : BadSymbol)
  /-- symbols 1 to 7 on each lane of the width, L0 first, whether K28.1 stands in one column on every lane, and the phase of its
  arrival -/
  | frameMarkReceived (p : Port) (marks : List (List Byte)) (aligned : Bool) (phase : Int)
  /-- the symbols after K28.0 -/
  | slotMarkReceived (p : Port) (sym : List Byte)
  /-- the fill of each lane's elastic buffer at the set -/
  | skipSetReceived (p : Port) (fill : List Nat)
  | qColumnReceived (p : Port)
  /-- negotiation sets: symbols 1 to 15 of the set -/
  | negCapabilitiesReceived (p : Port) (sym : List Byte)
  | negProposeReceived (p : Port) (sym : List Byte)
  | negAcceptReceived (p : Port) (sym : List Byte)
  | negConfirmReceived (p : Port) (sym : List Byte)
  | negFailReceived (p : Port) (sym : List Byte)
  | negRefuseReceived (p : Port) (sym : List Byte)
  /-- the whole-UI offset and the fine position that training chose for the data lanes -/
  | portTrained (p : Port) (ui0 ui1 : Int) (fine0 fine1 : Fin 64)
  | prbsWindowStart (p : Port)
  | prbsWindowEnd (p : Port) (pass : Bool)
  | trainingTimeout (p : Port) | confirmTimeout (p : Port) | negTimeout (p : Port)
  | confirmedStepSyncLoss (p : Port) | portNoPartner (p : Port) | collisionBackoffExpiry (p : Port)
  | foreignLinkUp (q : Partner)
  | portMarksLost (p : Port) | portMarksRestored (p : Port) | portMarksAbsent (p : Port)
  | itemStartReceived (p : Port)
  /-- the count of data bytes the item carried -/
  | itemEndReceived (p : Port) (bytes : Nat)
  | itemPoisonReceived (p : Port)
  | elasticSlip (p : Port)
  | receiveBufferRecentre (p : Port) (k : Fin 4)
  | lanePhaseLimit (p : Port) (k : Fin 2) (high : Bool)
  | prbsCheckerLock (p : Port) (k : Fin 4)
  /-- the bits in error the checker counted before it lost lock -/
  | prbsLockLost (p : Port) (k : Fin 4) (errors : Nat)
  | errorInjection (p : Port) (k : Fin 4)
  | injOnce (p : Port) (k : Fin 4)
  -- flows and queues
  /-- what the reads of the context's eight words find -/
  | flowLookup (p : Port) (header : Line) (found : List Found)
  /-- what the reads of the item's words find, header first -/
  | delayLineRelease (f : Flow) (found : List Found) (u : Upset)
  | mergeStep (f : Flow) | mergeGapTimeout (f : Flow) | mergeAutoResync (f : Flow)
  | itemHeaderTaken (q : Queue) (header : Line) (u : Upset)
  | itemWordWrite (q : Queue) (w : Line) (u : Upset)
  | itemComplete (q : Queue)
  | itemPoisonedEnd (q : Queue)
  | queuePop (q : Queue) (found : Found) (u : Upset)
  | flushMarkerWrite (q : Queue)
  | qdFlushWrite (m : Master) (q : Queue)
  -- stores: requester code of R233; check word index = layer address / 8
  | memoryLayerRead (requester : Byte) (word : Nat) (found : Found)
  | memoryLayerWrite (requester : Byte) (addr : Nat) (data : List Byte) (found : Found)
  | sideStoreRead (m : SideMaster) (block : BitVec 29) (found : Found) (path : List NodeFound)
  | sideStoreWrite (m : SideMaster) (addr : BitVec 35) (data : List Byte) (found : Found) (path : List NodeFound)
  | sideRefresh (side : Fin 2)
  | rngFail
  -- streams and start-up: tagOk is the GCM comparison
  | streamLoadStart
  | partTrailerCheck (tagOk : Bool) (found : Found)
  | streamApplyComplete
  /-- the position and the CRC of a start block, whose other fields are zero and whose payload is empty (R273, R274) -/
  | chainStartBlockReceived (pos : Byte) (crc : BitVec 32)
  | chainDataBlockReceived (pos : Byte) (seq : BitVec 24) (payload : List Byte) (crc : BitVec 32)
  /-- symbols 1 to 11 + len of the block -/
  | chainEndBlockReceived (sym : List Byte)
  | chainStartTimeout | chainBlockTimeout
  | startupStepAComplete | rendezvousMet | rendezvousTimeout
  -- shelf-reader
  /-- the data and check bits of the configuration frame that upsets have flipped since it was last read or written (R280) -/
  | shelfFrameRead (data : BitVec 1024) (check : BitVec 12) (u : Upset)
  | shelfCorrectionWrite | sweepLate | shelfStall
  -- stocktake
  | stockTestStart (b : Bay)
  /-- what was run before the end, and the failures found -/
  | stockTestEnd (b : Bay) (how : TestEnd) (ran : TestRun) (faults : List TestFault)
  | repairRecordWriteDone
  -- power and thermal
  | boundaryStale
  | thermBoundaryWrite (m : Master) (v : Word)
  | slopeWarn (n : Node)
  | bandChange (n : Node)
  /-- phases 0 to 95, and 96 for the input current sensor -/
  | sensorFault (phase : Fin 97) (kind : SensorKind)
  | railFault (type : Fin 6) (index : Nat)
  | vinFault
  | railRestored (laneGroup : Bool) (index : Fin 32)
  | gateTakesEffect (blk : GateBlock)
  | pcieLinkUp
  -- registers
  | bayGateRequest (m : Master) (k : Fin 2) (v : Word)
  | portGateRequest (m : Master) (k : Fin 9) (v : Word)
  | qeGateRequest (m : Master) (v : Word)
  | side0GateRequest (m : Master) (v : Word)
  | pcieGateRequest (m : Master) (v : Word)
  | registerWrite (m : Master) (offset : BitVec 22) (v : Word)
  | unlockWrite (m : Master) (offset : BitVec 22) (v : Word)
  | unlockArmLapse (m : Master) (block : Nat)
  | lockoutEnd (block : Nat)
  | deskShelfIdWrite (m : Master) (v : Word)
  /-- desk cycles since DESK_TIME was last carried forward: by a slot boundary, or by a monitor window while no frames run -/
  | deskTimeLoRead (m : Master) (cycle : Nat)
  | pcieZeroLengthRead (offset : BitVec 22)
  | pcieBadRequest (offset : BitVec 22) (write : Bool)
  | logNmLatchClear (m : Master) (v : Word)
  | logAlarmClear (m : Master) (family : Fin 11) (v : Word)
  | shelfCtrlWrite (m : Master) (v : Word) (parityFault : Bool)
  | shelfActionWrite (m : Master) (hi : Bool) (v : Word)
  | portLoopWrite (m : Master) (p : Port) (v : Word)
  | laneTestCtrlWrite (m : Master) (p : Port) (k : Fin 4) (v : Word)
  | frameOutCtrlWrite (m : Master) (v : Word)
  -- slip channels
  | slipRingEnable (m : Master) (n : Fin 4) (irq : Bool)
  | slipRingDisable (m : Master) (n : Fin 4) (irq : Bool)
  | ringDrainComplete (n : Fin 4)
  | slipProdWrite (m : Master) (n : Fin 4) (v : Word)
  | slipRconsWrite (m : Master) (n : Fin 4) (v : Word)
  | logDrainConsWrite (m : Master) (v : Word)
  | replyWrite (ch : Channel)
  | slipDmaFault (n : Fin 4) (kind : Byte)
  /-- sideband transfers: the bytes after the command code -/
  | sidebandRegWrite (bytes : List Byte)
  | sidebandRegRead (bytes : List Byte) (cycle : Nat)
  | sidebandSlipWrite (bytes : List Byte)
  | sidebandSubmit
  | sidebandReplyRead (bytes : List Byte)
  | sidebandStatus
  | sidebandRelease
  | sidebandBadCommand (code : Byte)
  | sidebandSeriesReset
  /-- what the reads of the item's words find, header first -/
  | inbandItem (found : List Found) (u : Upset)
  | slipUnknownOpcode (opcode : BitVec 16) (h : SlipHdr) (p : List Byte)
  | lockstepMismatch | standbyReloadComplete
  -- day book
  | daybookEntryWrite (found : Found) (u : Upset)
  | daybookDrainCopy (found : Found) (u : Upset)
  | summaryPeriodEnd
  -- work handed to a unit that ends
  | streamStageDone (found : Found) | streamAuthDone (tagOk : Bool) | flashWriteDone | flashEraseDone | archiveAddDone
  | memoryFillDone (bad : List UnitFound) | memoryCopyDone (bad : List UnitFound)
  -- call slips: the header and the parameter bytes from byte 16
  | frameSource (h : SlipHdr) (p : List Byte) | frameNumberSet (h : SlipHdr) (p : List Byte)
  | clockSet (h : SlipHdr) (p : List Byte) | clockRestore (h : SlipHdr) (p : List Byte)
  | clockQuery (h : SlipHdr) (p : List Byte)
  | thermalSet (h : SlipHdr) (p : List Byte) | thermalRelease (h : SlipHdr) (p : List Byte)
  | thermalQuery (h : SlipHdr) (p : List Byte)
  | powerSet (h : SlipHdr) (p : List Byte) | powerGate (h : SlipHdr) (p : List Byte)
  | powerQuery (h : SlipHdr) (p : List Byte)
  /-- host: the bytes the named host buffer holds, or none for a failed read of host memory (R362) -/
  | streamStage (h : SlipHdr) (p : List Byte) (host : Option (List Byte))
  | streamAuth (h : SlipHdr) (p : List Byte)
  | streamApply (h : SlipHdr) (p : List Byte)
  | flashWrite (h : SlipHdr) (p : List Byte) (host : Option (List Byte))
  | flashErase (h : SlipHdr) (p : List Byte)
  | streamQuery (h : SlipHdr) (p : List Byte) | archiveAdd (h : SlipHdr) (p : List Byte)
  | rotaSet (h : SlipHdr) (p : List Byte) | rotaQuery (h : SlipHdr) (p : List Byte)
  | folioLoad (h : SlipHdr) (p : List Byte) | editionLoad (h : SlipHdr) (p : List Byte)
  | editionBind (h : SlipHdr) (p : List Byte) | editionSwitch (h : SlipHdr) (p : List Byte)
  | editionQuery (h : SlipHdr) (p : List Byte) | bankSet (h : SlipHdr) (p : List Byte)
  | channelQuery (h : SlipHdr) (p : List Byte) | editionRetire (h : SlipHdr) (p : List Byte)
  | portSet (h : SlipHdr) (p : List Byte) | portQuery (h : SlipHdr) (p : List Byte)
  | queueSet (h : SlipHdr) (p : List Byte) | queueQuery (h : SlipHdr) (p : List Byte)
  | queueFlush (h : SlipHdr) (p : List Byte) | queueSpaceQuery (h : SlipHdr) (p : List Byte)
  | flowSet (h : SlipHdr) (p : List Byte) | flowQuery (h : SlipHdr) (p : List Byte)
  | pairSet (h : SlipHdr) (p : List Byte) | flowCountClear (h : SlipHdr) (p : List Byte)
  | egressSet (h : SlipHdr) (p : List Byte) | egressQuery (h : SlipHdr) (p : List Byte)
  | creditSet (h : SlipHdr) (p : List Byte)
  /-- bad: the units of the region whose reads are not clean -/
  | read (h : SlipHdr) (p : List Byte) (bad : List UnitFound)
  | write (h : SlipHdr) (p : List Byte) (bad : List UnitFound)
  | fill (h : SlipHdr) (p : List Byte) | copy (h : SlipHdr) (p : List Byte)
  | retire (h : SlipHdr) (p : List Byte) | retireClear (h : SlipHdr) (p : List Byte)
  | retireQuery (h : SlipHdr) (p : List Byte)
  | rightsSet (h : SlipHdr) (p : List Byte) | rightsQuery (h : SlipHdr) (p : List Byte)
  | rekey (h : SlipHdr) (p : List Byte) | rekeyQuery (h : SlipHdr) (p : List Byte)
  | ledgerRead (h : SlipHdr) (p : List Byte) | keyFuseSet (h : SlipHdr) (p : List Byte)
  | stockDeclare (h : SlipHdr) (p : List Byte) | stockRun (h : SlipHdr) (p : List Byte)
  | stockRepair (h : SlipHdr) (p : List Byte) | stockResult (h : SlipHdr) (p : List Byte)
  | stockQuery (h : SlipHdr) (p : List Byte)
  | eventAck (h : SlipHdr) (p : List Byte)
  | daybookRead (h : SlipHdr) (p : List Byte) (bad : List Nat)
  | daybookDrainSet (h : SlipHdr) (p : List Byte) | eventFilterSet (h : SlipHdr) (p : List Byte)
  | eventQuery (h : SlipHdr) (p : List Byte) | inbandSet (h : SlipHdr) (p : List Byte)
  /-- archiveOk: what the desk finds at the bay's archive copies if it reads them for this slip when it is due (R52) -/
  | modeSet (h : SlipHdr) (p : List Byte) (archiveOk : Bool)
  | modeQuery (h : SlipHdr) (p : List Byte)
  | laneTestSet (h : SlipHdr) (p : List Byte) | laneTestQuery (h : SlipHdr) (p : List Byte)
  -- the reading-room port
  | tapReset
  | extest (cells : BitVec 20) | idcode | samplePreload (update : Option (BitVec 20)) (pins : BitVec 20)
  | highz | clamp | bypass (code : Byte)
  /-- the 56-bit and 102-bit shift-in values of R439 and R440 -/
  | rrReg (dr : BitVec 56) (cycle : Nat)
  | rrMem (dr : BitVec 102) (found : Found) (path : List NodeFound)
  -- rows the table gives last
  | ioscSRunsAgain
  | editionReady (b : Bay)
  | registerRead (m : Master) (offset : BitVec 22)
  | lineAttachIngress (p : Port) (data : List (Byte × Bool))
  | egressUnderrun (p : Port)
  | loopRelocked (loop : Fin 6) (port : Option Port)
deriving DecidableEq, Repr

end Sys2Proof
end

