-- ==== Sys2Proof/Decode.lean ====
section
/-! DEFINITION. The words of the command table. Its rows give no bits, so no word spells a command: a command reaches the
block from its pins and from its masters, never as a fetched word (log entry 3). -/

namespace Sys2Proof

def decodeTableWord (_nbits _w : Nat) : Option Instr := none

end Sys2Proof
end

