-- ==== Sys2Proof/Machine/State.lean ====
section
/-! DEFINITION. The state of the block as plain data: every register, queue, buffer, counter, mode and pin the spec gives,
grouped by the unit that owns it, and the queue of waiting commands. -/

namespace Sys2Proof.Machine
open Sys2Proof

/-- A sparse table keyed by an index: keys strictly rising, no entry equal to the default its reader gives. -/
abbrev Sparse (α : Type) := List (Nat × α)

/-- Mode codes 0 to 5 (R50). -/
inductive Mode where
  | intake | bringUp | service | holdover | bindery | closing
deriving DecidableEq, Repr

/-- Event classes (R398), coded as in the day book. -/
inductive EvClass where
  | trace | info | warning | alarm | nonMaskable
deriving DecidableEq, Repr

/-- An event raised and not yet written by the event logger (R400). -/
structure Event where
  cls : EvClass
  code : BitVec 16
  subject : Nat
  detail : BitVec 96
  frame : Word
  slot : Byte
deriving DecidableEq, Repr

/-- The identity of a slip whose completion event is still to be posted (R374, R376). -/
structure SlipId where
  ch : Channel
  op : BitVec 16
  tag : BitVec 16
  seq : BitVec 16
  noReply : Bool
  /-- the ring's enable generation, to tell a ring re-enabled since (R363) -/
  gen : Nat
  /-- the reply flags the slip carries (seq_gap, may_pass_ignored) -/
  flags : Byte
deriving DecidableEq, Repr

/-- A reply slip or completion event (R370), phase bit left to the writer. -/
structure Reply where
  id : SlipId
  completion : Bool
  status : BitVec 16
  flags : Byte
  detail : Word
  result : List Byte
deriving DecidableEq, Repr

/-- Supplies, reset, straps, fuses and pins (R291, R422 to R428, R255). -/
structure PkgSt where
  vstby : Bool
  rails : Bool
  porstLow : Bool
  inReset : Bool
  addr : BitVec 3
  bootSrc : BitVec 2
  streamKey : Option (BitVec 256)
  debugFuse : BitVec 2
  /-- DONE_N driven low by this device (R272) -/
  doneLow : Bool
  frameOut : Bool
  /-- the trim of IOSC_F has been taken from fuses (R291) -/
  trimmed : Bool
  pcieUp : Bool
deriving DecidableEq, Repr

/-- What a loop or a consumer clock runs from (R294, R302, R303). -/
inductive ClkRef where
  | sourceA | sourceB | ioscF | ioscS | lpCore | loop
deriving DecidableEq, Repr

/-- A glitch-free switch (R305, R306). -/
structure SwitchSt where
  target : ClkRef
  forced : Bool
deriving DecidableEq, Repr

/-- A clock change that step 3 of the next boundary makes (R292, R304, CLOCK_SET). -/
inductive ClkChange where
  | trunkRefs (trkb : Bool) (pri sec : Nat)
  | tripPct (v : Nat)
  | restore (target : Nat) (id : SlipId)
  /-- an override (refB) being qualified: the selection asked for, frames waited -/
  | override (refB : Bool) (want : Bool) (frames : Nat) (id : Option SlipId)
deriving DecidableEq, Repr

/-- Clocks, the monitor and gating ("Clocks, gating and the clock monitor"). -/
structure ClkSt where
  /-- good_run, count and stopped of CLK_MON_COUNT_n -/
  goodRun : List Nat
  count : List Nat
  stopped : BitVec 9
  refRun : List Nat
  qualA : Bool
  qualB : Bool
  qualF : Bool
  qualS : Bool
  refaSel : Bool
  refbSel : Bool
  refaEn : Bool
  refbEn : Bool
  tripPct : BitVec 4
  trkaPri : BitVec 2
  trkaSec : BitVec 2
  trkbPri : BitVec 2
  trkbSec : BitVec 2
  loopLock : BitVec 6
  /-- the reference in use by loop n, and the clock its consumers run on -/
  loopRef : List ClkRef
  consumer : List ClkRef
  /-- CLK_TRIP sticky bits [16:5] in their register places -/
  trip : Word
  cold : Bool
  stoppedDevice : Bool
  /-- IOSC_F judged failed: windows counted on IOSC_S (R300) -/
  onIoscS : Bool
  switches : Sparse SwitchSt
  changes : List ClkChange
  tripHoldover : Bool
  gateReqBay : BitVec 32
  gatedBay : BitVec 32
  gateReqPort : BitVec 144
  gatedPort : BitVec 144
  gateReqQe : BitVec 16
  gatedQe : BitVec 16
  gateReqPcie : Bool
  gatedPcie : Bool
  gateReqSide0 : Bool
  gatedSide0 : Bool
deriving DecidableEq, Repr

/-- A frame-source selection (R34). -/
structure FrameSel where
  src : Nat
  trunk : Nat
  revertive : Bool
  phase : Bool
  bandwidth : Nat
  offset : Int
  slew : Nat
deriving DecidableEq, Repr

/-- Frame, slot, sources, discipline and FRAME_OUT ("Frame, slots and the work budget"). -/
structure FrameSt where
  number : Word
  slot : Byte
  /-- the fabric cycle of the slot that the latest command of the fabric fell in (R32, R79) -/
  cycle : Nat
  /-- frames have begun (start-up step A is complete) -/
  running : Bool
  /-- boundaries since frames began, and core cycles since the device left reset at the latest boundary -/
  frames : Nat
  time : Nat
  sel : FrameSel
  active : FrameSel
  /-- a selection due at the next boundary, and one being qualified with the frames it has taken -/
  pendSel : Option (FrameSel × SlipId)
  qualifying : Option (FrameSel × SlipId × Nat)
  newQualified : Bool
  qualified : Bool
  lost : Bool
  locked : Bool
  unlocked : Bool
  phaseErr : Int
  lockRun : Nat
  unlockRun : Nat
  misplaced : Nat
  /-- the distance from the predicted boundary of the edge taken in the window that stands open -/
  edge : Option Int
  /-- the phase that this frame's measurement finds: the edge of the window closed in it, or the K28.1 of the trunk (R34, R39) -/
  phaseSeen : Option Int
  lossRun : Nat
  goodRun : Nat
  /-- the same for a source being qualified: an edge in its window, and frames in its favour -/
  candEdge : Bool
  candRun : Nat
  /-- the core loop's control word, the second-order filter's integrator (parts per billion), and the words of the latest frames -/
  ctrlWord : Int
  ctrlFreq : Int
  ctrlHist : List Int
  frozen : Bool
  /-- pending FRAME_NUMBER_SET: value, frame it names, slip (R31) -/
  pendNumber : Option (Word × Word × SlipId)
  outOffset : BitVec 10
  outWidth : BitVec 2
  outEn : Bool
  outOffsetNext : BitVec 10
  outWidthNext : BitVec 2
  /-- consecutive and total of FRAME_OVERRUN_u -/
  overrunRun : List Nat
  overrunTotal : List Nat
  overrunTold : List Bool
  /-- frame marks: the arrival phase reported under R122 for each trunk in the frame -/
  trunkPhase : Sparse Int
  /-- the model's own counter for free values -/
  freeCount : Nat
deriving DecidableEq, Repr

/-- A MODE_SET not yet applied (R62, R63). -/
structure PendMode where
  dom : Domain
  target : Mode
  delay : Nat
  /-- its delay was not 0 when it committed (R63) -/
  delayed : Bool
  drain : Nat
  test : Nat
  force : Bool
  /-- what the desk's reads of the bay's archive copies find when it is due (R52) -/
  archiveOk : Bool
  id : SlipId
deriving DecidableEq, Repr

/-- A domain's Closing in progress (R63, R442). -/
structure ClosingSt where
  dom : Domain
  framesLeft : Nat
  /-- the shut-down test's budget, and the frames left of it (R332, R333) -/
  test : Nat
  left : Nat
  drained : Bool
  /-- bays whose shut-down test has ended or been refused -/
  tested : List Nat
  /-- a bay's: the LO_RELEASE and IX_RELEASE seen since its entry, as port and edition (R442) -/
  lo : List (Nat × Nat)
  ix : List (Nat × Nat)
  id : Option SlipId
deriving DecidableEq, Repr

/-- Modes of the domains ("Operating modes and their combinations"). -/
structure ModeSt where
  house : Mode
  bays : Sparse Mode
  ports : Sparse Mode
  pend : List PendMode
  /-- auto transitions whose condition held in this frame (R52) -/
  autos : List (Domain × Mode)
  closing : List ClosingSt
  closed : List Domain
  /-- frames a bay has spent in Bring-up, and whether BAY_NOT_READY was raised -/
  bringUpFrames : Sparse Nat
  notReadyTold : BitVec 32
  ready : BitVec 32
deriving DecidableEq, Repr

/-- Table: folio states. -/
inductive FolioState where
  | empty | loading | loaded | inRota | reloading | absent
deriving DecidableEq, Repr

/-- What an archive copy or a stream segment carries of a carrel-folio (R69): no state bits. A copy stands in blocks of the archive
area, and is lost with a page of it that is retired (R262, R278). -/
structure FolioImage where
  config : ConfigBits
  init : BitVec 4096
  blocks : List Nat
  lost : Bool
deriving DecidableEq, Repr

/-- The test folio FT of a physical carrel, and the observation cells of its scan chains (R20, R23, R77). -/
structure TestFolio where
  config : ConfigBits
  store : BitVec 4096
  observed : BitVec 1024
deriving DecidableEq, Repr

/-- One carrel-folio (R69): configuration, initial values, state store, and what its design is told (R79). -/
structure FolioSt where
  state : FolioState
  config : ConfigBits
  init : BitVec 4096
  store : BitVec 4096
  /-- the bits of configuration frames, check bits last, that stand against the code word written: upsets, and what a wrong
  correction flipped (R280) -/
  struck : Sparse (BitVec 1036)
  /-- bit g is the parity bit of state group g (R69) -/
  parity : BitVec 128
  /-- entries run as idle since it last ran; FOLIO_RELOADED due -/
  missed : Nat
  reloaded : Bool
  /-- ENTRIES_MISSED, FOLIO_RELOADED, STATE_FAULT_MASK as shown in the latest ENTRY_FIRST cycle -/
  seenMissed : Nat
  seenReloaded : Bool
  faultMask : BitVec 128
  /-- essential granules (R281); none: every granule essential (R282) -/
  catalogue : Option (List Nat)
deriving DecidableEq, Repr

/-- A rota in force at a logical position (R91). -/
structure RotaSt where
  long : Bool
  entries : List Word
deriving DecidableEq, Repr

/-- What a carrel at a logical position is doing. -/
structure CarrelSt where
  rota : RotaSt
  cur : Nat
  /-- the entry in progress runs as idle (R76, R86, R96) -/
  idle : Bool
  live : BitVec 4096
  /-- the throttle, not a reload, idles the entry in progress (R86, R96) -/
  throttled : Bool
  /-- the fabric cycle of the frame of its latest turn in this frame (R73) -/
  turned : Option Nat
  /-- the last values driven onto its mesh outputs, wire n of edge e at 128e + n (R65, R80), and its lift outputs (R66, R75) -/
  mesh : BitVec 512
  lift : BitVec 256
  /-- BANK_ERR, and the fabric cycle of the frame that it stands in (R79) -/
  bankErr : BitVec 4
  bankErrAt : Nat
  /-- throttle accumulators per entry (R96) -/
  acc : List Nat
  /-- the stocktake controller ran a slice in the test entry in progress -/
  slicing : Bool
deriving DecidableEq, Repr

/-- A rota record of ROTA_SET (R388). -/
structure RotaRec where
  bay : Nat
  pos : Nat
  long : Bool
  entries : List Word
deriving DecidableEq, Repr

/-- A member of an edition (R103): role 0 none, 1 line, 2 item. -/
structure Member where
  bay : Nat
  pos : Nat
  folio : Nat
  role : Nat
  group : Nat
deriving DecidableEq, Repr

/-- What a crossing runs over: an in-layer wire by edge and number, or a channel of the source's set (R83). -/
inductive Via where
  | wire (edge n : Nat)
  | channel (n : Nat)
deriving DecidableEq, Repr

/-- A crossing between two carrel-folios, keyed (bay*36+pos)*8+folio (R83 to R85). -/
structure Crossing where
  src : Nat
  dst : Nat
  aligned : Bool
  via : Via
deriving DecidableEq, Repr

/-- An express-mesh channel: its number, its source lift output, and its sinks as folio key and lift input (R97). -/
structure Chan where
  num : Nat
  src : Nat
  sinks : List (Nat × Nat)
deriving DecidableEq, Repr

/-- The channels that a carrel-folio holds in its bay's set (R97, R98). -/
structure ChanAlloc where
  folioKey : Nat
  chans : List Chan
  /-- its folio has entered a rota since the grant (R98) -/
  carries : Bool
deriving DecidableEq, Repr

/-- An edition held in the archive area (R103, R387). -/
structure EditionSt where
  tag : Nat
  protectedCapable : Bool
  members : List Member
  channels : List ChanAlloc
  crossings : List Crossing
  /-- 0 archived, 1 loading, 2 loaded -/
  state : Nat
  /-- the editions it replaced under EDITION_SWITCH (R103) -/
  replaced : List Nat
  /-- the member that drives EDITION_READY, and the value last driven (R51, R79) -/
  readyBy : Nat
  ready : Bool
  /-- its own archive copies, by folio key, with their catalogues (R282, R387) -/
  copies : List (Nat × FolioImage × Option (List Nat))
deriving DecidableEq, Repr

/-- A port's binding (R107), and the switch under way (R110, R111). -/
structure SwitchBind where
  edition : Nat
  line : Nat
  item : Nat
  li : Bool
  lo : Bool
  ix : Bool
  /-- egress items are offered to the successor -/
  ex : Bool
  frames : Nat
deriving DecidableEq, Repr

structure BindSt where
  edition : Nat
  rate : Nat
  width : Nat
  line : Nat
  item : Nat
  /-- the old edition's side of a switch under way -/
  old : Option SwitchBind
deriving DecidableEq, Repr

/-- A port entry of EDITION_BIND and EDITION_SWITCH (R388). -/
structure PortEntry where
  port : Nat
  rate : Nat
  width : Nat
  line : Nat
  item : Nat
deriving DecidableEq, Repr

/-- A bank's setting: pool, share code, house user code of BANK_QUAD_c; bank index is physical (bay*38+carrel)*4+k. -/
structure BankCfg where
  pool : Bool
  share : BitVec 2
  user : BitVec 5
  /-- R219: the place in R165's order that the bank took over by an exchange; none: its own -/
  place : Option Nat
deriving DecidableEq, Repr

/-- A calendar entry (R202): queue, allocation or weight, far engine, deficit. -/
structure CalEntry where
  queue : Nat
  amount : Nat
  far : Nat
  deficit : Int
deriving DecidableEq, Repr

/-- What one slip changes at step 4 (R44, R45). -/
inductive Step4 where
  | rotas (rs : List RotaRec)
  | bind (edition : Nat) (ports : List PortEntry)
  | unbind (ports : List Nat)
  | switch (old succ : Nat) (ports : List PortEntry) (rs : List RotaRec)
  | banks (bs : List (Nat × BankCfg))
  | exchange (bankA bankB : Nat)
  | calendar (port : Nat) (prot ord : List CalEntry)
deriving DecidableEq, Repr

structure Change4 where
  ch : Channel
  seq : BitVec 16
  change : Step4
  retries : Nat
  id : Option SlipId
  /-- exchange: the desk's copy has ended -/
  ready : Bool
deriving DecidableEq, Repr

/-- One carrel-folio the loader has to write (R72, R277), with the state it returns to if the request ends early. -/
structure LoadItem where
  key : Nat
  prior : FolioState
  request : Nat
  /-- rewrite of a folio in rota that waits for its entry's turn (R89) -/
  waiting : Bool
  /-- the state store is left as it was (R288) -/
  keep : Bool
deriving DecidableEq, Repr

/-- A part's content as the loader expands it: its bay segments (R260, R267). -/
structure BayContent where
  bay : Nat
  hardened : Bool
  vmin : Nat
  /-- what the bay's archive copies take -/
  stored : Nat
  /-- each with the place of its stored bytes in the part: offset and length -/
  folios : List (Nat × FolioImage × (Nat × Nat))
  rotas : List RotaRec
  banks : List (Nat × BankCfg)
  catalogue : List (Nat × List Nat)
  crossings : List Crossing
  channels : List ChanAlloc
  editions : List EditionSt
  /-- ports bound, each edition named by its place in the list before -/
  bindings : List (Nat × BindSt)
  userInit : List (Nat × List Byte)
deriving DecidableEq, Repr

/-- A loader request: FOLIO_LOAD or shelf reload, EDITION_LOAD, or a bay apply (R268). -/
inductive LoadKind where
  | folios | edition (n : Nat)
  /-- R268, with the staged part's segments, or without -/
  | apply (b : Bay) (c : Option BayContent)
deriving DecidableEq, Repr

structure LoadReq where
  num : Nat
  kind : LoadKind
  id : Option SlipId
deriving DecidableEq, Repr

/-- Per-bay fabric state and registers. -/
structure BaySt where
  hardened : Bool
  running : Bool
  c36 : Option Nat
  c37 : Option Nat
  sfCarrel : Nat
  sfFolio : Nat
  sfGroup : Nat
  sfCount : Nat
  idled : Nat
  calPos : Nat
  calBank : Nat
  calCount : Nat
  crossings : List Crossing
  channels : List ChanAlloc
  vmin : Nat
  vset : Nat
  /-- the rail's voltage in half millivolts, on its way to the set one (R310) -/
  volt : Nat
  inMask : Bool
deriving DecidableEq, Repr

/-- The fabric ("Carrels, folios and turns"; "Rotas, editions and shared resources"). Folio key (bay*36+pos)*8+folio,
carrel key bay*36+pos; folio stores belong to physical carrels and stand under (bay*38+carrel)*8+folio (R23). -/
structure FabSt where
  bays : Sparse BaySt
  carrels : Sparse CarrelSt
  folios : Sparse FolioSt
  /-- the test folios that stocktake has loaded, by bay*38+carrel (R77) -/
  tests : Sparse TestFolio
  /-- channel contents by (bay*8+set)*2304+number: bit i was driven i active cycles before the owner's latest (R81, R82) -/
  chans : Sparse (BitVec 5)
  editions : Sparse EditionSt
  binds : Sparse BindSt
  banks : Sparse BankCfg
  pendRota : Sparse (List RotaRec)
  changes : List Change4
  /-- the rota changes that passed the test of R45 at the turn that ends the frame: channel and sequence number (R94) -/
  due : Option (List (Channel × BitVec 16))
  loads : List LoadItem
  reqs : List LoadReq
  nextReq : Nat
  loadsThisFrame : Nat
  /-- results of an EDITION_SWITCH: the slip and the ports still to complete -/
  switches : List (SlipId × List Nat)
  /-- positions remapped in Bindery, whose folios load when their bay leaves it: carrel keys (R90) -/
  remapped : List Nat
deriving DecidableEq, Repr

/-- PORT_SET's settings (R164). -/
structure PortCfg where
  setting : Nat
  maxRate : Nat
  maxWidth : Nat
  role : Nat
  fixedRate : Nat
  fixedWidth : Nat
  marksTx : Bool
  marksRx : Bool
  fixedSkew : Int
  refSrc : Nat
  refTrunk : Nat
  remoteFault : Nat
deriving DecidableEq, Repr

/-- A step of the ladder (R145): rate code and width code. -/
structure Step where
  rate : Nat
  width : Nat
deriving DecidableEq, Repr

/-- Bring-up (R141 to R163) and its registers. -/
structure NegSt where
  state : Nat
  leader : Bool
  cur : Step
  confirmed : Option Step
  target : Step
  /-- own masks as advertised (R144); 0 before the first entry to Bring-up -/
  ownRates : BitVec 9
  ownWidths : BitVec 3
  partnerRates : BitVec 9
  partnerWidths : BitVec 3
  partnerValid : Bool
  partnerFailed : BitVec 9
  failedOnce : BitVec 9
  widthFailed : BitVec 2
  rateCap : BitVec 4
  widthCap : BitVec 2
  /-- the steps that have failed (R154) -/
  fails : List Step
  /-- counters of PORT_BRINGUP_COUNT and PORT_NEG_ERR -/
  confirmedN : Nat
  failedN : Nat
  timeoutsN : Nat
  entriesN : Nat
  setsBad : Nat
  refusals : Nat
  collisions : Nat
  /-- the propose outstanding, with F as first and as latest sent; the switch agreed (step, boundaries left); a follower's answer,
  which is sent until then (step, F); the revert due at the next boundary -/
  propose : Option (Step × BitVec 16 × BitVec 16)
  switchAt : Option (Step × Nat)
  answer : Option (Step × BitVec 16)
  revert : Option Step
  trained : Bool
  readySent : Bool
  readyRecv : Bool
  ownResult : Option Bool
  partnerResult : Option Bool
  /-- the PRBS window stands open; the leader may open it in this slot; slots of PRBS sent; slots since each lane's checker locked
  in it, and the lanes whose check has failed (R151) -/
  window : Bool
  windowDue : Bool
  windowSent : Nat
  checked : List Nat
  checkBad : BitVec 4
  backoff : Nat
  /-- slots since the event that a limit of R156 is counted from, since the step's switch, and since entry to Bring-up -/
  waited : Nat
  onStep : Nat
  inBringUp : Nat
  refusedRun : Nat
  /-- it won a collision: it leads for the rest of this Bring-up (R157); it has refused, and owes its capabilities (R148) -/
  won : Bool
  capsOwed : Bool
  /-- the equaliser preset that adaptation started from at this step (R149) -/
  preset : Option Nat
  settled : Bool
  noPartnerTold : Bool
  /-- the K28.1 of a frame mark has been good at this step since the switch -/
  markSeen : Bool
  restart : Bool
  /-- a good capabilities set has arrived at this step; slots in a row with a lane out of sync -/
  capsHere : Bool
  outSync : Nat
deriving DecidableEq, Repr

/-- Lanes, marks and test loops of a port ("Serial lanes and line coding"). -/
structure LaneSt where
  codeViol : List Nat
  disparity : List Nat
  inSync : BitVec 4
  /-- the running disparity of each lane's receiver, as the latest comma or invalid symbol left it: set when positive (R115, R117) -/
  rxPositive : BitVec 4
  syncLoss : Nat
  alignErr : Nat
  alignRun : Nat
  crcFail : Nat
  seqErr : Nat
  markErr : Nat
  discIn : Nat
  discEg : Nat
  underrun : Nat
  trainedUi : List Int
  trainedFine : List Nat
  track : List Int
  limitHits : List Nat
  limitTold : Bool
  fill : List Nat
  slips : Nat
  deletes : Nat
  inserts : Nat
  refHeld : Bool
  loopback : BitVec 3
  testCtrl : List Word
  chkLock : BitVec 4
  lockLost : BitVec 4
  injCount : List Nat
  prbsErr : List Nat
  creditW : Nat
  /-- transmitters in electrical idle: by the mode or while clocks settle (R61, R149), and after a clock trip (R302) -/
  txIdle : Bool
  tripIdle : Bool
  lastSlotNo : Option Nat
  lastMark : Option (List Nat)
  marksLost : Nat
  goodMarks : Nat
  noMarkSlots : Nat
  markThisSlot : Bool
  badThisSlot : Bool
  /-- an item stands open on a native trunk (R128) -/
  itemOpen : Bool
  /-- a run of discarded symbols is in progress -/
  discardRun : Bool
  foreignUp : Bool
  /-- XAUI: the lanes are aligned (R135); 1000BASE-X: the base page that the partner advertised (R134) -/
  xauiAligned : Bool
  partnerPage : Option (BitVec 16)
deriving DecidableEq, Repr

/-- What a transmitter puts into its columns, K28.5 fill aside; a symbol is a byte value with its K flag (R118, R119). -/
inductive LineUnit where
  /-- a set sent whole on every lane -/
  | every (sym : List (Byte × Bool))
  /-- a set striped over the lanes from L0 on -/
  | striped (sym : List (Byte × Bool))
  /-- a set on L0 only -/
  | alone (sym : List (Byte × Bool))
  /-- symbols of items or of an edition -/
  | data (sym : List (Byte × Bool))
deriving DecidableEq, Repr

/-- A port's transmitter (R114 to R119, R137, R138). -/
structure TxSt where
  /-- what it has sent since the slot's boundary, and in the slot before -/
  units : List LineUnit
  before : List LineUnit
  /-- the running disparity of each lane at the slot's boundary: set when positive -/
  positive : BitVec 4
  /-- quarters of a column: sent of the one that straddles the slot's boundary, and since the latest skip set began -/
  part : Nat
  sinceSkip : Nat
  /-- slots until the negotiation sets that go every 8 slots -/
  nextSets : Nat
  /-- line bits that each lane's pattern generator has given since it restarted -/
  generated : List Nat
deriving DecidableEq, Repr

/-- Credit counters of a port, indexed 2e + c (R197 to R201). -/
structure CreditSt where
  grant : List Nat
  sent : List Nat
  charged : List Nat
  freed : List Nat
  /-- totals freed that marks already carry, and the increments of the last three slots (R124) -/
  inMark : List Nat
  recent : List (List Nat)
  holdBack : List Int
  allowProt : Nat
  allowOrd : Nat
  setProt : Option Nat
  setOrd : Option Nat
  overdraw : Nat
  overdrawTold : Bool
  fresh : Bool
deriving DecidableEq, Repr

/-- The item a port sends: queue and words left. -/
structure Sending where
  queue : Nat
  left : Nat
deriving DecidableEq, Repr

/-- Egress calendar of a port (R202 to R207), and its attaches (R105, R106). -/
structure EgressSt where
  prot : List CalEntry
  ord : List CalEntry
  /-- the ordinary entry whose turn it is, and whether its turn has begun -/
  turn : Nat
  midTurn : Bool
  acc : Nat
  sending : Option Sending
  pendProt : Sparse (List CalEntry)
  pendOrd : Sparse (List CalEntry)
  withheld : Nat
  underrate : Bool
  /-- this slot's grants in order, an item each: queue and words -/
  grants : List (Nat × Nat)
  /-- line attach ingress and egress buffers (bytes with K flags), and the item attach's word in progress -/
  liBuf : List (Byte × Bool)
  loBuf : List (Byte × Bool)
  /-- the answer to the latest take -/
  liOut : Option (BitVec 64 × BitVec 8)
  /-- the item word being passed: the beats taken, those offered, and whether one was lost; and the words that stand in the port's
  lookup stage -/
  ixBeats : List (BitVec 64)
  ixOffered : Nat
  ixLost : Bool
  /-- each with its item's poisoning, on its header -/
  ixWords : List (Line × Bool)
  /-- words passed and still to come of the item being passed, and words still to come of one given up -/
  ixPassed : Nat
  ixLeft : Nat
  ixSkip : Nat
  /-- beats offered to the item attach, each for the successor of a switch or not, and the answer to the latest take -/
  exOut : List (Bool × BitVec 64)
  exTaken : Option (BitVec 64)
  /-- takes not yet answered: the edition's, and those of the successor of a switch -/
  exTakes : Nat
  exTakesNew : Nat
  /-- foreign mode: a packet is open on the line; the rest of one is being discarded (R136) -/
  txPacket : Bool
  txDrop : Bool
deriving DecidableEq, Repr

/-- A header placed in a flow, in the crossbar input buffer of its port: the queue and the credit index of its placing, and whether
its item is still open on the line or has been closed as poisoned (R128, R173, R194). -/
structure XbarItem where
  port : Nat
  queue : Nat
  hdr : Line
  index : Nat
  isOpen : Bool
  poisoned : Bool
deriving DecidableEq, Repr

structure PortSt where
  cfg : PortCfg
  /-- what PORT_SET has stored for the next entry to Bring-up, or for its restart (R159) -/
  cfgNext : Option PortCfg
  neg : NegSt
  lane : LaneSt
  tx : TxSt
  credit : CreditSt
  egress : EgressSt
deriving DecidableEq, Repr

/-- A queue: its descriptor (QD_CTRL to QD_ABORT), its storage, and the item each side is inside. -/
structure QueueSt where
  enable : Bool
  /-- an upset stands in the fields that parity guards (R189) -/
  parityBad : Bool
  ordinary : Bool
  sizeCode : BitVec 4
  threshold : BitVec 9
  base : BitVec 20
  wptr : BitVec 17
  wptrSh : BitVec 17
  rptr : BitVec 17
  rptrSh : BitVec 17
  flush : Bool
  tailMarker : Bool
  prodMid : Bool
  consMid : Bool
  abortPending : Bool
  discarding : Bool
  items : Nat
  abortAt : BitVec 17
  words : Sparse Line
  /-- the item being written: header, its pointer, words taken -/
  prodHdr : Line
  prodAt : BitVec 17
  prodTaken : Nat
  /-- the item being discarded belongs to a drop (no marker due) -/
  dropping : Bool
  /-- the ingress port of the item being written, whether it is still open there, and whether it was closed as poisoned (R128) -/
  prodPort : Option Nat
  prodOpen : Bool
  prodPoison : Bool
  /-- the item being popped: header and words popped -/
  consHdr : Line
  consTaken : Nat
  /-- cause of the pending abort word -/
  abortCause : Byte
  /-- positions of stored markers that the engine wrote (R171, R177) -/
  own : List Nat
  /-- credit charges of stored items by header position, and of the item being popped: port, index, units (R197) -/
  charges : Sparse (Nat × Nat × Nat)
  consCharge : Option (Nat × Nat × Nat)
  /-- the words that the producer discards count in the flush marker (R184) -/
  discardCounts : Bool
  /-- the arriving item goes to this flow's delay line or merge (R208, R211) -/
  arriving : Option Nat
  /-- flush marker still to be written: items, words, causes, first header -/
  flushItems : Nat
  flushWords : Nat
  flushCause : Byte
  flushFirst : Option Line
  flushLast : Option Line
  flushFrame : Word
  flushSlot : Byte
  flushSlips : List SlipId
  /-- what the latest pop returned -/
  popped : Option Line
deriving DecidableEq, Repr

/-- Queue engine registers. -/
structure EngineSt where
  event : BitVec 6
  dropItems : Nat
  dropMarkers : Nat
  faultKind : Nat
  faultQueue : Nat
  resets : Nat
  descFaults : Nat
  malformed : Nat
  oversize : Nat
  disabledDrop : Nat
  contextErr : Nat
  miss : Nat
  dlResets : Nat
  gaps : Nat
  duplicates : Nat
  dlStorage : Nat
  dlFull : Nat
  /-- warnings told this frame: QUEUE_DISABLED_DROP, FLOW_MISS, FLOW_CONTEXT_ERR -/
  toldDisabled : Bool
  toldMiss : Bool
  toldContext : Bool
deriving DecidableEq, Repr

/-- An item held whole by a delay line or at the merge: the queue it is for, its words (header first), and its release time
in core cycles. -/
structure HeldItem where
  queue : Nat
  words : List Line
  release : Nat
  /-- a marker the device wrote or received -/
  marker : Bool
  complete : Bool
  poisoned : Bool
  charge : Option (Nat × Nat × Nat)
deriving DecidableEq, Repr

/-- A flow context (R193), its delay line and the heads its merge holds. -/
structure FlowSt where
  valid : Bool
  ordinary : Bool
  delayEn : Bool
  paired : Bool
  inPort : Nat
  inTag : Nat
  egPort : Nat
  egQueue : Nat
  twin : Nat
  delay : Nat
  mergeWait : Nat
  dlBase : Nat
  dlPages : Nat
  mergeNext : Nat
  mergeSet : Bool
  waiting : Bool
  mergeCause : Byte
  waitStart : Word
  dlWptr : BitVec 28
  dlWptrSh : BitVec 28
  dlRptr : BitVec 28
  dlRptrSh : BitVec 28
  dlTail : Bool
  dlProdMid : Bool
  dlDiscarding : Bool
  itemsIn : BitVec 64
  wordsIn : BitVec 64
  duplicates : BitVec 64
  gaps : BitVec 64
  dl : List HeldItem
  heads : List HeldItem
  /-- frames since a member delivered a head (R213) -/
  quiet : Nat
deriving DecidableEq, Repr

/-- A retirement-table entry (R231). -/
structure RetireEntry where
  bank : Bool
  index : Nat
  /-- false for a bank still waiting for its bay's Bindery -/
  inForce : Bool
deriving DecidableEq, Repr

/-- A memory slip at work (R226). -/
structure MemWork where
  id : SlipId
  copy : Bool
  srcStore : Nat
  dstStore : Nat
  src : Nat
  dst : Nat
  len : Nat
  pattern : BitVec 64
  /-- 4 MiB for each frame that it has been at work, this one included (R226) -/
  moved : Nat
deriving DecidableEq, Repr

/-- Memory layer and side store: contents, error logs, retirement ("Memory layer and side store"). The layer is keyed
by physical byte address, (physical bank index)*65536 + byte; the side store by its 35-bit address, holding plaintext. -/
structure MemSt where
  layer : List Host.Cell
  /-- physical banks that the device has written whole with zeros: their unlisted bytes read 0 (R225) -/
  zeroed : List Nat
  side : List Host.Cell
  ce : Nat
  ue : Nat
  ceLog : Word
  ueLog : Word
  ceInfo : Word
  ueInfo : Word
  readWait : Bool
  retired : List RetireEntry
  retireHits : Nat
  toldRetired : List Nat
  sideCe : List Nat
  sideUe : List Nat
  sideCeLog : Word
  sideCeInfo : Word
  sideUeLog : Word
  sideUeInfo : Word
  refresh : List (BitVec 2)
  refreshes : List Nat
  work : List MemWork
  /-- what the latest read gave its requester: data, and whether it took the error form -/
  lastData : List Byte
  lastError : Bool
deriving DecidableEq, Repr

/-- A ledger node (R236) as the device holds or stores it. -/
structure LedgerNode where
  major : Nat
  minors : Sparse Nat
  epoch : Bool
  rebuilding : Bool
  generation : Nat
deriving DecidableEq, Repr

/-- A volume's key state (R244 to R246). -/
structure VolSt where
  state : Nat
  newSlot : Bool
  twoLive : Bool
  watermark : Nat
  generation : Nat
  rekeys : Nat
  root : Nat
  rootEpoch : Bool
  /-- keys by number into the random source; none for a free slot -/
  key0 : Option Nat
  key1 : Option Nat
  slips : List SlipId
deriving DecidableEq, Repr

/-- A master's rights (R251): access and view per volume. -/
structure RightsSt where
  accLo : Word
  accHi : Word
  view : Word
deriving DecidableEq, Repr

/-- Inline encryption of the side store. Node key = level * 2^23 + index. -/
structure CryptoSt where
  nodes : Sparse LedgerNode
  /-- resident nodes, most recently used first, with the dirty mark -/
  cache : List (Nat × Bool)
  vols : Sparse VolSt
  rekeyOrder : List Nat
  /-- posted writes that wait for a new key: requester, address, bytes (R246) -/
  held : List (Nat × Nat × List Byte)
  keyCount : Nat
  rngOk : Bool
  rngFail : Bool
  overflows : Nat
  misses : Nat
  writebacks : Nat
  ledgerCe : Nat
  poisoned : Nat
  ledgerLog : Word
  authData : Nat
  authLedger : Nat
  macFailLog : Word
  denyMaster : Nat
  denyVolume : Nat
  denyCount : Nat
  rights : Sparse RightsSt
deriving DecidableEq, Repr

/-- The house segments of a part, and its bays. -/
structure PartContent where
  flows : List (Nat × FlowSt)
  queues : List (Nat × QueueSt)
  calendars : List (Nat × List CalEntry × List CalEntry)
  credits : List (Nat × Nat × Nat)
  ports : List (Nat × PortCfg)
  frameSel : Option FrameSel
  worst : Option Nat
  inband : Option (Nat × Nat)
  /-- event settings: information, trace, summary period -/
  events : Option (Bool × Bool × Nat)
  gateBay : BitVec 32
  gatePort : BitVec 144
  gateQe : BitVec 16
  gatePcie : Bool
  gateSide0 : Bool
  bays : List BayContent
deriving DecidableEq, Repr

/-- Work of the loader for a slip (R279); staging moves 4 MiB for each frame that it has been at work, this one included. -/
inductive CfgWork where
  /-- source 0 host buffer (none: its read failed), 1 flash part of a position, 2 reserve image -/
  | stage (id : SlipId) (source : Nat) (host : Option (List Byte)) (position offset len : Nat) (moved : Nat)
  | auth (id : SlipId)
  | apply (id : SlipId)
  | flashWrite (id : SlipId) (addr : Nat) (data : List Byte)
  | flashErase (id : SlipId) (addr len : Nat)
  | archiveAdd (id : SlipId) (b : Bay)
deriving DecidableEq, Repr

/-- Configuration streams, loading and start-up. -/
structure CfgSt where
  flash : List Host.Cell
  image : BitVec 3
  position : Option (BitVec 3)
  stepsDone : Nat
  rdvWait : Bool
  rdvTimedOut : Bool
  rdvFrames : Nat
  rdvTimeout : Nat
  order : BitVec 16
  /-- the step taken and not yet complete; frame 0's boundary is due -/
  stepTaken : Option Nat
  frame0Due : Bool
  firstCause : Byte
  reserveCause : Byte
  hostCause : Byte
  fallbacks : Nat
  serial : Word
  /-- 0 empty, 1 staging, 2 authenticated, 3 applying -/
  stageState : Nat
  stagedBytes : Nat
  staged : List Byte
  stagedFrom : Nat
  /-- bytes of the archive area that each bay's copies take, and the archived folio data by folio key -/
  archiveUse : Sparse Nat
  archive : Sparse FolioImage
  /-- the catalogue in the archive copies: essential granules by folio key (R282) -/
  archiveCat : Sparse (List Nat)
  /-- the block of the archive area, in its order of offsets, at which the next copy is placed -/
  archiveNext : Nat
  /-- bays whose segments are still to be applied under R267 -/
  applyRest : List BayContent
  /-- a page of the staging area in use has been retired (R278) -/
  stageLost : Bool
  work : List CfgWork
  streamInEffect : Bool
  /-- steps 1 and 2 of R267 are done since power-on -/
  startDone : Bool
  /-- the loader's place: 0 not begun, 1 the start source's part, 2 the reserve image, 3 waiting for a host stream, 4 applying,
  5 in effect -/
  phase : Nat
  /-- the stream path runs again under R269, sending and forwarding nothing -/
  again : Bool
  /-- a bay whose apply under R268 failed its checks stays in Intake -/
  applyFailed : BitVec 32
  applySlip : Option SlipId
  /-- fabric set-reset asserted (until step C) -/
  setReset : Bool
  crcErr : Nat
  seqErr : Nat
  partsFwd : Nat
  tooLong : Bool
  startSeen : Bool
  chainSync : Bool
  outActive : Bool
  chainNext : Nat
  chainGot : Bool
  chainFailed : Bool
  /-- blocks sent and forwarded on CHAIN_OUT, newest first: symbols 1 to 11 + len -/
  forwarded : List (List Byte)
deriving DecidableEq, Repr

/-- What the shelf-reader's check code finds in a configuration frame (R286). -/
inductive FrameFound where
  | clean
  | single (bit : Fin 1036)
  | uncorrectable
deriving DecidableEq, Repr, Inhabited

/-- A correction the shelf-reader holds (R287): folio key and frame, and the bits that the frame it writes still has in error. -/
structure Correction where
  folioKey : Nat
  frame : Nat
  bit : Nat
  left : BitVec 1036
  /-- the folio is in its turn-out cycle -/
  ready : Bool
deriving DecidableEq, Repr

/-- Configuration upsets and shelf-reading. Position = ((bay*36+pos)*8+folio)*640 + frame. -/
structure ShelfSt where
  sweepEn : Bool
  actionLo : Word
  actionHi : Word
  position : Nat
  positionSh : Nat
  pending : List Correction
  sweepFrames : Nat
  lastLen : Nat
  sweeps : Nat
  nonessential : Nat
  essential : Nat
  uncorrectable : Nat
  selfFaults : Nat
  stalls : Nat
  log : Word
  logInfo : Word
  lateTold : Bool
  stopped : Bool
  readThisFrame : Nat
  boundaryPos : Nat
  stallRun : Nat
  fullAllFrame : Bool
  /-- sweep_en has been 1 since the boundary -/
  enAllFrame : Bool
deriving DecidableEq, Repr

/-- A result entry (R334), as its 16 bytes. -/
abbrev ResultEntry := BitVec 128

/-- A whole-bay test (R332). -/
structure TestSt where
  logic : Bool
  banks : Bool
  poolBanks : Bool
  repair : Nat
  budget : Nat
  paused : Bool
  running : Bool
  /-- a boundary at which a condition failed, or the budget ran out, stops it (R332) -/
  stop : Option TestEnd
  id : Option SlipId
deriving DecidableEq, Repr

/-- In-service progress of a carrel under test (R330, R331). -/
structure SliceSt where
  pattern : Nat
  blockStart : Nat
  rerun : Bool
  stopped : Bool
  completed : Bool
  /-- patterns of the slice in progress not yet run -/
  left : Nat
deriving DecidableEq, Repr

/-- A failure or a transient that a controller hands to the desk (R46, R331, R334): the first 12 bytes of its entry, its logs, and
the event's subject. -/
structure ResultWork where
  bytes : List Byte
  transient : Bool
  log : Nat
  bit : Nat
  outcome : Nat
  subject : Nat
deriving DecidableEq, Repr

/-- Stocktake. -/
structure StockSt where
  results : List ResultEntry
  /-- results that the desk has not handled, oldest first, and the core cycles it has spent on them in the frame (R46) -/
  inbox : List ResultWork
  deskCycles : Nat
  declared : BitVec 32
  policy : Sparse Nat
  noWindowTold : BitVec 32
  lastRound : List Nat
  roundFrames : List Nat
  rounds : List Nat
  slices : List Nat
  discarded : List Nat
  transient : List Nat
  /-- carrels that this frame's slices go to and have not yet begun, those whose slice ran, bays whose slices are spoiled -/
  granted : List Nat
  ran : List Nat
  spoiled : BitVec 32
  /-- round-robin place of each controller: carrel key last served -/
  lastServed : List Nat
  failLog : Word
  failBit : Nat
  outcome : Nat
  failures : Nat
  condRails : Bool
  condVin : Bool
  condClock : Bool
  carrels : Sparse SliceSt
  tests : Sparse TestSt
  /-- spares marked failed, as bay*38+carrel; spare rows (bank, spare, row); spare columns (bank, column) -/
  failedSpares : List Nat
  rows : List (Nat × Nat × Nat)
  columns : List (Nat × Nat)
  /-- remaps pending under R331 or R90: bay, position, persist, and the spare that the record names already -/
  pendRemaps : List (Nat × Nat × Bool × Option Nat)
  /-- the repair record's entries in force, as 16 bytes each, and those being written -/
  record : List (List Byte)
  recordSeq : Nat
  recordWrite : Option (List (List Byte))
deriving DecidableEq, Repr

/-- R323's stuck check: the value a phase has stayed at, for how many frames, its reference then, and whether that has
changed by more than 10 %. -/
structure StuckSt where
  value : Int
  count : Nat
  ref : Int
  moved : Bool
deriving DecidableEq, Repr

/-- Power readings and rail gating. -/
structure PwrSt where
  vinMv : Nat
  inputMw : Int
  lossMw : Int
  phase : List Int
  fault : Sparse Nat
  /-- sums over the frame's samples, and their number -/
  sumPhase : List Int
  sumInput : Int
  sumVin : Nat
  samples : Nat
  railOut : BitVec 6
  offBay : BitVec 32
  offLg : BitVec 8
  pendVset : List (Nat × Nat)
  restoring : List (Bool × Nat × SlipId)
  /-- consecutive frames in which phase n has passed all three checks (R325), and in which it mismatched its sister -/
  passed : Sparse Nat
  mismatch : Sparse Nat
  stuck : Sparse StuckSt
  /-- consecutive slots with VIN12 outside 10.8 to 13.2 V, and whether VIN_FAULT is raised -/
  vinRun : Nat
  vinTold : Bool
  /-- rails back in range whose block's clock is ungated in the next slot (R312) -/
  ungate : List (Bool × Nat)
deriving DecidableEq, Repr

/-- A node of the thermal model (R313 to R324). -/
structure NodeSt where
  /-- temperature in 1/16 °C, and what the update left below that step (log entry 30) -/
  temp : Int
  rem : Nat
  /-- the temperatures of the latest frames, newest first -/
  hist : List Int
  /-- sum of the latest 16 less the sum of the 16 of R316, in 1/16 °C -/
  slope : Int
  warn : Bool
  warnHi : Nat
  warnLo : Nat
  band : Nat
  /-- frames at or above each threshold of R321, and below each less 2 °C -/
  bandUp : List Nat
  bandDown : List Nat
  pinned : Bool
  /-- above a ceiling (R320) -/
  forced : Bool
  phi : Nat
  target : Nat
  applied : Nat
  release : Bool
deriving DecidableEq, Repr

/-- THERMAL_SET values pending for step 5 (R386), and those in force. -/
structure ThmParam where
  worst : Nat
  k : Nat
  knee : Nat
  warn : Nat
  thetaMax : Nat
  presets : BitVec 20
deriving DecidableEq, Repr

/-- The thermal model. -/
structure ThmSt where
  boundary : BitVec 12
  boundaryStale : Bool
  timer : Nat
  param : ThmParam
  paramNext : Option ThmParam
  event : BitVec 6
  nodes : Sparse NodeSt
  updates : Nat
  bandPend : List (Nat × Nat)
  /-- sensors judged broken in this frame: phase and kind (R324) -/
  faultPend : List (Nat × Nat)
  /-- the nodes as they stood before the frame's update, the length in ns that it took, and what a switch-over lost (R377) -/
  before : Sparse NodeSt
  dtNs : Nat
  dtLost : Nat
deriving DecidableEq, Repr

/-- An unlock arm (R352): master code, block number, boundaries left. -/
structure Arm where
  master : Master
  block : Nat
  left : Nat
deriving DecidableEq, Repr

/-- Register access state (R341 to R355), and what each master's latest read returned. -/
structure RegSt where
  errMaster : BitVec 2
  errCause : BitVec 4
  errOffset : BitVec 22
  errCount : Nat
  scratch : Word
  shelfId : Word
  shelfIdSet : Bool
  shadow : Sparse Word
  arms : List Arm
  wrongKeys : Sparse Nat
  lockout : Sparse Nat
  superseded : List Nat
  readData : Sparse Word
  readErr : Sparse Bool
deriving DecidableEq, Repr

/-- The desk's cores (R356, R377, R378). -/
structure DeskSt where
  version : Word
  activePair : Bool
  standbyReady : Bool
  doubleFail : Bool
  switchovers : Nat
  takeover : Bool
  reloading : Bool
  alarmIrq : Bool
  nmIrq : Bool
deriving DecidableEq, Repr

/-- A host ring (R358 to R363). -/
structure RingSt where
  base : Word
  replyBase : Word
  enable : Bool
  irqEn : Bool
  draining : Bool
  heldEnable : Bool
  dmaFault : Bool
  prod : BitVec 9
  cons : BitVec 9
  rprod : BitVec 9
  rcons : BitVec 9
  executed : Nat
  lengthExcess : Nat
  gen : Nat
deriving DecidableEq, Repr

/-- What every channel keeps: sequence, replies decided and not yet written, replies written and not yet freed, slips
whose completion is awaited. -/
structure ChanSt where
  lastSeq : Option (BitVec 16)
  seqGaps : Nat
  waiting : List Reply
  /-- each as its slots' bytes, oldest first -/
  written : List (List Byte)
  open_ : List SlipId
  /-- sequence number of the slip that waits to start under fence (R373) -/
  fenceWait : Option (BitVec 16)
deriving DecidableEq, Repr

/-- Slip channels ("Call slips: channels, format and ordering"). -/
structure SlipSt where
  rings : List RingSt
  chans : List ChanSt
  sbBuffer : Sparse Byte
  sbQueue : List (List Byte)
  sbExecuted : Nat
  sbLengthExcess : Nat
  sbQuiet : Nat
  /-- what the latest sideband transfer returned: ACK, and the bytes read -/
  sbAck : Bool
  sbData : List Byte
  inEnabled : Bool
  fIn : BitVec 16
  fOut : BitVec 16
  qIn : BitVec 14
  qOut : BitVec 14
  inQueue : List (List Byte)
  started : Nat
  sbStarted : Nat
  cycles : Nat
  /-- the channel served last (R375) -/
  served : Fin 6
  prevStarted : Nat
  prevSb : Nat
  prevCycles : Nat
  replayed : Nat
  reexecuted : Nat
  lastCh : BitVec 3
  lastSeq : BitVec 16
  /-- MSI-X vectors raised, newest first -/
  msix : List Nat
deriving DecidableEq, Repr

/-- A day-book entry (R406). -/
structure Entry where
  code : BitVec 16
  cls : BitVec 3
  lacuna : Bool
  persisted : Bool
  subject : Nat
  firstFrame : Word
  lastFrame : Word
  count : Nat
  firstSlot : Byte
  lastSlot : Byte
  detail : BitVec 96
deriving DecidableEq, Repr

/-- The drain ring (R411); the indices stay after a stop. -/
structure DrainSt where
  active : Bool
  ch : Nat
  addr : Nat
  log2 : Nat
  prod : Nat
  cons : Nat
deriving DecidableEq, Repr

/-- Counts per class for the summaries (R413). -/
structure Summary where
  nm : Nat
  alarms : Nat
  warnings : Nat
  info : Nat
  trace : Nat
deriving DecidableEq, Repr

/-- Events, latches and the day book. -/
structure LogSt where
  irqDrain : Bool
  irqLatch : Bool
  infoEn : Bool
  traceEn : Bool
  /-- latched pairs of code and subject: alarms and non-maskable events -/
  latched : List (BitVec 16 × Nat)
  raised : List Event
  ring : List Entry
  wptr : BitVec 15
  wptrSh : BitVec 15
  rptr : BitVec 15
  rptrSh : BitVec 15
  /-- the tail entry is a lacuna entry the logger may update -/
  tailLacuna : Bool
  /-- entries held while the desk runs cold, and the lacuna entry of those beyond 64 -/
  cold : List Entry
  coldLost : Option Entry
  lost : Nat
  lacunas : Nat
  shedInfo : Nat
  shedTrace : Nat
  coalesced : Nat
  current : Summary
  summary : Summary
  summaryFrame : Word
  period : Nat
  periodNext : Nat
  periodLeft : Nat
  lastAlarm : BitVec 16 × BitVec 16
  drain : DrainSt
  /-- entries copied in this frame and the core cycles spent on them (R46), and the copies written to host memory, newest first -/
  copies : Nat
  drainCycles : Nat
  drained : List (List Byte)
deriving DecidableEq, Repr

/-- TAP instructions (R438). -/
inductive TapInstr where
  | extest | idcode | sample | highz | clamp | rrReg | rrMem | bypass
deriving DecidableEq, Repr

/-- The reading-room port. -/
structure TapSt where
  instr : TapInstr
  boundary : BitVec 20
  capture : BitVec 102
  /-- register and memory access: data, address, error, done -/
  regDr : BitVec 56
  memDr : BitVec 102
deriving DecidableEq, Repr

structure State where
  pkg : PkgSt
  clk : ClkSt
  frame : FrameSt
  modes : ModeSt
  fab : FabSt
  ports : Sparse PortSt
  /-- the crossbar: headers in the order in which they reach their engines (R173) -/
  xbar : List XbarItem
  queues : Sparse QueueSt
  engines : Sparse EngineSt
  flows : Sparse FlowSt
  mem : MemSt
  crypto : CryptoSt
  cfg : CfgSt
  shelf : ShelfSt
  stock : StockSt
  pwr : PwrSt
  thm : ThmSt
  regs : RegSt
  desk : DeskSt
  slips : SlipSt
  log : LogSt
  tap : TapSt
  /-- the commands that wait, first in, first out -/
  pending : List Instr
deriving DecidableEq, Repr

/-- Why a command stops the machine. Every trouble the spec describes is a state (an error form, an event, a marker, a
status); what is left is an access to what the spec says does not exist. -/
inductive Fault where
  /-- raised by MEMORY_LAYER_READ and MEMORY_LAYER_WRITE outside the layer addresses of R217; safe -/
  | noSuchAddress
deriving DecidableEq, Repr

/-- Why a command has no meaning. -/
inductive Refusal where
  /-- a dispatch arm whose meaning is not written yet; safe -/
  | notModelled (mnemonic : String)
deriving DecidableEq, Repr

/-! ## Reset

Every field is at the value its register table or rule gives for reset; where the spec gives none, the value is a DESIGN
CHOICE of log entry 1. Tables are empty: an absent entry is the default that Machine/Ops.lean names. -/

def PkgSt.reset : PkgSt :=
  { vstby := true, rails := true, porstLow := false, inReset := true, addr := 0, bootSrc := 0, streamKey := none,
    debugFuse := 0, doneLow := true, frameOut := false, trimmed := true, pcieUp := false }

/-- The fallback-free references of loops 0 to 5 as CLK_STATUS reads them at reset (R294). -/
def ClkSt.resetRefs : List ClkRef := [.sourceA, .lpCore, .sourceA, .sourceA, .sourceA, .sourceA]

def ClkSt.reset : ClkSt :=
  { goodRun := List.replicate 9 0, count := List.replicate 9 0, stopped := 0, refRun := [0, 0],
    qualA := false, qualB := false, qualF := false, qualS := false, refaSel := false, refbSel := false,
    refaEn := false, refbEn := false, tripPct := 5, trkaPri := 0, trkaSec := 1, trkbPri := 1, trkbSec := 0,
    loopLock := 0, loopRef := ClkSt.resetRefs, consumer := List.replicate 6 .loop, trip := 0, cold := false,
    stoppedDevice := false, onIoscS := false, switches := [], changes := [], tripHoldover := false,
    gateReqBay := 0, gatedBay := 0, gateReqPort := 0, gatedPort := 0, gateReqQe := 0, gatedQe := 0,
    gateReqPcie := false, gatedPcie := false, gateReqSide0 := false, gatedSide0 := false }

/-- Source 3 and the defaults of R34, R38 and R39. -/
def FrameSel.reset : FrameSel :=
  { src := 3, trunk := 0, revertive := false, phase := false, bandwidth := 1, offset := 0, slew := 10 }

def FrameSt.reset : FrameSt :=
  { number := 0, slot := 0, cycle := 0, running := false, frames := 0, time := 0, sel := .reset,
    active := { FrameSel.reset with src := 0 }, pendSel := none, qualifying := none, newQualified := false,
    qualified := false, lost := false, locked := false, unlocked := false, phaseErr := 0, lockRun := 0, unlockRun := 0,
    misplaced := 0, edge := none, phaseSeen := none, lossRun := 0, goodRun := 0,
    candEdge := false, candRun := 0, ctrlWord := 0, ctrlFreq := 0, ctrlHist := [], frozen := false,
    pendNumber := none, outOffset := 0, outWidth := 0, outEn := false, outOffsetNext := 0, outWidthNext := 0,
    overrunRun := List.replicate 6 0, overrunTotal := List.replicate 6 0,
    overrunTold := List.replicate 6 false, trunkPhase := [], freeCount := 0 }

def ModeSt.reset : ModeSt :=
  { house := .intake, bays := [], ports := [], pend := [], autos := [], closing := [], closed := [],
    bringUpFrames := [], notReadyTold := 0, ready := 0 }

def FabSt.reset : FabSt :=
  { bays := [], carrels := [], folios := [], tests := [], chans := [], due := none, editions := [], binds := [], banks := [], pendRota := [], changes := [],
    loads := [], reqs := [], nextReq := 0, loadsThisFrame := 0, switches := [], remapped := [] }

def MemSt.reset : MemSt :=
  { layer := [], zeroed := [], side := [], ce := 0, ue := 0, ceLog := 0, ueLog := 0, ceInfo := 0, ueInfo := 0, readWait := false,
    retired := [], retireHits := 0, toldRetired := [], sideCe := [0, 0], sideUe := [0, 0], sideCeLog := 0,
    sideCeInfo := 0, sideUeLog := 0, sideUeInfo := 0, refresh := [0, 0], refreshes := [0, 0], work := [],
    lastData := [], lastError := false }

/-- R253: every right of the desk; host DMA channels' write access to V31. The other masters' entries are the default. -/
def CryptoSt.resetRights : Sparse RightsSt :=
  let dma : RightsSt := { accLo := 0, accHi := 0x80000000, view := 0 }
  [(33, { accLo := 0xFFFFFFFF, accHi := 0xFFFFFFFF, view := 0 }), (34, dma), (35, dma), (36, dma), (37, dma)]

def CryptoSt.reset : CryptoSt :=
  { nodes := [], cache := [], vols := [], rekeyOrder := [], held := [], keyCount := 0, rngOk := false, rngFail := false,
    overflows := 0, misses := 0, writebacks := 0, ledgerCe := 0, poisoned := 0, ledgerLog := 0, authData := 0,
    authLedger := 0, macFailLog := 0, denyMaster := 0, denyVolume := 0, denyCount := 0,
    rights := CryptoSt.resetRights }

def CfgSt.reset : CfgSt :=
  { flash := [], image := 0, position := none, stepsDone := 0, rdvWait := false, rdvTimedOut := false, rdvFrames := 0,
    rdvTimeout := 0, order := 0, stepTaken := none, frame0Due := false, firstCause := 0, reserveCause := 0,
    hostCause := 0, fallbacks := 0, serial := 0, stageState := 0, stagedBytes := 0, staged := [], stagedFrom := 0,
    archiveUse := [], archive := [], archiveCat := [], archiveNext := 0, applyRest := [],
    stageLost := false, work := [], streamInEffect := false, startDone := false, phase := 0, again := false, applyFailed := 0,
    applySlip := none, setReset := true, crcErr := 0, seqErr := 0, partsFwd := 0, tooLong := false, startSeen := false,
    chainSync := false, outActive := false, chainNext := 0, chainGot := false, chainFailed := false, forwarded := [] }

def ShelfSt.reset : ShelfSt :=
  { sweepEn := true, actionLo := 0x55555555, actionHi := 0x55555555, position := 0, positionSh := 0, pending := [],
    sweepFrames := 0, lastLen := 0, sweeps := 0, nonessential := 0, essential := 0, uncorrectable := 0, selfFaults := 0,
    stalls := 0, log := 0, logInfo := 0, lateTold := false, stopped := false, readThisFrame := 0, boundaryPos := 0,
    stallRun := 0, fullAllFrame := false, enAllFrame := true }

def StockSt.reset : StockSt :=
  { results := [], inbox := [], deskCycles := 0, declared := 0, policy := [], noWindowTold := 0, lastRound := [0, 0, 0, 0], roundFrames := [0, 0, 0, 0],
    rounds := [0, 0, 0, 0], slices := [0, 0, 0, 0], discarded := [0, 0, 0, 0], transient := [0, 0, 0, 0],
    granted := [], ran := [], spoiled := 0,
    lastServed := [0, 0, 0, 0], failLog := 0, failBit := 0, outcome := 0, failures := 0,
    condRails := false, condVin := false, condClock := false, carrels := [], tests := [], failedSpares := [], rows := [],
    columns := [], pendRemaps := [], record := [], recordSeq := 0, recordWrite := none }

def PwrSt.reset : PwrSt :=
  { vinMv := 0, inputMw := 0, lossMw := 0, phase := List.replicate 96 0, fault := [], sumPhase := List.replicate 96 0,
    sumInput := 0, sumVin := 0, samples := 0, railOut := 0, offBay := 0, offLg := 0, pendVset := [], restoring := [],
    passed := [], mismatch := [], stuck := [], vinRun := 0, vinTold := false, ungate := [] }

/-- THM_PARAM 0x0A1E_C046 and THM_PARAM2 0x0F08_7653: k 0.10, knee 3.0, warn, worst case 70 °C, θ_max, presets. -/
def ThmParam.reset : ThmParam :=
  { worst := 70, k := 10, knee := 30, warn := 15, thetaMax := 192, presets := 0x87653 }

def ThmSt.reset : ThmSt :=
  { boundary := 0x460, boundaryStale := false, timer := 0, param := .reset, paramNext := none, event := 0, nodes := [],
    updates := 0, bandPend := [], faultPend := [], before := [], dtNs := 0, dtLost := 0 }

def RegSt.reset : RegSt :=
  { errMaster := 0, errCause := 0, errOffset := 0, errCount := 0, scratch := 0, shelfId := 0, shelfIdSet := false,
    shadow := [], arms := [], wrongKeys := [], lockout := [], superseded := [], readData := [], readErr := [] }

def DeskSt.reset : DeskSt :=
  { version := 0, activePair := false, standbyReady := false, doubleFail := false, switchovers := 0, takeover := false,
    reloading := false, alarmIrq := false, nmIrq := false }

def RingSt.reset : RingSt :=
  { base := 0, replyBase := 0, enable := false, irqEn := false, draining := false, heldEnable := false, dmaFault := false,
    prod := 0, cons := 0, rprod := 0, rcons := 0, executed := 0, lengthExcess := 0, gen := 0 }

def ChanSt.reset : ChanSt :=
  { lastSeq := none, seqGaps := 0, waiting := [], written := [], open_ := [], fenceWait := none }

def SlipSt.reset : SlipSt :=
  { rings := List.replicate 4 .reset, chans := List.replicate 6 .reset, sbBuffer := [], sbQueue := [], sbExecuted := 0,
    sbLengthExcess := 0, sbQuiet := 0, sbAck := false, sbData := [], inEnabled := false, fIn := 0, fOut := 0, qIn := 0,
    qOut := 0, inQueue := [], started := 0, sbStarted := 0, cycles := 0, served := 5, prevStarted := 0, prevSb := 0, prevCycles := 0,
    replayed := 0, reexecuted := 0, lastCh := 0, lastSeq := 0, msix := [] }

def Summary.zero : Summary := { nm := 0, alarms := 0, warnings := 0, info := 0, trace := 0 }

def LogSt.reset : LogSt :=
  { irqDrain := false, irqLatch := false, infoEn := true, traceEn := false, latched := [], raised := [], ring := [],
    wptr := 0, wptrSh := 0, rptr := 0, rptrSh := 0, tailLacuna := false, cold := [], coldLost := none, lost := 0,
    lacunas := 0, shedInfo := 0, shedTrace := 0, coalesced := 0, current := .zero, summary := .zero, summaryFrame := 0,
    period := 800, periodNext := 800, periodLeft := 800, lastAlarm := (0, 0), 
    drain := { active := false, ch := 0, addr := 0, log2 := 0, prod := 0, cons := 0 }, copies := 0, drainCycles := 0, drained := [] }

def TapSt.reset : TapSt := { instr := .idcode, boundary := 0, capture := 0, regDr := 0, memDr := 0 }

/-- The device at its power-on reset: supplied, PORST_N released, waiting for its sources (R293). -/
def State.reset : State :=
  { pkg := .reset, clk := .reset, frame := .reset, modes := .reset, fab := .reset, ports := [], xbar := [], queues := [],
    engines := [], flows := [], mem := .reset, crypto := .reset, cfg := .reset, shelf := .reset, stock := .reset,
    pwr := .reset, thm := .reset, regs := .reset, desk := .reset, slips := .reset, log := .reset, tap := .reset,
    pending := [] }

end Sys2Proof.Machine
end

