-- ==== Sys2Proof/Config.lean ====
section
/-! DEFINITION. What an implementation fixes and the values the spec leaves open. None has a body, so nothing can be proved
of its value. -/

namespace Sys2Proof.Config
open Sys2Proof Sys2Proof.Machine

/-- The n-th free value (log entry 4). -/
opaque freeValue : Nat → BitVec 64
/-- The block cipher AES-256: key, block (R234). Its function is a published standard's, which the spec names and does
not repeat. -/
opaque aes256 : BitVec 256 → BitVec 128 → BitVec 128
/-- GHASH of NIST SP 800-38D under a hash key (R235). -/
opaque ghash : BitVec 128 → List (BitVec 128) → BitVec 128
/-- The n-th key the random source gives (R254). -/
opaque randomKey : Nat → BitVec 256
/-- What a byte of a store never written reads as: the use's count, the store (0 memory layer, 1 side store), the address
(R224, log entry 4). -/
opaque unwritten : Nat → Nat → Nat → Byte
/-- The set of the counter cache that a node falls in, of 4,096 (R241); the spec does not give the index function. -/
opaque cacheSet : Nat → Nat
/-- What the expanded segments of an authenticated part hold. Ettis's compression and segment encodings are not in the spec
(log entry 6); none: the content check finds a fault. -/
opaque partContent : List Byte → Option PartContent
/-- DESK_VERSION once Renuth has started: the firmware is not in the spec. -/
opaque deskVersion : Word
/-- Heat capacity of a thermal node in mJ/°C, less one (R313: fused, and not given). -/
opaque heatCapacity : Nat → Nat
/-- Where the fused conductance between two nodes lies in its ±10 % (R441). -/
opaque conductTrim : Nat → Nat → Nat
/-- Two bay columns of one quadrant are neighbours of its grid, whose arrangement the spec does not give (R441). -/
opaque gridNeighbours : Nat → Nat → Bool
/-- The integrator of the frame discipline's filter after a frame: bandwidth code, integrator, frequency and phase errors; and
the step that it asks for the phase error (R39, log entry 70). -/
opaque loopIntegrator : Nat → Int → Int → Int → Int
opaque loopStep : Nat → Int → Int → Int
/-- Beats that a port's lookup stage holds beyond the 16 that IX_READY promises (R105); its depth is not given. -/
opaque lookupExtra : Nat
/-- What the code of a configuration frame finds of three or more bits in error (R280). -/
opaque manyErrors : BitVec 1036 → FrameFound
/-- The signature that a block of the logic test must leave, by its number: the controller holds it, and the spec does not give it
(R326). -/
opaque blockSignature : Nat → BitVec 64
/-- What stocktake puts into a test folio and its observation cells, by the use's count (R77). -/
opaque testConfig : Nat → ConfigBits
opaque testCells : Nat → BitVec 1024
/-- The n-th free value of 4,096 bits, for what a carrel's flip-flops lose with their rail (R312). -/
opaque lostFlops : Nat → BitVec 4096

end Sys2Proof.Config
end

