-- ==== Sys2Proof/Machine/Ops.lean ====
section
/-! DEFINITION. The named operations over State that every family shares: tables, counters, little-endian fields, the
default of each table's entries, modes, and raising an event. -/

namespace Sys2Proof.Machine
open Sys2Proof

/-! ## Tables -/

def Sparse.look {α : Type} (m : Sparse α) (k : Nat) : Option α :=
  match m with
  | [] => none
  | (j, v) :: r => if j = k then some v else Sparse.look r k

def Sparse.get {α : Type} (d : α) (m : Sparse α) (k : Nat) : α := (Sparse.look m k).getD d

def Sparse.del {α : Type} (m : Sparse α) (k : Nat) : Sparse α :=
  match m with
  | [] => []
  | (j, v) :: r => if j = k then r else (j, v) :: Sparse.del r k

/-- Keys stay strictly rising. -/
def Sparse.ins {α : Type} (m : Sparse α) (k : Nat) (v : α) : Sparse α :=
  match m with
  | [] => [(k, v)]
  | (j, w) :: r => if k < j then (k, v) :: (j, w) :: r else if k = j then (k, v) :: r else (j, w) :: Sparse.ins r k v

/-- Writing the default removes the entry, so that equal tables are equal lists. -/
def Sparse.put {α : Type} [DecidableEq α] (d : α) (m : Sparse α) (k : Nat) (v : α) : Sparse α :=
  if v = d then Sparse.del m k else Sparse.ins m k v

/-! ## Numbers, bytes and lists -/

/-- A counter that saturates at cap. -/
def sat (cap n i : Nat) : Nat := min cap (n + i)

/-- Two's complement of v in w bits. -/
def ofInt (w : Nat) (v : Int) : Nat := (v % (2 ^ w : Nat)).toNat

/-- The signed value of the low w bits of v. -/
def toInt (w v : Nat) : Int := if v % 2 ^ w < 2 ^ (w - 1) then (v % 2 ^ w : Nat) else (v % 2 ^ w : Nat) - (2 ^ w : Nat)

def clampInt (lo hi v : Int) : Int := max lo (min hi v)

def bitOf (b : Bool) : Nat := if b then 1 else 0

/-- Values laid side by side, low bits first: each is a width and a value. -/
def pack (l : List (Nat × Nat)) : Nat :=
  match l with
  | [] => 0
  | (w, v) :: r => v % 2 ^ w + 2 ^ w * pack r

/-- Bits [hi:lo] of v. -/
def field (v hi lo : Nat) : Nat := v / 2 ^ lo % 2 ^ (hi + 1 - lo)

def w32 (v : Nat) : Word := BitVec.ofNat 32 v

/-- n little-endian bytes of v (R4). -/
def leBytes (n v : Nat) : List Byte :=
  match n with
  | 0 => []
  | k + 1 => BitVec.ofNat 8 v :: leBytes k (v / 256)

def ofLe (l : List Byte) : Nat :=
  match l with
  | [] => 0
  | b :: r => b.toNat + 256 * ofLe r

/-- n bytes from offset off, zeros past the end. -/
def slice (l : List Byte) (off n : Nat) : List Byte :=
  let t := (l.drop off).take n
  t ++ List.replicate (n - t.length) 0

def leAt (l : List Byte) (off n : Nat) : Nat := ofLe (slice l off n)

def nth (l : List Nat) (i : Nat) : Nat := l.getD i 0

def bump (cap : Nat) (l : List Nat) (i : Nat) : List Nat := l.modify i (fun n => sat cap n 1)

def getBit {w : Nat} (v : BitVec w) (i : Nat) : Bool := v.getLsbD i

def setBit {w : Nat} (v : BitVec w) (i : Nat) (b : Bool) : BitVec w :=
  if b then v ||| BitVec.ofNat w (2 ^ i) else v &&& ~~~ BitVec.ofNat w (2 ^ i)

/-- The bits of a predicate on 0 to n - 1. -/
def maskOf (n : Nat) (f : Nat → Bool) : Nat := (List.range n).foldr (fun i a => if f i then 2 ^ i + a else a) 0

/-- Insert keeping the order le, after equal elements. -/
def insSorted {α : Type} (le : α → α → Bool) (x : α) (l : List α) : List α :=
  match l with
  | [] => [x]
  | y :: r => if le y x then y :: insSorted le x r else x :: y :: r

def sortBy {α : Type} (le : α → α → Bool) (l : List α) : List α := l.foldr (insSorted le) []

/-! ## Default entries of the tables -/

def isTrunk (p : Nat) : Bool := 128 ≤ p

/-- R164: the settings a port has before any PORT_SET or settings segment. -/
def PortCfg.dflt (p : Nat) : PortCfg :=
  { setting := 0, maxRate := if isTrunk p then 8 else 6, maxWidth := if isTrunk p then 2 else 1,
    role := if isTrunk p then 2 else 0, fixedRate := 0, fixedWidth := 0, marksTx := false, marksRx := false,
    fixedSkew := 0, refSrc := 0, refTrunk := 0, remoteFault := 0 }

def NegSt.dflt : NegSt :=
  { state := 0, leader := false, cur := ⟨0, 0⟩, confirmed := none, target := ⟨0, 0⟩, ownRates := 0,
    ownWidths := 0, partnerRates := 0,
    partnerWidths := 0, partnerValid := false, partnerFailed := 0, failedOnce := 0, widthFailed := 0, rateCap := 0xF,
    widthCap := 0, fails := [], confirmedN := 0, failedN := 0, timeoutsN := 0, entriesN := 0, setsBad := 0,
    refusals := 0, collisions := 0, propose := none, switchAt := none, answer := none, revert := none, trained := false,
    readySent := false, readyRecv := false, ownResult := none, partnerResult := none, window := false, windowDue := false,
    windowSent := 0, checked := [0, 0, 0, 0], checkBad := 0, backoff := 0, waited := 0, onStep := 0, inBringUp := 0, won := false, capsOwed := false, preset := none,
    refusedRun := 0, settled := false, noPartnerTold := false, markSeen := false, restart := false,
    capsHere := false, outSync := 0 }

def LaneSt.dflt : LaneSt :=
  { codeViol := [0, 0, 0, 0], disparity := [0, 0, 0, 0], inSync := 0, rxPositive := 0, syncLoss := 0, alignErr := 0, alignRun := 0,
    crcFail := 0, seqErr := 0, markErr := 0, discIn := 0, discEg := 0, underrun := 0, trainedUi := [0, 0],
    trainedFine := [0, 0], track := [0, 0], limitHits := [0, 0], limitTold := false, fill := [0, 0, 0, 0], slips := 0,
    deletes := 0, inserts := 0, refHeld := false, loopback := 0, testCtrl := [0, 0, 0, 0], chkLock := 0, lockLost := 0,
    injCount := [0, 0, 0, 0], prbsErr := [0, 0, 0, 0], creditW := 0, txIdle := true, tripIdle := false,
    lastSlotNo := none, lastMark := none, marksLost := 0, goodMarks := 0, noMarkSlots := 0,
    markThisSlot := false, badThisSlot := false, itemOpen := false, discardRun := false, foreignUp := false,
    xauiAligned := false, partnerPage := none }

/-- R115: every lane starts with negative disparity. -/
def TxSt.dflt : TxSt :=
  { units := [], before := [], positive := 0, part := 0, sinceSkip := 0, nextSets := 0, generated := [0, 0, 0, 0] }

def CreditSt.dflt : CreditSt :=
  { grant := List.replicate 32 0, sent := List.replicate 32 0, charged := List.replicate 32 0,
    freed := List.replicate 32 0, inMark := List.replicate 32 0, recent := [], holdBack := List.replicate 32 0, allowProt := 0,
    allowOrd := 0, setProt := none, setOrd := none, overdraw := 0, overdrawTold := false, fresh := false }

def EgressSt.dflt : EgressSt :=
  { prot := [], ord := [], turn := 0, midTurn := false, acc := 0, sending := none, pendProt := [], pendOrd := [], withheld := 0,
    underrate := false, grants := [], liBuf := [], loBuf := [], liOut := none, ixBeats := [], ixOffered := 0, ixLost := false, ixWords := [],
    ixPassed := 0, ixLeft := 0, ixSkip := 0,
    exOut := [], exTaken := none, exTakes := 0, exTakesNew := 0, txPacket := false, txDrop := false }

def PortSt.dflt (p : Nat) : PortSt :=
  { cfg := .dflt p, cfgNext := none, neg := .dflt, lane := .dflt, tx := .dflt, credit := .dflt, egress := .dflt }

def QueueSt.dflt : QueueSt :=
  { parityBad := false, enable := false, ordinary := false, sizeCode := 0, threshold := 0, base := 0, wptr := 0, wptrSh := 0, rptr := 0,
    rptrSh := 0, flush := false, tailMarker := false, prodMid := false, consMid := false, abortPending := false,
    discarding := false, items := 0, abortAt := 0, words := [], prodHdr := 0, prodAt := 0,
    prodTaken := 0, dropping := false, prodPort := none, prodOpen := false,
    prodPoison := false, consHdr := 0, consTaken := 0, abortCause := 0, own := [],
    charges := [], consCharge := none, discardCounts := false, arriving := none, flushItems := 0, flushWords := 0,
    flushCause := 0, flushFirst := none, flushLast := none, flushFrame := 0, flushSlot := 0, flushSlips := [],
    popped := none }

def EngineSt.dflt : EngineSt :=
  { event := 0, dropItems := 0, dropMarkers := 0, faultKind := 0, faultQueue := 0, resets := 0, descFaults := 0,
    malformed := 0, oversize := 0, disabledDrop := 0, contextErr := 0, miss := 0, dlResets := 0, gaps := 0,
    duplicates := 0, dlStorage := 0, dlFull := 0, toldDisabled := false, toldMiss := false, toldContext := false }

def FlowSt.dflt : FlowSt :=
  { valid := false, ordinary := false, delayEn := false, paired := false, inPort := 0, inTag := 0, egPort := 0,
    egQueue := 0, twin := 0, delay := 0, mergeWait := 0, dlBase := 0, dlPages := 0, mergeNext := 0, mergeSet := false,
    waiting := false, mergeCause := 0, waitStart := 0, dlWptr := 0, dlWptrSh := 0, dlRptr := 0, dlRptrSh := 0,
    dlTail := false, dlProdMid := false, dlDiscarding := false, itemsIn := 0, wordsIn := 0, duplicates := 0, gaps := 0,
    dl := [], heads := [], quiet := 0 }

/-- R69, R281: an empty carrel-folio. -/
def FolioSt.dflt : FolioSt :=
  { state := .empty, config := 0, init := 0, store := 0, struck := [], parity := 0, missed := 0, reloaded := false, seenMissed := 0,
    seenReloaded := false, faultMask := 0, catalogue := none }

/-- R91: a carrel without a rota in force. -/
def CarrelSt.dflt : CarrelSt :=
  { rota := ⟨false, []⟩, cur := 0, idle := true, live := 0, throttled := false, turned := none, mesh := 0, lift := 0, bankErr := 0, bankErrAt := 0,
    acc := [], slicing := false }

def BaySt.dflt : BaySt :=
  { hardened := false, running := false, c36 := none, c37 := none, sfCarrel := 0, sfFolio := 0, sfGroup := 0,
    sfCount := 0, idled := 0, calPos := 0, calBank := 0, calCount := 0, crossings := [], channels := [], vmin := 0,
    vset := 0, volt := 0, inMask := false }

def BankCfg.dflt : BankCfg := { pool := false, share := 0, user := 0, place := none }

/-- R313, R315: every node starts at 70 °C, the default worst case; 0x460 in 1/16 °C. -/
def NodeSt.dflt : NodeSt :=
  { temp := 0x460, rem := 0, hist := [], slope := 0, warn := false, warnHi := 0, warnLo := 0, band := 0,
    bandUp := [0, 0, 0, 0], bandDown := [0, 0, 0, 0], pinned := false, forced := false, phi := 0, target := 0, applied := 0,
    release := false }

def StuckSt.dflt : StuckSt := { value := 0, count := 0, ref := 0, moved := false }

def VolSt.dflt : VolSt :=
  { state := 0, newSlot := false, twoLive := false, watermark := 0, generation := 0, rekeys := 0, root := 0,
    rootEpoch := false, key0 := none, key1 := none, slips := [] }

def RightsSt.dflt : RightsSt := { accLo := 0, accHi := 0, view := 0 }

def LedgerNode.dflt : LedgerNode := { major := 0, minors := [], epoch := false, rebuilding := false, generation := 0 }

def SliceSt.dflt : SliceSt := { pattern := 0, blockStart := 0, rerun := false, stopped := false, completed := false, left := 0 }

/-! ## Reading and writing the tables of State -/

def State.port (s : State) (p : Nat) : PortSt := Sparse.get (.dflt p) s.ports p
def State.setPort (s : State) (p : Nat) (v : PortSt) : State := { s with ports := Sparse.put (.dflt p) s.ports p v }
def State.modPort (s : State) (p : Nat) (f : PortSt → PortSt) : State := s.setPort p (f (s.port p))
def State.modNeg (s : State) (p : Nat) (f : NegSt → NegSt) : State := s.modPort p fun t => { t with neg := f t.neg }
def State.modLane (s : State) (p : Nat) (f : LaneSt → LaneSt) : State := s.modPort p fun t => { t with lane := f t.lane }
def State.modTx (s : State) (p : Nat) (f : TxSt → TxSt) : State := s.modPort p fun t => { t with tx := f t.tx }
def State.modCredit (s : State) (p : Nat) (f : CreditSt → CreditSt) : State :=
  s.modPort p fun t => { t with credit := f t.credit }
def State.modEgress (s : State) (p : Nat) (f : EgressSt → EgressSt) : State :=
  s.modPort p fun t => { t with egress := f t.egress }

def State.queue (s : State) (q : Nat) : QueueSt := Sparse.get .dflt s.queues q
def State.setQueue (s : State) (q : Nat) (v : QueueSt) : State := { s with queues := Sparse.put .dflt s.queues q v }
def State.modQueue (s : State) (q : Nat) (f : QueueSt → QueueSt) : State := s.setQueue q (f (s.queue q))

def State.engine (s : State) (e : Nat) : EngineSt := Sparse.get .dflt s.engines e
def State.modEngine (s : State) (e : Nat) (f : EngineSt → EngineSt) : State :=
  { s with engines := Sparse.put .dflt s.engines e (f (s.engine e)) }

def State.flow (s : State) (f : Nat) : FlowSt := Sparse.get .dflt s.flows f
def State.setFlow (s : State) (f : Nat) (v : FlowSt) : State := { s with flows := Sparse.put .dflt s.flows f v }
def State.modFlow (s : State) (f : Nat) (g : FlowSt → FlowSt) : State := s.setFlow f (g (s.flow f))

def State.bay (s : State) (b : Nat) : BaySt := Sparse.get .dflt s.fab.bays b
def State.modBay (s : State) (b : Nat) (f : BaySt → BaySt) : State :=
  { s with fab.bays := Sparse.put .dflt s.fab.bays b (f (s.bay b)) }

/-- Carrel key of a logical position (R11). -/
def ckey (b c : Nat) : Nat := b * 36 + c
/-- Folio key of a carrel-folio. -/
def fkey (b c f : Nat) : Nat := (b * 36 + c) * 8 + f
def keyBay (k : Nat) : Nat := k / 288
def keyPos (k : Nat) : Nat := k / 8 % 36
def keyFolio (k : Nat) : Nat := k % 8

def State.carrel (s : State) (k : Nat) : CarrelSt := Sparse.get .dflt s.fab.carrels k
def State.modCarrel (s : State) (k : Nat) (f : CarrelSt → CarrelSt) : State :=
  { s with fab.carrels := Sparse.put .dflt s.fab.carrels k (f (s.carrel k)) }

/-- The physical carrel that serves a logical position (R11): BAY_MAP names the positions C36 and C37 serve. -/
def State.phys (s : State) (b c : Nat) : Nat :=
  if (s.bay b).c36 = some c then 36 else if (s.bay b).c37 = some c then 37 else c

/-- Where the store of folio f of a physical carrel stands (R23). -/
def pkey (b ph f : Nat) : Nat := (b * 38 + ph) * 8 + f
/-- The store of the carrel-folio at a logical position. -/
def State.storeKey (s : State) (k : Nat) : Nat := pkey (keyBay k) (s.phys (keyBay k) (keyPos k)) (keyFolio k)
def State.folio (s : State) (k : Nat) : FolioSt := Sparse.get .dflt s.fab.folios (s.storeKey k)
def State.modFolio (s : State) (k : Nat) (f : FolioSt → FolioSt) : State :=
  { s with fab.folios := Sparse.put .dflt s.fab.folios (s.storeKey k) (f (s.folio k)) }

/-- The position that a physical carrel serves. -/
def State.posOf (s : State) (b ph : Nat) : Option Nat :=
  if ph = 36 then (s.bay b).c36 else if ph = 37 then (s.bay b).c37 else if s.phys b ph = ph then some ph else none

/-- The carrel-folios in service that are not empty, under their logical keys, ascending. -/
def State.foliosInUse (s : State) : List (Nat × FolioSt) :=
  sortBy (fun a b => decide (a.1 ≤ b.1)) (s.fab.folios.filterMap fun (k, f) =>
    (s.posOf (k / 304) (k / 8 % 38)).map fun c => (fkey (k / 304) c (k % 8), f))

/-- The parity bit of each state group (R69): the fold leaves the parity of bits 32g to 32g + 31 at bit 32g. -/
def stateParity (v : BitVec 4096) : BitVec 128 :=
  let a := v ^^^ (v >>> 16)
  let a := a ^^^ (a >>> 8)
  let a := a ^^^ (a >>> 4)
  let a := a ^^^ (a >>> 2)
  let a := a ^^^ (a >>> 1)
  BitVec.ofNat 128 (maskOf 128 fun g => a.getLsbD (32 * g))

/-- A state store takes values, with parity generated over them (R69, R87). -/
def FolioSt.save (t : FolioSt) (v : BitVec 4096) : FolioSt := { t with store := v, parity := stateParity v }

/-- Physical bank index of bank k of the quad that serves position c (R217). -/
def State.bankIndex (s : State) (b c k : Nat) : Nat := (b * 38 + s.phys b c) * 4 + k

/-- Bank settings are kept by logical position: (bay * 36 + position) * 4 + bank. -/
def State.bank (s : State) (i : Nat) : BankCfg := Sparse.get .dflt s.fab.banks i
def State.setBank (s : State) (i : Nat) (v : BankCfg) : State := { s with fab.banks := Sparse.put .dflt s.fab.banks i v }

def State.node (s : State) (n : Nat) : NodeSt := Sparse.get .dflt s.thm.nodes n
def State.modNode (s : State) (n : Nat) (f : NodeSt → NodeSt) : State :=
  { s with thm.nodes := Sparse.put .dflt s.thm.nodes n (f (s.node n)) }

def State.vol (s : State) (v : Nat) : VolSt := Sparse.get .dflt s.crypto.vols v
def State.modVol (s : State) (v : Nat) (f : VolSt → VolSt) : State :=
  { s with crypto.vols := Sparse.put .dflt s.crypto.vols v (f (s.vol v)) }

def State.rights (s : State) (m : Nat) : RightsSt := Sparse.get .dflt s.crypto.rights m
def State.ledger (s : State) (k : Nat) : LedgerNode := Sparse.get .dflt s.crypto.nodes k
def State.modLedger (s : State) (k : Nat) (f : LedgerNode → LedgerNode) : State :=
  { s with crypto.nodes := Sparse.put .dflt s.crypto.nodes k (f (s.ledger k)) }

def State.slice (s : State) (k : Nat) : SliceSt := Sparse.get .dflt s.stock.carrels k
def State.modSlice (s : State) (k : Nat) (f : SliceSt → SliceSt) : State :=
  { s with stock.carrels := Sparse.put .dflt s.stock.carrels k (f (s.slice k)) }

def State.chan (s : State) (ch : Nat) : ChanSt := s.slips.chans.getD ch .reset
def State.modChan (s : State) (ch : Nat) (f : ChanSt → ChanSt) : State := { s with slips.chans := s.slips.chans.modify ch f }
def State.ring (s : State) (n : Nat) : RingSt := s.slips.rings.getD n .reset
def State.modRing (s : State) (n : Nat) (f : RingSt → RingSt) : State := { s with slips.rings := s.slips.rings.modify n f }

/-! ## Modes -/

def Mode.code : Mode → Nat
  | .intake => 0 | .bringUp => 1 | .service => 2 | .holdover => 3 | .bindery => 4 | .closing => 5

def Mode.ofCode : Nat → Option Mode
  | 0 => some .intake | 1 => some .bringUp | 2 => some .service | 3 => some .holdover | 4 => some .bindery
  | 5 => some .closing | _ => none

def State.bayMode (s : State) (b : Nat) : Mode := Sparse.get .intake s.modes.bays b
def State.portMode (s : State) (p : Nat) : Mode := Sparse.get .intake s.modes.ports p

def State.mode (s : State) : Domain → Mode
  | .house => s.modes.house
  | .bay b => s.bayMode b.val
  | .port p => s.portMode p.val

def State.setMode (s : State) (d : Domain) (m : Mode) : State :=
  match d with
  | .house => { s with modes.house := m }
  | .bay b => { s with modes.bays := Sparse.put .intake s.modes.bays b.val m }
  | .port p => { s with modes.ports := Sparse.put .intake s.modes.ports p.val m }

/-- The subject of a domain's events, and its bit in MODE_QUERY: house 0, bay 1 + b, port 33 + p. -/
def domCode : Domain → Nat
  | .house => 0
  | .bay b => 1 + b.val
  | .port p => 33 + p.val

def allBays : List Bay := List.finRange 32
def allPorts : List Port := List.finRange 144
def allDomains : List Domain := .house :: (allBays.map .bay ++ allPorts.map .port)

/-! ## Events (R398 to R404) -/

def EvClass.code : EvClass → Nat
  | .trace => 0 | .info => 1 | .warning => 2 | .alarm => 3 | .nonMaskable => 4

def EvClass.latches : EvClass → Bool
  | .alarm => true | .nonMaskable => true | _ => false

def Summary.add (c : EvClass) (m : Summary) : Summary :=
  match c with
  | .nonMaskable => { m with nm := sat 255 m.nm 1 }
  | .alarm => { m with alarms := sat 255 m.alarms 1 }
  | .warning => { m with warnings := sat 0xFFFF m.warnings 1 }
  | .info => { m with info := sat 0xFFFF m.info 1 }
  | .trace => { m with trace := sat 0xFFFF m.trace 1 }

/-- Raise MSI-X vector v; none is raised while the link is down (R404). -/
def msix (v : Nat) (s : State) : State := if s.pkg.pcieUp then { s with slips.msix := v :: s.slips.msix } else s

/-- Set the latch of an alarm or non-maskable event (R401, R404): the bit, the desk interrupt, LOG_LAST_ALARM, MSI-X 4. -/
def latch (c : EvClass) (code : BitVec 16) (subject : Nat) (s : State) : State :=
  if c.latches then
    let new := !(s.log.latched.contains (code, subject))
    let s1 := { s with
      log.latched := if new then s.log.latched ++ [(code, subject)] else s.log.latched
      log.lastAlarm := (code, BitVec.ofNat 16 subject)
      desk.nmIrq := s.desk.nmIrq || c == .nonMaskable
      desk.alarmIrq := s.desk.alarmIrq || c == .alarm }
    if new && s.log.irqLatch then msix 4 s1 else s1
  else s

/-- Raise an event: count it for the summaries (R413), set its latch, and leave its entry to the event logger (R400). The
detail is a list of widths and values, low bits first (R406). -/
def raise (c : EvClass) (code : BitVec 16) (subject : Nat) (detail : List (Nat × Nat)) (s : State) : State :=
  let e : Event := { cls := c, code := code, subject := subject, detail := BitVec.ofNat 96 (pack detail),
                     frame := s.frame.number, slot := s.frame.slot }
  latch c code subject { s with log.current := s.log.current.add c, log.raised := s.log.raised ++ [e] }

def warn (code : BitVec 16) (subject : Nat) (detail : List (Nat × Nat)) (s : State) : State :=
  raise .warning code subject detail s
def alarm (code : BitVec 16) (subject : Nat) (detail : List (Nat × Nat)) (s : State) : State :=
  raise .alarm code subject detail s
def info (code : BitVec 16) (subject : Nat) (detail : List (Nat × Nat)) (s : State) : State :=
  raise .info code subject detail s
def nonMask (code : BitVec 16) (subject : Nat) (detail : List (Nat × Nat)) (s : State) : State :=
  raise .nonMaskable code subject detail s

/-- ALERT_N is driven low while any latch bit is set, and released while PORST_N is low (R401, R404). -/
def State.alert (s : State) : Bool := !s.log.latched.isEmpty && !s.pkg.porstLow

/-- A boundary's command raises what the last turns of the frame that ends find, in slot 249, before what the boundary itself does. -/
def Event.inLastSlot (a : Event) : Bool := a.slot == 249

def Event.before (a b : Event) : Bool :=
  (a.inLastSlot && !b.inLastSlot) || (a.inLastSlot == b.inLastSlot &&
    (a.code.toNat < b.code.toNat || (a.code == b.code && a.subject ≤ b.subject)))

/-- Events one command raises are raised in one cycle, so they stand in ascending code, then subject (R415). -/
def inOneCycle (f : State → State) (s : State) : State :=
  let n := s.log.raised.length
  let t := f s
  { t with log.raised := t.log.raised.take n ++ sortBy Event.before (t.log.raised.drop n) }

/-! ## The device as a whole -/

/-- Supplied and out of reset (R293, R422). -/
def State.up (s : State) : Bool := s.pkg.rails && !s.pkg.porstLow && !s.pkg.inReset

/-- Master m's register accesses reach the device: it is up, and for PCI Express its link is (R341, R404). -/
def State.reaches (s : State) (m : Master) : Bool := s.up && (m != .pcie || s.pkg.pcieUp)

/-- Frames occur: step A is complete, and the desk does not run cold (R31, R303). -/
def State.framesRun (s : State) : Bool := s.frame.running && !s.clk.cold && !s.clk.stoppedDevice

/-- The device runs on its core clock: it is not cold (R303). -/
def State.awake (s : State) : Bool := s.up && !s.clk.cold && !s.clk.stoppedDevice

/-- A free value for this use: the count is advanced, so that every use has one of its own. -/
def State.useFree (s : State) : State := { s with frame.freeCount := s.frame.freeCount + 1 }

/-- Every command that ends has a next state. -/
def done (s : State) : Host.Outcome State Fault Refusal := .next s

/-- A command whose condition the state shows not to hold has no effect. -/
def when (c : Bool) (f : State → State) (s : State) : State := if c then f s else s

end Sys2Proof.Machine
end

