-- ==== Sys2Proof/Machine/Operands.lean ====
section
/-! DEFINITION. Tables that commands are read by: rates and widths, payloads, credit widths, and the CRCs of marks, sets and
chain blocks. -/

namespace Sys2Proof.Machine
open Sys2Proof

/-- Bits per fabric cycle of one lane at a rate code: twice its 8b/10b payload in Gb/s ("Table: rate codes", R108). -/
def laneBits : List Nat := [2, 4, 5, 8, 10, 16, 20, 32, 40]

/-- Lanes of a width code. -/
def lanesOf (width : Nat) : Nat := if width = 0 then 1 else if width = 1 then 2 else 4

/-- Twice the payload in Gb/s of a setting. -/
def payload2 (rate width : Nat) : Nat := nth laneBits rate * lanesOf width

/-- w of "Table: credit field width" for a payload. -/
def creditWidth (rate width : Nat) : Nat :=
  let b := payload2 rate width
  if b ≤ 5 then 2 else if b ≤ 10 then 3 else if b ≤ 20 then 4 else if b ≤ 40 then 5 else if b ≤ 80 then 6 else 7

/-- Default allowance of "Table: credit allowances" by w. -/
def defaultAllowance (w : Nat) : Nat :=
  if w = 2 then 2 else if w = 3 then 3 else if w = 4 then 6 else if w = 5 then 11 else if w = 6 then 22 else 43

/-- Highest rate and width codes of a port's kind. -/
def topRate (p : Nat) : Nat := if isTrunk p then 8 else 6
def topWidth (p : Nat) : Nat := if isTrunk p then 2 else 1

/-- The engine that serves a port, and the port's index in its group (R18, R105). -/
def engineOf (p : Nat) : Nat := if isTrunk p then p - 128 else p / 8
def groupIndex (p : Nat) : Nat := if isTrunk p then 8 else p % 8
def groupPort (e k : Nat) : Nat := if k = 8 then 128 + e else 8 * e + k
/-- The engine of a queue (R12). -/
def queueEngine (q : Nat) : Nat := q / 1024
/-- Capacity in words of a size code ("Table: queue size codes"), and the largest cut-through threshold. -/
def queueCap (code : Nat) : Nat := 16 * 2 ^ code
def maxThreshold (code : Nat) : Nat := min 320 (queueCap code - 1)
/-- Lane group of a port, and the base quadrant of a lane group (R17). -/
def laneGroup (p : Nat) : Nat := if isTrunk p then (p - 128) / 2 else p / 16

/-- One byte into a CRC of the given width, most significant bit first. -/
def crcBitMsb (w poly crc : Nat) (bit : Bool) : Nat :=
  let top := crc.testBit (w - 1)
  let sh := crc * 2 % 2 ^ w
  if top != bit then sh ^^^ poly else sh

/-- The CRC-16 of ordered sets (R121): x^16 + x^12 + x^5 + 1, start 0xFFFF, each byte least significant bit first. -/
def crc16Byte (crc : Nat) (b : Byte) : Nat :=
  (List.range 8).foldl (fun c i => crcBitMsb 16 0x1021 c (b.getLsbD i)) crc

def crc16 (l : List Byte) : Nat := l.foldl crc16Byte 0xFFFF

/-- CRC-32 of IEEE 802.3: reflected, all-ones start and final inversion (R273). -/
def crc32Byte (crc : Nat) (b : Byte) : Nat :=
  (List.range 8).foldl (fun c _ => if c.testBit 0 then c / 2 ^^^ 0xEDB88320 else c / 2) (crc ^^^ b.toNat)

def crc32 (l : List Byte) : Nat := l.foldl crc32Byte 0xFFFFFFFF ^^^ 0xFFFFFFFF

end Sys2Proof.Machine
end

