-- ==== Sys2Proof/Machine/Mirror.lean ====
section
/-! DEFINITION. What the units keep in the banks of the pool: where a word of a house user's space stands, the flow table's contexts and
the day book's entries as bytes, and the bytes that follow a change of a queue, a context or the ring (R165, R193, R405, R406). -/

namespace Sys2Proof.Machine
open Sys2Proof

/-! ## The memory layer's bytes -/

/-- The physical byte address behind a layer address (R11, R217). -/
def State.layerPhys (s : State) (a : Nat) : Nat :=
  let n := a / 65536
  s.bankIndex (n / 144) (n / 4 % 36) (n % 4) * 65536 + a % 65536

/-- A byte of the layer is written; in a bank that was cleared a zero needs no entry. -/
def layerCell (zeroed : List Nat) (m : List Host.Cell) (x : Nat) (b : Byte) : List Host.Cell :=
  if zeroed.contains (x / 65536) then Sparse.put 0 m x b else Sparse.ins m x b

def layerWrite (a : Nat) (l : List Byte) (s : State) : State :=
  match l with
  | [] => s
  | b :: r => layerWrite (a + 1) r { s with mem.layer := layerCell s.mem.zeroed s.mem.layer (s.layerPhys a) b }

/-! ## Spaces of the pool (R165, R218) -/

/-- The banks of a house user in the order of R165. -/
def banksOf (l : Sparse BankCfg) (user : Nat) : List Nat :=
  let mine := (l.filter fun (_, c) => c.pool && c.user.toNat == user).map fun (k, c) => (c.place.getD k, k)
  (sortBy (fun a b => a.1 ≤ b.1) mine).map (·.2)

/-- The layer address of word a of a space, check word 0; none past its banks. -/
def spaceAddr? (banks : List Nat) (a : Nat) : Option Nat :=
  (banks[4 * (a / 8192) + a % 4]?).map fun b => b * 65536 + a % 8192 / 4 * 32

def spaceAddr (banks : List Nat) (a : Nat) : Nat := (spaceAddr? banks a).getD 0

def QueueSt.cap (d : QueueSt) : Nat := queueCap d.sizeCode.toNat
def QueueSt.pos (d : QueueSt) (p : Nat) : Nat := p % d.cap

/-- The layer address of a queue's word, of word i of a flow's context, and of the entry at a position of the day book. -/
def State.wordAddr (s : State) (q p : Nat) : Nat :=
  let d := s.queue q
  spaceAddr (banksOf s.fab.banks (queueEngine q)) (16 * d.base.toNat + d.pos p)

def State.contextAddr (s : State) (f i : Nat) : Nat := spaceAddr (banksOf s.fab.banks 0x10) (8 * f + i)

def State.entryAddr (s : State) (x : Nat) : Nat := spaceAddr (banksOf s.fab.banks 0x11) x

/-! ## Contexts and entries as bytes -/

def words4 (l : List Nat) : List Byte := l.flatMap (leBytes 4)

/-- The 256 bytes of "Table: flow context". -/
def contextBytes (f : FlowSt) : List Byte :=
  leBytes 16 (pack [(1, bitOf f.valid), (1, bitOf f.ordinary), (1, bitOf f.delayEn), (1, bitOf f.paired), (4, 0),
    (8, f.inPort), (8, f.inTag), (8, f.egPort), (16, f.egQueue), (16, f.twin), (32, f.delay), (16, f.mergeWait), (16, 0)]) ++
  leBytes 4 f.dlBase ++ leBytes 4 f.dlPages ++ leBytes 40 0 ++
  leBytes 8 (pack [(16, f.mergeNext), (1, bitOf f.mergeSet), (1, bitOf f.waiting), (6, 0), (8, f.mergeCause.toNat),
    (32, f.waitStart.toNat)]) ++ leBytes 56 0 ++
  words4 [f.dlWptr.toNat, f.dlWptrSh.toNat, f.dlRptr.toNat, f.dlRptrSh.toNat] ++
  leBytes 48 (pack [(1, bitOf f.dlTail), (1, bitOf f.dlProdMid), (1, bitOf f.dlDiscarding)]) ++
  leBytes 8 f.itemsIn.toNat ++ leBytes 8 f.wordsIn.toNat ++ leBytes 8 f.duplicates.toNat ++ leBytes 8 f.gaps.toNat ++ leBytes 32 0

/-- Entries of the ring, and its usable depth (R405). -/
def bookSize : Nat := 16384
def bookDepth : Nat := 16383

/-- The 32 bytes of "Table: day-book entry". -/
def Entry.bytes (e : Entry) (phase : Bool) : List Byte :=
  leBytes 2 e.code.toNat ++
    leBytes 1 (pack [(3, e.cls.toNat), (1, bitOf e.lacuna), (1, bitOf (decide (1 < e.count))), (1, bitOf e.persisted)]) ++
    leBytes 1 (bitOf phase) ++ leBytes 4 e.subject ++ leBytes 4 e.firstFrame.toNat ++ leBytes 4 e.lastFrame.toNat ++
    leBytes 2 e.count ++ [e.firstSlot, e.lastSlot] ++ leBytes 12 e.detail.toNat

/-! ## Keeping the bytes -/

/-- A line of a space takes bytes, where its bank is in the pool. -/
def putLine (banks : List Nat) (a : Nat) (l : List Byte) (s : State) : State :=
  match spaceAddr? banks a with
  | some x => layerWrite x l s
  | none => s

def putContext (f : Nat) (l : List Byte) (s : State) : State :=
  (List.range 8).foldl (fun s i => putLine (banksOf s.fab.banks 0x10) (8 * f + i) ((l.drop (32 * i)).take 32) s) s

/-- The words of a queue that a command has written. -/
def newWords (old d : QueueSt) : List (Nat × Line) :=
  d.words.filter fun (i, w) => !(old.base == d.base && old.sizeCode == d.sizeCode && Sparse.look old.words i == some w)

def mirrorQueues (s t : State) : State :=
  if t.queues = s.queues then t
  else t.queues.foldl (fun x (q, d) => (newWords (s.queue q) d).foldl (fun x (i, w) =>
    putLine (banksOf t.fab.banks (queueEngine q)) (16 * d.base.toNat + i) (leBytes 32 w.toNat) x) x) t

def mirrorFlows (s t : State) : State :=
  if t.flows = s.flows then t
  else ((s.flows ++ t.flows).map (·.1)).foldl (fun x k =>
    let l := contextBytes (t.flow k)
    if l = contextBytes (s.flow k) then x else putContext k l x) t

/-- The entry at a position of the ring. -/
def LogSt.entryAt (g : LogSt) (x : Nat) : Option Entry := g.ring[(x + bookSize - g.rptr.toNat % bookSize) % bookSize]?

def mirrorBook (s t : State) : State :=
  if t.log.ring = s.log.ring && t.log.rptr = s.log.rptr then t
  else (List.range t.log.ring.length).foldl (fun x i =>
    let y := (t.log.rptr.toNat + i) % bookSize
    match t.log.ring[i]? with
    | some e => if s.log.entryAt y = some e then x else putLine (banksOf t.fab.banks 0x11) y (e.bytes false) x
    | none => x) t

/-- The bytes of the pool follow what a command has done to queues, flows and day book. -/
def mirror (s t : State) : State :=
  { t with mem.layer := (mirrorBook s (mirrorFlows s (mirrorQueues s t))).mem.layer }

/-- The loader writes every line of the flow table, and what stands in the day book and the queues, once the banks of the pool are set
(R225, R405). -/
def writeTables (s : State) : State :=
  let z := (banksOf s.fab.banks 0x10).map fun k => s.bankIndex (k / 144) (k / 4 % 36) (k % 4)
  let s1 := { s with
    mem.layer := s.mem.layer.filter fun c => !z.contains (c.1 / 65536)
    mem.zeroed := z ++ s.mem.zeroed.filter fun n => !z.contains n }
  mirror { s1 with queues := [], flows := [], log.ring := [] } s1

/-- A command that changes the state as f says, its events raised in one cycle. -/
def run (f : State → State) (s : State) : Host.Outcome State Fault Refusal := .next (mirror s (inOneCycle f s))

end Sys2Proof.Machine
end

