-- ==== Sys2Proof/Machine/SlipOps.lean ====
section
/-! DEFINITION. Call slips as every family uses them: statuses, parameter fields, start, commit, reply and completion
("Call slips: channels, format and ordering"; R380 to R383). -/

namespace Sys2Proof.Machine
open Sys2Proof

/-! ## Status codes (R371) -/

namespace St
def ok : BitVec 16 := 0x0000
def accepted : BitVec 16 := 0x0001
def lengthExcess : BitVec 16 := 0x0002
def unknownOpcode : BitVec 16 := 0x0003
def badParam : BitVec 16 := 0x0004
def modeConflict : BitVec 16 := 0x0005
def superseded : BitVec 16 := 0x0006
def busError : BitVec 16 := 0x0007
def rights : BitVec 16 := 0x0008
def qualifyTimeout : BitVec 16 := 0x0009
def notQualified : BitVec 16 := 0x000A
def uncorrectable : BitVec 16 := 0x000B
def streamFail : BitVec 16 := 0x0301
def streamTooLong : BitVec 16 := 0x0302
def streamContent : BitVec 16 := 0x0303
def streamBusy : BitVec 16 := 0x0304
def flashNotErased : BitVec 16 := 0x0305
def archiveBad : BitVec 16 := 0x0306
def rotaLength : BitVec 16 := 0x0401
def rotaMisaligned : BitVec 16 := 0x0402
def folioEmpty : BitVec 16 := 0x0403
def folioBusy : BitVec 16 := 0x0404
def throttleProtected : BitVec 16 := 0x0405
def channelsBusy : BitVec 16 := 0x0406
def attachFit : BitVec 16 := 0x0407
def queueSpace : BitVec 16 := 0x0601
def queueOverlap : BitVec 16 := 0x0602
def queueBusy : BitVec 16 := 0x0603
def queueInUse : BitVec 16 := 0x0604
def flowBusy : BitVec 16 := 0x0701
def badEgress : BitVec 16 := 0x0702
def queueDisabled : BitVec 16 := 0x0703
def calConflict : BitVec 16 := 0x0704
def calFit : BitVec 16 := 0x0705
def editionClass : BitVec 16 := 0x0706
def delaySpace : BitVec 16 := 0x0707
def retired : BitVec 16 := 0x0801
def retireFull : BitVec 16 := 0x0802
def bankInUse : BitVec 16 := 0x0803
def ledgerPoison : BitVec 16 := 0x0804
def poolMinimum : BitVec 16 := 0x0805
def rightsInUse : BitVec 16 := 0x0901
def fuseDenied : BitVec 16 := 0x0902
def writeOnce : BitVec 16 := 0x0903
def stockNoWindow : BitVec 16 := 0x0A01
def stockConditions : BitVec 16 := 0x0A02
def stockBusy : BitVec 16 := 0x0A03
def repairNoSpare : BitVec 16 := 0x0A04
end St

/-! ## What a slip's checks and effect answer -/

/-- An error: nothing takes effect, but that a failing check may discard a pending set (R93, R391). The result may carry a
failing address or index (R370). -/
structure SlipErr where
  status : BitVec 16
  detail : Nat := 0
  result : List Byte := []
  discard : State → State := id

/-- A commit: the state with the slip's effects, the status of its reply, its result; with post, an L slip whose work has
already ended posts its completion behind the reply (R374). -/
structure SlipOk where
  state : State
  status : BitVec 16 := St.ok
  result : List Byte := []
  post : Option (BitVec 16) := none

abbrev SlipOut := Except SlipErr SlipOk

/-- The next check in the order of R383. -/
def need (c : Bool) (e : SlipErr) : Except SlipErr Unit := if c then .ok () else .error e

def fail (status : BitVec 16) : SlipErr := { status := status }
/-- BAD_PARAM with the offset of the first offending byte (R370, R383). -/
def bad (off : Nat) : SlipErr := { status := St.badParam, detail := off }
def tooLong (off : Nat) : SlipErr := { status := St.lengthExcess, detail := off }

def okSlip (s : State) : SlipOut := .ok { state := s }
def okResult (s : State) (r : List Byte) : SlipOut := .ok { state := s, result := r }

/-- An L slip's commit: it replies ACCEPTED and its completion is awaited (R374). -/
def accept (s : State) : SlipOut := .ok { state := s, status := St.accepted }
/-- An L slip whose work ends at its commit point: ACCEPTED, then the completion event. -/
def acceptDone (s : State) (status : BitVec 16) (r : List Byte := []) : SlipOut :=
  .ok { state := s, status := St.accepted, post := some status, result := r }

/-! ## Parameter fields -/

/-- The n-byte field at slip byte off (R380). -/
def arg (p : List Byte) (off n : Nat) : Nat := leAt p (off - 16) n

/-- A named parameter field: first byte, length, and whether its value is in range. -/
structure PField where
  off : Nat
  len : Nat
  ok : Bool

/-- The first offending byte in ascending order: a named field out of range, or an unnamed byte that is not zero. Bytes from
stop on belong to entries and are checked with them. -/
def badByteFrom (fs : List PField) (stop : Nat) (i : Nat) (p : List Byte) : Option Nat :=
  match p with
  | [] => (fs.find? fun f => i ≤ f.off && !f.ok).map PField.off
  | b :: r =>
    if stop ≤ i then none
    else match fs.find? (fun f => f.off == i && !f.ok) with
      | some f => some f.off
      | none =>
        if (fs.any fun f => f.off ≤ i && i < f.off + f.len) || b == 0 then badByteFrom fs stop (i + 1) r else some i

/-- Step 4 of R383 over the fixed parameters, whose entries begin at stop. -/
def fieldsTo (fs : List PField) (stop : Nat) (p : List Byte) : Except SlipErr Unit :=
  match badByteFrom fs stop 16 p with
  | some off => .error (bad off)
  | none => .ok ()

/-- Step 4 of R383 for a slip without entries: every unnamed byte is zero (R366, R380). -/
def fields (fs : List PField) (p : List Byte) : Except SlipErr Unit := fieldsTo fs (16 + p.length) p

/-- The bytes from off on are zero, or the first that is not. -/
def zeroFrom (off : Nat) (p : List Byte) : Except SlipErr Unit :=
  match (p.drop (off - 16)).findIdx? (fun b => b != 0) with
  | some i => .error (bad (off + i))
  | none => .ok ()

/-- R369: a count of entries of size n from byte first, between lo and hi; what is out of range is BAD_PARAM, what the slip
cannot hold LENGTH_EXCESS, both at the count's offset. -/
def counted (p : List Byte) (off cnt lo hi first size : Nat) : Except SlipErr Unit :=
  if cnt < lo || hi < cnt then .error (bad off)
  else if 16 + p.length < first + cnt * size then .error (tooLong off) else .ok ()

/-! ## Channels -/

/-- A reply's slots: the fewest that hold its result (R380). -/
def slotsFor (result : List Byte) : Nat := (16 + result.length + 63) / 64

/-- Reply slots free on ring n (R359). -/
def replyRoom (r : RingSt) : Nat := 256 - (r.rprod - r.rcons).toNat

/-- R361: the channel stalls: a reply waits for room, or the link is down. -/
def State.stalled (s : State) (ch : Nat) : Bool :=
  if ch < 4 then
    let r := s.ring ch
    (r.enable || r.draining) && (!s.pkg.pcieUp || (match (s.chan ch).waiting.head? with
      | some w => replyRoom r < slotsFor w.result
      | none => false))
  else if ch = 4 then 16 ≤ (s.chan 4).written.length + (s.chan 4).waiting.length
  else false

/-- The bytes of a slip as it lies in its channel. -/
def slipBytes (op : BitVec 16) (h : SlipHdr) (p : List Byte) : List Byte :=
  leBytes 2 op.toNat ++ [h.flags, h.count] ++ leBytes 2 h.tag.toNat ++ leBytes 2 h.seq.toNat ++ leBytes 8 h.reserved.toNat ++ p

/-- A slip of the channel has yet to start. -/
def State.hasSlip (s : State) (ch : Nat) : Bool :=
  if ch < 4 then
    let r := s.ring ch
    r.enable && !r.draining && !r.dmaFault && r.cons != r.prod
  else if ch = 4 then !s.slips.sbQueue.isEmpty
  else s.slips.inEnabled && !s.slips.inQueue.isEmpty

/-- The slip lies in its channel, unstarted: published on an enabled ring (the host's memory holds its bytes), queued on the
sideband, or taken from the in-band flow. A passable slip with may_pass need not be the first. -/
def State.holds (s : State) (ch : Nat) (bytes : List Byte) (pass : Bool) : Bool :=
  let inList (l : List (List Byte)) := if pass then l.contains bytes else l.head? == some bytes
  if ch < 4 then s.hasSlip ch
  else if ch = 4 then inList s.slips.sbQueue
  else s.slips.inEnabled && inList s.slips.inQueue

/-- R46's budget of the desk's call slips has room; before frames begin there is no frame to count it in. -/
def State.slipBudget (s : State) (ch : Nat) : Bool :=
  !s.frame.running || (s.slips.started < 64 && (ch != 4 || s.slips.sbStarted < 4) && s.slips.cycles + 1000 ≤ 70000)

/-- The desk may start a slip (R58, R375, R377, R378). -/
def State.deskStarts (s : State) (ch : Nat) : Bool :=
  s.up && !s.clk.cold && !s.clk.stoppedDevice && !s.desk.doubleFail && !s.desk.takeover && s.slipBudget ch

/-- The channel has a slip to start: it is not empty, not stalled, and does not wait under fence for slips still open (R375). -/
def State.channelReady (s : State) (ch : Nat) : Bool :=
  s.deskStarts ch && !s.stalled ch && s.hasSlip ch && ((s.chan ch).fenceWait.isNone || (s.chan ch).open_.isEmpty)

/-- R375: the round-robin of the channels comes to this one: none between the one served last and it has a slip to start. -/
def State.channelsTurn (s : State) (ch : Nat) : Bool :=
  (List.range ((ch + 5 - s.slips.served.val) % 6)).all fun i => !s.channelReady ((s.slips.served.val + 1 + i) % 6)

/-- Ordering classes of R381. -/
inductive OrdClass where
  | ordinary | passable | fencing
deriving DecidableEq, Repr

def mayPass (h : SlipHdr) : Bool := h.flags.getLsbD 0
def wantsFence (h : SlipHdr) : Bool := h.flags.getLsbD 1
def wantsNoReply (h : SlipHdr) : Bool := h.flags.getLsbD 2

def passes (h : SlipHdr) (c : OrdClass) : Bool := mayPass h && !wantsFence h && c == .passable
def fences (h : SlipHdr) (c : OrdClass) : Bool := (wantsFence h && !mayPass h) || c == .fencing

/-- R373: the slip need not wait for earlier slips of its channel. -/
def State.inTurn (s : State) (h : SlipHdr) (c : OrdClass) : Bool :=
  let k := s.chan h.ch.val
  passes h c || ((k.fenceWait == none || k.fenceWait == some h.seq) && (!fences h c || k.open_.isEmpty))

/-- The slip can start now. -/
def State.starts (s : State) (op : BitVec 16) (h : SlipHdr) (p : List Byte) (c : OrdClass) : Bool :=
  s.deskStarts h.ch.val && s.channelsTurn h.ch.val && !s.stalled h.ch.val && s.holds h.ch.val (slipBytes op h p) (passes h c) && s.inTurn h c

/-- The core cycles that the n-th start takes: at most 1,000, and otherwise open (R375, log entry 5). -/
def slipCycles (n : Nat) : Nat := (Config.freeValue n).toNat % 1001

/-- The slots that a slip takes from the slip ring: its own, or with LENGTH_EXCESS everything published (R367). -/
def ringTake (r : RingSt) (count : Nat) : BitVec 9 :=
  let have_ := (r.prod - r.cons).toNat
  if count = 0 || 64 < count || have_ < count then r.prod else r.cons + BitVec.ofNat 9 count

/-- Starting a slip: it leaves its channel, counts against the budget and among the slips executed (R375). -/
def startSlip (op : BitVec 16) (h : SlipHdr) (p : List Byte) (s : State) : State :=
  let ch := h.ch.val
  let s := { s.useFree with
    slips.served := h.ch
    slips.started := s.slips.started + 1
    slips.sbStarted := s.slips.sbStarted + (if ch = 4 then 1 else 0)
    slips.cycles := s.slips.cycles + slipCycles s.frame.freeCount }
  let s := s.modChan ch fun k => { k with fenceWait := if k.fenceWait == some h.seq then none else k.fenceWait }
  if ch < 4 then
    s.modRing ch fun r => { r with cons := ringTake r h.count.toNat, executed := sat 0xFFFF r.executed 1 }
  else if ch = 4 then
    { s with slips.sbQueue := s.slips.sbQueue.erase (slipBytes op h p), slips.sbExecuted := sat 255 s.slips.sbExecuted 1 }
  else { s with slips.inQueue := s.slips.inQueue.erase (slipBytes op h p) }

/-- R368: the number breaks the channel's series. -/
def State.gapIn (s : State) (h : SlipHdr) : Bool :=
  match (s.chan h.ch.val).lastSeq with
  | none => false
  | some q => h.seq != q + 1

def slipId (s : State) (op : BitVec 16) (h : SlipHdr) (c : OrdClass) : SlipId :=
  { ch := h.ch, op := op, tag := h.tag, seq := h.seq, noReply := wantsNoReply h, gen := (s.ring h.ch.val).gen,
    flags := BitVec.ofNat 8 (bitOf (s.gapIn h) + (if mayPass h && c != .passable then 4 else 0)) }

/-- R374: with no_reply set, OK and ACCEPTED are not written. -/
def SlipId.writes (id : SlipId) (status : BitVec 16) : Bool :=
  !(id.noReply && (status == St.ok || status == St.accepted))

/-- Queue a reply or completion event behind those its channel still has to write (R373). -/
def queueReply (r : Reply) (s : State) : State :=
  if r.id.writes r.status then s.modChan r.id.ch.val fun k => { k with waiting := k.waiting ++ [r] } else s

def replyOf (id : SlipId) (status : BitVec 16) (detail : Nat) (result : List Byte) : Reply :=
  { id := id, completion := false, status := status, flags := id.flags, detail := w32 detail, result := result }

def completionOf (id : SlipId) (status : BitVec 16) (detail : Nat) (result : List Byte) : Reply :=
  { id := id, completion := true, status := status, flags := id.flags, detail := w32 detail, result := result }

/-- The 16 bytes of a reply's header, phase bit given (R370). -/
def headerBytes (r : Reply) (phase : Bool) : List Byte :=
  leBytes 2 r.id.op.toNat ++ [if r.completion then 2 else 1, BitVec.ofNat 8 (slotsFor r.result)] ++
    leBytes 2 r.id.tag.toNat ++ leBytes 2 r.id.seq.toNat ++ leBytes 2 r.status.toNat ++
    [r.flags, if phase then 1 else 0] ++ leBytes 4 r.detail.toNat

/-- The header as an entry's detail: its first 12 bytes, which are all the detail holds (log entry 7). -/
def headerDetail (r : Reply) : List (Nat × Nat) := [(96, ofLe ((headerBytes r false).take 12))]

/-- The ring that took the slip is disabled, or has been enabled again since (R363). -/
def State.ringGone (s : State) (id : SlipId) : Bool :=
  id.ch.val < 4 && (!(s.ring id.ch.val).enable || (s.ring id.ch.val).gen != id.gen)

/-- Post the completion event of an L slip whose work has ended (R374, R363). -/
def complete (id : SlipId) (status : BitVec 16) (detail : Nat) (result : List Byte) (s : State) : State :=
  let r := completionOf id status detail result
  let s := s.modChan id.ch.val fun k => { k with open_ := k.open_.erase id }
  if s.ringGone id then (if id.writes status then info 0x0B0A id.ch.val (headerDetail r) s else s)
  else queueReply r s

def completeAll (ids : List SlipId) (status : BitVec 16) (s : State) : State :=
  ids.foldl (fun s id => complete id status 0 [] s) s

def completeOpt (id : Option SlipId) (status : BitVec 16) (s : State) : State :=
  match id with
  | some i => complete i status 0 [] s
  | none => s

/-- R366, R367, R373: the header's own checks. -/
def headerCheck (s : State) (h : SlipHdr) : Except SlipErr Unit :=
  let c := h.count.toNat
  let r := s.ring h.ch.val
  if c = 0 || 64 < c || (h.ch.val < 4 && (r.prod - r.cons).toNat < c) then .error (tooLong 3)
  else if h.flags.toNat / 8 != 0 || (mayPass h && wantsFence h) then .error (bad 2)
  else match (leBytes 8 h.reserved.toNat).findIdx? (fun b => b != 0) with
    | some i => .error (bad (8 + i))
    | none => .ok ()

/-- Count a LENGTH_EXCESS reply of the channel. -/
def countExcess (ch : Nat) (s : State) : State :=
  if ch < 4 then s.modRing ch fun r => { r with lengthExcess := sat 127 r.lengthExcess 1 }
  else if ch = 4 then { s with slips.sbLengthExcess := sat 255 s.slips.sbLengthExcess 1 }
  else s

/-- The series goes on from this slip; a gap is counted and raises SLIP_SEQ_GAP (R368). -/
def noteSeq (gap : Bool) (h : SlipHdr) (s : State) : State :=
  let s := s.modChan h.ch.val fun k =>
    { k with lastSeq := some h.seq, seqGaps := if gap then sat 255 k.seqGaps 1 else k.seqGaps }
  if gap then warn 0x0B07 h.ch.val [(16, h.seq.toNat)] s else s

/-- A commit: the record's latest entry, the reply, the SLIP_TRACE of R398, and what an L slip still owes. -/
def commitSlip (id : SlipId) (o : SlipOk) : State :=
  let r := replyOf id o.status 0 (if o.post = none then o.result else [])
  let s := { o.state with slips.lastCh := BitVec.ofNat 3 id.ch.val, slips.lastSeq := id.seq }
  let s := raise .trace 0x0B0B id.ch.val (headerDetail r) (queueReply r s)
  if o.status == St.accepted then
    match o.post with
    | none => s.modChan id.ch.val fun k => { k with open_ := k.open_ ++ [id] }
    | some st => complete id st 0 o.result s
  else s

/-- A slip given to the desk: if it cannot start it waits in its channel; else it starts, is checked in the order of R383,
and commits or fails. The body checks modes, fields, counts and rules, and gives the effect. -/
def runSlip (op : BitVec 16) (c : OrdClass) (h : SlipHdr) (p : List Byte)
    (body : SlipId → State → SlipOut) (s : State) : State :=
  if s.starts op h p c then
    let id := slipId s op h c
    let gap := s.gapIn h
    match headerCheck s h with
    | .error e =>
      let s := noteSeq gap h (startSlip op h p s)
      queueReply (replyOf id e.status e.detail e.result)
        (if e.status == St.lengthExcess then countExcess h.ch.val s else s)
    | .ok () =>
      let s := noteSeq gap h (startSlip op h p s)
      match body id s with
      | .error e =>
        let s := e.discard s
        queueReply (replyOf id e.status e.detail e.result)
          (if e.status == St.lengthExcess then countExcess h.ch.val s else s)
      | .ok o => commitSlip id o
  else if fences h c && s.deskStarts h.ch.val && s.holds h.ch.val (slipBytes op h p) false &&
      (s.chan h.ch.val).fenceWait == none then
    s.modChan h.ch.val fun k => { k with fenceWait := some h.seq }
  else s

/-- The meaning of a call slip. -/
def slip (op : BitVec 16) (c : OrdClass) (h : SlipHdr) (p : List Byte) (body : SlipId → State → SlipOut) (s : State) :
    Host.Outcome State Fault Refusal :=
  run (runSlip op c h p body) s

/-! ## Modes that accept a family (R58, R384) -/

def modeIn (m : Mode) (l : List Mode) : Bool := l.contains m

/-- Families 0x01, 0x06, 0x07: every house mode but Closing. -/
def houseOpen (s : State) : Except SlipErr Unit := need (s.modes.house != .closing) (fail St.modeConflict)

/-- The house is in one of the modes. -/
def houseIn (s : State) (l : List Mode) : Except SlipErr Unit := need (modeIn s.modes.house l) (fail St.modeConflict)

/-- The bay, where the slip names one that exists, is in one of the modes; a bay out of range fails later, at its field. -/
def bayIn (s : State) (b : Nat) (l : List Mode) : Except SlipErr Unit :=
  need (32 ≤ b || modeIn (s.bayMode b) l) (fail St.modeConflict)

def portIn (s : State) (p : Nat) (l : List Mode) : Except SlipErr Unit :=
  need (144 ≤ p || modeIn (s.portMode p) l) (fail St.modeConflict)

/-- Family 0x04: a bay in Bring-up, Service or Bindery. -/
def fabricModes : List Mode := [.bringUp, .service, .bindery]

end Sys2Proof.Machine
end

