-- ==== Sys2Proof/Machine/Modes.lean ====
section
/-! DEFINITION. Modes of the house, the bays and the ports: MODE_SET, MODE_QUERY, readiness and mode changes ("Operating
modes and their combinations"). -/

namespace Sys2Proof.Machine
open Sys2Proof

/-- The register index of a domain in its kind. -/
def domIndex : Domain → Nat
  | .house => 0 | .bay b => b.val | .port p => p.val

def domKind : Domain → Nat
  | .house => 0 | .bay _ => 1 | .port _ => 2

/-- Causes of a mode change (R55). -/
inductive Cause where
  | slip | auto | forced
deriving DecidableEq, Repr

def Cause.code : Cause → Nat
  | .slip => 0 | .auto => 1 | .forced => 2

/-- R55: the change is entered in the day book: information, or a warning for forced changes, Holdover entries and thermal
Closings. -/
def noteMode (d : Domain) (old new : Mode) (c : Cause) (thermal : Bool) (s : State) : State :=
  let cls := if c == .forced || new == .holdover || thermal then EvClass.warning else .info
  raise cls 0x0C01 (domIndex d) [(8, domKind d), (16, domIndex d), (3, old.code), (3, new.code), (16, c.code)] s

/-- The steps of the start-up order that are complete (R270). -/
def stepCode (order : BitVec 16) (i : Nat) : Nat := field (if order = 0 then 0x28E9 else order.toNat) (3 * i + 2) (3 * i)

/-- Step code k of R270 (A 1, B 2, C 3, D 4, E 5) is complete. -/
def State.stepDone (s : State) (k : Nat) : Bool :=
  (List.range s.cfg.stepsDone).any fun i => stepCode s.cfg.order i == k

/-- Step k has been taken: complete, or E being waited on. -/
def State.stepTaken (s : State) (k : Nat) : Bool := s.stepDone k || s.cfg.stepTaken == some k

def State.edition (s : State) (n : Nat) : Option EditionSt := Sparse.look s.fab.editions n

/-- Editions bound to some port that have a member in the bay. -/
def State.boundIn (s : State) (b : Nat) : List Nat :=
  (s.fab.editions.filter fun (n, e) => (e.members.any fun m => m.bay == b) &&
    (s.fab.binds.any fun (_, w) => w.edition == n)).map (·.1)

/-- R51: a bay that holds no edition is ready as soon as it enters Bring-up. -/
def State.bayReady (s : State) (b : Nat) : Bool :=
  s.bayMode b == .bringUp && ((s.boundIn b).isEmpty || getBit s.modes.ready b)

/-- R52. -/
def execBayNotReady (b : Bay) (s : State) : Host.Outcome State Fault Refusal :=
  run (when (s.bayMode b.val == .bringUp && !s.bayReady b.val && 8000 ≤ Sparse.get 0 s.modes.bringUpFrames b.val &&
      !getBit s.modes.notReadyTold b.val) fun s =>
    warn 0x0403 b.val [] { s with modes.notReadyTold := setBit s.modes.notReadyTold b.val true }) s

/-! ## MODE_SET (R62, R63) -/

/-- The domain a MODE_SET names, if it exists. -/
def domainOf (kind index : Nat) : Option Domain :=
  if kind = 0 then (if index = 0 then some .house else none)
  else if kind = 1 then (if h : index < 32 then some (.bay ⟨index, h⟩) else none)
  else if kind = 2 then (if h : index < 144 then some (.port ⟨index, h⟩) else none)
  else none

/-- The transitions of "Table: mode transitions" that a slip may ask for. -/
def slipMay (d : Domain) (old new : Mode) : Bool :=
  match d with
  | .house => match old, new with
    | _, .intake => true
    | .service, .bindery => true
    | .bindery, .service => true
    | .intake, _ => false
    | .closing, _ => false
    | _, .closing => true
    | _, _ => false
  | .bay _ => match old, new with
    | _, .intake => true
    | .bringUp, .service => true
    | .holdover, .service => true
    | .service, .bindery => true
    | .holdover, .bindery => true
    | .bindery, .bringUp => true
    | .intake, _ => false
    | .closing, _ => false
    | _, .closing => true
    | _, _ => false
  | .port _ => match old, new with
    | _, .intake => true
    | .service, .bindery => true
    | .holdover, .bindery => true
    | .bindery, .bringUp => true
    | .closing, .bringUp => true
    | .intake, _ => false
    | .closing, _ => false
    | _, .closing => true
    | _, _ => false

/-- The mode the domain will be in once a MODE_SET already committed for the next boundary has applied (R54, R372). -/
def State.modeAhead (s : State) (d : Domain) : Mode :=
  match (s.modes.pend.filter fun m => m.dom == d && m.delay == 0).getLast? with
  | some m => m.target
  | none => s.mode d

/-- R63: a pending MODE_SET with a delay is cancelled by a later one for its domain. -/
def cancelDelayed (d : Domain) (s : State) : State :=
  let gone := s.modes.pend.filter fun m => m.dom == d && m.delayed
  gone.foldl (fun s m => complete m.id St.superseded 0 [] s)
    { s with modes.pend := s.modes.pend.filter fun m => !(m.dom == d && m.delayed) }

/-- R445: a gated bay or port cannot be taken into Bring-up. -/
def State.gatedDom (s : State) : Domain → Bool
  | .house => false
  | .bay b => getBit s.clk.gatedBay b.val
  | .port p => getBit s.clk.gatedPort p.val

/-- A bay apply or a load into the bay is under way (R278). -/
def State.applyIn (s : State) (b : Nat) : Bool :=
  s.fab.reqs.any fun r => match r.kind with
    | .apply x _ => x.val == b
    | _ => false

/-- R63: one that names the mode its domain is in ends OK at its commit point; one that a change committed for the next
boundary makes a legal request waits behind it (R54). -/
def modeSetBody (p : List Byte) (archiveOk : Bool) (id : SlipId) (s : State) : SlipOut := do
  let kind := arg p 16 1
  let target := arg p 17 1
  let index := arg p 18 2
  let dom := domainOf kind index
  fields [⟨16, 1, kind < 3⟩, ⟨17, 1, target < 6⟩, ⟨18, 2, 3 ≤ kind || dom.isSome⟩, ⟨20, 2, true⟩, ⟨22, 2, true⟩,
    ⟨24, 2, true⟩, ⟨26, 1, arg p 26 1 < 2⟩] p
  let d := dom.getD .house
  let new := (Mode.ofCode target).getD .intake
  let now := s.modeAhead d
  let delay := arg p 20 2
  let drain := arg p 22 2
  let m : PendMode := { dom := d, target := new, delay := delay, delayed := delay != 0, drain := if drain = 0 then 800 else drain,
                        test := arg p 24 2, force := arg p 26 1 == 1, archiveOk := archiveOk, id := id }
  if s.mode d == new then acceptDone (cancelDelayed d s) St.ok
  else do
    need (now == new || (slipMay d now new && !(new == .bringUp && s.gatedDom d))) (fail St.modeConflict)
    let s := cancelDelayed d s
    accept { s with modes.pend := s.modes.pend ++ [m] }

def execModeSet (h : SlipHdr) (p : List Byte) (archiveOk : Bool) (s : State) : Host.Outcome State Fault Refusal :=
  slip 0x0C01 .ordinary h p (modeSetBody p archiveOk) s

def State.modePending (s : State) (d : Domain) : Bool := s.modes.pend.any fun m => m.dom == d

/-- Nibbles of mode codes, two to a byte, low first (R64). -/
def modeNibbles (s : State) (l : List Domain) : Nat := pack (l.map fun d => (4, (s.mode d).code))

/-- R64, R396: bytes 16 to 127 of the reply. -/
def modeQueryResult (s : State) : List Byte :=
  leBytes 1 (s.mode .house).code ++ leBytes 16 (modeNibbles s (allBays.map .bay)) ++
    leBytes 72 (modeNibbles s (allPorts.map .port)) ++
    leBytes 23 (pack (allDomains.map fun d => (1, bitOf (s.modePending d))))

def execModeQuery (h : SlipHdr) (p : List Byte) (s : State) : Host.Outcome State Fault Refusal :=
  slip 0x0C02 .passable h p (fun _ s => do
    fields [] p
    okResult s (modeQueryResult s)) s

end Sys2Proof.Machine
end

