-- ==== Sys2Proof/Machine/Store.lean ====
section
/-! DEFINITION. The two stores as every user of them sees them: contents, error logs, retirement, the ledger tree and its
cache, rights, and one access to a check word or a block ("Memory layer and side store"; "Inline encryption of the side
store"). -/

namespace Sys2Proof.Machine
open Sys2Proof

/-! ## What an access answers -/

/-- How an access ends: served, or the error form of the requester for one of the reasons of R228, R248, R251 and R59. -/
inductive Acc where
  | ok | uncorrectable | retired | poison | rights | busError | mode
deriving DecidableEq, Repr

def Acc.isOk : Acc → Bool
  | .ok => true | _ => false

/-! ## Contents -/

/-- n bytes from address a, those never written open (R224). -/
def cellsAt (m : List Host.Cell) (use store a n : Nat) : List Byte :=
  (List.range n).map fun i => (Sparse.look m (a + i)).getD (Config.unwritten use store (a + i))

/-- Writes keep the addresses rising. -/
def cellsPut (m : List Host.Cell) (a : Nat) (l : List Byte) : List Host.Cell :=
  match l with
  | [] => m
  | b :: r => cellsPut (Sparse.ins m a b) (a + 1) r

/-- A repair, a remap, a test or a new key takes the contents of n bytes from a (R224). -/
def cellsDrop (m : List Host.Cell) (a n : Nat) : List Host.Cell := m.filter fun c => c.1 < a || a + n ≤ c.1

/-- A byte of flash; erased flash reads 0xFF (R256). -/
def flashByte (m : List Host.Cell) (a : Nat) : Byte := (Sparse.look m a).getD 0xFF
def flashBytes (m : List Host.Cell) (a n : Nat) : List Byte := (List.range n).map fun i => flashByte m (a + i)

/-- Programming leaves every byte written, until its sector is erased. -/
def flashPut (m : List Host.Cell) (a : Nat) (l : List Byte) : List Host.Cell := cellsPut m a l

/-- n bytes of the memory layer: those that were never written are open, or zeros in a bank that the device has cleared (R224, R225). -/
def State.layerRead (s : State) (a n : Nat) : List Byte :=
  (List.range n).map fun i =>
    let x := s.layerPhys (a + i)
    (Sparse.look s.mem.layer x).getD
      (if s.mem.zeroed.contains (x / 65536) then 0 else Config.unwritten s.frame.freeCount 0 x)

def State.sideBytes (s : State) (a n : Nat) : List Byte := cellsAt s.mem.side s.frame.freeCount 1 a n

def sidePut (a : Nat) (l : List Byte) (s : State) : State := { s with mem.side := cellsPut s.mem.side a l }

/-! ## Retirement (R228, R231) -/

def State.pageRetired (s : State) (page : Nat) : Bool := s.mem.retired.any fun r => !r.bank && r.index == page

/-- The retirement of a bank is in force from its bay's Bindery on. -/
def State.physRetired (s : State) (phys : Nat) : Bool := s.mem.retired.any fun r => r.bank && r.inForce && r.index == phys

/-- An access to a retired location: counted, and told once per frame and requester. -/
def retiredHit (req : Nat) (s : State) : State :=
  let s := { s with mem.retireHits := sat 0xFFFF s.mem.retireHits 1 }
  if s.mem.toldRetired.contains req then s
  else warn 0x0803 req [] { s with mem.toldRetired := req :: s.mem.toldRetired }

/-! ## Check-code findings (R227, R228) -/

/-- The place of layer address a as the logs hold it: check word, line, bank. -/
def layerPlace (a : Nat) : List (Nat × Nat) := [(2, a / 8), (11, a / 32), (13, a / 65536)]

def memCorrected (req a pos : Nat) (write : Bool) (s : State) : State :=
  info 0x0805 req (layerPlace a ++ [(8, req), (8, pos)]) { s with
    mem.ce := sat 0xFFFF s.mem.ce 1
    mem.ceLog := w32 (pack (layerPlace a))
    mem.ceInfo := w32 (pack [(7, 0), (1, bitOf write), (8, pos), (8, req)]) }

def memUncorrectable (req a : Nat) (syndrome : Nat) (write : Bool) (s : State) : State :=
  alarm 0x0801 req (layerPlace a ++ [(8, req), (8, syndrome)]) { s with
    mem.ue := sat 0xFFFF s.mem.ue 1
    mem.ueLog := w32 (pack (layerPlace a))
    mem.ueInfo := w32 (pack [(7, 0), (1, bitOf write), (8, 0xFF), (8, req)]) }

/-- The finding at a read of one check word, at a partial write's read if write is set. -/
def memFinding (req a : Nat) (f : Found) (write : Bool) (s : State) : State :=
  match f with
  | .clean => s
  | .macFail => s
  | .corrected pos _ => memCorrected req a pos write s
  | .uncorrectable syn => memUncorrectable req a syn.toNat write s

def foundBad : Found → Bool
  | .uncorrectable _ => true | .macFail => true | _ => false

/-- Side of a block: 2^28 blocks a side (R220). -/
def blockSide (block : Nat) : Nat := block / 2 ^ 28

def sideCorrected (req block pos value : Nat) (write : Bool) (s : State) : State :=
  info 0x0806 req [(29, block), (8, req), (7, pos), (8, value)] { s with
    mem.sideCe := bump 0xFFFF s.mem.sideCe (blockSide block)
    mem.sideCeLog := w32 block
    mem.sideCeInfo := w32 (pack [(8, value), (7, pos), (1, bitOf write), (8, req)]) }

def sideUncorrectable (req block syndrome : Nat) (write : Bool) (s : State) : State :=
  alarm 0x0802 req [(29, block), (8, req), (8, syndrome)] { s with
    mem.sideUe := bump 0xFFFF s.mem.sideUe (blockSide block)
    mem.sideUeLog := w32 block
    mem.sideUeInfo := w32 (pack [(8, 0), (7, 0x7F), (1, bitOf write), (8, req)]) }

/-- R249. The event's subject is the volume. -/
def authFail (block : Nat) (s : State) : State :=
  nonMask 0x0901 (block / 2 ^ 24) [(29, block)] { s with
    crypto.authData := sat 0xFFFF s.crypto.authData 1
    crypto.macFailLog := w32 block }

def sideFinding (req block : Nat) (f : Found) (write : Bool) (s : State) : State :=
  match f with
  | .clean => s
  | .corrected pos v => sideCorrected req block pos v.toNat write s
  | .uncorrectable syn => sideUncorrectable req block syn.toNat write s
  | .macFail => authFail block s

/-- R229: the refusal of a partial write at an uncorrectable location. -/
def refuseWrite (req : Nat) (s : State) : State := warn 0x0804 req [] s

/-! ## Ledger nodes (R236, R237) -/

/-- Node key of a level and an index. -/
def nkey (level index : Nat) : Nat := level * 2 ^ 23 + index
def nlevel (k : Nat) : Nat := k / 2 ^ 23
def nindex (k : Nat) : Nat := k % 2 ^ 23
def nparent (k : Nat) : Nat := nkey (nlevel k + 1) (nindex k / 64)
/-- The node over a page at a level. -/
def nodeOver (level page : Nat) : Nat := nkey level (page / 64 ^ level)
def nodeVol (k : Nat) : Nat := nindex k * 64 ^ nlevel k / 2 ^ 18
/-- A node as an event's subject: level and index as LEDGER_LOG holds them. -/
def nodeSubject (k : Nat) : Nat := nlevel k * 2 ^ 30 + nindex k

def LedgerNode.minor (n : LedgerNode) (i : Nat) : Nat := Sparse.get 0 n.minors i
def setMinor (i v : Nat) (n : LedgerNode) : LedgerNode := { n with minors := Sparse.put 0 n.minors i v }

/-- The 64 bytes of "Table: counter block". -/
def nodeBytes (n : LedgerNode) : List Byte :=
  leBytes 64 (pack ([(32, n.major)] ++ ((List.range 64).map fun i => (7, n.minor i)) ++
    [(1, bitOf n.epoch), (1, bitOf n.rebuilding), (24, n.generation), (6, 0)]))

def State.cached (s : State) (k : Nat) : Bool := s.crypto.cache.any fun e => e.1 == k

/-- Move a resident node to the front, marked dirty if so asked. -/
def touchNode (k : Nat) (dirty : Bool) (s : State) : State :=
  match s.crypto.cache.find? (fun e => e.1 == k) with
  | some e => { s with crypto.cache := (k, e.2 || dirty) :: s.crypto.cache.filter fun e => e.1 != k }
  | none => s

/-! ## Re-keying triggers (R244) -/

/-- Generate a key into the free slot of a pending volume (R244, R246). -/
def newKey (v : Nat) (s : State) : State :=
  let t := s.vol v
  if s.crypto.rngOk && !t.twoLive then
    let n := s.crypto.keyCount
    info 0x0906 v [] (({ s with crypto.keyCount := n + 1 }).modVol v fun t =>
      { t with newSlot := !t.newSlot, twoLive := true, generation := 0,
               key0 := if t.newSlot then some n else t.key0, key1 := if t.newSlot then t.key1 else some n })
  else s

/-- The volume is pending, behind those already triggered. -/
def triggerRekey (v : Nat) (s : State) : State :=
  if (s.vol v).state = 0 then
    newKey v { s.modVol v (fun t => { t with state := 1, watermark := 0 }) with
      crypto.rekeyOrder := s.crypto.rekeyOrder ++ [v] }
  else s

def countOverflow (s : State) : State := { s with crypto.overflows := sat 0xFFFF s.crypto.overflows 1 }

/-! ## Counters above the pages (R241, R242) -/

/-- Increment the counter that its parent keeps for a node: the root's for a level-3 node. -/
def bumpParent (k : Nat) (s : State) : State :=
  let v := nodeVol k
  if nlevel k = 3 then
    let s := if 2 ^ 39 - 1 ≤ (s.vol v).root then triggerRekey v s else s
    s.modVol v fun t => { t with root := (t.root + 1) % 2 ^ 39, rootEpoch := (s.ledger k).epoch }
  else
    let p := nparent k
    let i := nindex k % 64
    let n := s.ledger p
    let s := touchNode p true s
    if n.minor i < 127 then s.modLedger p (setMinor i (n.minor i + 1))
    else
      let s := if 0xFFFFFFFF ≤ n.major then triggerRekey v s else s
      let kids := (List.range 64).map fun j => nkey (nlevel k) (nindex k / 64 * 64 + j)
      let away := (kids.filter fun c => !s.cached c).length
      let s := countOverflow { s with crypto.misses := sat 0xFFFF s.crypto.misses away }
      let s := s.modLedger p fun n => { n with major := (n.major + 1) % 2 ^ 32, minors := [] }
      { s with crypto.cache := s.crypto.cache.map fun e => if kids.contains e.1 then (e.1, true) else e }

/-- Write a dirty node back and evict it; a clean one is only dropped. -/
def evictNode (e : Nat × Bool) (s : State) : State :=
  let s := { s with crypto.cache := s.crypto.cache.filter fun x => x.1 != e.1 }
  if e.2 then bumpParent e.1 { s with crypto.writebacks := sat 0xFFFF s.crypto.writebacks 1 } else s

/-- The least recently used entry of a full set none of whose children is resident. -/
def State.victim (s : State) (k : Nat) : Option (Nat × Bool) :=
  let inSet := s.crypto.cache.filter fun e => Config.cacheSet e.1 % 4096 == Config.cacheSet k % 4096
  if s.crypto.cache.length < 16 then none
  else if 16 ≤ inSet.length then
    inSet.reverse.find? fun e => !(s.crypto.cache.any fun c => nlevel c.1 < nlevel e.1 && nparent c.1 == e.1)
  else none

/-- Make a node resident at the front, fetching it if it is not. -/
def fetchNode (k : Nat) (s : State) : State :=
  if s.cached k then touchNode k false s
  else
    let s := match s.victim k with
      | some e => evictNode e s
      | none => s
    { s with crypto.misses := sat 0xFFFF s.crypto.misses 1, crypto.cache := (k, false) :: s.crypto.cache }

/-! ## Ledger errors (R247, R250) -/

/-- A node as poisoning makes it. -/
def freshNode (t : VolSt) : LedgerNode :=
  { major := 0, minors := [], epoch := t.newSlot, rebuilding := true, generation := t.generation }

/-- The nodes of a poisoned subtree that are written afresh at once: the bad one, and those down to level 1. -/
def freshKeys (k : Nat) : List Nat :=
  k :: ((List.range (nlevel k)).filter fun l => 1 ≤ l).flatMap fun l =>
    (List.range (64 ^ (nlevel k - l))).map fun i => nkey l (nindex k * 64 ^ (nlevel k - l) + i)

def logNode (k cause : Nat) (s : State) : State :=
  { s with crypto.ledgerLog := w32 (pack [(23, nindex k), (4, 0), (3, cause), (2, nlevel k)]) }

/-- R247: poison the subtree beneath a node. -/
def poison (k cause : Nat) (s : State) : State :=
  let v := nodeVol k
  let s := if 0xFFFFFF ≤ (s.vol v).generation then triggerRekey v s
           else s.modVol v fun t => { t with generation := t.generation + 1 }
  let t := s.vol v
  let s := (freshKeys k).foldl (fun s n => s.modLedger n fun _ => freshNode t) s
  let s := bumpParent k (touchNode k true s)
  let s := logNode k cause { s with crypto.poisoned := sat 0xFFFF s.crypto.poisoned 1 }
  let s := if cause = 2 then
      nonMask 0x0901 v [(23, nindex k), (2, nlevel k)] { s with crypto.authLedger := sat 0xFFFF s.crypto.authLedger 1 }
    else alarm 0x0902 (nodeSubject k) [(3, cause)] s
  alarm 0x0903 (nodeSubject k) [(23, nindex k), (2, nlevel k), (16, min 0xFFFF (64 ^ nlevel k)), (16, 0)] s

/-- What the read of a node on the path found. -/
def nodeFinding (k : Nat) (f : NodeFound) (s : State) : State :=
  if f.cacheLoss then
    (if s.crypto.cache.contains (k, true) then poison k 3 s
     else { s with crypto.cache := s.crypto.cache.filter fun e => e.1 != k })
  else match f.found with
    | .clean => s
    | .corrected _ _ =>
      info 0x0905 (nodeSubject k) [] (logNode k 0 { s with crypto.ledgerCe := sat 0xFFFF s.crypto.ledgerCe 1 })
    | .uncorrectable _ => poison k 1 s
    | .macFail => poison k 2 s

/-- The path of a page, from the highest level down. A level-0 node beneath a poisoned one is made fresh at the first access
to its page. -/
def walkPage (page : Nat) (path : List NodeFound) (s : State) : State :=
  let s := [3, 2, 1, 0].foldl (fun s l =>
    let k := nodeOver l page
    let f := path.find? fun x => x.level.val == l
    let s := match f with
      | some f => if s.cached k && !f.cacheLoss then s else nodeFinding k f s
      | none => s
    fetchNode k s) s
  let up := s.ledger (nodeOver 1 page)
  let low := s.ledger (nodeOver 0 page)
  if up.rebuilding && low.generation != up.generation then
    s.modLedger (nodeOver 0 page) fun _ => freshNode (s.vol (page / 2 ^ 18))
  else s

/-- R248: a block of a page being rebuilt that has not been written. -/
def State.unbuilt (s : State) (block : Nat) : Bool :=
  let n := s.ledger (nodeOver 0 (block / 64))
  n.rebuilding && n.minor (block % 64) == 0

/-- The rebuilding bit of a node of level 1 or above clears when every child's has. -/
def settleAbove (k : Nat) (s : State) : State :=
  let n := s.ledger k
  let l := nlevel k
  let clear := n.rebuilding && (List.range 64).all fun i =>
    let c := s.ledger (nkey (l - 1) (nindex k * 64 + i))
    !c.rebuilding && c.generation == n.generation
  if clear then s.modLedger k fun n => { n with rebuilding := false } else s

def settleRebuild (page : Nat) (s : State) : State :=
  let k := nodeOver 0 page
  let n := s.ledger k
  if n.rebuilding && (List.range 64).all fun i => n.minor i != 0 then
    [1, 2, 3].foldl (fun s l => settleAbove (nodeOver l page) s) (s.modLedger k fun n => { n with rebuilding := false })
  else s

/-- R239: the counter of a block advances with its write. None where the page has reached the major end and no key can be
made yet: the write waits (R246). -/
def bumpBlock (block : Nat) (s : State) : Option State :=
  let page := block / 64
  let k := nodeOver 0 page
  let v := page / 2 ^ 18
  let i := block % 64
  let n := s.ledger k
  let s := touchNode k true s
  if n.minor i < 127 then some (settleRebuild page (s.modLedger k (setMinor i (n.minor i + 1))))
  else if n.major < 0xFFFFFFFF then
    let s := countOverflow s
    some (settleRebuild page (s.modLedger k fun n =>
      { n with
        major := n.major + 1
        minors := if n.rebuilding then (n.minors.map fun m => (m.1, 1)) else [] }))
  else
    let s := triggerRekey v s
    if (s.vol v).twoLive then
      some (s.modLedger k fun _ =>
        setMinor i 1 { major := 0, minors := [], epoch := (s.vol v).newSlot, rebuilding := false, generation := 0 })
    else none

/-! ## Rights (R251, R253) -/

/-- acc_v of a master: 0 none, 1 read, 2 write, 3 read-write. -/
def State.access (s : State) (m v : Nat) : Nat :=
  let r := s.rights m
  if v < 16 then field r.accLo.toNat (2 * v + 1) (2 * v) else field r.accHi.toNat (2 * v - 31) (2 * v - 32)

def State.cipherView (s : State) (m v : Nat) : Bool := (s.rights m).view.getLsbD v

def State.mayRead (s : State) (m v : Nat) : Bool := s.access m v % 2 == 1
def State.mayWrite (s : State) (m v : Nat) : Bool := 2 ≤ s.access m v && !s.cipherView m v

def deny (m v : Nat) (s : State) : State :=
  { s with crypto.denyMaster := m, crypto.denyVolume := v, crypto.denyCount := sat 0xFFFF s.crypto.denyCount 1 }

/-- R59: before the stream takes effect in house Intake, only the loader, the desk, and host DMA into the staging area are
served. -/
def State.served (s : State) (req : Nat) (staging : Bool) : Bool :=
  s.modes.house != .intake || s.cfg.streamInEffect || req == 0x38 || req == 0x31 ||
    (0x33 ≤ req && req ≤ 0x36 && staging)

/-- The layer's banks that are a carrel's own are no part of the pool, and stand under no such exception (R59). -/
def State.servedAt (s : State) (req a : Nat) : Bool := !(s.bank (a / 65536)).pool || s.served req false

/-- Side 0 is gated, and its volumes take the error form (R307). -/
def State.sideGated (s : State) (v : Nat) : Bool := s.clk.gatedSide0 && v < 16

/-- The areas of V31 that only the loader writes (R262). -/
def loaderArea (addr : Nat) : Bool := 0x7C0000000 ≤ addr
def stagingArea (addr : Nat) : Bool := 0x7E0000000 ≤ addr

/-- The requester code of master m; that of the queue engines' common master is one of sixteen, open here (R233, R251). -/
def State.reqOf (s : State) (m : Nat) : Nat :=
  if m < 32 then m else if m = 32 then 0x20 + (Config.freeValue s.frame.freeCount).toNat % 16
  else if m = 33 then 0x31 else if m = 38 then 0x37 else m - 1

/-! ## The cipher (R234, R235, R252) -/

def keyOf (t : VolSt) (epoch : Bool) : BitVec 256 :=
  match (if epoch then t.key1 else t.key0) with
  | some n => Config.randomKey n
  | none => 0

/-- "Table: tweak layout" for a data block. -/
def tweak (block sub domain : Nat) (n : LedgerNode) : BitVec 128 :=
  BitVec.ofNat 128 (pack [(29, block), (2, sub), (1, 0), (32, n.major), (7, n.minor (block % 64)), (24, n.generation),
    (2, domain), (2, 0), (29, 0)])

/-- Sub-blocks of ciphertext from plaintext, or back: the keystream is the same. -/
def crypt (key : BitVec 256) (block : Nat) (n : LedgerNode) (l : List Byte) : List Byte :=
  (List.range 4).flatMap fun j =>
    leBytes 16 (ofLe (slice l (16 * j) 16) ^^^ (Config.aes256 key (tweak block j 0 n)).toNat)

def dataMac (key : BitVec 256) (block : Nat) (n : LedgerNode) (cipher : List Byte) : BitVec 64 :=
  let h := Config.aes256 key (BitVec.ofNat 128 (pack [(95, 0), (2, 3)]))
  let parts := (List.range 4).map fun j => BitVec.ofNat 128 (leAt cipher (16 * j) 16)
  (Config.ghash h (parts ++ [BitVec.ofNat 128 block]) ^^^ Config.aes256 key (tweak block 0 1 n)).truncate 64

/-- The stored ciphertext of a block. -/
def State.cipherOf (s : State) (block : Nat) : List Byte :=
  let n := s.ledger (nodeOver 0 (block / 64))
  crypt (keyOf (s.vol (block / 2 ^ 24)) n.epoch) block n (s.sideBytes (64 * block) 64)

def State.macOf (s : State) (block : Nat) : BitVec 64 :=
  let n := s.ledger (nodeOver 0 (block / 64))
  dataMac (keyOf (s.vol (block / 2 ^ 24)) n.epoch) block n (s.cipherOf block)

/-- A block's plaintext as a requester's reads find it: its own writes that wait for a key are served from there (R230). -/
def State.blockSeen (s : State) (req block : Nat) : List Byte :=
  s.crypto.held.foldl (fun l x =>
    if x.1 = req && x.2.1 / 64 = block then l.take (x.2.1 % 64) ++ x.2.2 ++ l.drop (x.2.1 % 64 + x.2.2.length) else l)
    (s.sideBytes (64 * block) 64)

/-- "Table: tweak layout" for a ledger node: the parent's counters for it, or the root's. -/
def State.nodeTweak (s : State) (k domain : Nat) : BitVec 128 :=
  let n := s.ledger k
  let top := nlevel k = 3
  let p := s.ledger (nparent k)
  let root := (s.vol (nodeVol k)).root
  BitVec.ofNat 128 (pack [(29, nindex k), (2, 0), (1, 0), (32, if top then root / 128 else p.major),
    (7, if top then root else p.minor (nindex k % 64)), (24, n.generation), (2, domain), (2, nlevel k), (29, 0)])

/-- The MAC that a node's write-back stores; a fetch's check of it is what the read of the node finds (R235, R238). -/
def State.nodeMac (s : State) (k : Nat) : BitVec 64 :=
  let n := s.ledger k
  let key := keyOf (s.vol (nodeVol k)) n.epoch
  let h := Config.aes256 key (BitVec.ofNat 128 (pack [(95, 0), (2, 3)]))
  let parts := (List.range 4).map fun j => BitVec.ofNat 128 (leAt (nodeBytes n) (16 * j) 16)
  (Config.ghash h (parts ++ [BitVec.ofNat 128 (pack [(29, nindex k), (2, nlevel k)])]) ^^^
    Config.aes256 key (s.nodeTweak k 2)).truncate 64

/-! ## One access -/

/-- A check word of the memory layer is read by a requester. -/
def readWord (req a : Nat) (f : Found) (s : State) : Acc × State :=
  if !s.servedAt req a then (.busError, s)
  else if s.physRetired (s.layerPhys a / 65536) then (.retired, retiredHit req s)
  else (if foundBad f then .uncorrectable else .ok, memFinding req a f false s)

/-- Bytes of one check word are written; data lies within the word of address a (R229). -/
def writeWord (req a : Nat) (l : List Byte) (f : Found) (s : State) : Acc × State :=
  if !s.servedAt req a then (.busError, s)
  else if s.physRetired (s.layerPhys a / 65536) then (.retired, retiredHit req s)
  else if a % 8 = 0 && l.length = 8 then (.ok, layerWrite a l s)
  else if foundBad f then (.uncorrectable, refuseWrite req (memFinding req a f true s))
  else (.ok, layerWrite a l (memFinding req a f true s))

/-- Master m reads a block: rights, retirement, trusted counters, check code, MAC. -/
def readBlock (m req block : Nat) (f : Found) (path : List NodeFound) (s : State) : Acc × State :=
  let v := block / 2 ^ 24
  let cipher := s.cipherView m v
  if !s.served req false then (.busError, s)
  else if s.sideGated v then (.rights, s)
  else if !s.mayRead m v then (.rights, deny m v s)
  else if s.pageRetired (block / 64) then (.retired, retiredHit req s)
  else if cipher then
    match f with
    | .macFail => (.ok, s)
    | .uncorrectable _ => (.uncorrectable, sideFinding req block f false s)
    | _ => (.ok, sideFinding req block f false s)
  else
    let s := walkPage (block / 64) path s
    if s.unbuilt block then (.poison, s)
    else (if foundBad f then .uncorrectable else .ok, sideFinding req block f false s)

/-- The write itself, once it is accepted: the counter advances and the block is stored (R239), or it waits for a new key (R246). -/
def storeBlock (req block addr : Nat) (l : List Byte) (s : State) : State :=
  match bumpBlock block s with
  | some s => sidePut addr l s
  | none =>
    let s := triggerRekey (block / 2 ^ 24) s
    { s with crypto.held := s.crypto.held ++ [(req, addr, l)] }

/-- Bytes of one block are written by a requester past the checks of rights. -/
def writeBlockAs (req block addr : Nat) (l : List Byte) (f : Found) (path : List NodeFound) (s : State) : Acc × State :=
  let whole := addr % 64 = 0 && l.length = 64
  if s.pageRetired (block / 64) then (.retired, retiredHit req s)
  else
    let s := walkPage (block / 64) path s
    if whole then (.ok, storeBlock req block addr l s)
    else if s.unbuilt block then (.poison, s)
    else if foundBad f then (.uncorrectable, refuseWrite req (sideFinding req block f true s))
    else (.ok, storeBlock req block addr l (sideFinding req block f true s))

def writeBlock (m req addr : Nat) (l : List Byte) (f : Found) (path : List NodeFound) (s : State) : Acc × State :=
  let v := addr / 2 ^ 30
  if !s.served req false then (.busError, s)
  else if s.sideGated v then (.rights, s)
  else if !s.mayWrite m v then (.rights, deny m v s)
  else if loaderArea addr then (.rights, s)
  else writeBlockAs req (addr / 64) addr l f path s

/-! ## The loader's areas of V31 (R262, R263) -/

/-- Retired pages between two page indexes, ascending. -/
def State.retiredPages (s : State) (lo hi : Nat) : List Nat :=
  sortBy (fun a b => decide (a ≤ b)) ((s.mem.retired.filter fun r => !r.bank && lo ≤ r.index && r.index < hi).map (·.index))

/-- The pages of the staging and archive areas of V31 (R262). -/
def stagingPage : Nat := 0x7E0000
def archivePage : Nat := 0x7C0000

/-- Offset page n of an area: its n-th page that is not retired. -/
def State.areaPage (s : State) (base n : Nat) : Nat :=
  (s.retiredPages base (base + 0x20000)).foldl (fun p r => if r ≤ p then p + 1 else p) (base + n)

def State.stagingRoom (s : State) : Nat := (0x20000 - (s.retiredPages stagingPage (stagingPage + 0x20000)).length) * 4096
def State.archiveRoom (s : State) : Nat := (0x20000 - (s.retiredPages archivePage (archivePage + 0x20000)).length) * 4096

/-- Counter mode of GCM over what is there of the body: the plaintext the staging area holds. -/
def plainPart (key : BitVec 256) (l : List Byte) : List Byte :=
  let start := 128 + 32 * leAt l 20 2
  let body := (l.drop start).take (leAt l 16 4)
  let iv := leAt l 24 12
  let stream := (List.range ((body.length + 15) / 16)).flatMap fun i =>
    leBytes 16 (Config.aes256 key (BitVec.ofNat 128 (iv * 2 ^ 32 + i + 2))).toNat
  l.take start ++ (List.zipWith (fun (a b : Byte) => a ^^^ b) body stream) ++ l.drop (start + body.length)

/-- Blocks are written at an offset of an area, retired pages passed over. -/
def areaWrite (base off : Nat) (l : List Byte) (s : State) : State :=
  (List.range ((l.length + 63) / 64)).foldl (fun s i =>
    let o := off + 64 * i
    let a := s.areaPage base (o / 4096) * 4096 + o % 4096
    (writeBlockAs 0x38 (a / 64) a (slice l (64 * i) 64) .clean [] s).2) s

/-- Block i of an area, in its order of offsets. -/
def State.areaBlock (s : State) (base i : Nat) : Nat := s.areaPage base (i / 64) * 64 + i % 64

/-- The staged part as the staging area holds it. -/
def State.stagedPlain (s : State) : List Byte :=
  match s.pkg.streamKey with
  | some k => plainPart k s.cfg.staged
  | none => s.cfg.staged

/-- An archive copy's stored bytes are written into the area's next blocks, under the side-store encryption (R25, R262; log entry
84). -/
def placeCopy (im : FolioImage) (bytes : List Byte) (s : State) : FolioImage × State :=
  let n := (bytes.length + 63) / 64
  let blocks := (List.range n).map fun i => s.areaBlock archivePage ((s.cfg.archiveNext + i) % (s.archiveRoom / 64))
  let t := blocks.zipIdx.foldl (fun s x => (writeBlockAs 0x38 x.1 (64 * x.1) (slice bytes (64 * x.2) 64) .clean [] s).2) s
  ({ im with blocks := blocks, lost := false }, { t with cfg.archiveNext := s.cfg.archiveNext + n })

/-- The copies of a part's folios are placed, in the part's order. -/
def placeCopies (l : List (Nat × FolioImage × (Nat × Nat))) (s : State) : List (Nat × FolioImage) × State :=
  l.foldl (fun acc x =>
    let r := placeCopy x.2.1 (slice s.stagedPlain x.2.2.1 x.2.2.2) acc.2
    (acc.1 ++ [(x.1, r.1)], r.2)) ([], s)

/-- The blocks of an archive copy are read for a load: their counters are fetched as for any read. -/
def fetchCopy (im : FolioImage) (s : State) : State := im.blocks.foldl (fun s b => walkPage (b / 64) [] s) s

/-- A page of the loader's areas is retired while in use: what stands there is lost (R278). -/
def loseArea (page : Nat) (s : State) : State :=
  let gone := fun (im : FolioImage) => if im.blocks.any fun b => b / 64 == page then { im with lost := true } else im
  let staged := s.cfg.stageState != 0 && stagingPage ≤ page && page < s.areaPage stagingPage ((s.cfg.stagedBytes + 4095) / 4096)
  { s with
    cfg.archive := s.cfg.archive.map fun (k, im) => (k, gone im)
    fab.editions := s.fab.editions.map fun (n, e) => (n, { e with copies := e.copies.map fun x => (x.1, gone x.2.1, x.2.2) })
    cfg.stageLost := s.cfg.stageLost || staged
    cfg.stageState := if staged && s.cfg.stageState = 2 then 1 else s.cfg.stageState }

end Sys2Proof.Machine
end

