-- ==== Sys2Proof/Machine/Fabric.lean ====
section
/-! DEFINITION. Rotas, crossings, turns and the loader ("Carrels, folios and turns"; "Rotas, editions and shared resources";
R277). -/

namespace Sys2Proof.Machine
open Sys2Proof

/-! ## Rota entry words (R91) -/

def entryLength (w : Word) : Nat := field w.toNat 31 16
def entryThrottle (w : Word) : Bool := w.getLsbD 15
def entryFolio (w : Word) : Nat := field w.toNat 3 0
def entryReserved (w : Word) : Nat := field w.toNat 14 4

def rotaPeriod (long : Bool) : Nat := if long then 62500 else 250

/-- Active intervals of folio f over one period: first cycle, length, throttle_ok. -/
def activeFrom (f : Nat) (at_ : Nat) (l : List Word) : List (Nat × Nat × Bool) :=
  match l with
  | [] => []
  | w :: r =>
    let rest := activeFrom f (at_ + entryLength w + 1) r
    if entryFolio w = f then (at_, entryLength w, entryThrottle w) :: rest else rest

/-- Active intervals over the whole frame (R83). -/
def activeInFrame (r : RotaSt) (f : Nat) : List (Nat × Nat × Bool) :=
  let one := activeFrom f 0 r.entries
  if r.long then one
  else (List.range 250).flatMap fun s => one.map fun (a, n, t) => (a + 250 * s, n, t)

/-! ## What a rota set must meet (R92) -/

/-- Editions that hold their folios: loading or loaded. -/
def State.heldEditions (s : State) : List (Nat × EditionSt) := s.fab.editions.filter fun (_, e) => e.state != 0

def memberKey (m : Member) : Nat := fkey m.bay m.pos m.folio

/-- Crossings in force: the bays' own and those of the editions held. -/
def State.crossings (s : State) : List Crossing :=
  (s.fab.bays.flatMap fun (_, b) => b.crossings) ++ (s.heldEditions.flatMap fun (_, e) => e.crossings)

/-- A rota record as the rota of its carrel. -/
def RotaRec.key (r : RotaRec) : Nat := ckey r.bay r.pos
def RotaRec.rota (r : RotaRec) : RotaSt := ⟨r.long, r.entries⟩

/-- The rotas that a scheduled change installs. -/
def Step4.rotasOf : Step4 → List RotaRec
  | .rotas rs => rs
  | .switch _ _ _ rs => rs
  | _ => []

/-- The rota that will be in force at carrel k after every change committed so far, and then the records given (R93). -/
def State.rotaAhead (s : State) (more : List RotaRec) (k : Nat) : RotaSt :=
  match ((s.fab.changes.flatMap fun c => c.change.rotasOf) ++ more).reverse.find? (fun r => r.key == k) with
  | some r => r.rota
  | none => (s.carrel k).rota

/-- Step-4 bindings that will be in force: port, edition, entry. -/
def bindAfter (b : Sparse BindSt) (c : Step4) : Sparse BindSt :=
  match c with
  | .bind n ports => ports.foldl (fun b e =>
      Sparse.ins b e.port { edition := n, rate := e.rate, width := e.width, line := e.line, item := e.item, old := none }) b
  | .unbind ports => ports.foldl (fun b p => Sparse.del b p) b
  | .switch o n ports _ => ports.foldl (fun b e =>
      let old := match Sparse.look b e.port with
        | some w => some ({ edition := o, line := w.line, item := w.item, li := false, lo := false, ix := false,
                            ex := false, frames := 0 } : SwitchBind)
        | none => none
      Sparse.ins b e.port { edition := n, rate := e.rate, width := e.width, line := e.line, item := e.item, old := old }) b
  | _ => b

def State.bindsAhead (s : State) (more : List Step4) : Sparse BindSt :=
  ((s.fab.changes.map fun c => c.change) ++ more).foldl bindAfter s.fab.binds

/-- The folio at member index i of edition n. -/
def State.memberAt (s : State) (n i : Nat) : Option Member := (s.edition n).bind fun e => e.members[i]?

/-- b of R108 for a carrel-folio: the bits per fabric cycle of the ports it serves, through the binding and, during a
switch, through the old one. -/
def State.attachBits (s : State) (binds : Sparse BindSt) (k : Nat) : Nat :=
  binds.foldl (fun n (_, w) =>
    let at_ := fun e i => ((s.memberAt e i).map memberKey) == some k
    let b := payload2 w.rate w.width
    let n := if at_ w.edition w.line || at_ w.edition w.item then n + b else n
    match w.old with
    | some o => if at_ o.edition o.line || at_ o.edition o.item then n + b else n
    | none => n) 0

def State.roleOf (s : State) (k : Nat) : Nat :=
  match (s.heldEditions.flatMap fun (_, e) => e.members).find? (fun m => memberKey m == k && m.role != 0) with
  | some m => m.role
  | none => 0

/-- The longest run of inactive cycles, taken cyclically, given the active intervals of one period. -/
def longestGap (period : Nat) (l : List (Nat × Nat × Bool)) : Nat :=
  match l with
  | [] => period
  | (a, _, _) :: _ =>
    let rec go (last : Nat) (rest : List (Nat × Nat × Bool)) (g : Nat) : Nat :=
      match rest with
      | [] => max g (period + a - last)
      | (b, n, _) :: r => go (b + n) r (max g (b - last))
    match l with
    | (b, n, _) :: r => go (b + n) r 0
    | [] => period

/-- R108. Throttle-able entries of an item attach count as idle. -/
def attachFits (b role : Nat) (r : RotaSt) (f : Nat) : Bool :=
  let l := (activeFrom f 0 r.entries).filter fun (_, _, t) => !(role == 2 && t)
  let period := rotaPeriod r.long
  let active := l.foldl (fun n (_, m, _) => n + m) 0
  b == 0 || ((b * period + 63) / 64 ≤ active && longestGap period l ≤ 12288 / b)

/-- The attach folios that bindings use. -/
def State.attachKeys (s : State) (binds : Sparse BindSt) : List Nat :=
  (binds.flatMap fun (_, w) =>
    let of := fun e i => (((s.memberAt e i).map memberKey).toList)
    of w.edition w.line ++ of w.edition w.item ++ (match w.old with
      | some o => of o.edition o.line ++ of o.edition o.item
      | none => [])).eraseDups

/-- R108: no attach folio at one of the carrels is left unfit. -/
def State.attachesFit (s : State) (binds : Sparse BindSt) (rota : Nat → RotaSt) (carrels : List Nat) : Bool :=
  ((s.attachKeys binds).filter fun k => carrels.contains (k / 8)).all fun k =>
    attachFits (s.attachBits binds k) (s.roleOf k) (rota (k / 8)) (keyFolio k)

/-- R104: the folio holds a line-attach role, or belongs to a protected-capable edition. -/
def State.neverThrottled (s : State) (k : Nat) : Bool :=
  s.heldEditions.any fun (_, e) => e.members.any fun m =>
    memberKey m == k && (m.role == 1 || e.protectedCapable)

/-- R83, R92: both ends active in exactly the same cycles, with equal throttle_ok. -/
def crossingMet (rota : Nat → RotaSt) (x : Crossing) : Bool :=
  !x.aligned || activeInFrame (rota (x.src / 8)) (keyFolio x.src) == activeInFrame (rota (x.dst / 8)) (keyFolio x.dst)

/-- Folios 0 to 7 that a rota names. -/
def namedFolios (r : RotaSt) : List Nat := (r.entries.map entryFolio).filter (· < 8)

/-- The states of R92 in which a folio may be named. -/
def namable : FolioState → Bool
  | .empty => false | .absent => false | _ => true

/-- A folio's state, F4 to F7 of a hardened bay being absent (R70). -/
def State.folioState (s : State) (k : Nat) : FolioState :=
  if (s.bay (keyBay k)).hardened && 4 ≤ keyFolio k then .absent else (s.folio k).state

/-- The channels an edition records for a folio are held in its bay's sets (R98). -/
def State.channelsHeld (s : State) (k : Nat) : Bool :=
  (s.heldEditions.flatMap fun (_, e) => e.channels).all fun a =>
    a.folioKey != k || a.chans.isEmpty || ((s.bay (keyBay k)).channels.any fun c => c.folioKey == k)

/-- The first rule of "Table: rota validity" that a set of records breaks, checked rule by rule over the whole set. -/
def State.rotaFault (s : State) (recs : List RotaRec) (also : List Step4) : Option (BitVec 16) :=
  let binds := s.bindsAhead also
  let rota := s.rotaAhead recs
  let every := fun (f : RotaRec → Word → Bool) => recs.all fun r => r.entries.all (f r)
  let folios := fun (f : Nat → Bool) => recs.all fun r => (namedFolios r.rota).all fun n => f (fkey r.bay r.pos n)
  let tests := fun (r : RotaRec) => r.entries.filter fun w => entryFolio w == 9
  if !recs.all (fun r => 1 ≤ r.entries.length && r.entries.length ≤ 16) then some St.badParam
  else if !every (fun r w => 1 ≤ entryLength w && entryLength w ≤ (if r.long then 62499 else 249)) then some St.badParam
  else if !every (fun _ w => entryReserved w == 0 && entryFolio w ≤ 9) then some St.badParam
  else if !recs.all (fun r => (r.entries.foldl (fun n w => n + entryLength w + 1) 0) == rotaPeriod r.long) then
    some St.rotaLength
  else if !folios (fun k => s.folioState k != .absent) then some St.badParam
  else if !folios (fun k => namable (s.folioState k)) then some St.folioEmpty
  else if !recs.all (fun r => (tests r).isEmpty || ((tests r).length == 1 && r.long &&
      (tests r).all fun w => 1000 ≤ entryLength w && entryLength w ≤ 25000)) then some St.badParam
  else if !every (fun _ w => entryFolio w < 8 || !entryThrottle w) then some St.badParam
  else if !every (fun r w => 8 ≤ entryFolio w || !entryThrottle w || !s.neverThrottled (fkey r.bay r.pos (entryFolio w)))
    then some St.throttleProtected
  else if !(s.crossings.all fun x =>
      !(recs.any fun r => r.key == x.src / 8 || r.key == x.dst / 8) || crossingMet rota x) then some St.rotaMisaligned
  else if !folios (fun k => s.channelsHeld k) then some St.channelsBusy
  else if !s.attachesFit binds rota (recs.map RotaRec.key) then some St.attachFit
  else none

/-! ## Alignment (R83, R86, R96) -/

/-- Keys joined to those given by one more crossing. -/
def joinOnce (xs : List (Nat × Nat)) (l : List Nat) : List Nat :=
  xs.foldl (fun l (a, b) =>
    if l.contains a && !l.contains b then l ++ [b] else if l.contains b && !l.contains a then l ++ [a] else l) l

def joinAll (xs : List (Nat × Nat)) (fuel : Nat) (l : List Nat) : List Nat :=
  match fuel with
  | 0 => l
  | n + 1 => joinAll xs n (joinOnce xs l)

/-- The folios joined to folio k by aligned crossings, k first. -/
def State.partners (s : State) (k : Nat) : List Nat :=
  let xs := (s.crossings.filter fun x => x.aligned).map fun x => (x.src, x.dst)
  joinAll xs xs.length [k]

/-- The carrels of the alignment group of carrel k. -/
def State.group (s : State) (k : Nat) : List Nat :=
  let xs := (s.crossings.filter fun x => x.aligned).map fun x => (x.src / 8, x.dst / 8)
  joinAll xs xs.length [k]

def State.leader (s : State) (k : Nat) : Nat := (s.group k).foldl min k

/-- θ applied to a group, in 1/256: the largest of its bays' (R96, R319). -/
def State.thetaGroup (s : State) (k : Nat) : Nat :=
  ((s.group k).map fun c => (s.node (c / 36)).applied).foldl max 0

/-- The folio of the entry a carrel is in. -/
def CarrelSt.curFolio (c : CarrelSt) : Nat := ((c.rota.entries[c.cur]?).map entryFolio).getD 8

/-! ## Changes that step 4 can install (R45) -/

/-- The folios a change names. -/
def State.changeFolios (s : State) (c : Step4) : List Nat :=
  let members := fun n => ((s.edition n).map fun e => e.members.map memberKey).getD []
  (c.rotasOf.flatMap fun r => (namedFolios r.rota).map (fkey r.bay r.pos)) ++
    (match c with
      | .bind n _ => members n
      | .switch _ n _ _ => members n
      | _ => [])

def isLoaded : FolioState → Bool
  | .loaded => true | .inRota => true | _ => false

/-- R45: every folio named is fully loaded. -/
def State.foliosReady (s : State) (c : Change4) : Bool := (s.changeFolios c.change).all fun k => isLoaded (s.folioState k)

/-- The test of R45 over the changes that hold rotas, made at the start of the turn that ends the frame (R94). -/
def State.rotaTest (s : State) : List (Channel × BitVec 16) :=
  (s.fab.changes.filter fun c => !c.change.rotasOf.isEmpty && s.foliosReady c).map fun c => (c.ch, c.seq)

/-- The test is made once. -/
def testRotas (s : State) : State := { s with fab.due := some (s.fab.due.getD s.rotaTest) }

/-- R45: every folio named is fully loaded, and a copy the desk makes has ended. -/
def State.changeReady (s : State) (c : Change4) : Bool :=
  c.ready && (if c.change.rotasOf.isEmpty then s.foliosReady c else (s.fab.due.getD s.rotaTest).contains (c.ch, c.seq))

/-- A change stands behind another that is deferred: of its channel, or with a rota for the same carrel (R45, R93). -/
def standsBehind (deferred : List Change4) (c : Change4) : Bool :=
  deferred.any fun d => d.ch == c.ch || d.change.rotasOf.any fun r => c.change.rotasOf.any fun x => x.key == r.key

/-- The changes that can be installed now, in slip order, and those that are deferred. -/
def State.sorted (s : State) : List Change4 × List Change4 :=
  s.fab.changes.foldl (fun acc c =>
    if s.changeReady c && !standsBehind acc.2 c then (acc.1 ++ [c], acc.2) else (acc.1, acc.2 ++ [c])) ([], [])

def State.installable (s : State) : List Change4 := s.sorted.1

/-! ## Mesh wires, lift ports and channels (R65, R66, R80 to R82, R85, R97) -/

/-- The neighbour of position c over an edge (0 to the row before, 1 the column after, 2 the row after, 3 the column before;
log entry 75): the grid of 6 by 6 does not wrap. -/
def neighbour (c e : Nat) : Option Nat :=
  match e with
  | 0 => if c / 6 = 0 then none else some (c - 6)
  | 1 => if c % 6 = 5 then none else some (c + 1)
  | 2 => if c / 6 = 5 then none else some (c + 6)
  | 3 => if c % 6 = 0 then none else some (c - 1)
  | _ => none

/-- What carrel k sees on wire n of an edge: the value its neighbour drives, or last drove, onto it (R65, R80). -/
def State.meshIn (s : State) (k e n : Nat) : Bool :=
  match neighbour (k % 36) e with
  | some c => (s.carrel (k / 36 * 36 + c)).mesh.getLsbD (128 * ((e + 2) % 4) + n)
  | none => false

/-- R82: the latency of a channel between two bays, in active cycles of its owner. -/
def latency (a b : Nat) : Nat := if a = b then 2 else if a / 8 = b / 8 then 3 else 4

def Chan.crosses (bay : Nat) (c : Chan) : Bool := c.sinks.any fun x => keyBay x.1 / 8 != bay / 8
def ChanAlloc.numbers (a : ChanAlloc) : List Nat := a.chans.map (·.num)
/-- The channels with a sink in a bay above another base quadrant (R97). -/
def ChanAlloc.cross (a : ChanAlloc) : List Nat := (a.chans.filter fun c => c.crosses (keyBay a.folioKey)).map (·.num)

def chanKey (fk n : Nat) : Nat := (keyBay fk * 8 + keyFolio fk) * 2304 + n

/-- The channels of a carrel-folio. -/
def State.channelsOf (s : State) (fk : Nat) : List Chan :=
  ((s.bay (keyBay fk)).channels.filter fun a => a.folioKey == fk).flatMap (·.chans)

/-- R81: what the sinks of a channel in a bay are presented with, the value last delivered there. -/
def State.channelOut (s : State) (fk : Nat) (c : Chan) (bay : Nat) : Bool :=
  (Sparse.get 0 s.fab.chans (chanKey fk c.num)).getLsbD (latency (keyBay fk) bay)

/-- The channel that has lift input p of a carrel-folio among its sinks, with its owner. -/
def State.channelTo (s : State) (fk p : Nat) : Option (Nat × Chan) :=
  (s.fab.bays.flatMap fun (_, t) => t.channels.flatMap fun a => a.chans.map fun c => (a.folioKey, c)).find? fun x =>
    x.2.sinks.contains (fk, p)

/-- R66. -/
inductive LiftUse where
  | unused | input | output
deriving DecidableEq, Repr

/-- "Table: attach lift ports": the lift inputs and outputs of a role, which belong to no channel set (R105). -/
def attachUse (role p : Nat) : LiftUse :=
  if role = 1 then (if p ≤ 85 then .input else if p ≤ 169 then .output else .unused)
  else if role = 2 then (if p ≤ 74 then .output else if p ≤ 152 then .input else .unused)
  else .unused

/-- What a lift port of a carrel-folio is: its attach's, or as the stream's record of channels has it (R66, R105). -/
def State.liftUse (s : State) (fk p : Nat) : LiftUse :=
  if attachUse (s.roleOf fk) p != .unused then attachUse (s.roleOf fk) p
  else if (s.channelsOf fk).any (fun c => c.src == p) then .output
  else if (s.channelTo fk p).isSome then .input else .unused

/-- What a lift input of a channel set presents to a folio's logic; a port that it does not use presents 0 (R66, R81). -/
def State.liftIn (s : State) (fk p : Nat) : Bool :=
  match s.liftUse fk p, s.channelTo fk p with
  | .input, some (o, c) => s.channelOut o c (keyBay fk)
  | _, _ => false

/-- The value the consumer of a crossing sees as its source stands (R80, R81, R85). -/
def State.crossingSees (s : State) (x : Crossing) : Bool :=
  match x.via with
  | .wire e n => (s.carrel (x.src / 8)).mesh.getLsbD (128 * e + n)
  | .channel n => match (s.channelsOf x.src).find? fun c => c.num == n with
    | some c => s.channelOut x.src c (keyBay x.dst)
    | none => false

/-- The lift outputs in the last active cycles of an entry of n, five at most; one the command does not give is as it stood. -/
def activeLifts (n : Nat) (held : BitVec 256) (l : List (BitVec 256)) : List (BitVec 256) :=
  let m := min n 5
  List.replicate (m - l.length) held ++ l.drop (l.length - m)

/-- A channel's stages advance once an active cycle, each taking what its lift output drives (R81, R82). -/
def advanceChannel (fk : Nat) (ls : List (BitVec 256)) (s : State) (c : Chan) : State :=
  let k := chanKey fk c.num
  let old := Sparse.get 0 s.fab.chans k
  let now := ls.foldl (fun (h : BitVec 5) v => (h <<< 1) ||| (if v.getLsbD c.src then 1 else 0)) old
  { s with fab.chans := Sparse.put 0 s.fab.chans k now }

/-- Channels of a carrel-folio whose allocation is freed or granted hold nothing (R81, R98). -/
def clearChannels (fk : Nat) (cs : List Chan) (s : State) : State :=
  { s with fab.chans := cs.foldl (fun l c => Sparse.del l (chanKey fk c.num)) s.fab.chans }

/-- The editions bound in a bay all drive EDITION_READY: in Bring-up, the bay is ready (R51). -/
def sampleReady (b : Nat) (s : State) : State :=
  if s.bayMode b == .bringUp && (s.boundIn b).all (fun n => ((s.edition n).map (·.ready)).getD false) then
    { s with modes.ready := setBit s.modes.ready b true }
  else s

/-- EDITION_READY as a folio last drove it, held for the bay to sample (R79). -/
def driveReady (fk : Nat) (v : Bool) (s : State) : State :=
  { s with fab.editions := s.fab.editions.map fun (n, e) =>
      (n, if ((e.members[e.readyBy]?).map memberKey) == some fk then { e with ready := v } else e) }

/-! ## The turn (R73 to R76, R86, R87, R96) -/

/-- The first active cycle of entry j in its rota's period, and its turn's cycle (R73). -/
def entryStart (r : RotaSt) (j : Nat) : Nat := (r.entries.take j).foldl (fun n w => n + entryLength w + 1) 0
def turnCycle (r : RotaSt) (j : Nat) : Nat := entryStart r j + ((r.entries[j]?).map entryLength).getD 0

/-- The fabric cycle of the frame in which the entry that a carrel is in turns: of this slot, for a short rota. -/
def State.turnAt (s : State) (k : Nat) : Nat :=
  let c := s.carrel k
  (if c.rota.long then 0 else 250 * s.frame.slot.toNat) + turnCycle c.rota c.cur

/-- The carrel turns in this slot. -/
def State.turnDue (s : State) (k : Nat) : Bool :=
  let c := s.carrel k
  decide (c.cur < c.rota.entries.length) && s.turnAt k / 250 == s.frame.slot.toNat && c.turned.all fun t => t < s.turnAt k

/-- The entry that follows within the frame. -/
def State.nextEntry (s : State) (k : Nat) : Nat :=
  let c := s.carrel k
  if c.rota.entries.length ≤ c.cur + 1 then 0 else c.cur + 1

/-- R89: the folio, or an aligned partner of it, is being reloaded. A folio that is not complete for another reason runs no
more than one that is (log entry 73). -/
def State.reloadIdles (s : State) (fk : Nat) : Bool := (s.partners fk).any fun k => !isLoaded (s.folioState k)

/-- R96: whether the throttle idles entry j of carrel k, and the carrel's accumulators after it. A leader keeps them; a
partner entry of another carrel follows the leader, whose turn in the same cycle comes first (log entry 10). -/
def State.throttle (s : State) (k : Nat) (r : RotaSt) (j : Nat) (fk : Nat) : Bool × List Nat :=
  let acc := (s.carrel k).acc
  let ok := ((r.entries[j]?).map entryThrottle).getD false
  if !ok then (false, acc)
  else if s.leader k = k then
    let a := nth acc j + s.thetaGroup k
    if 256 ≤ a then (true, (acc ++ List.replicate (j + 1 - acc.length) 0).set j (a - 256))
    else (false, (acc ++ List.replicate (j + 1 - acc.length) 0).set j a)
  else
    let l := s.carrel (s.leader k)
    (l.throttled && l.curFolio < 8 && (s.bay (s.leader k / 36)).running &&
      (s.partners fk).contains (s.leader k * 8 + l.curFolio), acc)

/-- Patterns of a slice that fills a test entry (R330). -/
def slicePatterns (w : Word) : Nat := (entryLength w - 440) / 81

/-- Stocktake sets the contents of a carrel's test folio: what they are is open (R77). -/
def loadTest (b ph : Nat) (s : State) : State :=
  let n := s.frame.freeCount
  { s with
    fab.tests := Sparse.ins s.fab.tests (b * 38 + ph) ⟨Config.testConfig n, Config.lostFlops n, Config.testCells n⟩
    frame.freeCount := n + 1 }

/-- FT is cleared (R23, R77). -/
def clearTest (b ph : Nat) (s : State) : State := { s with fab.tests := Sparse.del s.fab.tests (b * 38 + ph) }

/-- A slice that was granted begins in its test entry (R330). -/
def beginSlice (k : Nat) (w : Word) (s : State) : State :=
  loadTest (k / 36) (s.phys (k / 36) (k % 36)) { s.modSlice k (fun t => { t with left := slicePatterns w }) with
    stock.granted := s.stock.granted.erase k
    stock.ran := s.stock.ran ++ [k]
    stock.slices := bump 0xFFFF s.stock.slices (k / 288) }

/-- A slice ends: the patterns it ran since its last block end count, and FT is cleared before the turn. -/
def endSlice (k : Nat) (s : State) : State :=
  clearTest (k / 36) (s.phys (k / 36) (k % 36))
    (s.modSlice k fun t => { t with pattern := min (t.pattern + t.left) (t.blockStart + 128), left := 0 })

/-- What an entry of n active cycles leaves on the carrel's outputs: the wires it drove, the lift outputs, its channels advanced,
and EDITION_READY (R75, R79 to R82). -/
def leaveOutputs (k f n : Nat) (t : TurnIn) (s : State) : State :=
  let ls := activeLifts n (s.carrel k).lift t.lifts
  let s := (s.channelsOf (k * 8 + f)).foldl (advanceChannel (k * 8 + f) ls) s
  sampleReady (k / 36) (driveReady (k * 8 + f) t.ready (s.modCarrel k fun c => { c with
    live := t.live
    mesh := (c.mesh &&& ~~~t.drove) ||| (t.mesh &&& t.drove)
    lift := ls.getLastD c.lift }))

/-- The folio that leaves is in its turn-out cycle: corrections held for it may be written (R287). -/
def readyCorrections (fk : Nat) (s : State) : State :=
  { s with shelf.pending := s.shelf.pending.map fun c => { c with ready := c.folioKey == fk || (c.ready && c.folioKey / 8 != fk / 8) } }

/-- R74 to R77: what the turn leaves of the outgoing entry: an entry that ran saves its flip-flops and holds its outputs, one run
as idle is missed. -/
def turnOut (k : Nat) (t : TurnIn) (s : State) : State :=
  let c := s.carrel k
  let f := c.curFolio
  if 8 ≤ f then (if c.slicing then endSlice k s else s)
  else if c.idle then s.modFolio (k * 8 + f) fun x => { x with missed := sat 255 x.missed 1 }
  else leaveOutputs k f (((c.rota.entries[c.cur]?).map entryLength).getD 0) t (s.modFolio (k * 8 + f) fun x =>
    { x.save t.live with missed := 0, reloaded := false, seenMissed := 0, seenReloaded := false, faultMask := 0 })

/-- The lowest set bit of a mask. -/
def lowestBit {w : Nat} (v : BitVec w) : Nat := ((List.range w).find? fun i => v.getLsbD i).getD 0

/-- R87: a restore with bad groups is loaded as read, logged, counted and told to the design. -/
def noteParity (b c f : Nat) (bad : BitVec 128) (s : State) : State :=
  if bad = 0 then s
  else warn 0x0401 (b * 38 + s.phys b c) [(6, s.phys b c), (3, f), (7, lowestBit bad)]
    (s.modBay b fun t => { t with sfCarrel := s.phys b c, sfFolio := f, sfGroup := lowestBit bad,
                                  sfCount := sat 0xFFFF t.sfCount 1 })

/-- The state groups whose parity is bad. -/
def FolioSt.badGroups (t : FolioSt) : BitVec 128 := stateParity t.store ^^^ t.parity

/-- Upsets strike a state store; they stand until it is next written. -/
def FolioSt.hit (t : FolioSt) (u : StoreUpset) : FolioSt := { t with store := t.store ^^^ u.bits, parity := t.parity ^^^ u.parity }

/-- The turn into entry j of rota r: idle, or the folio's saved state loaded into the flip-flops (R74, R76, R79, R87). A fault
found where the entry runs as idle stands in the store, and is reported at the next turn that loads it (R88). -/
def turnIn (b c : Nat) (r : RotaSt) (j : Nat) (u : StoreUpset) (s : State) : State :=
  let k := ckey b c
  let f := ((r.entries[j]?).map entryFolio).getD 8
  let fk := fkey b c f
  let th := s.throttle k r j fk
  if 8 ≤ f then
    let go := f == 9 && s.stock.granted.contains k
    let s := s.modCarrel k fun t => { t with cur := j, idle := true, throttled := false, slicing := go }
    if go then beginSlice k ((r.entries[j]?).getD 0) s else s
  else
    let idle := s.reloadIdles fk || th.1
    let s := s.modFolio fk fun t => t.hit u
    if idle then
      let s := s.modCarrel k fun t => { t with cur := j, idle := true, throttled := th.1, slicing := false, acc := th.2 }
      if th.1 then s.modBay b fun t => { t with idled := sat 0xFFFF t.idled 1 } else s
    else
      let store := (s.folio fk).store
      let bad := (s.folio fk).badGroups
      let s := s.modCarrel k fun t =>
        { t with cur := j, idle := false, throttled := false, slicing := false, acc := th.2, live := store }
      noteParity b c f bad (s.modFolio fk fun t =>
        { t with seenMissed := t.missed, seenReloaded := t.reloaded, faultMask := bad })

/-- The turn of a running carrel. The one that ends the frame leads into the rota that step 4 leaves in force, so what it loads
is written at the boundary (R94; beginEntry). -/
def turnCarrel (b c : Nat) (t : TurnIn) (u : StoreUpset) (s : State) : State :=
  let k := ckey b c
  let now := s.turnAt k
  let ends := now == 62499
  let s := if ends then testRotas s else s
  let s := (turnOut k t (readyCorrections (k * 8 + (s.carrel k).curFolio) { s with frame.cycle := now % 250 })).modCarrel k fun x => { x with turned := some now }
  if ends then s else turnIn b c (s.carrel k).rota (s.nextEntry k) u s

/-- The bay's rotas run (R78): its registers read so, and its clock is not held. -/
def State.rotasRun (s : State) (b : Nat) : Bool := (s.bay b).running && !getBit s.clk.gatedBay b && s.framesRun

def execTurn (b : Bay) (c : Pos) (t : TurnIn) (u : StoreUpset) (s : State) : Host.Outcome State Fault Refusal :=
  run (when (s.rotasRun b.val && s.turnDue (ckey b.val c.val)) (turnCarrel b.val c.val t u)) s

/-! ## What a design is told (R32, R79) -/

/-- The design inputs of "Table: carrel design interface" in the fabric cycle of the slot that the state stands in. -/
structure DesignIn where
  frameTick : Bool
  slotTick : Bool
  frameNumber : BitVec 16
  slotNumber : Byte
  slotCycle : Nat
  turnNext : Bool
  entryFirst : Bool
  missed : Nat
  reloaded : Bool
  stateFault : Bool
  stateFaultMask : BitVec 128
  bankErr : BitVec 4
deriving DecidableEq, Repr

/-- The active cycle of its entry that carrel k stands in, from 0; none in its turn. -/
def State.activeCycle (s : State) (k cycle : Nat) : Option Nat :=
  let c := s.carrel k
  let now := (if c.rota.long then 250 * s.frame.slot.toNat else 0) + cycle
  let first := entryStart c.rota c.cur
  if first ≤ now && now < turnCycle c.rota c.cur then some (now - first) else none

/-- The inputs of the folio that carrel k runs; they are defined in its active cycles. -/
def State.designIn (s : State) (k : Nat) : Option DesignIn :=
  let c := s.carrel k
  let t := s.folio (k * 8 + c.curFolio)
  if c.idle || 8 ≤ c.curFolio then none
  else (s.activeCycle k s.frame.cycle).map fun i =>
    let first := i == 0
    { frameTick := s.frame.slot == 0 && s.frame.cycle == 0
      slotTick := s.frame.cycle == 0
      frameNumber := s.frame.number.setWidth 16
      slotNumber := s.frame.slot
      slotCycle := s.frame.cycle
      turnNext := i + 1 == ((c.rota.entries[c.cur]?).map entryLength).getD 0
      entryFirst := first
      missed := if first then t.seenMissed else 0
      reloaded := first && t.seenReloaded
      stateFault := first && t.faultMask != 0
      stateFaultMask := if first then t.faultMask else 0
      bankErr := if c.bankErrAt = 250 * s.frame.slot.toNat + s.frame.cycle then c.bankErr else 0 }

/-! ## Starting and stopping a bay's rotas (R78, R95) -/

/-- The positions of a bay that have a rota. -/
def State.rotaKeys (s : State) (b : Nat) : List Nat :=
  (List.range 36).filter fun c => !(s.carrel (ckey b c)).rota.entries.isEmpty

/-- Folio states when a carrel's rota begins to count: what it names passes to in rota, what it no longer names to loaded. -/
def settleFolios (k : Nat) (r : RotaSt) (s : State) : State :=
  (List.range 8).foldl (fun s f =>
    let named := (namedFolios r).contains f
    s.modFolio (k * 8 + f) fun t =>
      if named && t.state == .loaded then { t with state := .inRota }
      else if !named && t.state == .inRota then { t with state := .loaded } else t)
    (s.modBay (k / 36) fun t => { t with channels := t.channels.map fun a =>
      if a.folioKey / 8 = k && (namedFolios r).contains (keyFolio a.folioKey) then { a with carries := true } else a })

/-- A bay enters a mode in which rotas run: accumulators return to 0, and its carrels turn into their entry 0 with those of the
bays that run already (R78; beginEntries). -/
def startBay (b : Nat) (s : State) : State :=
  let s := s.modBay b fun t => { t with running := true }
  (List.range 36).foldl (fun s c =>
    let k := ckey b c
    settleFolios k (s.carrel k).rota (s.modCarrel k fun t => { t with acc := [], cur := 0, idle := true, turned := none })) s

/-- What the turn that ended the frame loads: entry 0 of the rota in force from the boundary (R74, R94). -/
def beginEntry (restores : List (Nat × StoreUpset)) (k : Nat) (s : State) : State :=
  let s := s.modCarrel k fun t => { t with turned := none, bankErr := 0, bankErrAt := 0 }
  if (s.carrel k).rota.entries.isEmpty then s
  else turnIn (k / 36) (k % 36) (s.carrel k).rota 0 (((restores.find? fun x => x.1 == k).map (·.2)).getD ⟨0, 0⟩) s

/-- f, its events stamped with slot 249 of frame n: a turn's cycle is the last of the frame that ends (R87). -/
def atTurn (n : Word) (f : State → State) (s : State) : State :=
  let t := f { s with frame.number := n, frame.slot := 249 }
  { t with frame.number := s.frame.number, frame.slot := s.frame.slot }

/-- The carrels of every bay whose rotas run begin their entry 0. -/
def beginEntries (n : Word) (restores : List (Nat × StoreUpset)) (s : State) : State :=
  let keys := (List.range 32).filter s.rotasRun |>.flatMap fun b => (List.range 36).map (ckey b)
  atTurn n (fun s => keys.foldl (fun s k => beginEntry restores k s) s) s

/-- R78: the carrels run idle from the boundary; their state was saved at the frame's last turn. -/
def stopBay (b : Nat) (s : State) : State :=
  let s := s.modBay b fun t => { t with running := false }
  (List.range 36).foldl (fun s c => s.modCarrel (ckey b c) fun t => { t with idle := true, cur := 0 }) s

/-- Fabric set-reset of a bay: every state store holds its initial values, and its wires, lift outputs and channels carry 0 (R69,
R80, R81). -/
def initBay (b : Nat) (s : State) : State :=
  let s := { s with
    fab.folios := s.fab.folios.map fun (k, f) =>
      if k / 304 = b then (k, { f.save f.init with missed := 0, reloaded := false }) else (k, f)
    fab.chans := s.fab.chans.filter fun (k, _) => k / 18432 != b
    fab.editions := s.fab.editions.map fun (n, e) =>
      (n, if ((e.members[e.readyBy]?).map (·.bay)) == some b then { e with ready := false } else e) }
  (List.range 36).foldl (fun s c => s.modCarrel (ckey b c) fun t => { t with mesh := 0, lift := 0 }) s

/-! ## The loader (R71, R72, R89, R277) -/

/-- Loads count double into a bay at half rate, in band E (R322). -/
def State.loadCost (s : State) (b : Nat) : Nat := if (s.node b).band = 4 then 2 else 1

/-- The folio is active: its entry runs now. -/
def State.folioActive (s : State) (k : Nat) : Bool :=
  let c := s.carrel (k / 8)
  s.rotasRun (keyBay k) && !c.idle && c.curFolio == keyFolio k

/-- The edition's EDITION_READY is high, or the folio that drives it runs and can raise it in this cycle (R79). -/
def State.canBeReady (s : State) (n : Nat) : Bool :=
  match s.edition n with
  | none => true
  | some e => e.ready || ((e.members[e.readyBy]?).map fun m => s.folioActive (memberKey m)).getD false

/-- EDITION_READY of the editions given is high. -/
def raiseReady (ns : List Nat) (s : State) : State :=
  { s with fab.editions := s.fab.editions.map fun (n, e) => (n, if ns.contains n then { e with ready := true } else e) }

/-- R51: every edition bound in the bay drives EDITION_READY high in one fabric cycle; what is seen in Bring-up stands for the rest of
it, whatever is bound or driven later (log entry 71). -/
def execEditionReady (b : Bay) (s : State) : Host.Outcome State Fault Refusal :=
  done (when (s.bayMode b.val == .bringUp && (s.boundIn b.val).all s.canBeReady) (fun s =>
    { raiseReady (s.boundIn b.val) s with modes.ready := setBit s.modes.ready b.val true }) s)

/-- R287: a folio that enters loading or reloading loses its pending corrections. -/
def dropCorrections (k : Nat) (s : State) : State :=
  let left := s.shelf.pending.filter fun c => c.folioKey != k
  { s with shelf.pending := left, shelf.fullAllFrame := s.shelf.fullAllFrame && left.length == 16 }

/-- Take a carrel-folio for a request: it leaves its former state (R72); a reload of an active folio waits for its turn. -/
def takeFolio (num : Nat) (keep : Bool) (k : Nat) (s : State) : State :=
  let f := s.folio k
  let item : LoadItem := { key := k, prior := f.state, request := num, waiting := f.state == .inRota && s.folioActive k
                           keep := keep }
  let s := s.modFolio k fun t => { t with state := if t.state == .inRota then .reloading else .loading }
  dropCorrections k { s with fab.loads := s.fab.loads ++ [item] }

/-- A loader request with the folios it will write, in order. -/
def startRequest (keep : Bool) (kind : LoadKind) (id : Option SlipId) (keys : List Nat) (s : State) : State :=
  let num := s.fab.nextReq
  let s := { s with fab.nextReq := num + 1, fab.reqs := s.fab.reqs ++ [{ num := num, kind := kind, id := id }] }
  keys.foldl (fun s k => takeFolio num keep k s) s

def startLoad (kind : LoadKind) (id : Option SlipId) (keys : List Nat) (s : State) : State := startRequest false kind id keys s

/-- A rota comes into force at once: its carrel holds it, to run when the bay's rotas next run (R95). -/
def installRota (r : RotaRec) (s : State) : State :=
  s.modCarrel r.key fun c => { c with rota := r.rota, acc := if c.rota == r.rota then c.acc else [], cur := 0 }

/-- The lowest edition numbers that no archived edition holds. -/
def State.freeEditions (s : State) : List Nat := (List.range 1024).filter fun n => (Sparse.look s.fab.editions n).isNone

/-- Editions join the archive under the next free numbers, in the state given, with the copies of their folios (R387). -/
def addEditions (es : List EditionSt) (state : Nat) (copies : List (Nat × FolioImage)) (cats : List (Nat × List Nat)) (s : State) :
    State :=
  let copiesOf := fun (e : EditionSt) => (e.members.map memberKey).filterMap fun k =>
    (Sparse.look copies k).map fun im => (k, im, Sparse.look cats k)
  let put := fun (l : Sparse EditionSt) (x : Nat × EditionSt) =>
    Sparse.ins l x.1 { x.2 with state := state, replaced := [], ready := false, copies := copiesOf x.2 }
  { s with fab.editions := (s.freeEditions.zip es).foldl put s.fab.editions }

/-- The editions with a member in the bay leave the archive, with their bindings. -/
def dropEditions (b : Nat) (s : State) : State :=
  let gone := (s.fab.editions.filter fun (_, e) => e.members.any fun m => m.bay == b).map (·.1)
  { s with
    fab.editions := s.fab.editions.filter fun (n, _) => !gone.contains n
    fab.binds := s.fab.binds.filter fun (_, w) => !gone.contains w.edition }

/-- The bay's archive copies are replaced by the part's (R267, R268). -/
def replaceArchive (b : Nat) (c : BayContent) (s : State) : State :=
  let kept := s.cfg.archive.filter fun (k, _) => keyBay k != b
  let r := placeCopies c.folios (dropEditions b s)
  { r.2 with
    cfg.archive := r.1.foldl (fun l (k, v) => Sparse.ins l k v) kept
    cfg.archiveCat := (if c.hardened then [] else c.catalogue).foldl (fun l (k, v) => Sparse.ins l k v)
      (s.cfg.archiveCat.filter fun (k, _) => keyBay k != b)
    cfg.archiveUse := Sparse.put 0 s.cfg.archiveUse b c.stored }

/-- The channel sets, bank settings, rotas, editions and user RAM of a bay's segments (R267 step 4). -/
def applyBaySettings (b : Nat) (c : BayContent) (s : State) : State :=
  let s := s.modBay b fun t => { t with
    hardened := c.hardened, vmin := c.vmin, crossings := c.crossings, channels := c.channels, inMask := true }
  let other := s.fab.banks.filter fun (k, _) => k / 144 != b
  let s := { s with fab.banks := c.banks.foldl (fun l (k, v) => Sparse.put .dflt l k v) other }
  let s := (List.range 36).foldl (fun s p => s.modCarrel (ckey b p) fun t => { t with rota := ⟨false, []⟩, acc := [], cur := 0 }) s
  let s := c.rotas.foldl (fun s r => installRota r s) s
  let nums := s.freeEditions
  let s := addEditions c.editions 2 s.cfg.archive (if c.hardened then [] else c.catalogue) s
  let binds := c.bindings.foldl (fun l (p, w) => Sparse.ins l p { w with edition := nums.getD w.edition 0, old := none })
    s.fab.binds
  let s := { s with fab.binds := binds }
  c.userInit.foldl (fun s (a, l) => layerWrite a l s) s

/-- The folios of a bay in the order of R72: folio by folio, positions ascending. -/
def applyOrder (keys : List Nat) : List Nat :=
  sortBy (fun a b => decide (keyFolio a * 36 + keyPos a ≤ keyFolio b * 36 + keyPos b)) keys

/-- R267 step 4, bay by bay: its archive copies are written, the loader takes its folios, and its settings follow the last. -/
def beginBays (l : List BayContent) (s : State) : State :=
  match l with
  | [] => { s with cfg.applyRest := [] }
  | c :: rest =>
    let s := { replaceArchive c.bay c s with cfg.applyRest := rest }
    let keys := applyOrder (c.folios.map (·.1))
    if keys.isEmpty then beginBays rest (applyBaySettings c.bay c s)
    else startLoad (.apply (Fin.ofNat 32 c.bay) (some c)) none keys s

/-- A request whose last folio is written: its slip completes (R377 aside), its edition is loaded, its bay's apply is done, and the
next bay's of a stream begins. -/
def endRequest (r : LoadReq) (s : State) : State :=
  let s := { s with fab.reqs := s.fab.reqs.filter fun x => x.num != r.num }
  match r.kind with
  | .folios => completeOpt r.id St.ok s
  | .apply b c =>
    let s := completeOpt r.id St.ok (match c with
      | some c => applyBaySettings b.val c s
      | none => s)
    if s.cfg.phase = 4 then beginBays s.cfg.applyRest s else s
  | .edition n =>
    match s.edition n with
    | none => completeOpt r.id St.ok s
    | some e =>
      let s := { s with fab.editions := Sparse.ins s.fab.editions n { e with state := 2 } }
      match r.id with
      | some id => complete id St.ok 0 [BitVec.ofNat 8 e.tag, BitVec.ofNat 8 e.members.length] s
      | none => s

/-- Within the budget of R46; in house Intake the budget does not apply (R267). -/
def State.loadFits (s : State) (k : Nat) : Bool :=
  s.modes.house == .intake || s.fab.loadsThisFrame + s.loadCost (keyBay k) ≤ 20

/-- The state of a folio once it is written: in rota or loaded, as the rota in force names it; in a bay whose rotas do not run, it
waits for the boundary at which they next run (R71, R72, R95). -/
def State.writtenState (s : State) (k : Nat) (reload : Bool) : FolioState :=
  let named := (namedFolios (s.carrel (k / 8)).rota).contains (keyFolio k)
  if if (s.bay (keyBay k)).running then named else reload then .inRota else .loaded

/-- The archive copy that a load reads, with its catalogue: the edition's own for EDITION_LOAD, else the folio's (R282, R387). -/
def State.copyFor (s : State) (it : LoadItem) : Option (FolioImage × Option (List Nat)) :=
  let own := (s.fab.reqs.find? fun r => r.num == it.request).bind fun r => match r.kind with
    | .edition n => (s.edition n).bind fun e => Sparse.look e.copies it.key
    | _ => none
  own.or ((Sparse.look s.cfg.archive it.key).map fun im => (im, Sparse.look s.cfg.archiveCat it.key))

/-- The copy read for a load is the folio's from then on. -/
def keepCopy (k : Nat) (c : FolioImage × Option (List Nat)) (s : State) : State :=
  { s with
    cfg.archive := Sparse.ins s.cfg.archive k c.1
    cfg.archiveCat := match c.2 with
      | some l => Sparse.ins s.cfg.archiveCat k l
      | none => Sparse.del s.cfg.archiveCat k }

/-- The write of the carrel-folio at the head of the loader's list ends: its configuration is the archive copy's; a load
initialises the state store, a reload keeps it and is told to the design (R69, R71, R89). -/
def writeFolio (it : LoadItem) (s : State) : State :=
  let copy := (s.copyFor it).getD (⟨0, 0, [], false⟩, none)
  let a := copy.1
  let cat := copy.2
  let s := (keepCopy it.key copy (fetchCopy a s)).modFolio it.key fun t =>
    let t := { t with config := a.config, init := a.init, struck := [], catalogue := cat }
    if t.state == .reloading || it.keep then { t with state := s.writtenState it.key (t.state == .reloading), reloaded := true }
    else { t.save a.init with state := s.writtenState it.key false, missed := 0, reloaded := false, faultMask := 0 }
  let s := { s with
    fab.loads := s.fab.loads.filter (fun x => x.key != it.key)
    fab.loadsThisFrame := s.fab.loadsThisFrame + s.loadCost (keyBay it.key) }
  match s.fab.reqs.find? (fun r => r.num == it.request) with
  | some r => if s.fab.loads.any (fun x => x.request == it.request) then s else endRequest r s
  | none => s

/-- The folio that the loader writes next; loads into a bay in Holdover are withheld ("Table: mode codes"). -/
def State.loadNext (s : State) : Option LoadItem := s.fab.loads.find? fun it => s.bayMode (keyBay it.key) != .holdover

/-- R89: the entry of the folio has turned, and its rewrite begins. -/
def execReloadRewriteStart (b : Bay) (c : Pos) (f : Folio) (s : State) : Host.Outcome State Fault Refusal :=
  let k := fkey b.val c.val f.val
  done (when (!s.folioActive k)
    (fun s => { s with fab.loads := s.fab.loads.map fun x => if x.key = k then { x with waiting := false } else x }) s)

/-- The folios of a request not yet written return to the states they held (R277). -/
def returnFolios (num : Nat) (s : State) : State :=
  let items := s.fab.loads.filter fun x => x.request == num
  items.foldl (fun s x => s.modFolio x.key fun t => { t with state := x.prior })
    { s with fab.loads := s.fab.loads.filter fun x => x.request != num }

/-- A carrel-folio's channels are free (R98). -/
def freeChannels (k : Nat) (s : State) : State :=
  (clearChannels k (s.channelsOf k) s).modBay (keyBay k) fun t => { t with channels := t.channels.filter fun a => a.folioKey != k }

/-- A carrel-folio becomes empty, its channels free (R98). -/
def emptyFolio (s : State) (k : Nat) : State := freeChannels k (s.modFolio k fun _ => .dflt)

/-- An edition whose load ended early is archived again, its channels freed. -/
def unloadEdition (n : Nat) (s : State) : State :=
  match s.edition n with
  | none => s
  | some e => (e.channels.map (·.folioKey)).foldl (fun s k => freeChannels k s)
      { s with fab.editions := Sparse.ins s.fab.editions n { e with state := 0 } }

/-- R277: the request ends on a bus error from its archive copy, which the store reports under R228; the block of the archive
area and the syndrome are open. -/
def archiveError (b : Bay) (it : LoadItem) (s : State) : State :=
  let add : List (Domain × Mode) := if s.bayMode b.val == Mode.service then [(.bay b, .holdover)] else []
  let free := Config.freeValue s.frame.freeCount
  let s := sideUncorrectable 0x38 (0x1F000000 + free.toNat % 2 ^ 23) (free.toNat / 2 ^ 32 % 256) false
    { s.useFree with modes.autos := s.modes.autos ++ add }
  match s.fab.reqs.find? (fun r => r.num == it.request) with
  | none => s
  | some r =>
    let s := returnFolios r.num { s with fab.reqs := s.fab.reqs.filter fun x => x.num != r.num }
    let s := match r.kind with
      | .edition n => unloadEdition n s
      | _ => s
    match r.id with
    | some id => complete id St.uncorrectable 0 [] s
    | none => s

/-- A copy that a retired page has taken is not read: the load fails (R278). -/
def State.copyLost (s : State) (it : LoadItem) : Bool := ((s.copyFor it).map fun c => c.1.lost).getD false

def folioWritten (b : Bay) (it : LoadItem) (s : State) : State := if s.copyLost it then archiveError b it s else writeFolio it s

def execFolioWriteComplete (b : Bay) (c : Pos) (f : Folio) (s : State) : Host.Outcome State Fault Refusal :=
  run (match s.loadNext with
    | some it => when (it.key == fkey b.val c.val f.val && !it.waiting && s.loadFits it.key) (folioWritten b it)
    | none => id) s

def execArchiveReadError (b : Bay) (s : State) : Host.Outcome State Fault Refusal :=
  run (match s.fab.loads.find? (fun x => keyBay x.key == b.val) with
    | some it => archiveError b it
    | none => id) s

/-- R53, R278: a bay's apply stops: what is written stays, the folio in progress is emptied, the others return. -/
def stopApply (b : Bay) (s : State) : State :=
  match s.fab.reqs.find? (fun r => match r.kind with
      | .apply x _ => x == b
      | _ => false) with
  | none => s
  | some r =>
    let first := s.loadNext
    let s := returnFolios r.num { s with fab.reqs := s.fab.reqs.filter fun x => x.num != r.num }
    let s := match first with
      | some it => if it.request = r.num then emptyFolio s it.key else s
      | none => s
    completeOpt r.id St.superseded s

end Sys2Proof.Machine
end

