-- ==== Sys2Proof/Machine/FabricSlips.lean ====
section
/-! DEFINITION. The call slips of family 0x04 ("Fabric, rota and edition": R91 to R111, R217 to R219, R388). -/

namespace Sys2Proof.Machine
open Sys2Proof

/-- Each of n entries, size bytes each from first, is good: f answers the first offending offset of the entry at an offset. -/
def entriesOk (first size n : Nat) (f : Nat → Option Nat) : Except SlipErr Unit :=
  match (List.range n).findSome? fun i => f (first + i * size) with
  | some off => .error (bad off)
  | none => .ok ()

/-- Of n entries of a size from byte first, those the slip holds. -/
def fit (p : List Byte) (first size n : Nat) : Nat := min n ((16 + p.length - first) / size)

/-- The first of the pairs of offset and condition whose condition fails. -/
def firstBad (l : List (Nat × Bool)) : Option Nat := (l.find? fun x => !x.2).map (·.1)

/-! ## Rota records -/

def recordAt (p : List Byte) (off : Nat) : RotaRec :=
  { bay := arg p off 1, pos := arg p (off + 1) 1, long := arg p (off + 2) 1 % 2 == 1,
    entries := (List.range (arg p (off + 3) 1)).map fun i => w32 (arg p (off + 4 + 4 * i) 4) }

def recordsAt (p : List Byte) (first n : Nat) : List RotaRec := (List.range n).map fun i => recordAt p (first + 68 * i)

/-- R388: the ranges of a record's fields; those of an entry word are those of "Table: rota entry word". -/
def recordBad (p : List Byte) (off : Nat) : Option Nat :=
  let n := arg p (off + 3) 1
  firstBad (([(off, arg p off 1 < 32), (off + 1, arg p (off + 1) 1 < 36), (off + 2, arg p (off + 2) 1 < 2),
      (off + 3, 1 ≤ n && n ≤ 16)] : List (Nat × Bool)) ++
    (List.range 16).map fun i =>
      let w := w32 (arg p (off + 4 + 4 * i) 4)
      (off + 4 + 4 * i, if i < n then 1 ≤ entryLength w && entryLength w ≤ 62499 && entryReserved w == 0 &&
        entryFolio w ≤ 9 else w == 0))

/-- A record for a carrel that stands in the set replaces the earlier one (R388). -/
def addRecord (l : List RotaRec) (r : RotaRec) : List RotaRec := l.filter (fun x => x.key != r.key) ++ [r]

def recordBytes (b c : Nat) (r : RotaSt) : List Byte :=
  [BitVec.ofNat 8 b, BitVec.ofNat 8 c, BitVec.ofNat 8 (bitOf r.long), BitVec.ofNat 8 r.entries.length] ++
    (List.range 16).flatMap fun i => leBytes 4 ((r.entries[i]?).getD 0).toNat

def baysIn (s : State) (l : List Nat) : Except SlipErr Unit :=
  need (l.all fun b => 32 ≤ b || modeIn (s.bayMode b) fabricModes) (fail St.modeConflict)

/-! ## ROTA_SET, ROTA_QUERY -/

/-- R111: the rotas remove a folio of the old edition of a switch under way. -/
def State.removesSwitching (s : State) (recs : List RotaRec) : Bool :=
  let olds := (s.bindsAhead []).filterMap fun (_, w) => w.old.map (·.edition)
  let keys := (olds.flatMap fun n => ((s.edition n).map fun e => e.members.map memberKey).getD [])
  recs.any fun r => keys.any fun k =>
    k / 8 == r.key && (namedFolios (s.rotaAhead [] r.key)).contains (keyFolio k) &&
      !(namedFolios r.rota).contains (keyFolio k)

/-- The checks of a commit over its whole pending set. -/
def State.commitFault (s : State) (recs : List RotaRec) : Option (BitVec 16) :=
  if s.removesSwitching recs then some St.folioBusy else s.rotaFault recs []

def rotaSetBody (p : List Byte) (id : SlipId) (s : State) : SlipOut := do
  let flags := arg p 16 1
  let commit := flags % 2 == 1
  let abandon := flags / 2 % 2 == 1
  let count := arg p 18 2
  let recs := recordsAt p 20 (fit p 20 68 count)
  let ch := id.ch.val
  let held := Sparse.get [] s.fab.pendRota ch
  let set := recs.foldl addRecord held
  need ((count == 0 && abandon && !commit) ||
    (if commit then set else recs).all fun r => 32 ≤ r.bay || modeIn (s.bayMode r.bay) fabricModes) (fail St.modeConflict)
  fieldsTo [⟨16, 1, flags < 3⟩, ⟨18, 2, count ≤ 59 && (0 < count || flags != 0)⟩] 20 p
  counted p 18 count 0 59 20 68
  entriesOk 20 68 count (recordBad p)
  zeroFrom (20 + 68 * count) p
  need (set.length ≤ 1152) (bad 18)
  let clear := fun (s : State) => { s with fab.pendRota := Sparse.put [] s.fab.pendRota ch [] }
  if abandon then okSlip (clear s)
  else if !commit then okSlip { s with fab.pendRota := Sparse.put [] s.fab.pendRota ch set }
  else match s.commitFault set with
    | some st => .error { status := st, discard := clear }
    | none =>
      if (set.all fun r => s.bayMode r.bay == .intake || s.bayMode r.bay == .bindery) &&
          !(s.fab.changes.any fun c => c.ch == id.ch || c.change.rotasOf.any fun x => set.any fun r => x.key == r.key) then
        acceptDone (set.foldl (fun s r => installRota r s) (clear s)) St.ok
      else
        let c : Change4 := { ch := id.ch, seq := id.seq, change := .rotas set, retries := 0, id := some id, ready := true }
        accept { clear s with fab.changes := s.fab.changes ++ [c] }

def execRotaSet (h : SlipHdr) (p : List Byte) (s : State) : Host.Outcome State Fault Refusal :=
  slip 0x0401 .ordinary h p (rotaSetBody p) s

/-- The rota pending at a carrel: in the channel's set, else committed and not installed, else the one in force (DEDUCED, log
entry 16). -/
def State.rotaPending (s : State) (ch k : Nat) : RotaSt :=
  match (Sparse.get [] s.fab.pendRota ch).find? (fun r => r.key == k) with
  | some r => r.rota
  | none => s.rotaAhead [] k

def rotaQueryBody (p : List Byte) (id : SlipId) (s : State) : SlipOut := do
  let b := arg p 16 1
  let first := arg p 17 1
  let n := arg p 18 1
  bayIn s b fabricModes
  fields [⟨16, 1, b < 32⟩, ⟨17, 1, first < 36⟩, ⟨18, 1, 1 ≤ n && n ≤ 36 && first + n ≤ 36⟩, ⟨19, 1, arg p 19 1 < 2⟩] p
  okResult s ((List.range n).flatMap fun i =>
    let k := ckey b (first + i)
    recordBytes b (first + i) (if arg p 19 1 = 1 then s.rotaPending id.ch.val k else (s.carrel k).rota))

def execRotaQuery (h : SlipHdr) (p : List Byte) (s : State) : Host.Outcome State Fault Refusal :=
  slip 0x0402 .passable h p (rotaQueryBody p) s

/-! ## FOLIO_LOAD -/

/-- A carrel-folio that the entries name twice is written once, in its first place: the spec is silent (log entry 78). -/
def folioLoadBody (p : List Byte) (id : SlipId) (s : State) : SlipOut := do
  let n := arg p 16 2
  let offs := (List.range (fit p 20 4 n)).map fun i => 20 + 4 * i
  baysIn s (offs.map fun o => arg p o 1)
  fieldsTo [⟨16, 2, 1 ≤ n && n ≤ 1000⟩] 20 p
  counted p 16 n 1 1000 20 4
  entriesOk 20 4 n fun o =>
    firstBad [(o, arg p o 1 < 32), (o + 1, arg p (o + 1) 1 < 36), (o + 2, arg p (o + 2) 1 < 8), (o + 3, arg p (o + 3) 1 == 0)]
  zeroFrom (20 + 4 * n) p
  let keys := (offs.map fun o => fkey (arg p o 1) (arg p (o + 1) 1) (arg p (o + 2) 1)).eraseDups
  need (keys.all fun k => s.folioState k != .loading && s.folioState k != .reloading) (fail St.folioBusy)
  need (keys.all fun k => (Sparse.look s.cfg.archive k).isSome && s.folioState k != .absent) (fail St.archiveBad)
  accept (startLoad .folios (some id) keys s)

def execFolioLoad (h : SlipHdr) (p : List Byte) (s : State) : Host.Outcome State Fault Refusal :=
  slip 0x0403 .ordinary h p (folioLoadBody p) s

/-! ## Editions -/

def State.editionKeys (s : State) (n : Nat) : List Nat := ((s.edition n).map fun e => e.members.map memberKey).getD []
def State.editionBays (s : State) (n : Nat) : List Nat := (s.editionKeys n).map keyBay

/-- The folio is named by a rota in force or committed. -/
def State.inARota (s : State) (k : Nat) : Bool :=
  (namedFolios (s.carrel (k / 8)).rota).contains (keyFolio k) || (namedFolios (s.rotaAhead [] (k / 8))).contains (keyFolio k)

/-- Channels held in the set of folio number f of bay b. -/
def State.setChannels (s : State) (b f : Nat) : List ChanAlloc :=
  (s.bay b).channels.filter fun a => keyFolio a.folioKey == f

/-- Channels of a set that may have a sink above another base quadrant (R97). -/
def State.crossLimit (s : State) (b : Nat) : Nat := if (s.bay b).hardened then 576 else 288

/-- R98: the allocation names a channel another folio holds, or takes a set past the limit of R97. -/
def State.channelsClash (s : State) (l : List ChanAlloc) : Bool :=
  let keys := l.map (·.folioKey)
  l.any fun a =>
    let others := (s.setChannels (keyBay a.folioKey) (keyFolio a.folioKey)).filter fun x => !keys.contains x.folioKey
    let mine := l.filter fun x => keyBay x.folioKey == keyBay a.folioKey && keyFolio x.folioKey == keyFolio a.folioKey
    (others.any fun x => x.numbers.any fun c => a.numbers.contains c) ||
      s.crossLimit (keyBay a.folioKey) < ((others ++ mine).map fun x => x.cross.length).foldl (· + ·) 0

/-- A channel allocation comes into force: each folio's entry replaces the one it held. Its channels hold nothing, and carry
values from the boundary at which the folio enters a rota. -/
def grantChannels (l : List ChanAlloc) (s : State) : State :=
  l.foldl (fun s a => (clearChannels a.folioKey a.chans (freeChannels a.folioKey s)).modBay (keyBay a.folioKey) fun t =>
    { t with channels := t.channels ++ [{ a with carries := false }] }) s

/-- Editions that lose a folio to the load of another are archived again. -/
def displace (n : Nat) (keys : List Nat) (s : State) : State :=
  { s with fab.editions := s.fab.editions.map fun (m, e) =>
      if m != n && e.state == 2 && e.members.any (fun x => keys.contains (memberKey x)) then (m, { e with state := 0 }) else (m, e) }

def editionLoadBody (p : List Byte) (id : SlipId) (s : State) : SlipOut := do
  let n := arg p 16 2
  baysIn s (s.editionBays n)
  fields [⟨16, 2, n < 1024⟩] p
  match s.edition n with
  | none => .error (fail St.archiveBad)
  | some e => do
    let keys := s.editionKeys n
    need (keys.all fun k => (s.folioState k == .empty || s.folioState k == .loaded) && !s.inARota k) (fail St.folioBusy)
    need (!s.channelsClash e.channels) (fail St.channelsBusy)
    need (keys.all fun k => (Sparse.look e.copies k).isSome || (Sparse.look s.cfg.archive k).isSome) (fail St.archiveBad)
    let s := displace n keys (grantChannels e.channels s)
    accept (startLoad (.edition n) (some id) keys { s with fab.editions := Sparse.ins s.fab.editions n { e with state := 1 } })

def execEditionLoad (h : SlipHdr) (p : List Byte) (s : State) : Host.Outcome State Fault Refusal :=
  slip 0x0404 .ordinary h p (editionLoadBody p) s

def portEntryAt (p : List Byte) (o : Nat) : PortEntry :=
  { port := arg p o 2, rate := arg p (o + 2) 1, width := arg p (o + 3) 1, line := arg p (o + 4) 1, item := arg p (o + 5) 1 }

def portEntriesAt (p : List Byte) (first n : Nat) : List PortEntry := (List.range n).map fun i => portEntryAt p (first + 8 * i)

/-- The member at index i of the edition holds the role for the engine group of the port. -/
def State.serves (s : State) (n i role port : Nat) : Bool :=
  match s.memberAt n i with
  | some m => m.role == role && m.group == engineOf port
  | none => false

def portEntryBad (s : State) (n : Nat) (p : List Byte) (o : Nat) : Option Nat :=
  let e := portEntryAt p o
  firstBad [(o, e.port < 144), (o + 2, e.rate ≤ topRate e.port), (o + 3, e.width ≤ topWidth e.port),
    (o + 4, s.edition n == none || s.serves n e.line 1 e.port), (o + 5, s.edition n == none || s.serves n e.item 2 e.port),
    (o + 6, arg p (o + 6) 2 == 0)]

def State.tagOf (s : State) (n : Nat) : Nat := ((s.edition n).map (·.tag)).getD 0

/-- One of two editions replaced the other under EDITION_SWITCH. -/
def State.replacing (s : State) (n m : Nat) : Bool :=
  (((s.edition n).map (·.replaced)).getD []).contains m || (((s.edition m).map (·.replaced)).getD []).contains n

/-- R103: another bound edition has the tag. EDITION_BIND passes over those that one replaced the other, EDITION_SWITCH over the
old edition alone. -/
def State.tagTaken (s : State) (n : Nat) (old : Option Nat) : Bool :=
  (s.bindsAhead []).any fun (_, w) =>
    (w.edition :: (w.old.map (·.edition)).toList).any fun m =>
      m != n && s.tagOf m == s.tagOf n && (match old with
        | some o => m != o
        | none => !s.replacing n m)

/-- Port p stands bound to edition n once every committed change has applied. -/
def State.boundTo (s : State) (n p : Nat) : Bool :=
  match Sparse.look (s.bindsAhead []) p with
  | some w => w.edition == n
  | none => false

def State.editionIs (s : State) (n st : Nat) : Bool := ((s.edition n).map (·.state)) == some st

/-- A valid flow names the port with the edition's tag. -/
def State.flowNames (s : State) (p tag : Nat) : Bool :=
  s.flows.any fun (_, f) => f.valid && f.inPort == p && f.inTag == tag

/-- R159: the ceiling does not lie below the step of a port in Service or Holdover. -/
def State.ceilingHolds (s : State) (e : PortEntry) : Bool :=
  let c := (s.port e.port).neg.cur
  !modeIn (s.portMode e.port) [.service, .holdover] || (c.rate ≤ e.rate && c.width ≤ e.width)

def editionBindBody (p : List Byte) (id : SlipId) (s : State) : SlipOut := do
  let n := arg p 16 2
  let act := arg p 18 1
  let count := arg p 19 1
  let es := portEntriesAt p 20 count
  baysIn s (s.editionBays n)
  fieldsTo [⟨16, 2, n < 1024⟩, ⟨18, 1, act < 2⟩, ⟨19, 1, 1 ≤ count && count ≤ 144⟩] 20 p
  counted p 19 count 1 144 20 8
  entriesOk 20 8 count (if act = 0 then portEntryBad s n p else fun o => firstBad [(o, arg p o 2 < 144)])
  zeroFrom (20 + 8 * count) p
  let schedule := fun (c : Step4) =>
    okSlip { s with fab.changes := s.fab.changes ++
      [{ ch := id.ch, seq := id.seq, change := c, retries := 0, id := none, ready := true }] }
  if act = 0 then do
    need (!s.tagTaken n none) (bad 16)
    entriesOk 20 8 count fun o => firstBad [(o + 2, s.ceilingHolds (portEntryAt p o))]
    need (s.editionIs n 2) (fail St.folioEmpty)
    let c := Step4.bind n es
    need (s.attachesFit (s.bindsAhead [c]) (s.rotaAhead []) ((s.attachKeys (s.bindsAhead [c])).map (· / 8))) (fail St.attachFit)
    schedule c
  else do
    let ports := (es.map (·.port)).filter fun q => s.boundTo n q
    need (ports.all fun q => !s.flowNames q (s.tagOf n)) (fail St.flowBusy)
    schedule (.unbind ports)

def execEditionBind (h : SlipHdr) (p : List Byte) (s : State) : Host.Outcome State Fault Refusal :=
  slip 0x0405 .ordinary h p (editionBindBody p) s

def editionSwitchBody (p : List Byte) (id : SlipId) (s : State) : SlipOut := do
  let old := arg p 16 2
  let succ := arg p 18 2
  let np := arg p 20 1
  let nr := arg p 21 1
  let es := portEntriesAt p 24 np
  let rs := recordsAt p (24 + 8 * np) (fit p (24 + 8 * np) 68 nr)
  baysIn s (s.editionBays old ++ s.editionBays succ ++ rs.map (·.bay))
  fieldsTo [⟨16, 2, old < 1024⟩, ⟨18, 2, succ < 1024⟩, ⟨20, 1, 1 ≤ np && np ≤ 9⟩, ⟨21, 1, nr ≤ 58⟩] 24 p
  need (24 + 8 * np ≤ 16 + p.length) (tooLong 20)
  need (24 + 8 * np + 68 * nr ≤ 16 + p.length) (tooLong 21)
  entriesOk 24 8 np (portEntryBad s succ p)
  entriesOk (24 + 8 * np) 68 nr (recordBad p)
  zeroFrom (24 + 8 * np + 68 * nr) p
  entriesOk 24 8 np fun o => firstBad [(o, s.boundTo old (arg p o 2))]
  need (!s.tagTaken succ (some old)) (bad 18)
  need (s.editionIs succ 2) (fail St.folioEmpty)
  let recs := rs.foldl addRecord []
  let c := Step4.switch old succ es recs
  need (!s.removesSwitching recs) (fail St.folioBusy)
  match s.rotaFault recs [c] with
  | some st => .error (fail st)
  | none => do
    let binds := s.bindsAhead [c]
    need (s.attachesFit binds (s.rotaAhead recs) ((s.attachKeys binds).map (· / 8))) (fail St.attachFit)
    accept { s with fab.changes := s.fab.changes ++
      [{ ch := id.ch, seq := id.seq, change := c, retries := 0, id := some id, ready := true }] }

def execEditionSwitch (h : SlipHdr) (p : List Byte) (s : State) : Host.Outcome State Fault Refusal :=
  slip 0x0406 .fencing h p (editionSwitchBody p) s

/-- Ports an edition serves: port, binding, and the member indexes by which it serves them. -/
def State.editionPorts (s : State) (n : Nat) : List (Nat × BindSt × Nat × Nat) :=
  s.fab.binds.filterMap fun (p, w) =>
    if w.edition == n then some (p, w, w.line, w.item)
    else match w.old with
      | some o => if o.edition == n then some (p, w, o.line, o.item) else none
      | none => none

/-- The state EDITION_QUERY reports: archived, loading, loaded, bound, switching. -/
def State.editionState (s : State) (n : Nat) (e : EditionSt) : Nat :=
  let ports := s.editionPorts n
  if e.state < 2 then e.state
  else if ports.any fun x => x.2.1.old.isSome then 4
  else if ports.isEmpty then 2 else 3

def editionQueryBody (p : List Byte) (s : State) : SlipOut := do
  let n := arg p 16 2
  fields [⟨16, 2, n < 1024 && (s.edition n).isSome⟩] p
  match s.edition n with
  | none => .error (bad 16)
  | some e =>
    let ports := s.editionPorts n
    okResult s ([BitVec.ofNat 8 (s.editionState n e), BitVec.ofNat 8 e.tag, BitVec.ofNat 8 (bitOf e.protectedCapable),
        BitVec.ofNat 8 e.members.length] ++ leBytes 2 ports.length ++ leBytes 10 0 ++
      (e.members.flatMap fun m => [BitVec.ofNat 8 m.bay, BitVec.ofNat 8 m.pos, BitVec.ofNat 8 m.folio, BitVec.ofNat 8 m.role]) ++
      (ports.flatMap fun (q, w, l, i) => leBytes 2 q ++ [BitVec.ofNat 8 w.rate, BitVec.ofNat 8 w.width, BitVec.ofNat 8 l,
        BitVec.ofNat 8 i, 0, 0]))

def execEditionQuery (h : SlipHdr) (p : List Byte) (s : State) : Host.Outcome State Fault Refusal :=
  slip 0x0407 .passable h p (fun _ s => editionQueryBody p s) s

/-- The folios of an edition become empty, and their channels free (R98, R109). -/
def emptyFolios (keys : List Nat) (s : State) : State := keys.foldl emptyFolio s

def editionRetireBody (p : List Byte) (s : State) : SlipOut := do
  let n := arg p 16 2
  baysIn s (s.editionBays n)
  fields [⟨16, 2, n < 1024 && (s.edition n).isSome⟩, ⟨18, 1, arg p 18 1 < 2⟩] p
  match s.edition n with
  | none => .error (bad 16)
  | some e => do
    let keys := s.editionKeys n
    let bound := (s.bindsAhead []).any fun (_, w) => w.edition == n || (w.old.map (·.edition)) == some n
    need (e.state != 1 && (e.state == 0 || (!bound && keys.all fun k => !s.inARota k))) (fail St.folioBusy)
    let s := if e.state == 2 then emptyFolios keys s else s
    if arg p 18 1 = 1 then
      okSlip { s with
        fab.editions := Sparse.del s.fab.editions n
        cfg.archive := s.cfg.archive.filter fun (k, _) => !keys.contains k }
    else okSlip { s with fab.editions := Sparse.ins s.fab.editions n { e with state := 0, replaced := [] } }

def execEditionRetire (h : SlipHdr) (p : List Byte) (s : State) : Host.Outcome State Fault Refusal :=
  slip 0x040A .ordinary h p (fun _ s => editionRetireBody p s) s

/-! ## BANK_SET, CHANNEL_QUERY -/

def lbank (b c k : Nat) : Nat := (b * 36 + c) * 4 + k

def bankCfgOf (v : Nat) : BankCfg :=
  { pool := v.testBit 7, share := BitVec.ofNat 2 (v / 32), user := BitVec.ofNat 5 v, place := none }

/-- A bank keeps its place in its user's order while it keeps its user. -/
def setBankCfg (l : Sparse BankCfg) (k : Nat) (v : BankCfg) : Sparse BankCfg :=
  let w := Sparse.get .dflt l k
  Sparse.put .dflt l k { v with place := if w.pool && v.pool && w.user == v.user then w.place else none }

def bankAfter (l : Sparse BankCfg) (c : Step4) : Sparse BankCfg :=
  match c with
  | .banks bs => bs.foldl (fun l (k, v) => setBankCfg l k v) l
  | .exchange a b =>
    let x := Sparse.get .dflt l a
    Sparse.put .dflt (Sparse.put .dflt l b { Sparse.get .dflt l b with user := x.user, place := some (x.place.getD a) }) a
      { x with user := 0x13, place := none }
  | _ => l

def State.banksAhead (s : State) (more : List Step4) : Sparse BankCfg :=
  ((s.fab.changes.map fun c => c.change) ++ more).foldl bankAfter s.fab.banks

/-- "Table: pool contents" (R218). -/
def poolHolds (l : Sparse BankCfg) : Bool :=
  (banksOf l 0x10).length == 256 && (banksOf l 0x11).length == 8 &&
    32 ≤ (banksOf l 0x12).length && (banksOf l 0x12).length ≤ 256

/-- R192: a word of an enabled queue of some engine would move. -/
def State.wordsMove (s : State) (before after : Sparse BankCfg) : Bool :=
  s.queues.any fun (q, d) =>
    d.enable &&
      (let x := banksOf before (queueEngine q)
       let y := banksOf after (queueEngine q)
       let g0 := 16 * d.base.toNat / 8192
       let g1 := (16 * d.base.toNat + queueCap d.sizeCode.toNat - 1) / 8192
       (x.drop (4 * g0)).take (4 * (g1 + 1 - g0)) != (y.drop (4 * g0)).take (4 * (g1 + 1 - g0)))

/-- The bank that serves a logical bank is retired. -/
def State.bankRetired (s : State) (k : Nat) : Bool :=
  s.mem.retired.any fun r => r.bank && r.index == s.bankIndex (k / 144) (k / 4 % 36) (k % 4)

def bankEntryBad (p : List Byte) (exch : Bool) (o : Nat) : Option Nat :=
  let v := arg p (o + 2) 1
  let c := bankCfgOf v
  firstBad [(o, arg p o 1 < 36), (o + 1, arg p (o + 1) 1 < 4),
    (o + 2, exch || (if c.pool then c.user.toNat ≤ 0x13 else v == 0)), (o + 3, arg p (o + 3) 1 == 0)]

/-- R101: codes that give the house less than 75 % only where the user is the desk's working store or none. -/
def shareAllowed (c : BankCfg) : Bool :=
  !c.pool || c.share == 0 || c.share == 2 || c.user == 0x12 || c.user == 0x13

def bankSetBody (p : List Byte) (id : SlipId) (s : State) : SlipOut := do
  let b := arg p 16 1
  let exch := arg p 17 1 == 1
  let count := arg p 18 2
  let offs := (List.range count).map fun i => 20 + 4 * i
  bayIn s b fabricModes
  fieldsTo [⟨16, 1, b < 32⟩, ⟨17, 1, arg p 17 1 < 2⟩, ⟨18, 2, 1 ≤ count && count ≤ 144 && (!exch || count == 2)⟩] 20 p
  counted p 18 count 1 144 20 4
  entriesOk 20 4 count (bankEntryBad p exch)
  zeroFrom (20 + 4 * count) p
  let cur := s.banksAhead []
  let push := fun (s : State) (c : Step4) (i : Option SlipId) (r : Bool) =>
    { s with fab.changes := s.fab.changes ++ [{ ch := id.ch, seq := id.seq, change := c, retries := 0, id := i, ready := r }] }
  let key := fun o => lbank b (arg p o 1) (arg p (o + 1) 1)
  if exch then do
    let x := key 20
    let y := key 24
    let held := fun k => let u := (Sparse.get .dflt cur k).user.toNat; (Sparse.get .dflt cur k).pool && (u == 0x10 || u == 0x11)
    let free := fun k => (Sparse.get .dflt cur k).pool && (Sparse.get .dflt cur k).user.toNat == 0x13
    need ((held x && free y) || (held y && free x)) (bad 20)
    let (o, n) := if held x then (x, y) else (y, x)
    need (!s.bankRetired n) (fail St.bankInUse)
    accept (push s (.exchange o n) (some id) false)
  else do
    let bs := offs.map fun o => (key o, bankCfgOf (arg p (o + 2) 1))
    entriesOk 20 4 count fun o => firstBad [(o + 2, shareAllowed (bankCfgOf (arg p (o + 2) 1)))]
    let c := Step4.banks bs
    let next := s.banksAhead [c]
    let splits := bs.any fun (k, v) =>
      let w := Sparse.get .dflt cur k
      w.pool != v.pool || w.user != v.user
    need (!splits || s.bayMode b == .bindery) (fail St.modeConflict)
    need (poolHolds next) (fail St.poolMinimum)
    need (!s.wordsMove cur next) (fail St.queueBusy)
    need (bs.all fun (k, v) => !v.pool || v.user == 0x13 || !s.bankRetired k) (fail St.bankInUse)
    okSlip (push s c none true)

def execBankSet (h : SlipHdr) (p : List Byte) (s : State) : Host.Outcome State Fault Refusal :=
  slip 0x0408 .ordinary h p (bankSetBody p) s

/-- CHANNEL_SET_n of a bay. -/
def State.channelSetReg (s : State) (b n : Nat) : Nat :=
  let l := s.setChannels b n
  if (s.bay b).hardened && 4 ≤ n then 0
  else pack [(12, (l.map (·.numbers.length)).foldl (· + ·) 0), (4, 0), (12, (l.map (·.cross.length)).foldl (· + ·) 0)]

/-- The allocation bitmap of one set. -/
def State.channelMap (s : State) (b n bytes : Nat) : List Byte :=
  let nums := (s.setChannels b n).flatMap (·.numbers)
  (List.range bytes).map fun i => BitVec.ofNat 8 (maskOf 8 fun j => nums.contains (8 * i + j))

def channelQueryBody (p : List Byte) (s : State) : SlipOut := do
  let b := arg p 16 1
  bayIn s b fabricModes
  fields [⟨16, 1, b < 32⟩] p
  okResult s ((List.range 8).flatMap (fun n => leBytes 4 (s.channelSetReg b n)) ++
    (if (s.bay b).hardened then (List.range 4).flatMap fun n => s.channelMap b n 288
     else (List.range 8).flatMap fun n => s.channelMap b n 144))

def execChannelQuery (h : SlipHdr) (p : List Byte) (s : State) : Host.Outcome State Fault Refusal :=
  slip 0x0409 .passable h p (fun _ s => channelQueryBody p s) s

end Sys2Proof.Machine
end

