-- ==== Sys2Proof/Machine/QueueOps.lean ====
section
/-! DEFINITION. A queue's pointers, markers, admission, drops, aborts, flush and reset ("Queues", R165 to R190), and the
credits its items hold (R197). -/

namespace Sys2Proof.Machine
open Sys2Proof

/-! ## Words (R170, R176) -/

def hdrFlow (w : Line) : Nat := field w.toNat 15 0
def hdrLen (w : Line) : Nat := field w.toNat 24 16
def hdrOrd (w : Line) : Bool := w.getLsbD 25
def hdrKind (w : Line) : Nat := field w.toNat 27 26
def hdrSeq (w : Line) : Nat := field w.toNat 47 32
def hdrTag (w : Line) : Nat := field w.toNat 55 48

/-- Write a context's class into a header (R194). -/
def setOrd (ord : Bool) (w : Line) : Line := setBit w 25 ord

/-- R171. -/
def isMalformed (w : Line) : Bool :=
  let n := hdrLen w
  n == 0 || 320 < n || 2 ≤ hdrKind w || (hdrKind w == 1 && n != 1)

/-- Cause bits of "Table: lacuna marker and abort word". -/
inductive LossCause where
  | full | oversize | poisoned | malformed | mode | flush | reset | storage
deriving DecidableEq, Repr

def LossCause.bits : LossCause → Byte
  | .full => 0x01 | .oversize => 0x02 | .poisoned => 0x04 | .malformed => 0x08
  | .mode => 0x10 | .flush => 0x20 | .reset => 0x40 | .storage => 0x80

/-- What a marker or abort word says. -/
structure Loss where
  flow : Nat
  ord : Bool
  kind : Nat
  firstSeq : Nat
  tag : Nat
  cause : Nat
  items : Nat
  words : Nat
  lastSeq : Nat
  firstFrame : Nat
  lastFrame : Nat
  firstSlot : Nat
  lastSlot : Nat
  queue : Nat

def Loss.line (m : Loss) : Line :=
  BitVec.ofNat 256 (pack [(16, m.flow), (9, 1), (1, bitOf m.ord), (2, m.kind), (4, 0), (16, m.firstSeq), (8, m.tag),
    (8, m.cause), (32, m.items), (32, m.words), (16, m.lastSeq), (16, 0), (32, m.firstFrame), (32, m.lastFrame),
    (8, m.firstSlot), (8, m.lastSlot), (14, m.queue), (2, 0)])

def lossOf (w : Line) : Loss :=
  let v := w.toNat
  { flow := hdrFlow w, ord := hdrOrd w, kind := hdrKind w, firstSeq := hdrSeq w, tag := hdrTag w, cause := field v 63 56,
    items := field v 95 64, words := field v 127 96, lastSeq := field v 143 128, firstFrame := field v 191 160,
    lastFrame := field v 223 192, firstSlot := field v 231 224, lastSlot := field v 239 232, queue := field v 253 240 }

/-- Counts saturate at 0xFFFF_FFFE; 0xFFFF_FFFF, unknown, stays. -/
def addCount (a b : Nat) : Nat := if a = 0xFFFFFFFF || b = 0xFFFFFFFF then 0xFFFFFFFF else min 0xFFFFFFFE (a + b)

/-- One marker takes in a later loss: counts add, causes join, the last values are the later ones (R177, R184). -/
def Loss.join (m l : Loss) : Loss :=
  { m with items := addCount m.items l.items, words := addCount m.words l.words, cause := m.cause ||| l.cause,
           lastSeq := l.lastSeq, lastFrame := l.lastFrame, lastSlot := l.lastSlot }

/-- The loss of one item with a header, now (R177). -/
def State.lossNow (s : State) (q : Nat) (hdr : Line) (cause : Byte) : Loss :=
  { flow := hdrFlow hdr, ord := hdrOrd hdr, kind := 1, firstSeq := hdrSeq hdr, tag := hdrTag hdr, cause := cause.toNat,
    items := 1, words := hdrLen hdr, lastSeq := hdrSeq hdr, firstFrame := s.frame.number.toNat,
    lastFrame := s.frame.number.toNat, firstSlot := s.frame.slot.toNat, lastSlot := s.frame.slot.toNat, queue := q }

/-! ## Pointers (R167, R168) -/

/-- A pointer value of this queue: modulo twice the capacity. -/
def QueueSt.ptr (d : QueueSt) (v : Nat) : BitVec 17 := BitVec.ofNat 17 (v % (2 * d.cap))
/-- Words from pointer a on to pointer b. -/
def QueueSt.span (d : QueueSt) (a b : Nat) : Nat := (b + 2 * d.cap - a % (2 * d.cap)) % (2 * d.cap)
def QueueSt.occupied (d : QueueSt) : Nat := d.span d.rptr.toNat d.wptr.toNat

def QueueSt.setW (d : QueueSt) (v : Nat) : QueueSt := { d with wptr := d.ptr v, wptrSh := d.ptr v }
def QueueSt.setR (d : QueueSt) (v : Nat) : QueueSt := { d with rptr := d.ptr v, rptrSh := d.ptr v }

def QueueSt.word (d : QueueSt) (p : Nat) : Line := Sparse.get 0 d.words (d.pos p)
def QueueSt.isOwn (d : QueueSt) (p : Nat) : Bool := d.own.contains (d.pos p)

/-- Store a word at the write pointer and advance it. -/
def QueueSt.push (w : Line) (d : QueueSt) : QueueSt :=
  { d.setW (d.wptr.toNat + 1) with
    words := Sparse.ins d.words (d.pos d.wptr.toNat) w
    own := d.own.filter fun x => x != d.pos d.wptr.toNat }

/-! ## Credits of arrived items (R197, R198, R200) -/

/-- Units of an item of n words. -/
def unitsOf (n : Nat) : Nat := (n + 7) / 8

def foreign (c : PortCfg) : Bool := 2 ≤ c.setting
/-- A native trunk: its items go straight to the lookup (R128). -/
def State.native (s : State) (p : Nat) : Bool := isTrunk p && !foreign (s.port p).cfg

/-- R201: the port returns credits to its partner. -/
def returnsCredit (c : PortCfg) : Bool := !foreign c && !(c.setting == 1 && !c.marksTx)
/-- R201: what the port sends is paced by credits. -/
def pacedByCredit (c : PortCfg) : Bool := !foreign c && !(c.setting == 1 && !c.marksRx)

def addAt (l : List Nat) (i n : Nat) : List Nat := l.modify i (· + n)

/-- Charge units to an index of a port; beyond the allowance it is an overdraw, told once a frame (R200). -/
def chargeCredit (p i n : Nat) (s : State) : State :=
  let t := s.port p
  let c := t.credit
  let allow := if i % 2 = 0 then c.allowProt else c.allowOrd
  let out := nth c.charged i - nth c.freed i + n
  let past := allow < out && returnsCredit t.cfg
  let s := s.modCredit p fun c =>
    { c with charged := addAt c.charged i n, overdraw := if past then sat 0xFFFF c.overdraw 1 else c.overdraw,
             overdrawTold := c.overdrawTold || past }
  if past && !c.overdrawTold then warn 0x0507 p [] s else s

def freeCredit (c : Option (Nat × Nat × Nat)) (s : State) : State :=
  match c with
  | some (p, i, n) => s.modCredit p fun c => { c with freed := addAt c.freed i n }
  | none => s

/-- What an item's arrival charged when it was placed. -/
def XbarItem.charge (x : XbarItem) : Option (Nat × Nat × Nat) := some (x.port, x.index, unitsOf (hdrLen x.hdr))

/-- Count an ingress discard event of a port (PORT_DISCARD). -/
def countIngress (p : Nat) (s : State) : State := s.modLane p fun l => { l with discIn := sat 0xFFFF l.discIn 1 }
def countEgress (p : Nat) (s : State) : State := s.modLane p fun l => { l with discEg := sat 0xFFFF l.discEg 1 }

/-! ## The lookup stage of an item attach (R105, R106) -/

/-- A word that stands first in the lookup stage of a port leaves it. -/
def leaveStage (p : Nat) (w : Line) (s : State) : State :=
  if ((s.port p).egress.ixWords.head?.map (·.1)) == some w then
    s.modEgress p fun e => { e with ixWords := e.ixWords.drop 1 }
  else s

/-- The header at the head of the stage is that of the item still being passed. -/
def EgressSt.headOpen (e : EgressSt) : Bool := decide (0 < e.ixLeft) && e.ixWords.length == e.ixPassed

/-- The item of port p that is open on its line or attach is whole: nothing of it is to come. -/
def closeFrom (p : Nat) (s : State) : State :=
  { s with
    xbar := s.xbar.map fun x => if x.port = p then { x with isOpen := false } else x
    queues := s.queues.map fun (q, d) => (q, if d.prodPort = some p then { d with prodOpen := false } else d) }

/-! ## Stored items -/

/-- Header pointers of what is stored from pointer p on, oldest first. -/
def QueueSt.headersFrom (d : QueueSt) (fuel p : Nat) : List Nat :=
  match fuel with
  | 0 => []
  | n + 1 =>
    if d.span p d.wptr.toNat = 0 then []
    else p % (2 * d.cap) :: d.headersFrom n (p + min (max 1 (hdrLen (d.word p))) (d.span p d.wptr.toNat))

/-- The pointer at which the next unopened item begins. -/
def QueueSt.nextStart (d : QueueSt) : Nat :=
  if d.abortPending then d.abortAt.toNat
  else if d.consMid then d.rptr.toNat + min (hdrLen d.consHdr - d.consTaken) d.occupied else d.rptr.toNat

def QueueSt.unopened (d : QueueSt) : List Nat := d.headersFrom (d.occupied + 1) d.nextStart

/-- The consumer has opened the item that the producer is writing. -/
def QueueSt.opened (d : QueueSt) : Bool := d.prodMid && d.occupied < d.span d.prodAt.toNat d.wptr.toNat

/-- Free the credits of every item stored and of the one being popped. -/
def freeStored (q : Nat) (s : State) : State :=
  let d := s.queue q
  freeCredit d.consCharge (d.charges.foldl (fun s c => freeCredit (some c.2) s) s)

/-! ## Queue reset and descriptor faults (R169, R187 to R189) -/

def countMarker (e : Nat) (s : State) : State :=
  s.modEngine e fun t => { t with dropMarkers := sat 0xFFFF t.dropMarkers 1 }

/-- Kinds of QE_FAULT_LOG. -/
def faultLog (q kind : Nat) (s : State) : State :=
  s.modEngine (queueEngine q) fun t => { t with faultKind := kind, faultQueue := q % 1024 }

/-- A reset: pointers at 0, the reset marker at position 0, an abort for the consumer's open item; the producer discards. A
flush still to be marked joins in, and its slips complete without a flush marker. -/
def resetQueue (q kind : Nat) (rd : BitVec 17 × BitVec 17 × BitVec 17 × BitVec 17) (s : State) : State :=
  let d := s.queue q
  let s := freeStored q s
  let cause := 0x40 + (if kind = 4 then 0x80 else 0) + (if d.flush then 0x20 else 0)
  let m : Loss :=
    { flow := 0, ord := d.ordinary, kind := 1, firstSeq := 0, tag := 0, cause := cause, items := 0xFFFFFFFF,
      words := 0xFFFFFFFF, lastSeq := 0, firstFrame := s.frame.number.toNat, lastFrame := s.frame.number.toNat,
      firstSlot := s.frame.slot.toNat, lastSlot := s.frame.slot.toNat, queue := q }
  let d1 := { d with
    wptr := 1, wptrSh := 1, rptr := 0, rptrSh := 0, items := 0, words := [(0, m.line)], own := [0], tailMarker := true,
    abortPending := d.consMid, abortAt := 0, abortCause := BitVec.ofNat 8 cause, charges := [], consCharge := none,
    discarding := d.discarding || d.prodMid, discardCounts := false, flush := false, flushItems := 0, flushWords := 0,
    flushCause := 0, flushFirst := none, flushLast := none, flushSlips := [] }
  let s := countMarker (queueEngine q) (s.setQueue q d1)
  let s := faultLog q kind (s.modEngine (queueEngine q) fun t =>
    { t with resets := sat 0xFFFF t.resets 1, event := t.event ||| (if kind = 4 then 0x21 else 0x01) })
  let s := d.flushSlips.foldl (fun s id => complete id St.ok 0 (leBytes 8 0) s) s
  alarm 0x0601 q [(16, q), (4, kind), (17, rd.1.toNat), (17, rd.2.1.toNat), (17, rd.2.2.1.toNat), (17, rd.2.2.2.toNat)] s

/-- R189: the descriptor's settings are bad; the queue goes out of service. -/
def descFault (q : Nat) (s : State) : State :=
  let d := s.queue q
  let s := freeStored q s
  let d1 := { d with
    enable := false, parityBad := false, words := [], own := [], charges := [], consCharge := none, items := 0, tailMarker := false,
    rptr := d.wptr, rptrSh := d.wptr, abortPending := d.consMid, abortAt := d.wptr, abortCause := 0x40,
    discarding := false, dropping := d.dropping || d.prodMid || d.discarding, prodMid := false, flush := false,
    flushItems := 0, flushWords := 0, flushCause := 0, flushFirst := none, flushLast := none, flushSlips := [] }
  let s := faultLog q 3 ((s.setQueue q d1).modEngine (queueEngine q) fun t =>
    { t with descFaults := sat 0xFFFF t.descFaults 1, event := t.event ||| 0x02 })
  let s := d.flushSlips.foldl (fun s id => complete id St.ok 0 (leBytes 8 0) s) s
  alarm 0x0602 q [] s

/-- An upset strikes a queue's descriptor: a pointer's shadow copy, or the settings' parity. It stands until a use finds it. -/
def strikeQueue (q : Nat) (u : Upset) (s : State) : State :=
  match u with
  | .none => s
  | .writePtr x => s.modQueue q fun d => { d with wptrSh := d.wptrSh ^^^ x }
  | .readPtr x => s.modQueue q fun d => { d with rptrSh := d.rptrSh ^^^ x }
  | .parity => s.modQueue q fun d => { d with parityBad := true }

/-- Every use of an enabled queue reads both copies of both pointers and the parity of the settings: the state after the fault that it
finds, or none when it may go on (R169, R189). -/
def useQueue (q : Nat) (s : State) : Option State :=
  let d := s.queue q
  if !d.enable then none
  else if d.parityBad then some (descFault q s)
  else if d.wptrSh != d.wptr then some (resetQueue q 1 (d.wptr, d.wptrSh, d.rptr, d.rptrSh) s)
  else if d.rptrSh != d.rptr then some (resetQueue q 2 (d.wptr, d.wptrSh, d.rptr, d.rptrSh) s)
  else none

/-! ## Markers and drops (R177) -/

/-- Record a loss at the tail: update the engine's own marker there, or write a new one. The use may find a fault instead. -/
def markLoss (q : Nat) (l : Loss) (s : State) : State :=
  let d := s.queue q
  match useQueue q s with
  | some s => s
  | none => if d.tailMarker then
    let at_ := d.wptr.toNat + 2 * d.cap - 1
    s.setQueue q { d with words := Sparse.ins d.words (d.pos at_) ((lossOf (d.word at_)).join l).line }
  else
    let d1 := d.push l.line
    countMarker (queueEngine q) (s.setQueue q { d1 with tailMarker := true, own := d.pos d.wptr.toNat :: d1.own })

/-- Drop an item whole: counted, marked, its credit freed (R177, R178). -/
def dropItem (q : Nat) (hdr : Line) (cause : Byte) (charge : Option (Nat × Nat × Nat)) (s : State) : State :=
  let s := s.modEngine (queueEngine q) fun t => { t with dropItems := sat 0xFFFF t.dropItems 1 }
  freeCredit charge (markLoss q (s.lossNow q hdr cause) s)

/-! ## The producer's end (R172, R173, R182) -/

/-- An item that cannot be stored at a disabled queue, or before start-up step D (R190, R270). -/
def disabledDrop (e : Nat) (told : Bool) (s : State) : State :=
  let t := s.engine e
  let s := s.modEngine e fun t =>
    { t with disabledDrop := sat 0xFFFF t.disabledDrop 1, event := if told then t.event ||| 0x10 else t.event,
             toldDisabled := t.toldDisabled || told }
  if told && !t.toldDisabled then warn 0x0605 e [] s else s

/-- Modes of the domains that a flow's queue feeds: its egress port, and the bay of the edition that serves the port (R56). -/
def State.consumers (s : State) (p : Nat) : List Mode :=
  s.portMode p :: (if s.native p then [] else
    match Sparse.look s.fab.binds p with
    | some w => match s.memberAt w.edition w.item with
      | some m => [s.bayMode m.bay]
      | none => []
    | none => [])

/-- Column D and column H of "Table: traffic between domains". -/
def isD (l : List Mode) : Bool := l.contains .closing
def isH (l : List Mode) : Bool := l.contains .intake || l.contains .bringUp || l.contains .bindery

/-- A header is taken for admission (R171, R174, R175, R178); true when the item is admitted. -/
def takeHeader (q : Nat) (hdr : Line) (charge : Option (Nat × Nat × Nat)) (s : State) : Bool × State :=
  let d := s.queue q
  let e := queueEngine q
  let n := hdrLen hdr
  let to_ := s.consumers (s.flow (hdrFlow hdr)).egPort
  if isMalformed hdr then
    (false, dropItem q hdr 0x08 charge (warn 0x0603 q [] (s.modEngine e fun t =>
      { t with malformed := sat 0xFFFF t.malformed 1, event := t.event ||| 0x08 })))
  else if isD to_ then (false, dropItem q hdr 0x10 charge s)
  else if d.cap - 1 < n then
    (false, dropItem q hdr 0x02 charge (warn 0x0604 q [(16, q), (16, hdrFlow hdr)] (s.modEngine e fun t =>
      { t with oversize := sat 0xFFFF t.oversize 1, event := t.event ||| 0x04 })))
  else if d.cap - 1 < d.occupied + n then (false, dropItem q hdr (if isH to_ then 0x10 else 0x01) charge s)
  else
    let at_ := d.wptr
    let d1 := d.push hdr
    (true, s.setQueue q { d1 with
      tailMarker := false, prodMid := true, prodHdr := hdr, prodAt := at_, prodTaken := 1, items := d.items + 1
      charges := match charge with
        | some c => Sparse.ins d.charges (d.pos at_.toNat) c
        | none => d.charges })

/-- A further word of an admitted item. -/
def pushWord (q : Nat) (w : Line) (s : State) : State :=
  s.modQueue q fun d => { d.push w with prodTaken := d.prodTaken + 1 }

/-- R182: an item that ends poisoned or short. -/
def poisonItem (q : Nat) (s : State) : State :=
  let d := s.queue q
  if d.opened then
    let w := if d.prodTaken = hdrLen d.prodHdr then d.wptr.toNat + 2 * d.cap - 1 else d.wptr.toNat
    s.setQueue q { d.setW w with
      prodMid := false, abortPending := true, abortAt := d.ptr w
      abortCause := (if d.abortPending then d.abortCause else 0) ||| 0x04 }
  else
    let at_ := d.prodAt.toNat
    let before := at_ + 2 * d.cap - 1
    let c := Sparse.look d.charges (d.pos at_)
    let d1 := { d.setW at_ with prodMid := false, items := d.items - 1, charges := Sparse.del d.charges (d.pos at_) }
    dropItem q d.prodHdr 0x04 c (s.setQueue q { d1 with tailMarker := d1.isOwn before && d1.occupied != 0 })

/-! ## Flush (R184) -/

/-- The loss that a flush still has to mark. -/
def QueueSt.flushLoss (d : QueueSt) (q : Nat) : Loss :=
  let a := d.flushFirst.getD 0
  let b := d.flushLast.getD 0
  { flow := hdrFlow a, ord := hdrOrd a, kind := 1, firstSeq := hdrSeq a, tag := hdrTag a, cause := d.flushCause.toNat,
    items := d.flushItems, words := d.flushWords, lastSeq := hdrSeq b, firstFrame := d.flushFrame.toNat,
    lastFrame := d.flushFrame.toNat, firstSlot := d.flushSlot.toNat, lastSlot := d.flushSlot.toNat, queue := q }

/-- Steps 3 and 4: the marker is written, if anything was flushed, and flush clears; its slips complete with the counts. -/
def writeFlush (q : Nat) (s : State) : State :=
  let d := s.queue q
  let l := d.flushLoss q
  let none_ := d.flushItems = 0 && d.flushWords = 0
  let s := s.setQueue q { d with
    flush := false, flushItems := 0, flushWords := 0, flushCause := 0, flushFirst := none, flushLast := none,
    flushSlips := [], discardCounts := false }
  let s := if none_ then s else
    let d1 := s.queue q
    let d2 := d1.push l.line
    countMarker (queueEngine q) (s.setQueue q { d2 with tailMarker := true, own := d1.pos d1.wptr.toNat :: d2.own })
  let r := if none_ then leBytes 8 0 else leBytes 4 l.items ++ leBytes 4 l.words
  d.flushSlips.foldl (fun s id => complete id St.ok 0 r s) s

/-- The marker's write is a use. -/
def endFlush (q : Nat) (s : State) : State := (useQueue q s).getD (writeFlush q s)

/-- Steps 1 and 2: the queue empties in the cycle; flush markers gather what is lost. -/
def beginFlush (q : Nat) (s : State) : State :=
  let d := s.queue q
  let heads := d.unopened
  let losses := heads.map fun p =>
    let w := d.word p
    if d.isOwn p then lossOf w
    else { s.lossNow q w 0 with words := min (hdrLen w) (d.span p d.wptr.toNat) }
  let items := losses.foldl (fun n l => addCount n l.items) d.flushItems
  let words := losses.foldl (fun n l => addCount n l.words) d.flushWords
  let cause := losses.foldl (fun c l => c ||| l.cause) (d.flushCause.toNat ||| 0x20)
  let first := match d.flushFirst with
    | some w => some w
    | none => heads.head?.map fun p => d.word p
  let last := match heads.getLast? with
    | some p => some (if d.isOwn p then setSeq (lossOf (d.word p)).lastSeq (d.word p) else d.word p)
    | none => d.flushLast
  let s := d.charges.foldl (fun s c => freeCredit (some c.2) s) s
  s.setQueue q { d.setR d.wptr.toNat with
    items := 0, own := [], charges := [], tailMarker := false, flush := true
    discarding := d.discarding || d.prodMid
    discardCounts := if d.discarding then d.discardCounts else d.prodMid && !d.opened
    abortPending := d.consMid, abortAt := d.wptr
    abortCause := (if d.abortPending then d.abortCause else 0) ||| 0x20
    flushItems := items, flushWords := words, flushCause := BitVec.ofNat 8 cause, flushFirst := first, flushLast := last
    flushFrame := if d.flush then d.flushFrame else s.frame.number
    flushSlot := if d.flush then d.flushSlot else s.frame.slot }
where
  /-- A header whose seq field is replaced. -/
  setSeq (v : Nat) (w : Line) : Line :=
    BitVec.ofNat 256 (w.toNat - hdrSeq w * 2 ^ 32 + v % 65536 * 2 ^ 32)

/-- R184: a flush has no effect on a disabled queue; with no producer mid-item it ends at once. -/
def flushQueue (q : Nat) (s : State) : State :=
  if !(s.queue q).enable then s
  else match useQueue q s with
  | some s => s
  | none =>
    let s := beginFlush q s
    if (s.queue q).discarding then s else endFlush q s

end Sys2Proof.Machine
end

