-- ==== Sys2Proof/Machine/FlowOps.lean ====
section
/-! DEFINITION. Admission of items held whole, delay lines and the merge of protected pairs (R208 to R213, R443). -/

namespace Sys2Proof.Machine
open Sys2Proof

/-! ## Admission of a held item (R211) -/

/-- The producer side of the queue is taken: a header waits (R173, R185). -/
def QueueSt.busy (d : QueueSt) : Bool := d.prodMid || d.dropping || d.discarding || d.flush || d.arriving.isSome

/-- Put an item held by a delay line or the merge into its queue, as far as it has arrived; an item that ends poisoned is
poisoned there. The queue is not busy. -/
def admitHeld (q : Nat) (it : HeldItem) (s : State) : State :=
  match it.words with
  | [] => s
  | hdr :: rest =>
    let after := fun (s : State) => if it.complete then s else s.modQueue q fun d => { d with dropping := true, arriving := none }
    if !(s.queue q).enable then after (freeCredit it.charge (disabledDrop (queueEngine q) true s))
    else match useQueue q s with
      | some s => after (freeCredit it.charge s)
      | none =>
        let r := takeHeader q hdr it.charge s
        if r.1 then
          let s := rest.foldl (fun s w => pushWord q w s) r.2
          if !it.complete then s.modQueue q fun d => { d with arriving := none }
          else if it.poisoned then poisonItem q s
          else s.modQueue q fun d => { d with prodMid := false }
        else after r.2

/-! ## Delay lines (R208, R209) -/

def FlowSt.dlCap (f : FlowSt) : Nat := f.dlPages * 128
def FlowSt.dlFill (f : FlowSt) : Nat := (f.dl.map fun i => i.words.length).foldl (· + ·) 0

def dlMove (v : BitVec 28) (n : Nat) (f : FlowSt) : BitVec 28 := BitVec.ofNat 28 ((v.toNat + n) % (2 * max 1 f.dlCap))
def dlPush (n : Nat) (f : FlowSt) : FlowSt := { f with dlWptr := dlMove f.dlWptr n f, dlWptrSh := dlMove f.dlWptr n f }
def dlPop (n : Nat) (f : FlowSt) : FlowSt := { f with dlRptr := dlMove f.dlRptr n f, dlRptrSh := dlMove f.dlRptr n f }
def dlBack (n : Nat) (f : FlowSt) : FlowSt := dlPush (2 * max 1 f.dlCap - n % (2 * max 1 f.dlCap)) f

/-- The side-store address of a delay-line word. -/
def FlowSt.dlAddr (f : FlowSt) (p : Nat) : Nat := f.dlBase * 4096 + p % max 1 f.dlCap * 32

/-- A word goes to the side store as the queue-engine master's posted write (R208). -/
def dlStore (f : FlowSt) (p : Nat) (w : Line) (s : State) : State :=
  let a := f.dlAddr p
  storeBlock (0x20 + queueEngine f.egQueue) (a / 64) a (leBytes 32 w.toNat) (walkPage (a / 4096) [] s)

/-- A reset of the delay line, as R188 resets a queue. -/
def dlReset (k : Nat) (s : State) : State :=
  let f := s.flow k
  let s := f.dl.foldl (fun s i => freeCredit i.charge s) s
  let m : Loss :=
    { flow := 0, ord := f.ordinary, kind := 1, firstSeq := 0, tag := 0, cause := 0x40, items := 0xFFFFFFFF,
      words := 0xFFFFFFFF, lastSeq := 0, firstFrame := s.frame.number.toNat, lastFrame := s.frame.number.toNat,
      firstSlot := s.frame.slot.toNat, lastSlot := s.frame.slot.toNat, queue := f.egQueue }
  let it : HeldItem := { queue := f.egQueue, words := [m.line], release := s.frame.time, marker := true, complete := true, poisoned := false,
                         charge := none }
  let e := queueEngine f.egQueue
  let s := s.setFlow k { f with
    dl := [it], dlWptr := 1, dlWptrSh := 1, dlRptr := 0, dlRptrSh := 0, dlTail := true, dlDiscarding := f.dlProdMid }
  let s := countMarker e (s.modEngine e fun t => { t with dlResets := sat 255 t.dlResets 1 })
  alarm 0x0702 k [(16, k)] (dlStore (s.flow k) 0 m.line s)

/-- An upset strikes a shadow copy of the delay line's pointers; it stands until a use finds it. -/
def strikeLine (k : Nat) (u : Upset) (s : State) : State :=
  match u with
  | .writePtr x => s.modFlow k fun f => { f with dlWptrSh := f.dlWptrSh ^^^ x.zeroExtend 28 }
  | .readPtr x => s.modFlow k fun f => { f with dlRptrSh := f.dlRptrSh ^^^ x.zeroExtend 28 }
  | _ => s

/-- Every use compares the copies of the line's pointers: the state after the reset that a mismatch causes (R208, R209). -/
def useLine (k : Nat) (s : State) : Option State :=
  let f := s.flow k
  if f.dlWptrSh == f.dlWptr && f.dlRptrSh == f.dlRptr then none else some (dlReset k s)

/-- A marker for a loss at the tail of the delay line, or its update there. It leaves at the release time of the loss. -/
def dlMark (k : Nat) (l : Loss) (s : State) : State :=
  let f := s.flow k
  match useLine k s, f.dl.getLast? with
  | some s, _ => s
  | none, some m =>
    if f.dlTail && m.marker then
      let w := ((lossOf (m.words.headD 0)).join l).line
      dlStore f (f.dlWptr.toNat + 2 * f.dlCap - 1) w (s.setFlow k { f with dl := f.dl.dropLast ++ [{ m with words := [w] }] })
    else add f
  | none, none => add f
where
  add (f : FlowSt) : State :=
    let it : HeldItem := { queue := f.egQueue, words := [l.line], release := s.frame.time + f.delay, marker := true, complete := true,
                           poisoned := false, charge := none }
    dlStore f f.dlWptr.toNat l.line (countMarker (queueEngine f.egQueue)
      (s.setFlow k { dlPush 1 f with dl := f.dl ++ [it], dlTail := true }))

def dlDrop (k : Nat) (hdr : Line) (cause : Byte) (charge : Option (Nat × Nat × Nat)) (s : State) : State :=
  let f := s.flow k
  freeCredit charge (dlMark k (s.lossNow f.egQueue hdr cause) s)

/-- A header reaches the delay line; true when the item is admitted there. -/
def dlHeader (k : Nat) (hdr : Line) (charge : Option (Nat × Nat × Nat)) (s : State) : Bool × State :=
  let f := s.flow k
  let e := queueEngine f.egQueue
  match useLine k s with
  | some s => (false, freeCredit charge s)
  | none =>
  if isMalformed hdr then
    (false, dlDrop k hdr 0x08 charge (warn 0x0603 f.egQueue [] (s.modEngine e fun t =>
      { t with malformed := sat 0xFFFF t.malformed 1, event := t.event ||| 0x08 })))
  else if f.dlCap - 1 < f.dlFill + hdrLen hdr then
    (false, dlDrop k hdr 0x01 charge (s.modEngine e fun t => { t with dlFull := sat 0xFFFF t.dlFull 1 }))
  else
    let it : HeldItem := { queue := f.egQueue, words := [hdr], release := s.frame.time + f.delay, marker := false, complete := false,
                           poisoned := false, charge := charge }
    (true, dlStore f f.dlWptr.toNat hdr
      (s.setFlow k { dlPush 1 f with dl := f.dl ++ [it], dlTail := false, dlProdMid := true }))

/-! ## The merge (R211, R212) -/

/-- The member that holds the pair's merge state. -/
def State.mergeOf (s : State) (k : Nat) : Nat := min k (s.flow k).twin

/-- An item becomes a head of its member, released now. -/
def addHead (k : Nat) (it : HeldItem) (s : State) : State :=
  let s := s.modFlow k fun f => { f with heads := f.heads ++ [{ it with release := s.frame.time }] }
  s.modFlow (s.mergeOf k) fun f => { f with quiet := 0 }

def dropHead (k : Nat) (s : State) : State := s.modFlow k fun f => { f with heads := f.heads.drop 1 }

/-- (e - x) and (x - e) modulo 65,536. -/
def seqDist (a b : Nat) : Nat := (a + 65536 - b % 65536) % 65536

/-- The merge may judge a head: complete, or with a nonzero threshold its header. -/
def State.judged (s : State) (k : Nat) : Option HeldItem :=
  match (s.flow k).heads.head? with
  | some it => if it.complete || (s.queue (s.flow k).egQueue).threshold != 0 then some it else none
  | none => none

def HeldItem.seq (it : HeldItem) : Nat := hdrSeq (it.words.headD 0)

/-- R212: the gap from e to the lowest ahead head. -/
def declareGap (lo low : Nat) (s : State) : State :=
  let m := s.flow lo
  let n := seqDist low m.mergeNext
  let q := m.egQueue
  let l : Loss :=
    { flow := lo, ord := false, kind := 1, firstSeq := m.mergeNext, tag := m.inTag, cause := m.mergeCause.toNat,
      items := n, words := 0xFFFFFFFF, lastSeq := seqDist low 1, firstFrame := s.frame.number.toNat,
      lastFrame := s.frame.number.toNat, firstSlot := s.frame.slot.toNat, lastSlot := s.frame.slot.toNat, queue := q }
  let s := if (s.queue q).enable then markLoss q l s else s
  let s := s.modEngine (queueEngine q) fun t => { t with gaps := sat 255 t.gaps 1 }
  s.modFlow lo fun f => { f with mergeCause := 0, mergeNext := low, waiting := false, gaps := f.gaps + 1 }

/-- A duplicate or a discarded copy leaves its head. -/
def discardHead (k : Nat) (it : HeldItem) (s : State) : State :=
  let s := freeCredit it.charge (dropHead k s)
  if it.complete then s else s.modQueue (s.flow k).egQueue fun d => { d with dropping := true, arriving := none }

/-- One step on the head of member k, where R211's rules 1, 2, 3 or 5 apply; none where they do not. -/
def mergeHead (lo k : Nat) (it : HeldItem) (s : State) : Option State :=
  let m := s.flow lo
  let hdr := it.words.headD 0
  if it.marker || hdrKind hdr = 1 then
    some ((discardHead k it s).modFlow lo fun f => { f with mergeCause := f.mergeCause ||| BitVec.ofNat 8 (lossOf hdr).cause })
  else if it.poisoned then some (discardHead k it s)
  else
    let m := if m.mergeSet then m else { m with mergeSet := true, mergeNext := it.seq }
    let behind := seqDist m.mergeNext it.seq
    if it.seq = m.mergeNext then
      if (s.queue m.egQueue).prodMid || (s.queue m.egQueue).discarding || (s.queue m.egQueue).flush then none
      else
        let s := s.setFlow lo { m with mergeNext := (m.mergeNext + 1) % 65536, waiting := false }
        some (admitHeld m.egQueue it (dropHead k s))
    else if 1 ≤ behind && behind ≤ 32768 then
      let s := discardHead k it (s.setFlow lo { m with waiting := false })
      let s := s.modFlow k fun f => { f with duplicates := f.duplicates + 1 }
      some (s.modEngine (queueEngine m.egQueue) fun t => { t with duplicates := sat 0xFFFF t.duplicates 1 })
    else none

/-- The member whose head reached the merge first comes first when the merge has no expected number. -/
def State.mergeOrder (s : State) (lo hi : Nat) : List Nat :=
  match s.judged lo, s.judged hi with
  | some a, some b => if b.release < a.release then [hi, lo] else [lo, hi]
  | _, _ => [lo, hi]

/-- A head of an unpaired flow goes on to admission when its queue is not busy (R443). -/
def admitHead (k : Nat) (s : State) : State :=
  match (s.flow k).heads with
  | [] => s
  | it :: _ => if (s.queue it.queue).busy then s else admitHeld it.queue it (dropHead k s)

/-- The wait for the other member begins. -/
def beginWait (lo : Nat) (it : HeldItem) (s : State) : State :=
  if (s.flow lo).waiting || it.seq = (s.flow lo).mergeNext then s
  else s.modFlow lo fun f => { f with waiting := true, waitStart := w32 it.release }

/-- R211: one step of the merge of the pair that flow k belongs to. -/
def mergeStep (k : Nat) (s : State) : State :=
  if !(s.flow k).paired then admitHead k s
  else
    let lo := s.mergeOf k
    let hi := (s.flow lo).twin
    match (s.mergeOrder lo hi).findSome? fun j => (s.judged j).bind fun it => mergeHead lo j it s with
    | some s => s
    | none =>
      match s.judged lo, s.judged hi with
      | some a, some b =>
        let e := (s.flow lo).mergeNext
        if a.seq = e || b.seq = e then s
        else declareGap lo (if seqDist a.seq e ≤ seqDist b.seq e then a.seq else b.seq) s
      | some a, none => beginWait lo a s
      | none, some b => beginWait lo b s
      | none, none => s

/-- Split a pair (R443): its merge state is dropped, and the heads held go on alone, as far as their queue takes them now. -/
def endPair (k : Nat) (s : State) : State :=
  let f := s.flow k
  if !f.paired then s
  else
    let lo := s.mergeOf k
    let clear := fun (g : FlowSt) => { g with
      paired := false, twin := 0, mergeSet := false, waiting := false, mergeCause := 0, quiet := 0 }
    let order := s.mergeOrder lo (s.flow lo).twin
    let ks := order.flatMap fun j => (s.flow j).heads.map fun it => (it.release, j)
    let s := order.foldl (fun s j => s.modFlow j clear) s
    (sortBy (fun a b => a.1 ≤ b.1) ks).foldl (fun s x => admitHead x.2 s) s

end Sys2Proof.Machine
end

