-- ==== Sys2Proof/Machine/LineCode.lean ====
section
/-! DEFINITION. The 8b/10b code with its running disparity, the ordered sets as they are sent, columns, and the test patterns
("Serial lanes and line coding", R115 to R127, R138). The code-group tables are those of IEEE 802.3 clause 36, which the spec names
(log entry 86). -/

namespace Sys2Proof.Machine
open Sys2Proof

/-- A symbol of the line: a byte value and its K flag. -/
abbrev Sym := Byte × Bool

def kSym (b : Byte) : Sym := (b, true)
def dSyms (l : List Byte) : List Sym := l.map fun b => (b, false)

def k285 : Sym := kSym 0xBC
def k281 : Sym := kSym 0x3C
def k280 : Sym := kSym 0x1C
def k283 : Sym := kSym 0x7C
def k277 : Sym := kSym 0xFB
def k297 : Sym := kSym 0xFD
def k307 : Sym := kSym 0xFE
def k237 : Sym := kSym 0xF7

/-! ## Code groups (R115) -/

/-- abcdei of D.0 to D.31 at negative disparity. -/
def sixes : List Nat :=
  [0b100111, 0b011101, 0b101101, 0b110001, 0b110101, 0b101001, 0b011001, 0b111000,
   0b111001, 0b100101, 0b010101, 0b110100, 0b001101, 0b101100, 0b011100, 0b010111,
   0b011011, 0b100011, 0b010011, 0b110010, 0b001011, 0b101010, 0b011010, 0b111010,
   0b110011, 0b100110, 0b010110, 0b110110, 0b001110, 0b101110, 0b011110, 0b101011]

/-- fghj of D.x.0 to D.x.7 at negative disparity. -/
def fours : List Nat := [0b1011, 0b1001, 0b0101, 0b1100, 0b1101, 0b1010, 0b0110, 0b1110]

/-- fghj of K28.0 to K28.7 in the groups that begin at negative disparity. -/
def k28Fours : List Nat := [0b0100, 0b1001, 0b0101, 0b0011, 0b0010, 0b1010, 0b0110, 0b1000]

def onesIn (n v : Nat) : Nat := ((List.range n).filter fun i => v.testBit i).length

/-- The disparity after a sub-block of n bits, from before it: two forms that are balanced count as well (clause 36). -/
def subDisparity (n v : Nat) (positive : Bool) : Bool :=
  let k := onesIn n v
  if n < 2 * k then true else if 2 * k < n then false
  else if (n == 6 && v == 0b000111) || (n == 4 && v == 0b0011) then true
  else if (n == 6 && v == 0b111000) || (n == 4 && v == 0b1100) then false
  else positive

/-- The running disparity that a 10-bit group implies (R117). -/
def groupDisparity (g : Nat) (positive : Bool) : Bool := subDisparity 4 (g % 16) (subDisparity 6 (g / 16) positive)

/-- A sub-block has two forms, or one. -/
def twoForms (n v : Nat) : Bool := 2 * onesIn n v != n || (n == 6 && v == 0b111000) || (n == 4 && v == 0b1100)

def formAt (n v : Nat) (positive : Bool) : Nat := if positive && twoForms n v then 2 ^ n - 1 - v else v

/-- D.x.7 takes its alternate fghj (R115). -/
def alternate (x : Nat) (positive : Bool) : Bool :=
  if positive then x == 11 || x == 13 || x == 14 else x == 17 || x == 18 || x == 20

/-- The special symbols that the code has. -/
def isSpecial (b : Byte) : Bool :=
  let v := b.toNat
  v % 32 == 28 || v == 0xF7 || v == 0xFB || v == 0xFD || v == 0xFE

/-- The 10-bit group of a symbol at a running disparity. -/
def encodeSym (y : Sym) (positive : Bool) : Nat :=
  let x := y.1.toNat % 32
  let t := y.1.toNat / 32
  if y.2 then
    let g := if x = 28 then 0b001111 * 16 + nth k28Fours t else nth sixes x * 16 + 0b1000
    if positive then 1023 - g else g
  else
    let six := formAt 6 (nth sixes x) positive
    let mid := subDisparity 6 six positive
    let four := if t = 7 && alternate x mid then (if mid then 0b1000 else 0b0111) else formAt 4 (nth fours t) mid
    six * 16 + four

def allSyms : List Sym :=
  ((List.range 256).map fun v => ((BitVec.ofNat 8 v, false) : Sym)) ++
    (((List.range 256).map fun v => BitVec.ofNat 8 v).filter isSpecial).map kSym

/-- What a group is to a receiver at a running disparity (R116). -/
inductive Heard where
  | good (y : Sym)
  /-- valid only for the opposite running disparity -/
  | wrongDisparity (y : Sym)
  /-- in the code table for neither -/
  | violation
deriving DecidableEq, Repr

def decodeGroup (g : Nat) (positive : Bool) : Heard :=
  match allSyms.find? (fun y => encodeSym y positive == g) with
  | some y => .good y
  | none => match allSyms.find? (fun y => encodeSym y (!positive) == g) with
    | some y => .wrongDisparity y
    | none => .violation

/-- The special symbols of "Table: special symbols" that are reserved. -/
def isReserved (y : Sym) : Bool := y.2 && (y.1 == 0x5C || y.1 == 0x9C || y.1 == 0xDC || y.1 == 0xFC)

/-- A lane's running disparity changes over a symbol. -/
def turnsDisparity (y : Sym) : Bool := groupDisparity (encodeSym y false) false

/-- The running disparity of a lane after symbols. -/
def afterSyms (l : List Sym) (positive : Bool) : Bool := l.foldl (fun d y => d != turnsDisparity y) positive

/-- The groups that a lane sends for symbols. -/
def groupsOf (positive : Bool) : List Sym → List Nat
  | [] => []
  | y :: r => encodeSym y positive :: groupsOf (positive != turnsDisparity y) r

/-! ## Ordered sets (R121 to R127) -/

/-- The bytes of a set after its first symbol, ended by their CRC. -/
def withCrc (l : List Byte) : List Byte := l ++ leBytes 2 (crc16 l)

/-- R122. -/
def frameMarkSet (number : Word) (holdover locked : Bool) (x : Step) : List Sym :=
  k281 :: dSyms (withCrc (leBytes 2 number.toNat ++
    [BitVec.ofNat 8 (bitOf holdover + 2 * bitOf locked), BitVec.ofNat 8 (x.rate + 16 * x.width), 0]))

/-- R123: the totals returned, each modulo 2^w. -/
def slotMarkSet (slot : Byte) (number : Word) (w : Nat) (totals : List Nat) : List Sym :=
  k280 :: dSyms (withCrc (slot :: leBytes 2 number.toNat ++ leBytes (4 * w) (pack (totals.map fun n => (w, n)))))

/-- R126. -/
def skipSetSyms : List Sym := [k285, k237, k237, k237]

/-- R127: type, masks, step, frame, failed steps and the sender's kind. -/
def negSet (type rates widths : Nat) (x : Step) (f : BitVec 16) (failed : Nat) (trunk : Bool) : List Sym :=
  k283 :: dSyms (withCrc (BitVec.ofNat 8 type :: leBytes 2 rates ++ leBytes 1 widths ++
    [BitVec.ofNat 8 (x.rate + 16 * x.width)] ++ leBytes 2 f.toNat ++ leBytes 2 failed ++ leBytes 4 (bitOf trunk)))

/-! ## Columns (R118) -/

/-- The first column of a stream of symbols: it ends before a K27.7 that is not its first, and is filled with K28.5. -/
def columnOf (w : Nat) (l : List Sym) : List Sym × List Sym :=
  match l with
  | [] => ([], [])
  | y :: r =>
    let n := min (w - 1) (((r.findIdx? fun z => z == k277)).getD r.length)
    (y :: r.take n ++ List.replicate (w - 1 - n) k285, r.drop n)

def columnsFrom (w fuel : Nat) (l : List Sym) : List (List Sym) :=
  match fuel, l with
  | 0, _ => []
  | _, [] => []
  | n + 1, l => (columnOf w l).1 :: columnsFrom w n (columnOf w l).2

/-- The columns of a unit on w lanes. -/
def LineUnit.columns (w : Nat) : LineUnit → List (List Sym)
  | .every l => l.map fun y => List.replicate w y
  | .striped l => columnsFrom w l.length l
  | .alone l => l.map fun y => y :: List.replicate (w - 1) k285
  | .data l => columnsFrom w l.length l

def unitColumns (w : Nat) (l : List LineUnit) : List (List Sym) := l.flatMap (LineUnit.columns w)

/-- What lane k carries of columns. -/
def laneOf (k : Nat) (l : List (List Sym)) : List Sym := l.map fun c => c.getD k k285

/-- Symbols of an item continue those just before them. -/
def addData (y : List Sym) (l : List LineUnit) : List LineUnit :=
  match l.getLast? with
  | some (.data x) => l.dropLast ++ [.data (x ++ y)]
  | _ => if y.isEmpty then l else l ++ [.data y]

/-- Quarters of a column that a slot of 500 ns holds at a rate code ("Table: rate and width codes"). -/
def slotQuarters (rate : Nat) : Nat := nth [250, 500, 625, 1000, 1250, 2000, 2500, 4000, 5000] rate

/-- Line bits of one lane in a slot. -/
def slotBits (rate : Nat) : Nat := slotQuarters rate * 5 / 2

/-- A skip set is due 4,950 columns after the one before began (R119), in quarters. -/
def skipDue : Nat := 19800

/-! ## Patterns (R138) -/

/-- Pattern taps of "Table: test patterns". -/
def prbsTaps (pat : Nat) : Option (Nat × Nat) :=
  if pat = 1 then some (6, 7) else if pat = 2 then some (14, 15) else if pat = 3 then some (18, 23)
  else if pat = 4 then some (28, 31) else none

/-- One bit of a PRBS from the register r of its latest b bits, newest lowest, and the register after it. -/
def prbsStep (a b r : Nat) : Bool × Nat :=
  let x := r.testBit (a - 1) != r.testBit (b - 1)
  (x, (r * 2 + bitOf x) % 2 ^ b)

/-- The first n bits of a PRBS that starts from all ones. -/
def prbsBits (a b n : Nat) : List Bool := go n (2 ^ b - 1)
where
  go : Nat → Nat → List Bool
    | 0, _ => []
    | k + 1, r => (prbsStep a b r).1 :: go k (prbsStep a b r).2

/-- Errors that n consecutive inverted bits show at a self-seeding checker: one for each tap a bit passes, less those that
cancel. -/
def tapErrors (a b n : Nat) : Nat :=
  let hit := fun (i : Nat) => decide (i < n)
  ((List.range (n + b)).filter fun i =>
    (hit i != (decide (a ≤ i) && hit (i - a))) != (decide (b ≤ i) && hit (i - b))).length

end Sys2Proof.Machine
end

