-- ==== Sys2Proof/Machine/Transmit.lean ====
section
/-! DEFINITION. What a port transmits: its lanes by mode, marks, negotiation sets, skip sets and item symbols, slot by slot
("Table: lanes by port mode", R61, R114, R118 to R127, R137, R142, R146, R160). -/

namespace Sys2Proof.Machine
open Sys2Proof

/-! ## Test controls of a lane -/

def ctrlGen (c : Word) : Nat := field c.toNat 3 0
def ctrlChk (c : Word) : Nat := field c.toNat 7 4
def ctrlRate (c : Word) : Nat := field c.toNat 19 16
def ctrlKind (c : Word) : Nat := field c.toNat 30 28
def ctrlOnce (c : Word) : Bool := getBit c 31

def State.testCtrl (s : State) (p k : Nat) : Word := (s.port p).lane.testCtrl.getD k 0

/-! ## The lanes -/

/-- What a lane's transmitter does. -/
inductive LaneTx where
  /-- electrical idle -/
  | idle
  /-- K28.5 only -/
  | commas
  /-- coded symbols: sets, items, and idle between -/
  | coded
  | pattern (pat : Nat) (inverted : Bool)
  /-- far-end loopback: the groups received (R140) -/
  | returned
deriving DecidableEq, Repr

/-- "Table: lanes by port mode" (R61), lanes outside the width idle (R112). A lane in Bindery whose pattern is off sends K28.5 (log
entry 87). -/
def State.laneTx (s : State) (p k : Nat) : LaneTx :=
  let t := s.port p
  let n := t.neg
  if !s.awake || getBit s.clk.gatedPort p || t.lane.txIdle || lanesOf n.cur.width ≤ k then .idle
  else match s.portMode p with
    | .intake => .idle
    | .bringUp =>
      if n.window && n.windowSent < 20 then .pattern 4 false
      else if n.state = 8 || (t.cfg.setting == 1 && !t.cfg.marksTx) then .commas else .coded
    | .bindery =>
      let c := s.testCtrl p k
      if t.lane.loopback == 3 then .returned
      else if ctrlGen c = 0 then .commas else if ctrlGen c = 5 then .coded else .pattern (ctrlGen c) (getBit c 8)
    | _ => .coded

/-- The clock lane CK of a slot port runs whenever its data lanes are out of electrical idle (R61, R114, R149). -/
def State.ckRuns (s : State) (p : Nat) : Bool := !isTrunk p && (List.range 2).any fun k => s.laneTx p k != .idle

/-- CK's rate in kHz: half the line rate (R114). -/
def State.ckRate (s : State) (p : Nat) : Nat :=
  if s.ckRuns p then nth [625, 1250, 1562, 2500, 3125, 5000, 6250] (s.port p).neg.cur.rate * 1000 + (if (s.port p).neg.cur.rate = 2 then 500 else 0)
  else 0

/-- The port goes to electrical idle; its lanes start with negative disparity when they leave it (R115), at the boundary of a column and of
a period of skip sets and of the sets sent every 8 slots (log entry 93). -/
def idleTx (p : Nat) (s : State) : State :=
  (s.modLane p fun l => { l with txIdle := true }).modTx p fun x =>
    { x with units := [], positive := 0, part := 0, sinceSkip := 0, nextSets := 0 }

/-- The port puts its coded stream on L0. -/
def State.sendsCoded (s : State) (p : Nat) : Bool := s.laneTx p 0 == .coded

/-- Frame marks and slot marks are sent: not in foreign mode, nor with marks_tx clear (R133, R160, R161). -/
def State.sendsMarks (s : State) (p : Nat) : Bool :=
  let c := (s.port p).cfg
  s.sendsCoded p && !foreign c && !(c.setting == 1 && !c.marksTx)

def sendUnit (p : Nat) (u : LineUnit) (s : State) : State :=
  if s.sendsCoded p then s.modTx p fun x => { x with units := x.units ++ [u] } else s

/-- Symbols of items or of an edition. -/
def sendData (p : Nat) (l : List Sym) (s : State) : State := s.modTx p fun x => { x with units := addData l x.units }

/-- A word goes onto a native trunk (R128, R181): K27.7 before a header, K29.7 after the last word; K30.7 for an abort word. -/
def sendWord (p : Nat) (opens ends abort : Bool) (w : Line) (s : State) : State :=
  sendData p (if abort then [k307]
    else (if opens then [k277] else []) ++ dSyms (leBytes 32 w.toNat) ++ (if ends then [k297] else [])) s

/-! ## Columns of a slot -/

/-- Columns that begin in the slot in progress. -/
def State.slotColumns (s : State) (p : Nat) : Nat :=
  let t := s.port p
  (t.tx.part + slotQuarters t.neg.cur.rate) / 4

/-- Columns taken in it. -/
def State.usedColumns (s : State) (p : Nat) : List (List Sym) :=
  let t := s.port p
  unitColumns (lanesOf t.neg.cur.width) t.tx.units

/-- Symbols that the line can still take from an edition in it (R106, R119). -/
def State.lineRoom (s : State) (p : Nat) : Nat :=
  (s.slotColumns p - (s.usedColumns p).length) * lanesOf (s.port p).neg.cur.width

/-- The running disparity of lane k when the slot ends: what was sent, and idle for the rest of it. Idle of 1000BASE-X leaves it
negative; the pattern of XAUI's idle is not given (log entry 88). -/
def State.laneEnds (s : State) (p k : Nat) : Bool :=
  let t := s.port p
  let cols := s.usedColumns p
  let fill := s.slotColumns p - cols.length
  let d := afterSyms (laneOf k cols) (getBit t.tx.positive k)
  if fill = 0 then d
  else if t.cfg.setting = 2 then false
  else if t.cfg.setting = 3 then getBit (Config.freeValue s.frame.freeCount) k
  else d != fill.bodd

/-- The slot ends on the line. -/
def closeTx (p : Nat) (s : State) : State :=
  let t := s.port p
  let pos := BitVec.ofNat 4 (maskOf 4 fun k => match s.laneTx p k with
    | .idle => false
    | .coded => s.laneEnds p k
    | .commas => s.laneEnds p k
    | _ => getBit t.tx.positive k)
  let s1 := if t.cfg.setting = 3 then s.useFree else s
  s1.modTx p fun x => { x with
    units := [], before := x.units, positive := pos
    part := (x.part + slotQuarters t.neg.cur.rate) % 4
    generated := (List.range 4).map fun k => match s.laneTx p k with
      | .pattern _ _ => nth x.generated k + slotBits t.neg.cur.rate
      | _ => nth x.generated k }

/-! ## Sets -/

/-- The frame mark and the slot mark of this slot (R122, R123, R31): the totals go modulo 2^w. -/
def State.ownFrameMark (s : State) (p : Nat) : List Sym :=
  frameMarkSet s.frame.number (s.modes.house == .holdover) s.frame.locked (s.port p).neg.cur

def State.ownSlotMark (s : State) (p : Nat) : List Sym :=
  let t := s.port p
  slotMarkSet s.frame.slot s.frame.number (creditWidth t.neg.cur.rate t.neg.cur.width) t.credit.inMark

/-- A negotiation set of the port (R127, R146). -/
def State.ownSet (s : State) (p type : Nat) (x : Step) (f : BitVec 16) : List Sym :=
  let n := (s.port p).neg
  negSet type n.ownRates.toNat n.ownWidths.toNat x f n.failedOnce.toNat (isTrunk p)

def sendSet (p type : Nat) (x : Step) (f : BitVec 16) (s : State) : State := sendUnit p (.alone (s.ownSet p type x f)) s

/-- The port negotiates: in Bring-up, with the negotiated setting, up to where it settles. -/
def State.negotiates (s : State) (p : Nat) : Bool :=
  let t := s.port p
  s.portMode p == .bringUp && t.cfg.setting == 0 && (t.neg.state == 1 || t.neg.state == 2 || t.neg.state == 3 || t.neg.state == 4)

/-- The sets that a slot's boundary makes due ("Table: set use in bring-up"): once a frame the propose or the answer; every 8 slots
capabilities, ready and a result. -/
def State.dueSets (s : State) (p : Nat) : List (Nat × Step × BitVec 16) :=
  let t := s.port p
  let n := t.neg
  let once : List (Nat × Step × BitVec 16) := if s.frame.slot != 0 then [] else
    (match n.propose with
      | some (x, _, f) => [(2, x, f)]
      | none => []) ++
    (match n.state, n.answer with
      | 4, some (x, f) => [(3, x, f)]
      | _, _ => [])
  let trains := n.state == 1 && !n.window
  let each : List (Nat × Step × BitVec 16) := if t.tx.nextSets != 0 then [] else
    (if trains || n.capsOwed then [(1, n.cur, 0#16)] else []) ++
    (if trains && n.readySent then [(3, n.cur, 0#16)] else []) ++
    (match n.ownResult, n.partnerResult with
      | some b, none => if n.waited < 1000 && !n.window then [(if b then 4 else 5, n.cur, 0#16)] else []
      | _, _ => [])
  once ++ each

def sendDueSets (p : Nat) (s : State) : State :=
  if !(s.negotiates p && s.sendsCoded p) then s
  else
    let s1 := (s.dueSets p).foldl (fun s d => sendSet p d.1 d.2.1 d.2.2 s) s
    let first := (s.port p).tx.nextSets == 0
    (s1.modTx p fun x => { x with nextSets := if first then 7 else x.nextSets - 1 }).modNeg p fun n =>
      { n with capsOwed := n.capsOwed && !first }

/-- The marks of a slot: at a frame's opening the frame mark, then the slot mark at once (R119). -/
def sendMarks (p : Nat) (s : State) : State :=
  if !s.sendsMarks p then s
  else sendUnit p (.striped (s.ownSlotMark p)) (if s.frame.slot = 0 then sendUnit p (.every (s.ownFrameMark p)) s else s)

/-- A native trunk's skip set, when it falls due in this slot; it waits for what stands before it (R119, R126). -/
def sendSkip (p : Nat) (s : State) : State :=
  if !s.native p then s
  else
    let t := s.port p
    let q := slotQuarters t.neg.cur.rate
    let due := skipDue - t.tx.sinceSkip
    let at_ := max due (4 * (s.usedColumns p).length)
    if s.sendsCoded p && due < q && at_ < q then
      sendUnit p (.every skipSetSyms) (s.modTx p fun x => { x with sinceSkip := q - at_ })
    else s.modTx p fun x => { x with sinceSkip := x.sinceSkip + q }

/-- The configuration sets /C1/ and /C2/ of clause 37, with the abilities that the device advertises: full duplex, and PORT_SET's
remote-fault bits (R134). -/
def ownPage (c : PortCfg) : BitVec 16 := BitVec.ofNat 16 (0x20 + c.remoteFault * 0x1000)

def configSets (page : BitVec 16) : List Sym :=
  [k285, (0xB5, false)] ++ dSyms (leBytes 2 page.toNat) ++ [k285, (0x42, false)] ++ dSyms (leBytes 2 page.toNat)

def sendPage (p : Nat) (s : State) : State :=
  let t := s.port p
  if s.portMode p == .bringUp && t.cfg.setting == 2 && !t.lane.foreignUp then sendUnit p (.data (configSets (ownPage t.cfg))) s else s

/-- A slot begins on the line: its marks, the sets due, a skip set. -/
def openTx (p : Nat) (s : State) : State := sendPage p (sendSkip p (sendDueSets p (sendMarks p s)))

end Sys2Proof.Machine
end

