-- ==== Sys2Proof/Machine/Queues.lean ====
section
/-! DEFINITION. Items into and out of queues, and flushes ("Queues", R170 to R190). -/

namespace Sys2Proof.Machine
open Sys2Proof

/-! ## The producer -/

/-- The rest of the arriving item is discarded. -/
def startDropping (q : Nat) (s : State) : State := s.modQueue q fun d => { d with dropping := true }

/-- A header for a queue straight from its flow: it is admitted, or dropped. -/
def headerToQueue (q : Nat) (hdr : Line) (c : Option (Nat × Nat × Nat)) (s : State) : State :=
  if !(s.queue q).enable then startDropping q (freeCredit c (disabledDrop (queueEngine q) true s))
  else match useQueue q s with
    | some s => startDropping q (freeCredit c s)
    | none =>
      let r := takeHeader q hdr c s
      if r.1 then r.2 else startDropping q r.2

/-- An upset strikes the pointers that an item's next word will use: its delay line's, or its queue's (R169, R208). -/
def strikeFor (q : Nat) (line : Option Nat) (u : Upset) (s : State) : State :=
  match line with
  | some k => if (s.flow k).valid && (s.flow k).delayEn then strikeLine k u s else strikeQueue q u s
  | none => strikeQueue q u s

/-- A header word is taken by its engine. Before start-up step D every item is discarded (R270). -/
def headerTaken (q : Nat) (x : XbarItem) (s : State) : State :=
  let k := hdrFlow x.hdr
  let f := s.flow k
  let c := x.charge
  let s := { s with xbar := s.xbar.erase x }.modQueue q fun d => { d with
    prodPort := some x.port, prodOpen := x.isOpen, prodPoison := x.poisoned, prodHdr := x.hdr, prodTaken := 1 }
  if !s.stepDone 4 then startDropping q (freeCredit c (disabledDrop (queueEngine q) false s))
  else if f.valid && f.delayEn then
    let r := dlHeader k x.hdr c s
    if r.1 then r.2.modQueue q fun d => { d with arriving := some k } else startDropping q r.2
  else if f.valid && f.paired && !isMalformed x.hdr then
    let it : HeldItem := { queue := q, words := [x.hdr], release := s.frame.time, marker := false, complete := false,
                           poisoned := false, charge := c }
    (addHead k it s).modQueue q fun d => { d with arriving := some k }
  else headerToQueue q x.hdr c s

/-- The first header that waits for a queue: each item crosses once, in the order of R173. -/
def State.waitingFor (s : State) (q : Nat) : Option XbarItem := s.xbar.find? fun x => x.queue == q

/-- R27, R173: the engine takes the header that waits first for the queue, once no other item of the queue is being written. -/
def execItemHeaderTaken (q : Queue) (header : Line) (u : Upset) (s : State) : Host.Outcome State Fault Refusal :=
  run (match s.waitingFor q.val with
    | some x => when (x.hdr == header && !(s.queue q.val).busy) (fun s => headerTaken q.val x (strikeFor q.val (some (hdrFlow header)) u s))
    | none => id) s

def lastItem (l : List HeldItem) (g : HeldItem → HeldItem) : List HeldItem :=
  match l.getLast? with
  | some it => l.dropLast ++ [g it]
  | none => l

def addWord (w : Line) (it : HeldItem) : HeldItem := { it with words := it.words ++ [w] }

/-- A word of an item that a delay line or the merge is taking in; past the item's length it is discarded (R172). -/
def wordArrives (k : Nat) (w : Line) (s : State) : State :=
  let f := s.flow k
  let l := if f.dlProdMid then f.dl else f.heads
  let full : Bool := match l.getLast? with
    | some it => decide (hdrLen (it.words.headD 0) ≤ it.words.length)
    | none => true
  if full then countIngress f.inPort s
  else if f.dlProdMid then
    (useLine k s).getD (dlStore f f.dlWptr.toNat w (s.setFlow k { dlPush 1 f with dl := lastItem f.dl (addWord w) }))
  else s.setFlow k { f with heads := lastItem f.heads (addWord w) }

/-- A word of an item that is being discarded: it counts for a flush, or lies past the item's length (R172, R184). -/
def dropWord (q : Nat) (s : State) : State :=
  let d := s.queue q
  if hdrLen d.prodHdr ≤ d.prodTaken then d.prodPort.elim s fun p => countIngress p s
  else s.setQueue q { d with
    prodTaken := d.prodTaken + 1
    flushWords := if d.discarding && !d.dropping && d.discardCounts then addCount d.flushWords 1 else d.flushWords }

/-- A word leaves the lookup stage of an item attach for its queue. -/
def leaveFor (q : Nat) (w : Line) (s : State) : State := (s.queue q).prodPort.elim s fun p => leaveStage p w s

/-- A further word from the ingress path. Past the length-th each is discarded and counted, one a word: PORT_DISCARD names no event
for R172 (log entry 79). -/
def wordWrite (q : Nat) (w : Line) (s : State) : State :=
  let s := leaveFor q w s
  let d := s.queue q
  if d.dropping || (d.arriving.isNone && d.discarding) then dropWord q s
  else match d.arriving with
    | some k => if (s.flow k).dlDiscarding then dropWord q s else wordArrives k w s
    | none =>
      if !d.prodMid then s
      else match useQueue q s with
        | some s => s
        | none =>
          if hdrLen d.prodHdr ≤ d.prodTaken then countIngress (s.flow (hdrFlow d.prodHdr)).inPort s else pushWord q w s

def execItemWordWrite (q : Queue) (w : Line) (u : Upset) (s : State) : Host.Outcome State Fault Refusal :=
  run (fun s => wordWrite q.val w (strikeFor q.val (s.queue q.val).arriving u s)) s

/-- The item that fills flow k ends: whole, or poisoned or short. A delay line drops the latter with a marker; the merge
discards it. -/
def arrivalEnds (k : Nat) (poisoned : Bool) (s : State) : State :=
  let f := s.flow k
  if f.dlProdMid then
    if f.dlDiscarding then s.setFlow k { f with dlProdMid := false, dlDiscarding := false }
    else match f.dl.getLast? with
      | none => s.setFlow k { f with dlProdMid := false }
      | some it =>
        let hdr := it.words.headD 0
        if poisoned || it.words.length < hdrLen hdr then
          match useLine k s with
          | some s => s.modFlow k fun f => { f with dlProdMid := false, dlDiscarding := false }
          | none =>
          let f1 := { dlBack it.words.length f with dl := f.dl.dropLast, dlProdMid := false }
          let tail := (f1.dl.getLast?.map fun m => m.marker).getD false
          dlDrop k hdr 0x04 it.charge (s.setFlow k { f1 with dlTail := tail })
        else s.setFlow k { f with dl := lastItem f.dl (fun it => { it with complete := true }), dlProdMid := false }
  else
    s.setFlow k { f with heads := lastItem f.heads fun it =>
      { it with complete := true, poisoned := poisoned || it.words.length < hdrLen (it.words.headD 0) } }

/-- The item being written to a queue, held by a delay line or the merge, or discarded, ends (R172). -/
def endWritten (q : Nat) (poisoned : Bool) (s : State) : State :=
  let d := s.queue q
  if d.dropping then s.setQueue q { d with dropping := false }
  else match d.arriving with
    | some k => (arrivalEnds k poisoned s).modQueue q fun d => { d with arriving := none }
    | none =>
      if d.discarding then s.setQueue q { d with discarding := false, prodMid := false }
      else if d.prodMid then
        if poisoned || d.prodTaken < hdrLen d.prodHdr then
          match useQueue q s with
          | some s => s.modQueue q fun d => { d with discarding := false, dropping := false, prodMid := false }
          | none => poisonItem q s
        else s.setQueue q { d with prodMid := false }
      else s

/-- The ingress path ends an item, as poisoned if the line has closed it so. -/
def itemEnds (q : Nat) (poisoned : Bool) (s : State) : State :=
  (endWritten q (poisoned || (s.queue q).prodPoison) s).modQueue q fun d =>
    { d with prodPort := none, prodOpen := false, prodPoison := false }

/-- The item of port p that is open on its line or attach ends as poisoned, in its queue or where it waits to be taken (R106,
R128, R182). -/
def poisonFrom (p : Nat) (s : State) : State :=
  let qs := (s.queues.filter fun (_, d) => d.prodPort == some p && d.prodOpen).map (·.1)
  let s := { s with xbar := s.xbar.map fun x => if x.port = p && x.isOpen then { x with isOpen := false, poisoned := true } else x }
  qs.foldl (fun s q => itemEnds q true s) s

def execItemComplete (q : Queue) (s : State) : Host.Outcome State Fault Refusal := run (itemEnds q.val false) s

def execItemPoisonedEnd (q : Queue) (s : State) : Host.Outcome State Fault Refusal := run (itemEnds q.val true) s

/-! ## The consumer (R179 to R183, R187) -/

/-- The port whose calendar holds a queue. -/
def State.portOfQueue (s : State) (q : Nat) : Option Nat :=
  ((List.range 9).map fun k => groupPort (queueEngine q) k).find? fun p =>
    let e := (s.port p).egress
    (e.prot ++ e.ord).any fun c => c.queue == q

def State.calEntry (s : State) (p q : Nat) : Option CalEntry :=
  let e := (s.port p).egress
  (e.prot ++ e.ord).find? fun c => c.queue == q

/-- The abort word is next (R182). -/
def QueueSt.abortNext (d : QueueSt) : Bool := d.abortPending && d.abortAt == d.rptr

/-- The header word at the read pointer may be popped: its item is complete, or it is cut through (R179, R180). -/
def QueueSt.headReady (d : QueueSt) : Bool :=
  let n := hdrLen (d.word d.rptr.toNat)
  let t := d.threshold.toNat
  !(d.prodMid && !d.discarding && d.prodAt == d.rptr) || (1 < n && t != 0 && min t n ≤ d.prodTaken)

def QueueSt.poppable (d : QueueSt) : Bool :=
  if d.abortNext then true
  else if d.occupied = 0 then false
  else if d.consMid then !(d.opened && d.consTaken + 1 = hdrLen d.consHdr)
  else d.enable && d.headReady

/-- R183. -/
def QueueSt.abortLine (d : QueueSt) (s : State) (q : Nat) (cause : Byte) : Line :=
  { s.lossNow q d.consHdr cause with kind := 2, words := hdrLen d.consHdr - d.consTaken }.line

/-- What a pop does to the queue: the word it returns, whether that is an abort word, whether the item ends with it, and the credit
it frees. -/
structure Popped where
  queue : QueueSt
  word : Line
  abort : Bool := false
  ends : Bool
  frees : Option (Nat × Nat × Nat)

/-- The consumer's item is over. -/
def QueueSt.closeItem (d : QueueSt) : QueueSt :=
  { d with consMid := false, consTaken := 0, consCharge := none }

def popAbort (q : Nat) (s : State) (d : QueueSt) : Popped :=
  { queue := { d.closeItem with abortPending := false, abortCause := 0 }, word := d.abortLine s q d.abortCause,
    abort := true, ends := true, frees := d.consCharge }

def popHeader (d : QueueSt) : Popped :=
  let p := d.rptr.toNat
  let w := d.word p
  let own := d.isOwn p
  let c := Sparse.look d.charges (d.pos p)
  let d1 := { d.setR (p + 1) with
    charges := Sparse.del d.charges (d.pos p), own := d.own.filter fun x => x != d.pos p
    items := if own then d.items else d.items - 1
    tailMarker := d.tailMarker && d.occupied != 1 }
  if hdrLen w ≤ 1 then { queue := d1, word := w, ends := true, frees := c }
  else { queue := { d1 with consMid := true, consHdr := w, consTaken := 1, consCharge := c }, word := w, ends := false, frees := none }

def popWord (d : QueueSt) : Popped :=
  let w := d.word d.rptr.toNat
  let d1 := { d.setR (d.rptr.toNat + 1) with consTaken := d.consTaken + 1 }
  if hdrLen d.consHdr ≤ d.consTaken + 1 then { queue := d1.closeItem, word := w, ends := true, frees := d.consCharge }
  else { queue := d1, word := w, ends := false, frees := none }

/-- R187: a bad word inside an item ends it with an abort word; the read pointer goes to the item's end, and a producer still
in it discards its rest. -/
def popBadWord (q : Nat) (s : State) (d : QueueSt) : Popped :=
  let r := if d.abortPending then d.abortAt.toNat
           else if d.opened then d.wptr.toNat else d.rptr.toNat + (hdrLen d.consHdr - d.consTaken)
  let d1 := { d.closeItem.setR r with
    abortPending := false, abortCause := 0, discarding := d.discarding || d.opened
    discardCounts := d.discarding && d.discardCounts }
  { queue := d1, word := d.abortLine s q (d.abortCause ||| 0x80), abort := true, ends := true, frees := d.consCharge }

/-- The memory layer's finding at a popped word; the check word it is in is open. -/
def popFinding (q : Nat) (f : Found) (s : State) : State :=
  match f with
  | .clean => s
  | _ => memFinding (0x20 + queueEngine q) (s.wordAddr q (s.queue q).rptr.toNat +
      8 * ((Config.freeValue s.frame.freeCount).toNat % 4)) f false s.useFree

/-- The port's egress items are offered to the successor of a switch (R110). -/
def State.offersNew (s : State) (p : Nat) : Bool :=
  match Sparse.look s.fab.binds p with
  | some w => (w.old.map (·.ex)).getD false
  | none => false

/-- The egress side of a pop: grants, the item being sent, credits charged, and symbols for a native trunk's line or beats for an item
attach (R181, R197). -/
def egressPop (p q : Nat) (opens : Bool) (r : Popped) (s : State) : State :=
  let i := match s.calEntry p q with
    | some c => 2 * c.far + bitOf r.queue.ordinary
    | none => 0
  let units := if opens then unitsOf (hdrLen r.word) else if r.abort && !s.native p then 1 else 0
  let s := s.modCredit p fun c => { c with sent := addAt c.sent i units }
  let s := if s.native p then sendWord p opens r.ends r.abort r.word s else s
  let succ := s.offersNew p
  let beats := if s.native p then [] else (List.range 4).map fun j => (succ, BitVec.ofNat 64 (r.word.toNat / 2 ^ (64 * j)))
  let s := s.modEgress p fun e =>
    let out := e.exOut ++ beats
    let answers := min (if succ then e.exTakesNew else e.exTakes) out.length
    { e with
      grants := match e.grants with
        | [] => []
        | (a, n) :: rest =>
          if a != q then (a, n) :: rest else if r.ends || n ≤ 1 then rest else (a, n - 1) :: rest
      sending := if r.ends then none else some
        { queue := q, left := hdrLen r.queue.consHdr - r.queue.consTaken }
      exOut := out.drop answers
      exTakes := if succ then e.exTakes else e.exTakes - answers
      exTakesNew := if succ then e.exTakesNew - answers else e.exTakesNew
      exTaken := match (out.take answers).getLast? with
        | some b => some b.2
        | none => e.exTaken }
  if r.ends && !s.native p then
    { s with fab.binds := s.fab.binds.map fun (k, w) =>
        if k = p then (k, { w with old := w.old.map fun o => { o with ex := true } }) else (k, w) }
  else s

/-- The pop is one that the calendar allows now: its queue is the first granted that has a word, and an edition has taken
the beats before (R204). -/
def State.popGranted (s : State) (p q : Nat) : Bool :=
  let e := (s.port p).egress
  e.exOut.isEmpty && ((e.grants.find? fun g => (s.queue g.1).poppable).map (·.1)) == some q

/-- A pop of a queue by its port. -/
def queuePop (q : Nat) (f : Found) (s : State) : State :=
  match s.portOfQueue q with
  | none => s
  | some p =>
    let d := s.queue q
    if !s.popGranted p q then s.setQueue q { d with popped := none }
    else
      let finish := fun (opens : Bool) (r : Popped) (s : State) =>
        egressPop p q opens r (freeCredit r.frees (s.setQueue q { r.queue with popped := some r.word }))
      match useQueue q s with
      | some s => s
      | none =>
        if d.abortNext then finish false (popAbort q s d) s
        else
          let s1 := popFinding q f s
          if foundBad f then
            let s1 := s1.modEngine (queueEngine q) fun t => { t with event := t.event ||| 0x20 }
            if d.consMid then finish false (popBadWord q s1 d) s1
            else resetQueue q 4 (d.wptr, d.wptrSh, d.rptr, d.rptrSh) s1
          else if d.consMid then finish false (popWord d) s1
          else finish true (popHeader d) s1

def execQueuePop (q : Queue) (found : Found) (u : Upset) (s : State) : Host.Outcome State Fault Refusal :=
  run (fun s => queuePop q.val found (strikeQueue q.val u s)) s

/-! ## Flush -/

def execFlushMarkerWrite (q : Queue) (s : State) : Host.Outcome State Fault Refusal :=
  run (when ((s.queue q.val).flush && !(s.queue q.val).discarding) (endFlush q.val)) s

end Sys2Proof.Machine
end

