-- ==== Sys2Proof/Machine/Flows.lean ====
section
/-! DEFINITION. The flow lookup, delay-line release and merge commands ("Flows, scheduling and latency", R193 to R213). -/

namespace Sys2Proof.Machine
open Sys2Proof

/-! ## The lookup (R193 to R195) -/

/-- The reads of the context's eight words, logged as the memory layer logs them. -/
def contextFindings (f : Nat) (found : List Found) (s : State) : State :=
  (found.foldl (fun (a : State × Nat) x => (memFinding 0x30 (a.1.contextAddr f a.2) x false a.1, a.2 + 1)) (s, 0)).1

/-- R195: an item that cannot be placed frees its units on its port's own engine, under the class it carried. -/
def returnUnits (p : Nat) (hdr : Line) (s : State) : State :=
  let i := 2 * engineOf p + bitOf (hdrOrd hdr)
  freeCredit (some (p, i, unitsOf (hdrLen hdr))) (chargeCredit p i (unitsOf (hdrLen hdr)) s)

/-- R195: what the engine rewrites after a context that could not be read: word 6 holds the counters, word 2 the merge
state. -/
def repairContext (found : List Found) (f : FlowSt) : FlowSt :=
  let bad := fun i => foundBad (found.getD i .clean)
  let f := if bad 6 then { f with itemsIn := 0, wordsIn := 0, duplicates := 0, gaps := 0 } else f
  if bad 2 then { f with mergeSet := false } else f

def lookupMiss (p : Nat) (hdr : Line) (s : State) : State :=
  let e := engineOf p
  let told := (s.engine e).toldMiss
  let s := s.modEngine e fun t => { t with miss := sat 0xFFFF t.miss 1, toldMiss := true }
  returnUnits p hdr (if told then s else warn 0x0703 e [] s)

def contextError (p : Nat) (hdr : Line) (found : List Found) (s : State) : State :=
  let e := engineOf p
  let told := (s.engine e).toldContext
  let s := s.modEngine e fun t => { t with contextErr := sat 0xFFFF t.contextErr 1, toldContext := true }
  let s := s.modFlow (hdrFlow hdr) (repairContext found)
  returnUnits p hdr (if told then s else alarm 0x0701 e [] s)

/-- R194: the item is placed: class, counters, its charge (R197), and its header waits for its engine. -/
def placeItem (p : Nat) (hdr : Line) (open_ poisoned : Bool) (s : State) : State :=
  let k := hdrFlow hdr
  let f := s.flow k
  let s := s.setFlow k { f with itemsIn := f.itemsIn + 1, wordsIn := f.wordsIn + BitVec.ofNat 64 (hdrLen hdr) }
  let i := 2 * queueEngine f.egQueue + bitOf f.ordinary
  chargeCredit p i (unitsOf (hdrLen hdr)) { s with
    xbar := s.xbar ++ [{ port := p, queue := f.egQueue, hdr := setOrd f.ordinary hdr, index := i, isOpen := open_,
                          poisoned := poisoned }] }

def FlowSt.takes (f : FlowSt) (p : Nat) (hdr : Line) : Bool := f.valid && f.inPort == p && f.inTag == hdrTag hdr

/-- The rest of an item that cannot be placed leaves the lookup stage of an item attach, and what is still to come of it is given
up (R195). -/
def skipItem (p : Nat) (hdr : Line) (s : State) : State := s.modEgress p fun e =>
  let n := hdrLen hdr - 1
  if n ≤ e.ixWords.length then { e with ixWords := e.ixWords.drop n }
  else { e with ixWords := [], ixSkip := e.ixSkip + e.ixLeft, ixPassed := 0, ixLeft := 0 }

/-- The item of a header at the lookup is still open on the line or the attach, and is poisoned already. -/
def State.arrivalAt (s : State) (p : Nat) (hdr : Line) : Bool × Bool :=
  let t := s.port p
  if s.native p then (t.lane.itemOpen, false)
  else match t.egress.ixWords.head? with
    | some (w, bad) => if w == hdr then (t.egress.headOpen, bad) else (false, false)
    | none => (false, false)

def flowLookup (p : Nat) (hdr : Line) (found : List Found) (s : State) : State :=
  let a := s.arrivalAt p hdr
  let s := contextFindings (hdrFlow hdr) found (leaveStage p hdr s)
  if found.any foundBad then contextError p hdr found (skipItem p hdr s)
  else if (s.flow (hdrFlow hdr)).takes p hdr then placeItem p hdr a.1 a.2 s
  else lookupMiss p hdr (skipItem p hdr s)

/-- The modes in which a domain emits items ("Table: traffic between domains", rows N aside). -/
def emitsItems (m : Mode) : Bool := modeIn m [.service, .holdover, .closing]

/-- R56: items come to the lookup stage of a port from the port itself where it is a native trunk, else from the edition that holds
the stage. -/
def State.producesItems (s : State) (p : Nat) : Bool :=
  if s.native p then emitsItems (s.portMode p)
  else match Sparse.look s.fab.binds p with
    | some w =>
      let m := match w.old with
        | some o => if o.ix then s.memberAt w.edition w.item else s.memberAt o.edition o.item
        | none => s.memberAt w.edition w.item
      m.elim false fun m => emitsItems (s.bayMode m.bay)
    | none => false

/-- A header from an edition stands first in the port's lookup stage. -/
def State.standsFirst (s : State) (p : Nat) (hdr : Line) : Bool :=
  s.native p || ((s.port p).egress.ixWords.head?.map (·.1)) == some hdr

def execFlowLookup (p : Port) (header : Line) (found : List Found) (s : State) : Host.Outcome State Fault Refusal :=
  run (when (s.up && s.producesItems p.val && s.standsFirst p.val header) (flowLookup p.val header found)) s

/-! ## Leaving the delay line (R208, R209) -/

/-- One word of the item is read out by the queue-engine master; false when it is lost to an error. -/
def dlRead (f : FlowSt) (a : Nat) (found : Found) (s : State) : Bool × State :=
  let r := readBlock 32 (0x20 + queueEngine f.egQueue) (a / 64) found [] s
  (r.1.isOk, r.2)

/-- The reads of an item's words from pointer p on: whether each is good, in order. -/
def dlReads (f : FlowSt) (n p : Nat) (found : List Found) (s : State) : List Bool × State :=
  (List.range n).foldl (fun (a : List Bool × State) i =>
    let r := dlRead f (f.dlAddr (p + i)) (found.getD i .clean) a.2
    (a.1 ++ [r.1], r.2)) ([], s)

/-- The marker that takes the place of an item with a bad word. -/
def storageMarker (s : State) (it : HeldItem) : HeldItem :=
  { it with words := [(s.lossNow it.queue (it.words.headD 0) 0x80).line], marker := true, poisoned := false, charge := none }

/-- An item released goes to the merge, or to its queue. -/
def goOn (k : Nat) (it : HeldItem) (s : State) : State :=
  if (s.flow k).paired then addHead k it s else admitHeld it.queue it s

/-- The head of the line goes. A core cycle within the slot is not told apart from its boundary: the release time has come
if it lies before the slot's end (log entry 17). -/
def State.releasable (s : State) (f : FlowSt) (it : HeldItem) : Bool :=
  it.complete && it.release < s.frame.time + 500 && (f.paired || !(s.queue it.queue).busy)

def delayRelease (k : Nat) (found : List Found) (s : State) : State :=
  let f := s.flow k
  match f.dl with
  | [] => s
  | it :: rest =>
    if !s.releasable f it then s
    else match useLine k s with
    | some s => s
    | none =>
      let n := it.words.length
      let r := dlReads f n f.dlRptr.toNat found s
      let headBad := match found.head? with
        | some x => foundBad x
        | none => false
      if headBad then dlReset k r.2
      else
        let s := r.2.modFlow k fun f => { dlPop n f with dl := rest, dlTail := f.dlTail && !rest.isEmpty }
        if r.1.all id then goOn k it s
        else
          let e := queueEngine f.egQueue
          let s := countMarker e (s.modEngine e fun t => { t with dlStorage := sat 0xFFFF t.dlStorage 1 })
          goOn k (storageMarker s it) (freeCredit it.charge s)

def execDelayLineRelease (f : Flow) (found : List Found) (u : Upset) (s : State) : Host.Outcome State Fault Refusal :=
  run (fun s => delayRelease f.val found (strikeLine f.val u s)) s

/-! ## The merge (R211 to R213) -/

def execMergeStep (f : Flow) (s : State) : Host.Outcome State Fault Refusal := run (mergeStep f.val) s

/-- The wait of a pair has lasted merge_wait, read in the member that holds the merge state (log entry 17). -/
def State.waitOver (s : State) (lo : Nat) : Bool :=
  let f := s.flow lo
  f.waiting && f.mergeWait * 1000 < (w32 s.frame.time - f.waitStart).toNat + 500

def mergeTimeout (k : Nat) (s : State) : State :=
  let lo := s.mergeOf k
  if (s.flow k).paired && s.waitOver lo then
    match s.judged lo, s.judged (s.flow lo).twin with
    | some a, none => declareGap lo a.seq s
    | none, some b => declareGap lo b.seq s
    | _, _ => s
  else s

def execMergeGapTimeout (f : Flow) (s : State) : Host.Outcome State Fault Refusal := run (mergeTimeout f.val) s

/-- merge_set clears, and with it a wait. -/
def resync (lo : Nat) (s : State) : State := s.modFlow lo fun f => { f with mergeSet := false, waiting := false }

def execMergeAutoResync (f : Flow) (s : State) : Host.Outcome State Fault Refusal :=
  let lo := s.mergeOf f.val
  run (when ((s.flow f.val).paired && 8000 ≤ (s.flow lo).quiet) (resync lo)) s

end Sys2Proof.Machine
end

