-- ==== Sys2Proof/Machine/FlowSlips.lean ====
section
/-! DEFINITION. The call slips of families 0x06 and 0x07 ("Queues", R191; "Flows, scheduling and latency", R196 to R213;
R390, R391). -/

namespace Sys2Proof.Machine
open Sys2Proof

/-- Families 0x06 and 0x07 in house Closing take only what changes nothing, and QUEUE_FLUSH (R384). -/
def openQueues (s : State) : Except SlipErr Unit := houseOpen s

/-! ## Registers of a queue (QD_CTRL to QD_ABORT) -/

/-- The eight descriptor words of queue q; zeros while its engine is gated. -/
def State.qdRegs (s : State) (q : Nat) : List Nat :=
  if getBit s.clk.gatedQe (queueEngine q) then List.replicate 8 0
  else
    let d := s.queue q
    [pack [(16, 0), (9, d.threshold.toNat), (4, d.sizeCode.toNat), (1, bitOf d.ordinary), (1, bitOf d.flush), (1, bitOf d.enable)],
     d.base.toNat, d.wptr.toNat, d.wptrSh.toNat, d.rptr.toNat, d.rptrSh.toNat,
     pack [(17, d.items), (10, 0), (1, bitOf d.discarding), (1, bitOf d.abortPending), (1, bitOf d.consMid),
       (1, bitOf d.prodMid), (1, bitOf d.tailMarker)],
     d.abortAt.toNat]

/-! ## Space (R165) -/

def State.spaceGroups (s : State) (e : Nat) : Nat := (banksOf s.fab.banks e).length / 4

/-- First word and length of an enabled queue's storage. -/
def QueueSt.run (d : QueueSt) : Nat × Nat := (16 * d.base.toNat, d.cap)

def State.enabledRuns (s : State) (e but : Nat) : List (Nat × Nat) :=
  (s.queues.filter fun (q, d) => d.enable && queueEngine q == e && q != but).map fun (_, d) => d.run

/-- The runs of space words that no enabled queue of the engine uses, ascending. -/
def freeRuns (size : Nat) (used : List (Nat × Nat)) : List (Nat × Nat) :=
  let l := sortBy (fun a b => a.1 ≤ b.1) used
  let r := l.foldl (fun (acc : List (Nat × Nat) × Nat) (a, n) =>
    (if acc.2 < a then acc.1 ++ [(acc.2, a - acc.2)] else acc.1, max acc.2 (a + n))) ([], 0)
  if r.2 < size then r.1 ++ [(r.2, size - r.2)] else r.1

/-! ## Family 0x06 -/

/-- A valid flow names the queue. -/
def State.queueNamed (s : State) (q : Nat) : Bool := s.flows.any fun (_, f) => f.valid && f.egQueue == q

def queueSetBody (p : List Byte) (s : State) : SlipOut := do
  openQueues s
  let q := arg p 16 2
  let flags := arg p 18 1
  let code := arg p 19 1
  let t := arg p 20 2
  let base := arg p 22 3
  fields [⟨16, 2, q < 16384⟩, ⟨18, 1, flags < 4⟩, ⟨19, 1, code ≤ 12⟩, ⟨20, 2, t ≤ 320⟩, ⟨22, 3, base < 2 ^ 20⟩] p
  let en := flags.testBit 0
  let ord := flags.testBit 1
  let d := s.queue q
  need (!(en && getBit s.clk.gatedQe (queueEngine q))) (fail St.modeConflict)
  need (t ≤ queueCap code - 1) (bad 20)
  need (16 * base + queueCap code ≤ 8192 * s.spaceGroups (queueEngine q)) (fail St.queueSpace)
  need (!en || (s.enabledRuns (queueEngine q) q).all fun (a, n) => a + n ≤ 16 * base || 16 * base + queueCap code ≤ a)
    (fail St.queueOverlap)
  need (!d.enable || (d.sizeCode.toNat == code && d.base.toNat == base && d.ordinary == ord)) (fail St.queueBusy)
  need (!(d.enable && !en) || (d.occupied == 0 && !d.prodMid && !d.discarding && !d.flush)) (fail St.queueBusy)
  need (!(d.enable && !en) || !s.queueNamed q) (fail St.queueInUse)
  if d.enable && en then okSlip (s.setQueue q { d with threshold := BitVec.ofNat 9 t })
  else if en then
    okSlip (s.setQueue q { QueueSt.dflt with
      enable := true, ordinary := ord, sizeCode := BitVec.ofNat 4 code, threshold := BitVec.ofNat 9 t,
      base := BitVec.ofNat 20 base, dropping := d.dropping, arriving := d.arriving,
      prodPort := d.prodPort, prodOpen := d.prodOpen, prodPoison := d.prodPoison, prodHdr := d.prodHdr, prodTaken := d.prodTaken })
  else
    okSlip (s.setQueue q { d with
      enable := false, parityBad := false, ordinary := ord, sizeCode := BitVec.ofNat 4 code, threshold := BitVec.ofNat 9 t,
      base := BitVec.ofNat 20 base })

def execQueueSet (h : SlipHdr) (p : List Byte) (s : State) : Host.Outcome State Fault Refusal :=
  slip 0x0601 .ordinary h p (fun _ s => queueSetBody p s) s

def queueQueryBody (p : List Byte) (s : State) : SlipOut := do
  let q := arg p 16 2
  let n := arg p 18 1
  fields [⟨16, 2, q < 16384⟩, ⟨18, 1, 1 ≤ n && n ≤ 64 && q + n ≤ 16384⟩] p
  okResult s ((List.range n).flatMap fun i => words4 (s.qdRegs (q + i)))

def execQueueQuery (h : SlipHdr) (p : List Byte) (s : State) : Host.Outcome State Fault Refusal :=
  slip 0x0602 .passable h p (fun _ s => queueQueryBody p s) s

def queueFlushBody (p : List Byte) (id : SlipId) (s : State) : SlipOut := do
  let q := arg p 16 2
  fields [⟨16, 2, q < 16384⟩] p
  if !(s.queue q).enable then acceptDone s St.ok (leBytes 8 0)
  else match useQueue q s with
  | some s => acceptDone s St.ok (leBytes 8 0)
  | none =>
    let t := beginFlush q s
    if (t.queue q).discarding then accept (t.modQueue q fun d => { d with flushSlips := d.flushSlips ++ [id] })
    else
      let l := (t.queue q).flushLoss q
      acceptDone (endFlush q t) St.ok (leBytes 4 l.items ++ leBytes 4 l.words)

def execQueueFlush (h : SlipHdr) (p : List Byte) (s : State) : Host.Outcome State Fault Refusal :=
  slip 0x0603 .ordinary h p (queueFlushBody p) s

def queueSpaceBody (p : List Byte) (s : State) : SlipOut := do
  let e := arg p 16 1
  fields [⟨16, 1, e < 16⟩] p
  let runs := freeRuns (8192 * s.spaceGroups e) (s.enabledRuns e 16384)
  let shown := runs.take 500
  okResult s (leBytes 2 (s.spaceGroups e) ++ leBytes 2 shown.length ++ [if 500 < runs.length then 1 else 0] ++ leBytes 11 0 ++
    shown.flatMap fun (a, n) => leBytes 4 a ++ leBytes 4 n)

def execQueueSpaceQuery (h : SlipHdr) (p : List Byte) (s : State) : Host.Outcome State Fault Refusal :=
  slip 0x0604 .passable h p (fun _ s => queueSpaceBody p s) s

/-! ## FLOW_SET, FLOW_QUERY -/

/-- A port's ceiling: the lower of PORT_SET's maximum and the binding's; a foreign trunk has its one setting (R133, R144). -/
def State.ceiling (s : State) (p : Nat) : Nat × Nat :=
  let c := (s.port p).cfg
  if c.setting = 2 then (0, 0)
  else if c.setting = 3 then (2, 2)
  else match Sparse.look s.fab.binds p with
    | some w => (min c.maxRate w.rate, min c.maxWidth w.width)
    | none => (c.maxRate, c.maxWidth)

/-- Slot-mark symbols of a port at a setting: none in foreign mode or with marks_tx clear (R123, R160). -/
def markLength (c : PortCfg) (rate width : Nat) : Nat :=
  if foreign c || (c.setting == 1 && !c.marksTx) then 0 else 6 + 4 * creditWidth rate width

/-- R203. -/
def slotBudget (c : PortCfg) (rate width : Nat) : Nat :=
  let n := lanesOf width
  (nth laneBits rate * 125 / 4 - (markLength c rate width + n - 1) / n - 16) * n / 32

/-- The editions that a port's items cross. -/
def State.portEditions (s : State) (p : Nat) : List Nat :=
  match Sparse.look s.fab.binds p with
  | some w => w.edition :: (w.old.map (·.edition)).toList
  | none => []

/-- The tag a flow must give for an ingress port: 0 for a native trunk, else its edition's; none where no edition is bound. -/
def State.ingressTag (s : State) (p : Nat) : Option Nat :=
  if s.native p then some 0 else (Sparse.look s.fab.binds p).map fun w => s.tagOf w.edition

def State.protectedPort (s : State) (p : Nat) : Bool :=
  s.native p || (s.portEditions p).all fun n => ((s.edition n).map (·.protectedCapable)).getD false

/-- The volumes that pages base to base + pages - 1 touch. -/
def volumesOf (base pages : Nat) : List Nat := (List.range 32).filter fun v => base / 2 ^ 18 ≤ v && v ≤ (base + pages - 1) / 2 ^ 18

/-- R208: room for the delay at the ingress port's ceiling, within V00 to V30. -/
def State.delayFits (s : State) (p delay base pages : Nat) : Bool :=
  let c := s.ceiling p
  (delay * payload2 c.1 c.2 + 511) / 512 + 320 + 1 ≤ pages * 128 && base + pages ≤ 31 * 2 ^ 18

def flowSetBody (p : List Byte) (s : State) : SlipOut := do
  openQueues s
  let k := arg p 16 2
  let flags := arg p 20 1
  let inP := arg p 21 1
  let egP := arg p 23 1
  let q := arg p 24 2
  let delay := arg p 28 4
  let base := arg p 36 4
  let pages := arg p 40 4
  fields [⟨16, 2, true⟩, ⟨20, 1, flags < 8⟩, ⟨21, 1, inP < 144⟩, ⟨22, 1, true⟩, ⟨23, 1, egP < 144⟩, ⟨24, 2, q < 16384⟩,
    ⟨26, 2, arg p 26 2 == 0⟩, ⟨28, 4, delay ≤ 256000000⟩, ⟨32, 2, true⟩, ⟨36, 4, base < 2 ^ 23⟩,
    ⟨40, 4, pages ≤ 1048576 && (!flags.testBit 2 || 1 ≤ pages)⟩] p
  let f := s.flow k
  let valid := flags.testBit 0
  let ord := flags.testBit 1
  let de := flags.testBit 2
  let g : FlowSt := { f with
    valid := valid, ordinary := ord, delayEn := de, inPort := inP, inTag := arg p 22 1, egPort := egP,
    egQueue := q, delay := delay, mergeWait := arg p 32 2, dlBase := base, dlPages := pages }
  if !valid then
    let s := endPair k s
    okSlip (s.modFlow k fun f => { g with
      paired := false, twin := 0, mergeSet := f.mergeSet, waiting := f.waiting, mergeCause := f.mergeCause,
      heads := f.heads, quiet := f.quiet })
  else do
    need (!(de && (volumesOf base pages).any s.sideGated)) (fail St.modeConflict)
    need (!f.valid) (fail St.flowBusy)
    need (s.ingressTag inP == some (arg p 22 1)) (bad 22)
    need (queueEngine q == engineOf egP) (fail St.badEgress)
    need (s.queue q).enable (fail St.queueDisabled)
    let cal := (s.port egP).egress
    need ((if ord then cal.ord else cal.prot).any fun c => c.queue == q) (fail St.calConflict)
    need (ord || (s.protectedPort inP && s.protectedPort egP)) (fail St.editionClass)
    need (!de || s.delayFits inP delay base pages) (fail St.delaySpace)
    need (!de || (volumesOf base pages).all fun v => s.access 32 v == 3 && !s.cipherView 32 v) (fail St.rights)
    need (de == (delay != 0)) (bad 20)
    okSlip (s.setFlow k { g with paired := false, twin := 0 })

def execFlowSet (h : SlipHdr) (p : List Byte) (s : State) : Host.Outcome State Fault Refusal :=
  slip 0x0701 .ordinary h p (fun _ s => flowSetBody p s) s

def flowQueryBody (p : List Byte) (s : State) : SlipOut := do
  let f := arg p 16 2
  let n := arg p 18 1
  fields [⟨16, 2, true⟩, ⟨18, 1, 1 ≤ n && n ≤ 8 && f + n ≤ 65536⟩] p
  okResult s ((List.range n).flatMap fun i => contextBytes (s.flow (f + i)))

def execFlowQuery (h : SlipHdr) (p : List Byte) (s : State) : Host.Outcome State Fault Refusal :=
  slip 0x0702 .passable h p (fun _ s => flowQueryBody p s) s

/-! ## PAIR_SET, FLOW_COUNT_CLEAR -/

def joinPair (a b : Nat) (s : State) : State :=
  let s := s.modFlow a fun f => { f with paired := true, twin := b }
  let s := s.modFlow b fun f => { f with paired := true, twin := a }
  s.modFlow (min a b) fun f => { f with mergeSet := false, waiting := false, mergeCause := 0, quiet := 0 }

def pairSetBody (p : List Byte) (s : State) : SlipOut := do
  openQueues s
  let a := arg p 16 2
  let b := arg p 18 2
  let act := arg p 20 1
  fields [⟨16, 2, true⟩, ⟨18, 2, true⟩, ⟨20, 1, act < 3⟩] p
  let x := s.flow a
  let y := s.flow b
  if act = 0 then do
    need x.valid (bad 16)
    need y.valid (bad 18)
    need (!x.ordinary) (bad 16)
    need (!y.ordinary) (bad 18)
    need (x.egQueue == y.egQueue && x.egPort == y.egPort) (fail St.calConflict)
    need (x.inPort != y.inPort) (bad 18)
    need (!x.paired && !y.paired) (fail St.flowBusy)
    okSlip (joinPair a b s)
  else do
    need (x.paired && x.twin == b && a != b) (bad 16)
    okSlip (if act = 1 then endPair a s else resync (min a b) s)

def execPairSet (h : SlipHdr) (p : List Byte) (s : State) : Host.Outcome State Fault Refusal :=
  slip 0x0703 .ordinary h p (fun _ s => pairSetBody p s) s

def flowCountClearBody (p : List Byte) (s : State) : SlipOut := do
  openQueues s
  let n := arg p 16 2
  fieldsTo [⟨16, 2, 1 ≤ n && n ≤ 64⟩] 20 p
  counted p 16 n 1 64 20 2
  zeroFrom (20 + 2 * n) p
  okSlip ((List.range n).foldl (fun s i =>
    s.modFlow (arg p (20 + 2 * i) 2) fun f => { f with itemsIn := 0, wordsIn := 0, duplicates := 0, gaps := 0 }) s)

def execFlowCountClear (h : SlipHdr) (p : List Byte) (s : State) : Host.Outcome State Fault Refusal :=
  slip 0x0704 .ordinary h p (fun _ s => flowCountClearBody p s) s

/-! ## EGRESS_SET, EGRESS_QUERY (R202, R391) -/

def calEntryAt (p : List Byte) (o : Nat) : CalEntry :=
  { queue := arg p o 2, amount := arg p (o + 2) 1, far := arg p (o + 3) 1 / 16, deficit := 0 }

def calEntryBad (p : List Byte) (o : Nat) : Option Nat :=
  firstBad [(o, arg p o 2 < 16384), (o + 2, 1 ≤ arg p (o + 2) 1), (o + 3, arg p (o + 3) 1 % 16 == 0)]

/-- The calendar a port has once every committed change has applied. -/
def State.calendarAhead (s : State) (p : Nat) : List CalEntry × List CalEntry :=
  s.fab.changes.foldl (fun c x => match x.change with
    | .calendar q a b => if q = p then (a, b) else c
    | _ => c) ((s.port p).egress.prot, (s.port p).egress.ord)

/-- Queues in other ports' calendars, in force, committed or being gathered. -/
def State.otherCalendars (s : State) (p : Nat) : List Nat :=
  ((s.ports.flatMap fun (k, t) =>
      if k = p then [] else t.egress.prot ++ t.egress.ord ++
        (t.egress.pendProt ++ t.egress.pendOrd).flatMap (·.2)) ++
    (s.fab.changes.flatMap fun c => match c.change with
      | .calendar k a b => if k = p then [] else a ++ b
      | _ => [])).map (·.queue)

/-- The first rule of "Table: EGRESS_SET validity" that a calendar breaks, past the ranges. -/
def State.calendarFault (s : State) (p : Nat) (prot ord : List CalEntry) : Option (BitVec 16) :=
  let all := prot ++ ord
  let c := s.ceiling p
  let cur := s.calendarAhead p
  let dropped := ((cur.1 ++ cur.2).map (·.queue)).filter fun q => !(all.any fun x => x.queue == q)
  if !all.all (fun x => queueEngine x.queue == engineOf p) then some St.badEgress
  else if !all.all (fun x => (s.queue x.queue).enable) || !prot.all (fun x => !(s.queue x.queue).ordinary) ||
      !ord.all (fun x => (s.queue x.queue).ordinary) then some St.calConflict
  else if (all.map (·.queue)).eraseDups.length != all.length ||
      all.any (fun x => (s.otherCalendars p).contains x.queue) then some St.calConflict
  else if slotBudget (s.port p).cfg c.1 c.2 < (prot.map (·.amount)).foldl (· + ·) 0 then some St.calFit
  else if dropped.any fun q => s.flows.any fun (_, f) => f.valid && f.egPort == p && f.egQueue == q then some St.queueInUse
  else none

def egressSetBody (p : List Byte) (id : SlipId) (s : State) : SlipOut := do
  openQueues s
  let port := arg p 16 2
  let more := arg p 18 1 == 1
  let np := arg p 19 1
  let no := arg p 20 2
  let ch := id.ch.val
  let e := (s.port port).egress
  let held := Sparse.look e.pendProt ch
  fieldsTo [⟨16, 2, port < 144⟩, ⟨18, 1, arg p 18 1 < 2⟩, ⟨19, 1, np ≤ 64⟩, ⟨20, 2, no ≤ 1024⟩, ⟨22, 2, arg p 22 2 == 0⟩] 24 p
  need (24 + 4 * np ≤ 16 + p.length) (tooLong 19)
  need (24 + 4 * (np + no) ≤ 16 + p.length) (tooLong 20)
  entriesOk 24 4 (np + no) (calEntryBad p)
  zeroFrom (24 + 4 * (np + no)) p
  need (held.isNone || np == 0) (bad 19)
  let prot := held.getD [] ++ (List.range np).map fun i => calEntryAt p (24 + 4 * i)
  let ord := Sparse.get [] e.pendOrd ch ++ (List.range no).map fun i => calEntryAt p (24 + 4 * (np + i))
  let clear := fun (s : State) => s.modEgress port fun e =>
    { e with pendProt := Sparse.del e.pendProt ch, pendOrd := Sparse.del e.pendOrd ch }
  need (ord.length ≤ 1024) { bad 20 with discard := clear }
  if more then okSlip (s.modEgress port fun e =>
    { e with pendProt := Sparse.ins e.pendProt ch prot, pendOrd := Sparse.ins e.pendOrd ch ord })
  else match s.calendarFault port prot ord with
    | some st => .error { status := st, discard := clear }
    | none =>
      let c : Change4 := { ch := id.ch, seq := id.seq, change := .calendar port prot ord, retries := 0, id := none, ready := true }
      okSlip { clear s with fab.changes := s.fab.changes ++ [c] }

def execEgressSet (h : SlipHdr) (p : List Byte) (s : State) : Host.Outcome State Fault Refusal :=
  slip 0x0705 .ordinary h p (egressSetBody p) s

def calEntryBytes (c : CalEntry) : List Byte := leBytes 4 (pack [(16, c.queue), (8, c.amount), (4, 0), (4, c.far)])

def egressQueryBody (p : List Byte) (s : State) : SlipOut := do
  let port := arg p 16 2
  let first := arg p 18 2
  fields [⟨16, 2, port < 144⟩, ⟨18, 2, first < 1088⟩] p
  let e := (s.port port).egress
  let all := (e.prot.map fun c => { c with deficit := 0 }) ++ e.ord
  let shown := (all.drop first).take 500
  okResult s ([BitVec.ofNat 8 e.prot.length, 0] ++ leBytes 2 e.ord.length ++ leBytes 2 shown.length ++ leBytes 10 0 ++
    shown.flatMap fun c => calEntryBytes c ++ leBytes 4 (ofInt 32 c.deficit))

def execEgressQuery (h : SlipHdr) (p : List Byte) (s : State) : Host.Outcome State Fault Refusal :=
  slip 0x0706 .passable h p (fun _ s => egressQueryBody p s) s

/-! ## CREDIT_SET (R199) -/

/-- An allowance changes in Service: a rise is granted, a fall held back from the units freed. -/
def setAllowance (port cls a : Nat) (s : State) : State :=
  s.modCredit port fun c =>
    let was := if cls = 0 then c.allowProt else c.allowOrd
    { c with
      allowProt := if cls = 0 then a else c.allowProt
      allowOrd := if cls = 0 then c.allowOrd else a
      holdBack := (List.range 32).map fun i =>
        c.holdBack.getD i 0 + (if i % 2 = cls then (was : Int) - (a : Int) else 0) }

def creditSetBody (p : List Byte) (s : State) : SlipOut := do
  openQueues s
  let port := arg p 16 2
  let cls := arg p 18 1
  let a := arg p 19 1
  let dflt := arg p 20 1 == 1
  fields [⟨16, 2, port < 144⟩, ⟨18, 1, cls < 2⟩, ⟨19, 1, if dflt then a == 0 else 1 ≤ a && a ≤ 127⟩, ⟨20, 1, arg p 20 1 < 2⟩] p
  let t := s.port port
  let w := creditWidth t.neg.cur.rate t.neg.cur.width
  let svc := s.portMode port == .service
  need (dflt || !svc || a ≤ 2 ^ w - 1) (bad 19)
  let set := if dflt then none else some a
  let s := s.modCredit port fun c =>
    { c with setProt := if cls = 0 then set else c.setProt, setOrd := if cls = 0 then c.setOrd else set }
  okSlip (if svc then setAllowance port cls (if dflt then defaultAllowance w else a) s else s)

def execCreditSet (h : SlipHdr) (p : List Byte) (s : State) : Host.Outcome State Fault Refusal :=
  slip 0x0707 .ordinary h p (fun _ s => creditSetBody p s) s

end Sys2Proof.Machine
end

