-- ==== Sys2Proof/Machine/Install.lean ====
section
/-! DEFINITION. Step 4 of a frame boundary: the changes of call slips come into force, or are abandoned (R44, R45, R94, R95,
R110, R219). -/

namespace Sys2Proof.Machine
open Sys2Proof

/-- A rota comes into force: its folios' states settle where the bay's rotas run (R95). -/
def installAt (r : RotaRec) (s : State) : State :=
  let s := installRota r s
  if (s.bay r.bay).running then settleFolios r.key r.rota s else s

/-- Ports bound anew leave the switch they were in. -/
def leaveSwitches (ports : List Nat) (s : State) : State :=
  { s with fab.switches := s.fab.switches.map fun (id, ps) => (id, ps.filter fun p => !ports.contains p) }

/-- A switch whose ports have all completed or been forced posts OK: the spec gives OK where every port completed, and no other
status for ports forced (R111, log entry 76). -/
def endSwitches (s : State) : State :=
  let ended := s.fab.switches.filter fun x => x.2.isEmpty
  ended.foldl (fun s x => complete x.1 St.ok 0 [] s)
    { s with fab.switches := s.fab.switches.filter fun x => !x.2.isEmpty }

/-- R110: a port moved at an item boundary offers its next egress item to the successor. -/
def offerAt (p : Nat) (s : State) : State :=
  let e := (s.port p).egress
  if e.sending.isSome || !e.exOut.isEmpty then s
  else { s with fab.binds := s.fab.binds.map fun (k, w) =>
    (k, if k = p then { w with old := w.old.map fun o => { o with ex := true } } else w) }

/-- The successor's takes are the port's edition's once a switch is over. -/
def joinTakes (p : Nat) (s : State) : State := s.modEgress p fun e =>
  { e with exTakes := e.exTakesNew, exTakesNew := 0, exOut := e.exOut.map fun x => (false, x.2) }

/-- Bindings come into force. A port whose earlier switch is incomplete leaves it: the first old edition's paths end there (log
entry 74). -/
def bindPorts (c : Step4) (ports : List Nat) (s : State) : State :=
  let s := ports.foldl (fun s p => if ((Sparse.look s.fab.binds p).bind (·.old)).isSome then joinTakes p s else s) s
  ports.foldl (fun s p => offerAt p s) (endSwitches (leaveSwitches ports { s with fab.binds := bindAfter s.fab.binds c }))

/-- The layer bytes of bank a stand in bank b too (R219). -/
def copyBank (a b : Nat) (s : State) : State :=
  let x := s.layerPhys (a * 65536)
  let y := s.layerPhys (b * 65536)
  let cells := s.mem.layer.filter fun c => x ≤ c.1 && c.1 < x + 65536
  let zero := s.mem.zeroed.contains (x / 65536)
  let rest := s.mem.zeroed.filter (· != y / 65536)
  { s with
    mem.layer := cells.foldl (fun m c => Sparse.ins m (c.1 - x + y) c.2) (cellsDrop s.mem.layer y 65536)
    mem.zeroed := if zero then y / 65536 :: rest else rest }

/-- One change applies whole. -/
def installChange (c : Change4) (s : State) : State :=
  match c.change with
  | .rotas rs => completeOpt c.id St.ok (rs.foldl (fun s r => installAt r s) s)
  | .bind _ ports => bindPorts c.change (ports.map (·.port)) s
  | .unbind ports => bindPorts c.change ports s
  | .switch old succ ports rs =>
    let s := rs.foldl (fun s r => installAt r s) (bindPorts c.change (ports.map (·.port)) s)
    let s := match s.edition succ with
      | some e => { s with fab.editions := Sparse.ins s.fab.editions succ { e with replaced := old :: e.replaced } }
      | none => s
    match c.id with
    | some id => { s with fab.switches := s.fab.switches ++ [(id, ports.map (·.port))] }
    | none => s
  | .banks _ => { s with fab.banks := bankAfter s.fab.banks c.change }
  | .exchange a b => completeOpt c.id St.ok { copyBank a b s with fab.banks := bankAfter s.fab.banks c.change }
  | .calendar p prot ord => s.modEgress p fun e => { e with prot := prot, ord := ord, turn := 0, midTurn := false }

/-- A deferred set that was tried at this boundary: the first of its channel, its copy made, and its folios not all loaded. -/
def State.tried (s : State) : List Change4 :=
  (s.sorted.2.foldl (fun (acc : List Change4 × List Channel) c =>
    (if acc.2.contains c.ch || !c.ready || s.changeReady c then acc.1 else acc.1 ++ [c], c.ch :: acc.2)) ([], [])).1

/-- R44: a change that is valid only in some modes, against the modes of step 2: a split or a house user changes in Bindery, a
share code and an exchange in the modes of family 0x04, a switch-in not in Holdover. -/
def State.modesAllow (s : State) (c : Step4) : Bool :=
  match c with
  | .banks bs => bs.all fun (k, v) =>
      let w := s.bank k
      if w.pool != v.pool || w.user != v.user then s.bayMode (k / 144) == .bindery
      else w.share == v.share || modeIn (s.bayMode (k / 144)) fabricModes
  | .exchange a b => modeIn (s.bayMode (a / 144)) fabricModes && modeIn (s.bayMode (b / 144)) fabricModes
  | .switch _ n _ _ => (((s.edition n).map (·.members)).getD []).all fun m => s.bayMode m.bay != .holdover
  | _ => true

/-- What a change does whose bay has left the modes that allow it: a bank change is dropped, a switch-in waits (log entry 77). -/
def dropDisallowed (s : State) : State :=
  let gone := s.fab.changes.filter fun c => !s.modesAllow c.change && (match c.change with
    | .switch .. => false
    | _ => true)
  gone.foldl (fun s c => completeOpt c.id St.modeConflict s)
    { s with fab.changes := s.fab.changes.filter fun c => !gone.contains c }

/-- The copy of an exchange has ended or not: how long the desk takes is open. -/
def exchangeStep (s : State) : State :=
  { s with
    fab.changes := (s.fab.changes.foldl (fun (acc : List Change4 × Nat) c =>
      match c.change with
      | .exchange _ _ => (acc.1 ++ [{ c with ready := c.ready || (Config.freeValue acc.2).getLsbD 0 }], acc.2 + 1)
      | _ => (acc.1 ++ [c], acc.2)) ([], s.frame.freeCount)).1
    frame.freeCount := s.frame.freeCount + s.fab.changes.length }

/-- Apply the changes of a list, in slip order, and leave the rest. -/
def installAll (cs : List Change4) (s : State) : State :=
  cs.foldl (fun s c => installChange c s) { s with fab.changes := s.fab.changes.filter fun c => !cs.contains c }

/-- Step 4. The test of R45 for rotas stands from the turn that ended the frame. -/
def boundaryStep4 (s : State) : State :=
  let s := dropDisallowed s
  let waiting := s.tried
  let s := installAll (s.installable.filter fun c => s.modesAllow c.change) s
  let s := exchangeStep { s with
    fab.changes := s.fab.changes.map fun c => if waiting.contains c then { c with retries := c.retries + 1 } else c }
  { s with fab.due := none }

/-- A deferred set that R45 abandons: it has been tried, and a folio it names is empty or its 8,000th retry has failed. -/
def State.abandonable (s : State) (c : Change4) : Bool :=
  1 ≤ c.retries && ((s.changeFolios c.change).any (fun k => s.folioState k == .empty) || 8001 ≤ c.retries)

/-- R45: the set is abandoned, and what stands behind it in its channel is tried at the same boundary. -/
def abandonChange (ch : Channel) (s : State) : State :=
  match s.fab.changes.find? (fun c => c.ch == ch) with
  | none => s
  | some c =>
    if !s.abandonable c then s
    else
      let empty := (s.changeFolios c.change).any fun k => s.folioState k == .empty
      let s := { s with fab.changes := s.fab.changes.erase c }
      let s := warn 0x0404 ch.val [(3, ch.val), (16, c.seq.toNat)] (completeOpt c.id (if empty then St.folioEmpty else St.folioBusy) s)
      let mine := s.installable.filter fun x => x.ch == ch && s.modesAllow x.change
      let s := installAll mine s
      let s := (mine.flatMap fun x => x.change.rotasOf.map RotaRec.key).foldl (fun s k =>
        if s.rotasRun (k / 36) then beginEntry [] k s else s) s
      { s with
        fab.changes := s.fab.changes.map fun x =>
          if s.fab.changes.find? (fun y => y.ch == ch) == some x then { x with retries := x.retries + 1 } else x }

def execChangeAbandoned (ch : Channel) (s : State) : Host.Outcome State Fault Refusal := run (abandonChange ch) s

end Sys2Proof.Machine
end

