-- ==== Sys2Proof/Machine/Attach.lean ====
section
/-! DEFINITION. Line and item attaches, and the paths of a port under an edition switch (R105 to R111, R136). -/

namespace Sys2Proof.Machine
open Sys2Proof

/-- Bytes that a line-attach buffer of 64 words holds. -/
def attachRoom : Nat := 2048

/-- An edition has a member in the bay. -/
def State.editionIn (s : State) (n b : Nat) : Bool := (s.edition n).elim false fun e => e.members.any fun m => m.bay == b

def State.bind? (s : State) (p : Nat) : Option BindSt := Sparse.look s.fab.binds p

/-- The old edition still has the path that f reads. -/
def BindSt.oldHas (w : BindSt) (f : SwitchBind → Bool) : Bool :=
  match w.old with
  | some o => !f o
  | none => false

/-- The member that serves a port by a path: the old edition's until its release, then the successor's. -/
def State.server (s : State) (w : BindSt) (old line : Bool) : Option Member :=
  match w.old, old with
  | some o, true => s.memberAt o.edition (if line then o.line else o.item)
  | _, _ => s.memberAt w.edition (if line then w.line else w.item)

/-- The folio of a member exchanges data now: its bay's rotas run, and it is active (R106). -/
def State.exchanges (s : State) (m : Option Member) : Bool :=
  match m with
  | some m => s.folioActive (memberKey m)
  | none => false

/-- An edition's outputs leave its bay: the folio exchanges, in a mode in which they are not held ("Table: mode codes", R56). -/
def State.emits (s : State) (m : Option Member) : Bool :=
  s.exchanges m && m.elim false fun m => emitsItems (s.bayMode m.bay)

/-- The edition of a command (successor or old) is the one that serves the path. -/
def servesPath (w : BindSt) (f : SwitchBind → Bool) (succ : Bool) : Bool :=
  match w.old with
  | some o => succ == f o
  | none => !succ || w.old.isNone

/-- A bay as consumer or producer passes items (column F of "Table: traffic between domains"). -/
def passesItems (m : Mode) : Bool := modeIn m [.service, .holdover]

/-! ## The line side -/

/-- R56: an ingress edition takes its port's bytes. -/
def State.takesIngress (s : State) (p : Nat) : Bool :=
  match s.bind? p with
  | some w => match s.server w (w.oldHas (·.li)) true with
    | some m => passesItems (s.bayMode m.bay)
    | none => false
  | none => false

/-- Data symbols outside an item on a native trunk are discarded, a run of them counted once (R128). -/
def strayData (p : Nat) (s : State) : State :=
  let l := (s.port p).lane
  if l.itemOpen || l.discardRun then s else countIngress p (s.modLane p fun l => { l with discardRun := true })

def lineIngress (p : Nat) (data : List (Byte × Bool)) (s : State) : State :=
  if !modeIn (s.portMode p) [.service, .holdover, .closing] then s
  else if s.native p then strayData p s
  else if s.portMode p == .closing || !s.takesIngress p then countIngress p s
  else
    let e := (s.port p).egress
    let room := attachRoom - e.liBuf.length
    let s := s.modEgress p fun e => { e with liBuf := e.liBuf ++ data.take room }
    if room < data.length then countIngress p s else s

/-- LINE_ATTACH_INGRESS: the data symbols and edition symbols that the coding logic decodes, in order; an invalid symbol among them is
INVALID_SYMBOL's to deliver (R117). -/
def execLineAttachIngress (p : Port) (data : List (Byte × Bool)) (s : State) : Host.Outcome State Fault Refusal :=
  done (lineIngress p.val data s)

/-- Eight bytes as LI_DATA and LI_K give them. -/
def liWord (l : List (Byte × Bool)) : BitVec 64 × BitVec 8 :=
  (BitVec.ofNat 64 (ofLe (l.map (·.1))), BitVec.ofNat 8 (maskOf 8 fun i => ((l[i]?).map (·.2)).getD false))

/-- R106: a take is answered with eight bytes, if they are there and the edition is the one served. -/
def lineTake (p : Nat) (succ : Bool) (s : State) : State :=
  match s.bind? p with
  | none => s
  | some w =>
    if !s.emits (s.server w (w.old.isSome && !succ) true) then s
    else s.modEgress p fun e =>
      if servesPath w (·.li) succ && 8 ≤ e.liBuf.length then
        { e with liOut := some (liWord (e.liBuf.take 8)), liBuf := e.liBuf.drop 8 }
      else { e with liOut := none }

def execLineAttachTake (p : Port) (succ : Bool) (s : State) : Host.Outcome State Fault Refusal :=
  done (lineTake p.val succ s)

/-- R136: the rest of a packet is discarded up to its K29.7. -/
def dropPacket (e : EgressSt) (l : List (Byte × Bool)) : EgressSt × List (Byte × Bool) :=
  if !e.txDrop then (e, l)
  else match l.findIdx? (fun b => b == k297) with
    | some i => ({ e with txDrop := false }, l.drop (i + 1))
    | none => (e, [])

/-- R106: bytes for the egress buffer, discarded where it lacks room or another edition has the line. -/
def lineSend (p : Nat) (succ : Bool) (data : BitVec 64) (k : BitVec 8) (s : State) : State :=
  match s.bind? p with
  | none => s
  | some w =>
    if s.native p || !s.emits (s.server w (w.old.isSome && !succ) true) then s
    else
      let bytes := (List.range 8).map fun i => (BitVec.ofNat 8 (data.toNat / 256 ^ i), k.getLsbD i)
      let e := (s.port p).egress
      if !modeIn (s.portMode p) [.service, .holdover, .closing] || !servesPath w (·.lo) succ ||
          attachRoom < e.loBuf.length + 8 then countEgress p s
      else s.modEgress p fun e =>
        let r := dropPacket e bytes
        { r.1 with loBuf := e.loBuf ++ r.2 }

def execLineAttachSend (p : Port) (succ : Bool) (data : BitVec 64) (k : BitVec 8) (s : State) :
    Host.Outcome State Fault Refusal :=
  done (lineSend p.val succ data k s)

/-- A packet stands open on a foreign line after the bytes given. -/
def packetOpen (was : Bool) (l : List (Byte × Bool)) : Bool :=
  l.foldl (fun o b => if b == k277 then true else if b == k297 then false else o) was

/-- The line takes n bytes of the egress buffer. -/
def drainLine (n : Nat) (e : EgressSt) : EgressSt :=
  { e with loBuf := e.loBuf.drop n, txPacket := packetOpen e.txPacket (e.loBuf.take n) }

/-- The line takes what it has room for in the slot. -/
def lineFill (p : Nat) (s : State) : State :=
  let n := s.lineRoom p
  sendData p ((s.port p).egress.loBuf.take n) (s.modEgress p (drainLine n))

/-- R106, R136: the buffer runs empty within the slot. In foreign mode an open packet ends with K30.7, and its rest will be
discarded. -/
def egressUnderrun (p : Nat) (s : State) : State :=
  let t := s.port p
  if s.native p || !modeIn (s.portMode p) [.service, .holdover, .closing] || s.lineRoom p < t.egress.loBuf.length then s
  else
    let s := lineFill p (s.modLane p fun l => { l with underrun := sat 0xFFFF l.underrun 1 })
    if foreign t.cfg && (s.port p).egress.txPacket then
      sendData p [k307] (countEgress p (s.modEgress p fun e => { e with txPacket := false, txDrop := true }))
    else s

def execEgressUnderrun (p : Port) (s : State) : Host.Outcome State Fault Refusal := done (egressUnderrun p.val s)

/-! ## The item side -/

/-- Beats that stand in a port's lookup stage, and the beats it holds. -/
def EgressSt.stageBeats (e : EgressSt) : Nat := 4 * e.ixWords.length + e.ixBeats.length
def stageRoom : Nat := Config.lookupExtra + 16

/-- LO_SPACE and IX_READY for a port: room for 16 beats; IX_READY stays low to an edition that does not hold the stage (R105,
R110). -/
def State.loSpace (s : State) (p : Nat) : Bool := (s.port p).egress.loBuf.length + 128 ≤ attachRoom
def State.ixReady (s : State) (p : Nat) (succ : Bool) : Bool :=
  ((s.bind? p).elim false fun w => servesPath w (·.ix) succ) && (s.port p).egress.stageBeats + 16 ≤ stageRoom

/-- The part of an item that was passed to the lookup stage ends as poisoned: where its header stands, or where it went (R106). -/
def poisonPart (p : Nat) (s : State) : State :=
  let e := (s.port p).egress
  if e.ixPassed = 0 then s
  else if e.ixPassed ≤ e.ixWords.length then
    s.modEgress p fun e => { e with ixWords := e.ixWords.modify (e.ixWords.length - e.ixPassed) fun x => (x.1, true) }
  else poisonFrom p s

/-- A beat is lost: counted, and the item it belongs to ends as poisoned. -/
def loseBeat (p : Nat) (s : State) : State :=
  let s := countIngress p s
  if (s.port p).egress.ixLost then s else poisonPart p (s.modEgress p fun e => { e with ixLost := true, ixBeats := [] })

/-- The fourth beat of an item word has been offered: the word stands in the stage, or is given up with its item. -/
def wordOffered (e : EgressSt) : EgressSt :=
  let w : Line := BitVec.ofNat 256 (pack (e.ixBeats.map fun b => (64, b.toNat)))
  let e0 := { e with ixBeats := [], ixOffered := 0, ixLost := false }
  if 0 < e.ixSkip then { e0 with ixSkip := e.ixSkip - 1 }
  else if e.ixLost then { e0 with ixSkip := e.ixLeft - 1, ixLeft := 0, ixPassed := 0 }
  else if e.ixLeft = 0 then { e0 with ixWords := e.ixWords ++ [(w, false)], ixPassed := 1, ixLeft := hdrLen w - 1 }
  else { e0 with ixWords := e.ixWords ++ [(w, false)], ixPassed := e.ixPassed + 1, ixLeft := e.ixLeft - 1 }

/-- R106: one beat of an item word, of the edition that holds the lookup stage; a beat that the stage lacks room for is lost. -/
def itemBeat (p : Nat) (succ : Bool) (beat : BitVec 64) (s : State) : State :=
  match s.bind? p with
  | none => s
  | some w =>
    if s.native p || !s.emits (s.server w (w.old.isSome && !succ) false) then s
    else if !servesPath w (·.ix) succ then countIngress p s
    else
      let e := (s.port p).egress
      let s := if 0 < e.ixSkip then s
        else if e.ixLost || stageRoom ≤ e.stageBeats then loseBeat p s
        else s.modEgress p fun e => { e with ixBeats := e.ixBeats ++ [beat] }
      let s := s.modEgress p fun e =>
        if e.ixOffered + 1 < 4 then { e with ixOffered := e.ixOffered + 1 } else wordOffered e
      let t := (s.port p).egress
      if t.ixOffered = 0 && t.ixLeft = 0 then closeFrom p s else s

def execItemAttachBeat (p : Port) (succ : Bool) (beat : BitVec 64) (s : State) : Host.Outcome State Fault Refusal :=
  run (itemBeat p.val succ beat) s

/-- R106, R204: a take is answered by the beat at the head, if it is for this edition; else EX_VALID is low, and the take stands for
the grants of the next slot (log entry 80). -/
def egressTake (p : Nat) (succ : Bool) (s : State) : State :=
  match s.bind? p with
  | none => s
  | some w =>
    if s.native p || !s.emits (s.server w (w.old.isSome && !succ) false) then s
    else s.modEgress p fun e =>
      let new := succ && w.old.isSome
      let stands := { e with exTaken := none, exTakes := if new then e.exTakes else e.exTakes + 1,
                             exTakesNew := if new then e.exTakesNew + 1 else e.exTakesNew }
      match e.exOut with
      | (tag, b) :: rest => if tag == new then { e with exOut := rest, exTaken := some b } else stands
      | [] => stands

def execEgressTake (p : Port) (succ : Bool) (s : State) : Host.Outcome State Fault Refusal :=
  done (egressTake p.val succ s)

/-! ## Releases (R110, R111) -/

/-- The switch of a port is over: its binding is the successor's alone. -/
def endSwitch (p : Nat) (s : State) : State :=
  match s.bind? p with
  | some w => joinTakes p (endSwitches (leaveSwitches [p] { s with fab.binds := Sparse.ins s.fab.binds p { w with old := none } }))
  | none => s

/-- A release changes the old edition's side; when all three have been seen, the port has completed. -/
def release (p : Nat) (g : SwitchBind → SwitchBind) (s : State) : State :=
  match s.bind? p with
  | some w => match w.old with
    | some o =>
      let o := g o
      let s := { s with fab.binds := Sparse.ins s.fab.binds p { w with old := some o } }
      if o.li && o.lo && o.ix then endSwitch p s else s
    | none => s
  | none => s

/-- The edition that a release is of has rotas that run. -/
def State.releases (s : State) (p : Nat) (line : Bool) : Bool :=
  match s.bind? p with
  | some w => match s.server w true line with
    | some m => s.rotasRun m.bay && emitsItems (s.bayMode m.bay)
    | none => false
  | none => false

def execLiRelease (p : Port) (s : State) : Host.Outcome State Fault Refusal :=
  run (when (s.releases p.val true) (release p.val fun o => { o with li := true })) s

/-- The edition that a release at a port is of: the old one while a switch is under way. -/
def BindSt.releaser (w : BindSt) : Nat := (w.old.map (·.edition)).getD w.edition

/-- R442: each bay in Closing that holds the edition notes its release for the port. -/
def noteRelease (p : Nat) (line : Bool) (s : State) : State :=
  match s.bind? p with
  | none => s
  | some w =>
    let n := w.releaser
    { s with modes.closing := s.modes.closing.map fun c => match c.dom with
      | .bay b => if !s.editionIn n b.val then c else if line then { c with lo := (p, n) :: c.lo } else { c with ix := (p, n) :: c.ix }
      | _ => c }

/-- LO_RELEASE and IX_RELEASE are also what the drain of a bay in Closing waits for (R442). -/
def execLoRelease (p : Port) (s : State) : Host.Outcome State Fault Refusal :=
  run (when (s.releases p.val true) fun s => release p.val (fun o => { o with lo := true }) (noteRelease p.val true s)) s

def execIxRelease (p : Port) (s : State) : Host.Outcome State Fault Refusal :=
  run (when (s.releases p.val false) fun s => release p.val (fun o => { o with ix := true }) (noteRelease p.val false s)) s

/-- An ingress item left open at an item attach ends as poisoned (R106, R111, R442). -/
def poisonAttach (p : Nat) (s : State) : State :=
  let e := (s.port p).egress
  let s := if 0 < e.ixLeft then poisonPart p s else s
  s.modEgress p fun e => { e with ixBeats := [], ixOffered := 0, ixLost := false, ixPassed := 0, ixLeft := 0, ixSkip := 0 }

/-- A bay of the edition has left Service. -/
def State.leftService (s : State) (n : Nat) : Bool :=
  (((s.edition n).map (·.members)).getD []).any fun m => s.bayMode m.bay != .service

/-- R111: a switch that has not completed in 8 frames, or whose old edition's bay has left Service, is forced. -/
def forceSwitch (p : Nat) (s : State) : State :=
  match s.bind? p with
  | some w => match w.old with
    | some o =>
      if 8 ≤ o.frames || s.leftService o.edition then
        warn 0x0402 p [(16, p)] (endSwitch p (if o.ix then s else poisonAttach p s))
      else s
    | none => s
  | none => s

/-- At each frame boundary, the switches that are due are forced. -/
def forceSwitches (s : State) : State := (s.fab.binds.map (·.1)).foldl (fun s p => forceSwitch p s) s

def execEditionSwitchForced (p : Port) (s : State) : Host.Outcome State Fault Refusal := run (forceSwitch p.val) s

end Sys2Proof.Machine
end

