-- ==== Sys2Proof/Machine/Memory.lean ====
section
/-! DEFINITION. Accesses to the memory layer and the side store, the memory slips and retirement ("Memory layer and side
store"; R59, R67, R100, R102, R392). -/

namespace Sys2Proof.Machine
open Sys2Proof

/-! ## Single accesses -/

/-- Layer addresses end here (R217). -/
def layerSize : Nat := 0x12000000
def sideSize : Nat := 0x800000000

/-- What a read gives its requester: the bytes, or for a refused one the error form of R228, zeros to a bay's fabric. -/
def answer (a : Acc) (zeros : Nat) (l : List Byte) (s : State) : State :=
  { s.useFree with mem.lastError := !a.isOk, mem.lastData := if a.isOk then l else List.replicate zeros 0 }

/-- R227, R228: a check word is read. -/
def layerWordRead (req word : Nat) (f : Found) (s : State) : State :=
  let r := readWord req (8 * word) f s
  answer r.1 0 (r.2.layerRead (8 * word) 8) r.2

def execMemoryLayerRead (requester : Byte) (word : Nat) (found : Found) (s : State) : Host.Outcome State Fault Refusal :=
  if layerSize ≤ 8 * word then .fault .noSuchAddress
  else run (when s.awake (layerWordRead requester.toNat word found)) s

/-- R229. -/
def layerBytesWrite (req addr : Nat) (data : List Byte) (f : Found) (s : State) : State :=
  let r := writeWord req addr data f s
  { r.2 with mem.lastError := !r.1.isOk, mem.lastData := [] }

def execMemoryLayerWrite (requester : Byte) (addr : Nat) (data : List Byte) (found : Found) (s : State) :
    Host.Outcome State Fault Refusal :=
  if layerSize < addr + data.length then .fault .noSuchAddress
  else run (when s.awake (layerBytesWrite requester.toNat addr data found)) s

/-- R59: a bay's fabric issues side-store accesses only in these modes, and runs to do so. -/
def State.fabricIssues (s : State) (m : Nat) : Bool :=
  32 ≤ m || (modeIn (s.bayMode m) [.bringUp, .service, .holdover, .closing] && s.rotasRun m)

/-- What a master reads of a block: plaintext, or with a ciphertext-only view the stored bytes (R252). -/
def State.viewOf (s : State) (m block : Nat) : List Byte :=
  if s.cipherView m (block / 2 ^ 24) then s.cipherOf block else s.blockSeen (s.reqOf m) block

/-- R243: one block is read. -/
def blockRead (m block : Nat) (f : Found) (path : List NodeFound) (s : State) : State :=
  let r := readBlock m (s.reqOf m) block f path s
  answer r.1 (if m < 32 then 64 else 0) (r.2.viewOf m block) r.2

def execSideStoreRead (m : SideMaster) (block : BitVec 29) (found : Found) (path : List NodeFound) (s : State) :
    Host.Outcome State Fault Refusal :=
  run (when (s.awake && s.fabricIssues m.val) (blockRead m.val block.toNat found path)) s

/-- Step D of the start-up order has been taken (R271): until then a bay's fabric writes are dropped. -/
def State.fabricWrites (s : State) : Bool := s.stepDone 4

/-- R239. -/
def blockWrite (m addr : Nat) (data : List Byte) (f : Found) (path : List NodeFound) (s : State) : State :=
  if m < 32 && !s.fabricWrites then s
  else
    let r := writeBlock m (s.reqOf m) addr data f path s
    { r.2.useFree with mem.lastError := !r.1.isOk, mem.lastData := [] }

def execSideStoreWrite (m : SideMaster) (addr : BitVec 35) (data : List Byte) (found : Found) (path : List NodeFound)
    (s : State) : Host.Outcome State Fault Refusal :=
  run (when (s.awake && s.fabricIssues m.val) (blockWrite m.val addr.toNat data found path)) s

/-- R222: a refresh delays accesses and changes nothing they see. In self-refresh the side needs none (R303, R307). -/
def execSideRefresh (side : Fin 2) (s : State) : Host.Outcome State Fault Refusal :=
  done (when (s.pkg.rails && !s.clk.cold && !(s.clk.gatedSide0 && side.val == 0)) (fun s => { s with mem.refreshes := s.mem.refreshes.modify side.val (· + 1) }) s)

/-! ## A carrel at its bank quad (R67, R100, R102) -/

/-- The carrel holds the fabric cycle of a pool bank's calendar ("Table: bank share codes"). -/
def shareCycle (code cycle : Nat) : Bool :=
  if code = 0 then false else if code = 1 then cycle % 4 == 3 else if code = 2 then cycle % 2 == 1 else true

/-- BANK_ERR of bank k of a carrel in the fabric cycle of its accesses (R79). -/
def setBankErr (b c k : Nat) (v : Bool) (s : State) : State :=
  let now := 250 * s.frame.slot.toNat + s.frame.cycle
  s.modCarrel (ckey b c) fun t =>
    { t with bankErr := setBit (if t.bankErrAt = now then t.bankErr else 0) k v, bankErrAt := now }

/-- Accesses outside the calendar are dropped and counted; a read of them returns zeros, BANK_ERR low (R102). -/
def calViolation (b c k : Nat) (read write : Bool) (s : State) : State :=
  let s := s.modBay b fun t => { t with
    calPos := if read || write then c else t.calPos
    calBank := if read || write then k else t.calBank
    calCount := sat 0xFFFF t.calCount (bitOf read + bitOf write) }
  if read then setBankErr b c k false { s with mem.lastData := List.replicate 32 0, mem.lastError := false } else s

/-- The four check words of a line are read; one that is not clean is logged. -/
def lineFindings (req a : Nat) (found : List Found) (s : State) : State :=
  (List.range 4).foldl (fun s j => memFinding req (a + 8 * j) ((found[j]?).getD .clean) false s) s

/-- A carrel reads a line: BANK_ERR of the bank is high if it could not be delivered. -/
def carrelRead (b c k a phys : Nat) (found : List Found) (s : State) : State :=
  let dead := s.physRetired phys
  let bad := dead || ((found.take 4).any foundBad)
  let data := s.layerRead a 32
  let s := if dead then retiredHit b s else lineFindings b a found s
  setBankErr b c k bad { s.useFree with
    mem.lastData := if bad then List.replicate 32 0 else data
    mem.lastError := bad }

/-- A carrel writes a whole line; writes to a retired bank, and user-bank writes before step D, are dropped. -/
def carrelWrite (b phys a : Nat) (pool : Bool) (w : Line) (s : State) : State :=
  if s.physRetired phys then retiredHit b s
  else if !pool && !s.fabricWrites then s
  else layerWrite a (leBytes 32 w.toNat) s

/-- One bank in one fabric cycle: the read sees the line as it stood, then the write takes effect. -/
def carrelAccess (b c k cycle : Nat) (rd : Option (BitVec 11)) (wr : Option (BitVec 11 × Line)) (found : List Found)
    (s : State) : State :=
  let n := lbank b c k
  let t := s.bank n
  let phys := s.bankIndex b c k
  let s := { s with frame.cycle := cycle }
  if t.pool && s.bayMode b == .closing then s
  else if t.pool && !shareCycle t.share.toNat cycle then calViolation b c k rd.isSome wr.isSome s
  else
    let s := match rd with
      | some l => carrelRead b c k (n * 65536 + 32 * l.toNat) phys found s
      | none => s
    match wr with
    | some (l, w) => carrelWrite b phys (n * 65536 + 32 * l.toNat) t.pool w s
    | none => s

/-- The carrel runs a folio in the fabric cycle: a turn, and an idle or test entry, issue nothing (R75, R76). -/
def State.carrelRuns (s : State) (b c cycle : Nat) : Bool :=
  let t := s.carrel (ckey b c)
  s.rotasRun b && !t.idle && t.curFolio < 8 && (s.activeCycle (ckey b c) cycle).isSome

def execCarrelBankAccess (b : Bay) (c : Pos) (bank : Fin 4) (cycle : Fin 250) (rd : Option (BitVec 11))
    (wr : Option (BitVec 11 × Line)) (found : List Found) (s : State) : Host.Outcome State Fault Refusal :=
  run (when (s.carrelRuns b.val c.val cycle.val) (carrelAccess b.val c.val bank.val cycle.val rd wr found)) s

/-! ## Regions (R226) -/

/-- A slip acts as the host DMA channel of its ring, or as the desk: the master of R251 and the requester of R233. -/
def actsAs (ch : Nat) : Nat := if ch < 4 then 34 + ch else 33
def actsReq (ch : Nat) : Nat := if ch < 4 then 0x33 + ch else 0x31

/-- The pieces of a region, cut at the multiples of a unit: first address and length. -/
def pieces (unit a len : Nat) : List (Nat × Nat) :=
  if len = 0 then []
  else (List.range ((a + len - 1) / unit + 1 - a / unit)).map fun i =>
    let lo := max a ((a / unit + i) * unit)
    (lo, min (a + len) ((a / unit + i + 1) * unit) - lo)

/-- Unit of a store's check code: a check word or a block. -/
def storeUnit (store : Nat) : Nat := if store = 0 then 8 else 64
def storeEnd (store : Nat) : Nat := if store = 0 then layerSize else sideSize

/-- What the read of the unit that holds address a finds. -/
def foundAt (bad : List UnitFound) (unit a : Nat) : Found :=
  ((bad.find? fun x => x.1 / unit == a / unit).map (·.2)).getD .clean

/-- Logical banks that a region of the memory layer touches. -/
def banksTouched (a len : Nat) : List Nat :=
  ((List.range (min 4608 ((a + len - 1) / 65536 + 1) - a / 65536)).map (a / 65536 + ·))

/-- R59: user RAM is reached only while its bay is in Intake or Bindery. -/
def State.userReach (s : State) (store a len : Nat) : Bool :=
  store != 0 || (banksTouched a len).all fun n =>
    (s.bank n).pool || modeIn (s.bayMode (n / 144)) [.intake, .bindery]

/-- R226: of the pool, only the desk's working store and the banks with no user are reached. -/
def State.poolReach (s : State) (store a len : Nat) : Bool :=
  store != 0 || (banksTouched a len).all fun n =>
    let t := s.bank n
    !t.pool || t.user == 0x12 || t.user == 0x13

/-- The region lies within its store, and within one volume. -/
def regionIn (store a len : Nat) : Bool :=
  a + len ≤ storeEnd store && (store == 0 || a / 2 ^ 30 == (a + len - 1) / 2 ^ 30)

def Acc.status : Acc → BitVec 16
  | .ok => St.ok | .uncorrectable => St.uncorrectable | .retired => St.retired | .poison => St.ledgerPoison
  | .rights => St.rights | .busError => St.busError | .mode => St.modeConflict

/-- No unit failed (R392). -/
def noFail : Nat := 0xFFFFFFFFFFFFFFFF

/-- Where a walk over units stands: the first failure, the bytes read, the state. -/
structure Walk where
  acc : Acc
  at_ : Nat
  bytes : List Byte
  state : State

/-- The next piece, unless an earlier one failed. -/
def Walk.next (w : Walk) (a : Nat) (f : State → Acc × List Byte × State) : Walk :=
  if w.acc.isOk then
    let r := f w.state
    if r.1.isOk then { w with bytes := w.bytes ++ r.2.1, state := r.2.2 }
    else { w with acc := r.1, at_ := a, state := r.2.2 }
  else w

def Walk.answer (w : Walk) : Acc × List Byte × State := (w.acc, w.bytes, w.state)

def Walk.start (s : State) : Walk := { acc := .ok, at_ := noFail, bytes := [], state := s }

/-- Bytes of one unit are read. -/
def readPiece (store m req a n : Nat) (f : Found) (s : State) : Acc × List Byte × State :=
  if store = 0 then
    let r := readWord req a f s
    (r.1, r.2.layerRead a n, r.2)
  else
    let r := readBlock m req (a / 64) f [] s
    (r.1, slice (r.2.viewOf m (a / 64)) (a % 64) n, r.2)

/-- Bytes of one unit are written. -/
def writePiece (store m req a : Nat) (l : List Byte) (f : Found) (s : State) : Acc × List Byte × State :=
  let r := if store = 0 then writeWord req a l f s else writeBlock m req a l f [] s
  (r.1, [], r.2)

def readRegion (store m req a len : Nat) (bad : List UnitFound) (s : State) : Walk :=
  (pieces (storeUnit store) a len).foldl (fun w (b, n) =>
    w.next b (readPiece store m req b n (foundAt bad (storeUnit store) b))) (.start s)

def writeRegion (store m req a : Nat) (data : List Byte) (bad : List UnitFound) (s : State) : Walk :=
  (pieces (storeUnit store) a data.length).foldl (fun w (b, n) =>
    w.next b (writePiece store m req b (slice data (b - a) n) (foundAt bad (storeUnit store) b))) (.start s)

/-! ## READ and WRITE -/

def readBody (p : List Byte) (badUnits : List UnitFound) (id : SlipId) (s : State) : SlipOut := do
  let store := arg p 16 1
  let a := arg p 20 8
  let len := arg p 28 4
  need (s.userReach store a len) (fail St.modeConflict)
  fields [⟨16, 1, store < 2⟩, ⟨20, 8, a < storeEnd store⟩, ⟨28, 4, 1 ≤ len && len ≤ 4064 && regionIn store a len⟩] p
  need (s.poolReach store a len) (fail St.rights)
  let w := readRegion store (actsAs id.ch.val) (actsReq id.ch.val) a len badUnits s
  .ok { state := w.state.useFree, status := w.acc.status,
        result := leBytes 8 w.at_ ++ leBytes 4 w.bytes.length ++ leBytes 4 0 ++ w.bytes }

def execRead (h : SlipHdr) (p : List Byte) (badUnits : List UnitFound) (s : State) : Host.Outcome State Fault Refusal :=
  slip 0x0801 .ordinary h p (readBody p badUnits) s

def writeBody (p : List Byte) (badUnits : List UnitFound) (id : SlipId) (s : State) : SlipOut := do
  let store := arg p 16 1
  let a := arg p 20 8
  let len := arg p 28 4
  need (s.userReach store a len) (fail St.modeConflict)
  fieldsTo [⟨16, 1, store < 2⟩, ⟨20, 8, a < storeEnd store⟩, ⟨28, 4, 1 ≤ len && len ≤ 4032 && regionIn store a len⟩] 32 p
  counted p 28 len 1 4032 32 1
  zeroFrom (32 + len) p
  need (s.poolReach store a len) (fail St.rights)
  let w := writeRegion store (actsAs id.ch.val) (actsReq id.ch.val) a (slice p 16 len) badUnits s
  .ok { state := w.state.useFree, status := w.acc.status, result := leBytes 8 w.at_ }

def execWrite (h : SlipHdr) (p : List Byte) (badUnits : List UnitFound) (s : State) : Host.Outcome State Fault Refusal :=
  slip 0x0802 .ordinary h p (writeBody p badUnits) s

/-! ## FILL and COPY -/

/-- Unit of a FILL or COPY: a line, or a block. -/
def fillUnit (store : Nat) : Nat := if store = 0 then 32 else 64

/-- The rights the acting master must hold before the work begins. -/
def State.sideMay (s : State) (m store a : Nat) (write : Bool) : Bool :=
  store == 0 || (let v := a / 2 ^ 30
    if write then s.mayWrite m v && !loaderArea a else s.mayRead m v)

/-- A slip refused for its rights counts the access (R251). -/
def denied (m a : Nat) : SlipErr := { status := St.rights, discard := deny m (a / 2 ^ 30) }

def fillBody (p : List Byte) (id : SlipId) (s : State) : SlipOut := do
  let store := arg p 16 1
  let a := arg p 20 8
  let len := arg p 28 8
  let m := actsAs id.ch.val
  need (s.userReach store a (min len 0x40000000)) (fail St.modeConflict)
  fields [⟨16, 1, store < 2⟩, ⟨20, 8, a < storeEnd store && a % fillUnit store == 0⟩,
    ⟨28, 8, 1 ≤ len && len ≤ 0x40000000 && len % fillUnit store == 0 && regionIn store a len⟩, ⟨36, 8, true⟩] p
  need (s.poolReach store a len) (fail St.rights)
  need (s.sideMay m store a true && s.sideMay m store (a + len - 1) true) (denied m a)
  let w : MemWork := { id := id, copy := false, srcStore := store, dstStore := store, src := a, dst := a, len := len,
                       pattern := BitVec.ofNat 64 (arg p 36 8), moved := 0x400000 }
  accept { s with mem.work := s.mem.work ++ [w] }

def execFill (h : SlipHdr) (p : List Byte) (s : State) : Host.Outcome State Fault Refusal :=
  slip 0x0803 .ordinary h p (fillBody p) s

def copyUnit (src dst : Nat) : Nat := if src = 0 && dst = 0 then 32 else 64

def overlaps (a b len : Nat) : Bool := a < b + len && b < a + len

def copyBody (p : List Byte) (id : SlipId) (s : State) : SlipOut := do
  let ss := arg p 16 1
  let ds := arg p 17 1
  let src := arg p 20 8
  let dst := arg p 28 8
  let len := arg p 36 8
  let m := actsAs id.ch.val
  need (s.userReach ss src (min len 0x40000000) && s.userReach ds dst (min len 0x40000000)) (fail St.modeConflict)
  fields [⟨16, 1, ss < 2⟩, ⟨17, 1, ds < 2⟩, ⟨20, 8, src < storeEnd ss && src % fillUnit ss == 0⟩,
    ⟨28, 8, dst < storeEnd ds && dst % fillUnit ds == 0⟩,
    ⟨36, 8, 1 ≤ len && len ≤ 0x40000000 && len % copyUnit ss ds == 0 && regionIn ss src len && regionIn ds dst len &&
      !(ss == ds && overlaps src dst len)⟩] p
  need (s.poolReach ss src len && s.poolReach ds dst len) (fail St.rights)
  need (s.sideMay m ss src false) (denied m src)
  need (s.sideMay m ds dst true && s.sideMay m ds (dst + len - 1) true) (denied m dst)
  let w : MemWork := { id := id, copy := true, srcStore := ss, dstStore := ds, src := src, dst := dst, len := len,
                       pattern := 0, moved := 0x400000 }
  accept { s with mem.work := s.mem.work ++ [w] }

def execCopy (h : SlipHdr) (p : List Byte) (s : State) : Host.Outcome State Fault Refusal :=
  slip 0x0804 .ordinary h p (copyBody p) s

/-- f, but for a unit of user RAM whose bay has left Intake and Bindery meanwhile (R59; log entry 81). -/
def reaching (store a n : Nat) (f : State → Acc × List Byte × State) (s : State) : Acc × List Byte × State :=
  if s.userReach store a n then f s else (.mode, [], s)

/-- A unit is written whole: word by word in the layer, so that every check word is repaired. -/
def writeUnit (store m req a : Nat) (l : List Byte) (s : State) : Acc × List Byte × State :=
  if store = 0 then
    let w := writeRegion 0 m req a l [] s
    (w.acc, [], w.state)
  else writePiece 1 m req a l .clean s

def fillBytes (n : Nat) (pattern : BitVec 64) : List Byte := (List.range (n / 8)).flatMap fun _ => leBytes 8 pattern.toNat

/-- A FILL's units from first to last, stopping at a retired one. -/
def fillRegion (w : MemWork) (s : State) : Walk :=
  let m := actsAs w.id.ch.val
  let req := actsReq w.id.ch.val
  (pieces (fillUnit w.dstStore) w.dst w.len).foldl (fun t (a, n) =>
    t.next a (reaching w.dstStore a n (writeUnit w.dstStore m req a (fillBytes n w.pattern)))) (.start s)

/-- A COPY's units: one whose source cannot be delivered, or whose place is retired, stops it. -/
def copyRegion (w : MemWork) (badUnits : List UnitFound) (s : State) : Walk :=
  let m := actsAs w.id.ch.val
  let req := actsReq w.id.ch.val
  (pieces (copyUnit w.srcStore w.dstStore) w.src w.len).foldl (fun t (a, n) =>
    if t.acc.isOk then
      let r := reaching w.srcStore a n (fun s => (readRegion w.srcStore m req a n badUnits s).answer) t.state
      let d := a - w.src + w.dst
      if r.1.isOk then { t with state := r.2.2 }.next d (reaching w.dstStore d n (writeUnit w.dstStore m req d r.2.1))
      else { t with acc := r.1, at_ := a, state := r.2.2 }
    else t) (.start s)

/-- A frame more in which a FILL, a COPY or a STREAM_STAGE moves its 4 MiB (R226, R279). -/
def workFrame (s : State) : State :=
  { s with
    mem.work := s.mem.work.map fun w => { w with moved := min w.len (w.moved + 0x400000) }
    cfg.work := s.cfg.work.map fun w => match w with
      | .stage i x h q o n m => .stage i x h q o n (m + 0x400000)
      | w => w }

/-- The first work of a kind that its frames let end does so: its completion gives the status and the failing address. -/
def memoryDone (copy : Bool) (badUnits : List UnitFound) (s : State) : State :=
  match s.mem.work.find? (fun w => w.copy == copy && w.len ≤ w.moved) with
  | none => s
  | some w =>
    let s := { s with mem.work := s.mem.work.erase w }
    let r := if copy then copyRegion w badUnits s else fillRegion w s
    complete w.id r.acc.status 0 (leBytes 8 r.at_) r.state.useFree

def execMemoryFillDone (badUnits : List UnitFound) (s : State) : Host.Outcome State Fault Refusal :=
  run (when s.awake (memoryDone false badUnits)) s

def execMemoryCopyDone (badUnits : List UnitFound) (s : State) : Host.Outcome State Fault Refusal :=
  run (when s.awake (memoryDone true badUnits)) s

/-! ## The repair record's additions (R232, R336) -/

/-- An entry joins the record that the device is to write; one that stands in it already is not written twice. -/
def persist (e : List Byte) (s : State) : State :=
  let cur := s.stock.recordWrite.getD s.stock.record
  if cur.contains e then s else { s with stock.recordWrite := some (cur ++ [e]) }

/-- The record's entries are 16 bytes. -/
def recordEntry (l : List Byte) : List Byte := slice l 0 16

/-! ## Retirement (R231, R232, R392) -/

def RetireEntry.record (r : RetireEntry) : List Byte :=
  if r.bank then recordEntry (0x15 :: leBytes 2 r.index) else recordEntry (0x14 :: leBytes 3 r.index)

def retireBody (p : List Byte) (s : State) : SlipOut := do
  let kind := arg p 16 1
  let n := arg p 20 4
  fields [⟨16, 1, kind < 2⟩, ⟨17, 1, arg p 17 1 < 2⟩, ⟨20, 4, if kind = 0 then n < 2 ^ 23 else n < 4608⟩] p
  let b := n / 144
  let index := if kind = 0 then n else s.bankIndex b (n / 4 % 36) (n % 4)
  let held := s.mem.retired.any fun r => r.bank == (kind == 1) && r.index == index
  need (held || s.mem.retired.length < 1024) (fail St.retireFull)
  let t := Sparse.get .dflt (s.banksAhead []) n
  need (held || kind == 0 || !t.pool || t.user == 0x13) (fail St.bankInUse)
  let e : RetireEntry := { bank := kind == 1, index := index, inForce := kind == 0 || s.bayMode b == .bindery }
  let s := if held then s else { (if kind = 0 then loseArea n s else s) with mem.retired := s.mem.retired ++ [e] }
  let s := if arg p 17 1 = 1 then persist e.record s else s
  okResult s (leBytes 2 s.mem.retired.length)

def execRetire (h : SlipHdr) (p : List Byte) (s : State) : Host.Outcome State Fault Refusal :=
  slip 0x0805 .ordinary h p (fun _ s => retireBody p s) s

def retireClearBody (p : List Byte) (s : State) : SlipOut := do
  let kind := arg p 16 1
  let n := arg p 20 4
  houseIn s [.bindery]
  fields [⟨16, 1, kind < 3⟩, ⟨20, 4, if kind = 0 then n < 2 ^ 23 else if kind = 1 then n < 4864 else n = 0⟩] p
  let keep := s.mem.retired.filter fun r => !(kind == 2 || (r.bank == (kind == 1) && r.index == n))
  okResult { s with mem.retired := keep } (leBytes 2 (s.mem.retired.length - keep.length))

def execRetireClear (h : SlipHdr) (p : List Byte) (s : State) : Host.Outcome State Fault Refusal :=
  slip 0x0806 .fencing h p (fun _ s => retireClearBody p s) s

def RetireEntry.word (r : RetireEntry) : Nat := pack [(23, r.index), (8, 0), (1, bitOf r.bank)]

def retireQueryBody (p : List Byte) (s : State) : SlipOut := do
  let first := arg p 16 2
  fields [⟨16, 2, first < 1024⟩] p
  let l := (s.mem.retired.drop first).take 1000
  okResult s (leBytes 2 s.mem.retired.length ++ leBytes 2 l.length ++ leBytes 12 0 ++ l.flatMap fun r => leBytes 4 r.word)

def execRetireQuery (h : SlipHdr) (p : List Byte) (s : State) : Host.Outcome State Fault Refusal :=
  slip 0x0807 .passable h p (fun _ s => retireQueryBody p s) s

/-- A bank's retirement comes into force at its bay's entry to Bindery. -/
def retireBanks (b : Nat) (s : State) : State :=
  { s with mem.retired := s.mem.retired.map fun r => if r.bank && r.index / 152 = b then { r with inForce := true } else r }

end Sys2Proof.Machine
end

