-- ==== Sys2Proof/Machine/Crypto.lean ====
section
/-! DEFINITION. Rights, keys, re-keying and the SIDE crypto registers ("Inline encryption of the side store"; R393). -/

namespace Sys2Proof.Machine
open Sys2Proof

/-! ## Registers -/

def State.volState (s : State) (v : Nat) : Nat :=
  let t := s.vol v
  pack [(19, t.watermark), (9, 0), (1, bitOf t.twoLive), (1, bitOf t.newSlot), (2, t.state)]

def State.volGen (s : State) (v : Nat) : Nat :=
  let t := s.vol v
  pack [(24, t.generation), (8, t.rekeys)]

def State.rekeyPending (s : State) : Nat := maskOf 32 fun v => (s.vol v).state != 0

def State.cryptoStatus (s : State) : Nat :=
  let c := s.crypto
  pack [(16, c.overflows), (4, 0), (1, bitOf ((List.range 32).any fun v => (s.vol v).state == 2)), (9, 0),
    (1, bitOf c.rngFail), (1, bitOf c.rngOk)]

def State.fuseStatus (s : State) : Nat := pack [(1, 0), (1, bitOf s.pkg.streamKey.isSome), (2, s.pkg.debugFuse.toNat)]

/-! ## RIGHTS_SET, RIGHTS_QUERY (R253) -/

/-- The rights of a master with one access and view on the volumes of a mask. -/
def grantRights (acc : Nat) (view : Bool) (mask : Nat) (r : RightsSt) : RightsSt :=
  let two := fun (old first : Nat) => pack ((List.range 16).map fun k =>
    (2, if mask.testBit (first + k) then acc else field old (2 * k + 1) (2 * k)))
  { accLo := w32 (two r.accLo.toNat 0)
    accHi := w32 (two r.accHi.toNat 16)
    view := w32 (maskOf 32 fun v => if mask.testBit v then view else r.view.getLsbD v) }

def setRights (m acc : Nat) (view : Bool) (mask : Nat) (s : State) : State :=
  { s with crypto.rights := Sparse.put .dflt s.crypto.rights m (grantRights acc view mask (s.rights m)) }

/-- Volumes that a valid delay line touches (R196, R253). -/
def State.delayVolumes (s : State) : List Nat :=
  s.flows.flatMap fun (_, f) => if f.valid && f.delayEn then volumesOf f.dlBase f.dlPages else []

/-- What the debug fuse allows the reading-room port (R253). -/
def fuseAllows (fuse : BitVec 2) (acc : Nat) (view : Bool) : Bool :=
  acc == 0 || fuse == 2 || (fuse == 1 && acc == 1 && view)

def rightsSetBody (p : List Byte) (s : State) : SlipOut := do
  houseOpen s
  let m := arg p 16 1
  let acc := arg p 17 1
  let view := arg p 18 1 == 1
  let mask := arg p 20 4
  fields [⟨16, 1, m < 39⟩, ⟨17, 1, acc < 4⟩, ⟨18, 1, arg p 18 1 < 2 && !(view && 2 ≤ acc)⟩, ⟨20, 4, mask != 0⟩] p
  need (!(s.clk.gatedSide0 && m != 33 && acc != 0 && mask % 65536 != 0)) (fail St.modeConflict)
  need (!(m == 32 && (acc != 3 || view) && s.delayVolumes.any fun v => mask.testBit v)) (fail St.rightsInUse)
  need (m != 38 || fuseAllows s.pkg.debugFuse acc view) (fail St.fuseDenied)
  okSlip (setRights m acc view mask s)

def execRightsSet (h : SlipHdr) (p : List Byte) (s : State) : Host.Outcome State Fault Refusal :=
  slip 0x0901 .ordinary h p (fun _ s => rightsSetBody p s) s

def rightsQueryBody (p : List Byte) (s : State) : SlipOut := do
  houseOpen s
  let m := arg p 16 1
  let n := arg p 17 1
  fields [⟨16, 1, m < 39⟩, ⟨17, 1, 1 ≤ n && n ≤ 39 && m + n ≤ 39⟩] p
  okResult s ((List.range n).flatMap fun i =>
    let r := s.rights (m + i)
    leBytes 4 r.accLo.toNat ++ leBytes 4 r.accHi.toNat ++ leBytes 4 r.view.toNat)

def execRightsQuery (h : SlipHdr) (p : List Byte) (s : State) : Host.Outcome State Fault Refusal :=
  slip 0x0902 .passable h p (fun _ s => rightsQueryBody p s) s

/-! ## Re-keying (R244, R245) -/

/-- A pending or sweeping volume is not triggered again; the slip completes with that re-keying. -/
def rekeyBody (p : List Byte) (id : SlipId) (s : State) : SlipOut := do
  houseOpen s
  let v := arg p 16 1
  fields [⟨16, 1, v < 32⟩] p
  accept ((triggerRekey v s).modVol v fun t => { t with slips := t.slips ++ [id] })

def execRekey (h : SlipHdr) (p : List Byte) (s : State) : Host.Outcome State Fault Refusal :=
  slip 0x0903 .ordinary h p (rekeyBody p) s

def rekeyQueryBody (p : List Byte) (s : State) : SlipOut := do
  houseOpen s
  fields [] p
  okResult s (leBytes 4 s.rekeyPending ++ leBytes 4 s.cryptoStatus ++ leBytes 8 0 ++
    (List.range 32).flatMap fun v => leBytes 4 (s.volState v) ++ leBytes 4 (s.volGen v))

def execRekeyQuery (h : SlipHdr) (p : List Byte) (s : State) : Host.Outcome State Fault Refusal :=
  slip 0x0904 .passable h p (fun _ s => rekeyQueryBody p s) s

/-- Pages swept in a frame: the budget of R46 less what spare frames defer. -/
def sweepPages : Nat := 1525

/-- One page passes to the new slot, unless it is there already, retired, or being rebuilt (R245). -/
def sweepPage (v page : Nat) (s : State) : State :=
  let k := nodeOver 0 page
  let n := s.ledger k
  let t := s.vol v
  let rebuilding := n.rebuilding || ((s.ledger (nodeOver 1 page)).rebuilding &&
    n.generation != (s.ledger (nodeOver 1 page)).generation)
  if n.epoch == t.newSlot || s.pageRetired page || rebuilding then s
  else s.modLedger k fun _ => { LedgerNode.dflt with epoch := t.newSlot }

/-- A node of level 1 to 3 whose last page the sweep has passed is written again under the new slot. -/
def sweepAbove (v page : Nat) (s : State) : State :=
  [1, 2, 3].foldl (fun s l =>
    if (page + 1) % 64 ^ l = 0 then
      let k := nodeOver l page
      let s := if l = 3 then s.modVol v fun t => { t with rootEpoch := t.newSlot } else s
      s.modLedger k fun n => { n with epoch := (s.vol v).newSlot }
    else s) s

/-- The volume is swept: the old key is erased, and the slips that wait complete. -/
def endRekey (v : Nat) (s : State) : State :=
  let ids := (s.vol v).slips
  let s := { s with crypto.rekeyOrder := s.crypto.rekeyOrder.filter (· != v) }
  let s := s.modVol v fun t => { t with
    state := 0, twoLive := false, watermark := 0, rekeys := sat 255 t.rekeys 1, slips := []
    key0 := if t.newSlot then none else t.key0
    key1 := if t.newSlot then t.key1 else none }
  completeAll ids St.ok (info 0x0907 v [] s)

/-- One frame of the sweep of volume v. -/
def sweepFrame (v : Nat) (s : State) : State :=
  let w := (s.vol v).watermark
  let n := min sweepPages (2 ^ 18 - w)
  let s := (List.range n).foldl (fun s i =>
    let page := v * 2 ^ 18 + w + i
    sweepAbove v page (sweepPage v page s)) s
  if w + n = 2 ^ 18 then endRekey v s
  else s.modVol v fun t => { t with state := 2, watermark := w + n }

/-- A volume has its new key: the writes that waited for it are made, in their order (R246). -/
def releaseHeld (v : Nat) (s : State) : State :=
  let mine := fun (x : Nat × Nat × List Byte) => x.2.1 / 2 ^ 30 == v
  (s.crypto.held.filter mine).foldl (fun s x => storeBlock x.1 (x.2.1 / 64) x.2.1 x.2.2 s)
    { s with crypto.held := s.crypto.held.filter fun x => !mine x }

/-- One retry for a key; whether a random source that failed passes its tests again is open (R246, R253, R254). -/
def retryKey (v : Nat) (s : State) : State :=
  if (s.vol v).twoLive then s
  else
    let s := if s.crypto.rngOk then s
      else { s with crypto.rngOk := (Config.freeValue s.frame.freeCount).getLsbD 0 }.useFree
    let s := newKey v s
    if (s.vol v).twoLive then releaseHeld v s else s

/-- The engine's frame: keys still wanted are tried again, and the first volume triggered is swept (R245, R246). -/
def rekeyFrame (s : State) : State :=
  let s := s.crypto.rekeyOrder.foldl (fun s v => retryKey v s) s
  match s.crypto.rekeyOrder.head? with
  | some v => if (s.vol v).twoLive then sweepFrame v s else s
  | none => s

/-! ## LEDGER_READ, KEY_FUSE_SET, RNG_FAIL -/

def ledgerReadBody (p : List Byte) (id : SlipId) (s : State) : SlipOut := do
  houseOpen s
  let page := arg p 20 4
  let m := actsAs id.ch.val
  let v := page / 2 ^ 18
  fields [⟨20, 4, page < 2 ^ 23⟩] p
  need (s.mayRead m v && !s.sideGated v) { status := St.rights, discard := if s.sideGated v then id_ else deny m v }
  if s.pageRetired page then .ok { state := retiredHit (actsReq id.ch.val) s, status := St.retired }
  else
  let s := walkPage page [] s
  okResult s (nodeBytes (s.ledger (nodeOver 0 page)) ++
    (List.range 64).flatMap fun i => leBytes 8 (s.macOf (64 * page + i)).toNat)
where id_ : State → State := fun s => s

def execLedgerRead (h : SlipHdr) (p : List Byte) (s : State) : Host.Outcome State Fault Refusal :=
  slip 0x0905 .passable h p (ledgerReadBody p) s

def keyFuseBody (p : List Byte) (s : State) : SlipOut := do
  houseIn s [.intake, .bindery]
  let target := arg p 16 1
  let code := arg p 17 1
  let key := arg p 32 32
  fields [⟨16, 1, target < 2⟩,
    ⟨17, 1, if target = 1 then 1 ≤ code && code ≤ 2 && s.pkg.debugFuse.toNat ≤ code else code = 0⟩,
    ⟨32, 32, if target = 0 then key != 0 else key = 0⟩] p
  if target = 1 then okSlip { s with pkg.debugFuse := BitVec.ofNat 2 code }
  else do
    need s.pkg.streamKey.isNone (fail St.writeOnce)
    okSlip { s with pkg.streamKey := some (BitVec.ofNat 256 key) }

def execKeyFuseSet (h : SlipHdr) (p : List Byte) (s : State) : Host.Outcome State Fault Refusal :=
  slip 0x0906 .fencing h p (fun _ s => keyFuseBody p s) s

/-- R254. -/
def rngFail (s : State) : State := alarm 0x0904 0 [] { s with crypto.rngOk := false, crypto.rngFail := true }

def execRngFail (s : State) : Host.Outcome State Fault Refusal := run (when (s.up && s.crypto.rngOk) rngFail) s

/-! ## What a start makes (R238, R254) -/

/-- Every volume receives a fresh key, and the ledger area is written: each node stands at its first form, which the empty
tables are. -/
def startVolumes (s : State) : State :=
  (List.range 32).foldl (fun s v =>
    let n := s.crypto.keyCount
    { s.modVol v (fun _ => { VolSt.dflt with key0 := some n }) with crypto.keyCount := n + 1 }) s

end Sys2Proof.Machine
end

