-- ==== Sys2Proof/Machine/BookOps.lean ====
section
/-! DEFINITION. The day book's entries and ring: layout, writing, loss, shedding, reset, and the tail kept in flash ("Events,
the day book and recovery order", R405 to R410, R414). -/

namespace Sys2Proof.Machine
open Sys2Proof

/-! ## Entries (R406, R409) -/

def Entry.ofBytes (l : List Byte) : Entry :=
  let f := leAt l 2 1
  { code := BitVec.ofNat 16 (leAt l 0 2), cls := BitVec.ofNat 3 f, lacuna := f.testBit 3, persisted := f.testBit 5,
    subject := leAt l 4 4, firstFrame := w32 (leAt l 8 4), lastFrame := w32 (leAt l 12 4), count := leAt l 16 2,
    firstSlot := BitVec.ofNat 8 (leAt l 18 1), lastSlot := BitVec.ofNat 8 (leAt l 19 1),
    detail := BitVec.ofNat 96 (leAt l 20 12) }

/-- The entry of one occurrence. -/
def Entry.ofEvent (e : Event) : Entry :=
  { code := e.code, cls := BitVec.ofNat 3 e.cls.code, lacuna := false, persisted := false, subject := e.subject,
    firstFrame := e.frame, lastFrame := e.frame, count := 1, firstSlot := e.slot, lastSlot := e.slot, detail := e.detail }

/-- What a lacuna entry's detail counts: all, non-maskable and alarms, warnings, the rest; and the cause. -/
structure BookLoss where
  lost : Nat
  grave : Nat
  warned : Nat
  minor : Nat
  cause : Nat

def BookLoss.detail (l : BookLoss) : BitVec 96 :=
  BitVec.ofNat 96 (pack [(32, min 0xFFFFFFFF l.lost), (16, min 0xFFFF l.grave), (16, min 0xFFFF l.warned),
    (16, min 0xFFFF l.minor), (8, l.cause)])

def Entry.loss (e : Entry) : BookLoss :=
  let d := e.detail.toNat
  { lost := field d 31 0, grave := field d 47 32, warned := field d 63 48, minor := field d 79 64, cause := field d 87 80 }

def lacunaEntry (l : BookLoss) (first last : Word) (s0 s1 : Byte) : Entry :=
  { code := 0, cls := 2, lacuna := true, persisted := false, subject := 0, firstFrame := first, lastFrame := last,
    count := min 0xFFFF l.lost, firstSlot := s0, lastSlot := s1, detail := l.detail }

/-- One lost entry, as a lacuna entry of its own. -/
def lossOf1 (e : Entry) (cause : Nat) : Entry :=
  let c := e.cls.toNat
  lacunaEntry { lost := 1, grave := bitOf (decide (3 ≤ c)), warned := bitOf (c == 2), minor := bitOf (decide (c < 2)), cause := cause }
    e.firstFrame e.lastFrame e.firstSlot e.lastSlot

/-- A lacuna entry takes in a later loss. -/
def Entry.joinLoss (a b : Entry) : Entry :=
  let x := a.loss
  let y := b.loss
  lacunaEntry { lost := x.lost + y.lost, grave := x.grave + y.grave, warned := x.warned + y.warned,
                minor := x.minor + y.minor, cause := x.cause ||| y.cause }
    a.firstFrame b.lastFrame a.firstSlot b.lastSlot

/-- What an entry whose word is uncorrectable is delivered as (R410). -/
def badEntry : Entry :=
  lacunaEntry { lost := 1, grave := 0, warned := 0, minor := 0, cause := 2 } 0xFFFFFFFF 0xFFFFFFFF 0xFF 0xFF

/-! ## The ring -/

/-- Entries in the day book. -/
def State.bookFill (s : State) : Nat := s.log.ring.length

def countLost (n : Nat) (s : State) : State := { s with log.lost := sat 0xFFFF s.log.lost n }

/-- Write an entry at the tail; ours marks a lacuna entry that the logger may update there. -/
def pushEntry (e : Entry) (ours : Bool) (s : State) : State :=
  { s with
    log.ring := s.log.ring ++ [e]
    log.wptr := s.log.wptr + 1
    log.wptrSh := s.log.wptr + 1
    log.tailLacuna := ours
    log.lacunas := if e.lacuna then sat 0xFFFF s.log.lacunas 1 else s.log.lacunas }

/-- Remove the head. -/
def dropEntry (s : State) : State :=
  { s with
    log.ring := s.log.ring.tail
    log.rptr := s.log.rptr + 1
    log.rptrSh := s.log.rptr + 1
    log.tailLacuna := s.log.tailLacuna && !s.log.ring.tail.isEmpty }

/-- Replace the tail entry. -/
def setTail (e : Entry) (s : State) : State := { s with log.ring := s.log.ring.dropLast ++ [e] }

/-- R409: a loss updates the logger's lacuna entry at the tail, or takes the reserve entry. -/
def markBookLoss (l : Entry) (s : State) : State :=
  match s.log.tailLacuna, s.log.ring.getLast? with
  | true, some e => setTail (e.joinLoss l) s
  | _, _ => pushEntry l true s

/-- R408: a new entry of the lower classes is shed above 75 %. -/
def State.sheds (s : State) (e : Entry) : Bool := decide (12288 < s.bookFill) && decide (e.cls.toNat < 2)

def shed (e : Entry) (s : State) : State :=
  if e.cls = 0 then { s with log.shedTrace := sat 0xFFFF s.log.shedTrace 1 }
  else { s with log.shedInfo := sat 0xFFFF s.log.shedInfo 1 }

/-- R408, R409: a new entry is shed, written, or lost with its mark. -/
def writeNew (e : Entry) (s : State) : State :=
  if s.sheds e then shed e s
  else if s.bookFill < bookDepth then pushEntry e e.lacuna s
  else markBookLoss (if e.lacuna then e else lossOf1 e 1) (if e.lacuna then s else countLost 1 s)

/-- R410: a pointer mismatch resets the ring: a lacuna entry of unknown counts at position 0, then DAYBOOK_RESET. How many
entries were lost is not known, so LOG_LOST takes a free number. -/
def resetBook (s : State) : State :=
  let n := (Config.freeValue s.frame.freeCount).toNat % 0x10000
  let l := lacunaEntry { lost := 0xFFFFFFFF, grave := 0xFFFF, warned := 0xFFFF, minor := 0xFFFF, cause := 4 }
    s.frame.number s.frame.number s.frame.slot s.frame.slot
  let s := { s.useFree with log.ring := [], log.wptr := 0, log.wptrSh := 0, log.rptr := 0, log.rptrSh := 0 }
  alarm 0x0B03 0 [] (countLost n (pushEntry l true s))

/-- The use reads both copies of the pointers, and they differ (R169, R405). -/
def pointersDiffer : Upset → Bool
  | .writePtr f => f.toNat % 32768 != 0
  | .readPtr f => f.toNat % 32768 != 0
  | .none => false
  | .parity => false

/-! ## The tail in flash (R414) -/

def tailBase : Nat := 0x61000000
def tailMax : Nat := 4096
def deskId : Nat := 0xD191440B

/-- The n newest entries that remain; those left out are counted by a lacuna entry that stands first. -/
def tailEntries (l : List Entry) : List Entry :=
  if l.length ≤ tailMax then l
  else
    let out := l.take (l.length - (tailMax - 1))
    let loss := out.map fun e => if e.lacuna then e else lossOf1 e 1
    let first := loss.headD badEntry
    let m := loss.tail.foldl Entry.joinLoss first
    let d := m.loss
    lacunaEntry { d with cause := 1 } m.firstFrame m.lastFrame m.firstSlot m.lastSlot :: l.drop (l.length - (tailMax - 1))

/-- A house Closing completes: the tail region is erased, and the header and the entries are written. -/
def writeTail (s : State) : State :=
  let es := tailEntries s.log.ring
  let body := es.flatMap fun e => e.bytes false
  let head := leBytes 4 0xDA7B0010 ++ leBytes 4 s.regs.shelfId.toNat ++ leBytes 4 es.length ++
    leBytes 4 s.frame.number.toNat ++ leBytes 4 (crc32 body) ++ leBytes 4 deskId ++ leBytes 40 0
  { s with cfg.flash := flashPut (cellsDrop s.cfg.flash tailBase 0x1000000) tailBase (head ++ body) }

/-- The next start loads a good tail as the oldest entries, marked persisted, and erases the header's sector; a header with
the magic and no good CRC is discarded. -/
def loadTail (s : State) : State :=
  let h := flashBytes s.cfg.flash tailBase 64
  let n := leAt h 8 4
  if leAt h 0 4 != 0xDA7B0010 then s
  else
    let body := flashBytes s.cfg.flash (tailBase + 64) (32 * min n tailMax)
    if tailMax < n || crc32 body != leAt h 16 4 then warn 0x0B09 0 [] s
    else
      let es := (List.range n).map fun i => { Entry.ofBytes (slice body (32 * i) 32) with persisted := true }
      { s with
        log.ring := es ++ s.log.ring
        log.wptr := s.log.wptr + BitVec.ofNat 15 n
        log.wptrSh := s.log.wptr + BitVec.ofNat 15 n
        cfg.flash := cellsDrop s.cfg.flash tailBase 0x10000 }

end Sys2Proof.Machine
end

