-- ==== Sys2Proof/Machine/PowerReset.lean ====
section
/-! DEFINITION. Supplies, PORST_N and leaving reset ("Supplies and their order", R291, R293, R422 to R428). -/

namespace Sys2Proof.Machine
open Sys2Proof

/-- What a reset leaves of the clock monitor, which runs from VSTBY (R291, R428). -/
def ClkSt.monitorOf (c : ClkSt) : ClkSt :=
  { ClkSt.reset with
    goodRun := c.goodRun, count := c.count, stopped := c.stopped, qualA := c.qualA, qualB := c.qualB,
    qualF := c.qualF, qualS := c.qualS, onIoscS := c.onIoscS }

/-- A flash write cut off by a reset is left partial (R278); how far it came is open. -/
def partialWrite (n : Nat) (flash : List Host.Cell) (w : CfgWork) : List Host.Cell :=
  match w with
  | .flashWrite _ addr data =>
    let k := (Config.freeValue n).toNat % (data.length + 1)
    ((data.take k).foldl (fun (m : List Host.Cell × Nat) b => (Sparse.ins m.1 m.2 b, m.2 + 1)) (flash, addr)).1
  | _ => flash

/-- R428: everything resets but fuses, flash, the test access port, and what the caller keeps.
The waiting commands come from outside and stay. -/
def resetCore (clk : ClkSt) (pkg : PkgSt) (s : State) : State :=
  { State.reset with
    pkg := pkg
    clk := clk
    cfg.flash := s.cfg.work.foldl (partialWrite s.frame.freeCount) s.cfg.flash
    crypto.keyCount := s.crypto.keyCount
    frame.freeCount := s.frame.freeCount + 1
    tap := s.tap
    pending := s.pending }

/-- R291: the oscillators, resonators and monitor start from nothing, and IOSC_F is trimmed from fuses. -/
def execVstbyRise (s : State) : Host.Outcome State Fault Refusal :=
  done (when (!s.pkg.vstby) (fun s => { s with pkg.vstby := true, pkg.trimmed := true, clk := .reset }) s)

/-- R427: the whole device resets, the VSTBY domain included; fuses are not affected. -/
def execVstbyLoss (s : State) : Host.Outcome State Fault Refusal :=
  let pkg : PkgSt := { PkgSt.reset with
    vstby := false, rails := false, trimmed := false, inReset := true, doneLow := false, porstLow := s.pkg.porstLow,
    streamKey := s.pkg.streamKey, debugFuse := s.pkg.debugFuse }
  done { resetCore .reset pkg s with tap := .reset }

/-- The reset that PORST_N low and the shutdown of R426 make, with the regulators as given. -/
def porst (rails low : Bool) (s : State) : State :=
  let pkg : PkgSt := { PkgSt.reset with
    vstby := s.pkg.vstby, rails := rails, porstLow := low, inReset := true, doneLow := s.pkg.vstby,
    trimmed := s.pkg.trimmed, addr := s.pkg.addr, bootSrc := s.pkg.bootSrc, streamKey := s.pkg.streamKey,
    debugFuse := s.pkg.debugFuse }
  resetCore s.clk.monitorOf pkg s

/-- R425, R423: the rails come up in order, and the internal reset that their absence was ends with the straps sampled. -/
def execVin12Rise (addr : BitVec 3) (bootSrc : BitVec 2) (s : State) : Host.Outcome State Fault Refusal :=
  done (when (s.pkg.vstby && !s.pkg.rails)
    (fun s => { s with
      pkg.rails := true
      pkg.addr := if s.pkg.porstLow then s.pkg.addr else addr
      pkg.bootSrc := if s.pkg.porstLow then s.pkg.bootSrc else bootSrc }) s)

/-- R426. -/
def execVin12Shutdown (s : State) : Host.Outcome State Fault Refusal :=
  done (when s.pkg.rails (porst false s.pkg.porstLow) s)

/-- R428. -/
def execPorstNAssert (s : State) : Host.Outcome State Fault Refusal :=
  done (porst s.pkg.rails true s)

/-- R423. -/
def execPorstNRelease (addr : BitVec 3) (bootSrc : BitVec 2) (s : State) : Host.Outcome State Fault Refusal :=
  done (when s.pkg.porstLow
    (fun s => { s with pkg.porstLow := false, pkg.addr := addr, pkg.bootSrc := bootSrc }) s)

/-- The sources that R293 waits for. -/
def State.sourcesQualified (s : State) : Bool := s.clk.qualF && s.clk.qualA && s.clk.qualB

/-- The reference loop n takes by the settings in force (R294, R297). -/
def srcRef (code : BitVec 2) : Option ClkRef :=
  if code = 0 then some .sourceA else if code = 1 then some .sourceB else none

def ClkSt.homeRef (c : ClkSt) (n : Nat) : ClkRef :=
  match n with
  | 1 => .lpCore
  | 4 => (srcRef c.trkaPri).getD .sourceA
  | 5 => (srcRef c.trkbPri).getD .sourceB
  | _ => .sourceA

/-- R293: the device leaves reset; its loops start on their references, the desk, its standby pair and the random source
start (log entry 8), and the day-book tail is loaded (R414). -/
def execLeaveReset (s : State) : Host.Outcome State Fault Refusal :=
  run (when (s.pkg.rails && !s.pkg.porstLow && s.pkg.inReset && s.sourcesQualified)
    (fun s => loadTail { s with
      pkg.inReset := false
      clk.loopRef := (List.range 6).map s.clk.homeRef
      desk.version := Config.deskVersion
      desk.standbyReady := true
      crypto.rngOk := true })) s

end Sys2Proof.Machine
end

