-- ==== Sys2Proof/Machine/Clocks.lean ====
section
/-! DEFINITION. The clock monitor, fallback, the glitch-free switches and the clock slips ("Clocks, gating and the clock
monitor"). -/

namespace Sys2Proof.Machine
open Sys2Proof

/-! ## What a window shows (R298, R299) -/

/-- Expected counts of "Table: monitor pairings". -/
def expectedCount : List Nat := [25000, 19440, 100000, 1000000, 500000, 1600000, 100000, 156250, 156250]

def ClkRef.isFallback : ClkRef → Bool
  | .ioscF => true | .ioscS => true | _ => false

def ClkSt.ref (c : ClkSt) (n : Nat) : ClkRef := c.loopRef.getD n .sourceA
def ClkSt.cons (c : ClkSt) (n : Nat) : ClkRef := c.consumer.getD n .loop

/-- Loop n or its consumers stand on a fallback or on IOSC_S; LP_FAB follows LP_CORE (R294, CLK_STATUS loop_fb). -/
def ClkSt.onFallback (c : ClkSt) (n : Nat) : Bool :=
  (c.ref n).isFallback || c.cons n != .loop || (n == 1 && ((c.ref 0).isFallback || c.cons 0 != .loop))

/-- The expected count of pairing n: for a loop on its fallback reference, scaled by the ratio of R296, 100 to 103. -/
def ClkSt.expected (c : ClkSt) (n : Nat) : Nat :=
  let e := nth expectedCount n
  if 3 ≤ n && (c.ref (n - 3)).isFallback || (n == 4 && ((c.ref 0).isFallback || c.cons 0 != .loop)) then e * 100 / 103 else e

/-- The trip setting of pairing n in percent (R299, R300). -/
def ClkSt.tripOf (c : ClkSt) (n : Nat) : Nat := if n = 2 then 20 else if c.onIoscS then 15 else c.tripPct.toNat

/-- The count differs from the expected count by more than pct percent. -/
def offBy (expected pct count : Nat) : Bool :=
  expected * pct < 100 * (count - expected) || expected * pct < 100 * (expected - count)

/-- The count a pairing is judged by: the override's pins while one serves as the source (R292). -/
def ClkSt.judged (c : ClkSt) (counts : List Nat) (refA refB n : Nat) : Nat :=
  if n = 0 && c.refaSel then refA else if n = 1 && c.refbSel then refB else nth counts n

def ClkSt.badPair (c : ClkSt) (counts : List Nat) (refA refB : Nat) (lock : BitVec 6) (n : Nat) : Bool :=
  offBy (c.expected n) (c.tripOf n) (c.judged counts refA refB n) || (3 ≤ n && !getBit lock (n - 3))

/-! ## Who has failed (R300) -/

/-- A source or loop, coded as CLOCK_RESTORE codes its target, with IOSC_F 8 and IOSC_S 9: 0 source A, 1 source B, 2 to 7
loops 0 to 5. -/
abbrev ClkUnit := Nat

/-- The pairing of the clock that loop n takes its reference from. -/
def ClkSt.refPairing (c : ClkSt) (n : Nat) : Nat :=
  match c.ref n with
  | .sourceA => 0 | .sourceB => 1 | .lpCore => 3 | _ => 2

/-- "Table: trip judgement" over the pairings that are bad together. While windows run on IOSC_S, pairing 2 judges nothing. -/
def ClkSt.judgement (c : ClkSt) (badp : Nat → Bool) : List ClkUnit :=
  let b0 := badp 0
  let b1 := badp 1
  let b2 := badp 2 && !c.onIoscS
  let srcs := match b0, b1, b2 with
    | true, true, true => [8]
    | true, true, false => [0, 1]
    | true, false, false => [0]
    | false, true, false => [1]
    | false, false, true => [9]
    | true, false, true => [0, 9]
    | false, true, true => [1, 9]
    | false, false, false => []
  srcs ++ ((List.range 6).filter fun n => badp (n + 3) && !badp (c.refPairing n)).map (· + 2)

/-- A unit trips only from being qualified, a loop from being locked: what has not yet started is not tripped (log entry 9). -/
def ClkSt.wasGood (c : ClkSt) (lockBefore : BitVec 6) (u : ClkUnit) : Bool :=
  if u = 0 then c.qualA else if u = 1 then c.qualB else if u = 8 then c.qualF else if u = 9 then c.qualS
  else getBit lockBefore (u - 2)

/-- The CLK_TRIP bit of a unit. -/
def tripBit (u : ClkUnit) : Nat := if u = 0 then 5 else if u = 1 then 6 else if u = 8 then 7 else if u = 9 then 8 else u + 7

/-! ## Fallback (R302, R303) -/

/-- The derived fallback: IOSC_F where qualified, else IOSC_S. -/
def ClkSt.fallback (c : ClkSt) : ClkRef := if c.qualF then .ioscF else .ioscS

def ClkSt.qualifiedSrc (c : ClkSt) : ClkRef → Bool
  | .sourceA => c.qualA | .sourceB => c.qualB | .ioscF => c.qualF | .ioscS => c.qualS | _ => true

/-- Where loop n goes when the reference r it uses has failed: a trunk loop to its other reference if that is qualified (R297; from the
secondary to the primary by log entry 95), otherwise the fallback. -/
def ClkSt.nextRef (c : ClkSt) (n : Nat) (r : ClkRef) : ClkRef :=
  let pri := if n = 4 then srcRef c.trkaPri else if n = 5 then srcRef c.trkbPri else none
  let sec := if n = 4 then srcRef c.trkaSec else if n = 5 then srcRef c.trkbSec else none
  match pri, sec with
  | some a, some b =>
    if a = r && b != r && c.qualifiedSrc b then b
    else if b = r && a != r && c.qualifiedSrc a then a else c.fallback
  | _, _ => c.fallback

/-- Move loop n's reference through its switch (R305): the loop relocks after it. -/
def moveRef (n : Nat) (dst : ClkRef) (c : ClkSt) : ClkSt :=
  { c with loopRef := c.loopRef.set n dst, loopLock := setBit c.loopLock n false,
           switches := Sparse.ins c.switches n { target := dst, forced := false } }

/-- Move loop n's consumers through theirs. -/
def moveCons (n : Nat) (dst : ClkRef) (c : ClkSt) : ClkSt :=
  { c with consumer := c.consumer.set n dst, switches := Sparse.ins c.switches (n + 6) { target := dst, forced := false } }

/-- The clock that unit u is, as a reference. -/
def unitRef (u : ClkUnit) : Option ClkRef :=
  if u = 0 then some .sourceA else if u = 1 then some .sourceB else if u = 8 then some .ioscF
  else if u = 9 then some .ioscS else none

def unqualify (u : ClkUnit) (c : ClkSt) : ClkSt :=
  if u = 0 then { c with qualA := false, goodRun := c.goodRun.set 0 0 }
  else if u = 1 then { c with qualB := false, goodRun := c.goodRun.set 1 0 }
  else if u = 8 then { c with qualF := false, qualS := false, goodRun := c.goodRun.set 2 0, onIoscS := true }
  else if u = 9 then { c with qualS := false, goodRun := c.goodRun.set 2 0 }
  else { c with goodRun := c.goodRun.set (u + 1) 0 }

/-- The loops and consumers that must move when u fails, as bits 0 to 5 for references and 6 to 11 for consumers. -/
def ClkSt.movers (c : ClkSt) (u : ClkUnit) : List Nat :=
  match unitRef u with
  | some r => ((List.range 6).filter fun n => c.ref n == r) ++
      (((List.range 6).filter fun n => c.cons n == r).map (· + 6))
  | none => [u + 4]

def moveOne (c : ClkSt) (k : Nat) : ClkSt :=
  if k < 6 then moveRef k (c.nextRef k (c.ref k)) c else moveCons (k - 6) c.fallback c

/-- The fallback level an event names: 0 none moved, 1 a secondary, 2 IOSC_F, 3 IOSC_S (FALLBACK_UNQUALIFIED). -/
def fallbackLevel (before after : ClkSt) (m : List Nat) : Nat :=
  let now := m.map fun k => if k < 6 then after.ref k else after.cons (k - 6)
  if m.isEmpty || before == after then 0 else if now.contains .ioscS then 3 else if now.contains .ioscF then 2 else 1

/-- A trunk whose transmit loop moved holds its transmitters in electrical idle (R302). -/
def idleTrunks (moved : List Nat) (s : State) : State :=
  (List.range 16).foldl (fun s t =>
    let p := 128 + t
    let r := (s.port p).cfg.refSrc
    if (r = 0 && (moved.contains 4 || moved.contains 10)) || (r = 1 && (moved.contains 5 || moved.contains 11)) then
      (idleTx p s).modLane p fun l => { l with tripIdle := true }
    else s) s

/-- The desk runs cold when LP_CORE's consumers, or its reference, stand on IOSC_S (R303). -/
def ClkSt.mustRunCold (c : ClkSt) : Bool := c.ref 0 == .ioscS || c.cons 0 == .ioscS

/-- A pulse on FRAME_OUT ends and lanes go idle when the desk goes cold (R43, R303). -/
def goCold (s : State) : State :=
  if s.clk.mustRunCold && !s.clk.cold then
    { s with clk.cold := true, pkg.frameOut := false, pkg.pcieUp := false }
  else s

/-- R302, R303: unit u trips. -/
def tripUnit (u : ClkUnit) (s : State) : State :=
  let c := unqualify u s.clk
  let m := c.movers u
  let c' := m.foldl moveOne c
  let lvl := fallbackLevel c c' m
  let t := { s with
    clk := { c' with
      trip := setBit (setBit c'.trip (tripBit u) true) 15 (getBit c'.trip 15 || lvl == 3)
      tripHoldover := c'.tripHoldover || !modeIn s.modes.house [.intake, .closing] }
    pkg.pcieUp := s.pkg.pcieUp && !(m.contains 3 || m.contains 9)
    stock.spoiled := BitVec.allOnes 32 }
  goCold (nonMask 0x0101 u [(16, u), (16, maskOf 12 fun k => m.contains k), (16, lvl)] (idleTrunks m t))

/-- When IOSC_F qualifies, every IOSC_S consumer moves to its IOSC_F fallback, frames resume, CLOCK_WARM (R303). -/
def warmUp (s : State) : State :=
  let on := ((List.range 6).filter fun n => s.clk.ref n == .ioscS) ++
    (((List.range 6).filter fun n => s.clk.cons n == .ioscS).map (· + 6))
  if s.clk.qualF && !on.isEmpty then
    let c := on.foldl (fun c k => if k < 6 then moveRef k .ioscF c else moveCons (k - 6) .ioscF c) s.clk
    warn 0x0102 8 [(16, maskOf 12 fun k => on.contains k)]
      { s with clk := { c with cold := false, tripHoldover := s.clk.tripHoldover || s.clk.cold } }
  else s

/-! ## Monitor commands -/

/-- R301: 64 consecutive good windows qualify. -/
def qualifyRuns (c : ClkSt) : ClkSt :=
  let g := fun n => 64 ≤ nth c.goodRun n
  { c with qualA := c.qualA || g 0, qualB := c.qualB || g 1, qualF := c.qualF || g 2, qualS := g 2,
           onIoscS := c.onIoscS && !g 2 }

/-- The candidate of a pending override counts its own windows (R292): the pins, or the crystal when it is selected again. -/
def refRuns (c : ClkSt) (counts : List Nat) (refA refB : Nat) : List Nat :=
  let run := fun (b : Bool) (i : Nat) (pin crystal : Nat) =>
    match c.changes.find? (fun ch => match ch with | .override x _ _ _ => x == b | _ => false) with
    | some (.override _ want _ _) =>
      if offBy (nth expectedCount i) c.tripPct.toNat (if want then pin else crystal) then 0 else sat 64 (nth c.refRun i) 1
    | _ => 0
  [run false 0 refA (nth counts 0), run true 1 refB (nth counts 1)]

/-- DESK_TIME while no frames run: IOSC_S cycles while cold, else LP_CORE's count of the window. -/
def windowCycles (s : State) (counts : List Nat) : Nat :=
  if !s.up || s.clk.stoppedDevice then 0 else if s.clk.cold then 1000 else if s.frame.running then 0 else nth counts 3

/-- R298 to R303. -/
def monitorWindowEnd (counts : List Nat) (refA refB : Nat) (lock : BitVec 6) (s : State) : State :=
  let c0 := s.clk
  let badp := fun n => c0.badPair counts refA refB lock n
  let c1 := { c0 with
    count := (List.range 9).map (nth counts)
    goodRun := (List.range 9).map fun n => if badp n then 0 else sat 64 (nth c0.goodRun n) 1
    stopped := BitVec.ofNat 9 (maskOf 9 fun n => getBit c0.stopped n && nth counts n == 0)
    refRun := refRuns c0 counts refA refB
    loopLock := lock }
  let failed := (c0.judgement badp).filter (c0.wasGood c0.loopLock)
  let s := { s with clk := qualifyRuns c1, frame.time := s.frame.time + windowCycles s counts }
  warmUp (failed.foldl (fun s u => tripUnit u s) s)

def execMonitorWindowEnd (counts : List Nat) (refA refB : Nat) (lock : BitVec 6) (s : State) :
    Host.Outcome State Fault Refusal :=
  run (when (s.pkg.vstby && !s.clk.stoppedDevice) (monitorWindowEnd counts refA refB lock)) s

/-- R299, R300: judged at once, with the pairings stopped at the same moment. -/
def clockStopped (n : Nat) (s : State) : State :=
  let stopped := setBit s.clk.stopped n true
  let c := { s.clk with stopped := stopped, goodRun := s.clk.goodRun.set n 0 }
  let failed := (c.judgement fun k => getBit stopped k).filter (c.wasGood c.loopLock)
  failed.foldl (fun s u => tripUnit u s) { s with clk := c }

def execClockStoppedDetect (n : Fin 9) (s : State) : Host.Outcome State Fault Refusal :=
  run (when (s.pkg.vstby && !s.clk.stoppedDevice) (clockStopped n.val)) s

/-- R303: IOSC_S stops while in use. -/
def execIoscSStopped (s : State) : Host.Outcome State Fault Refusal :=
  done (when s.clk.cold (fun s => { s with clk.stoppedDevice := true }) s)

def execIoscSRunsAgain (s : State) : Host.Outcome State Fault Refusal :=
  done (when s.clk.stoppedDevice (fun s => { s with clk.stoppedDevice := false }) s)

/-- R305: the switch passes its new clock. -/
def execGlitchFreeSwitchDone (sw : Fin 12) (s : State) : Host.Outcome State Fault Refusal :=
  done { s with clk.switches := Sparse.del s.clk.switches sw.val }

/-- R306: a switch in progress is forced. -/
def execSwitchForced (sw : Fin 12) (s : State) : Host.Outcome State Fault Refusal :=
  done (match Sparse.look s.clk.switches sw.val with
    | some w => { s with
        clk.switches := Sparse.ins s.clk.switches sw.val { w with forced := true }
        clk.trip := setBit s.clk.trip 16 true }
    | none => s)

/-- The loop relocks after a move (R296). A port's settling is the lanes' (R149). -/
def relockLoop (n : Nat) (s : State) : State := { s with clk.loopLock := setBit s.clk.loopLock n true }

/-! ## Overrides and changes at step 3 -/

/-- The pending override of REFA or REFB. -/
def isOverride (refB : Bool) : ClkChange → Bool
  | .override b _ _ _ => b == refB
  | _ => false

/-- R292: the override has waited 8,000 frames. The crystal stays; the enable shown returns to what serves. -/
def overrideTimeout (refB : Bool) (s : State) : State :=
  match s.clk.changes.find? (isOverride refB) with
  | some (.override b want frames id) =>
    if 8000 ≤ frames then
      let rest := s.clk.changes.filter (fun c => c != .override b want frames id)
      let rest := rest.map fun c => match c with
        | .override x w f i => .override x w f (if i == id then none else i)
        | c => c
      completeOpt id St.qualifyTimeout { s with
        clk.changes := rest
        clk.refaEn := if refB then s.clk.refaEn else s.clk.refaSel
        clk.refbEn := if refB then s.clk.refbSel else s.clk.refbEn }
    else s
  | _ => s

def execOverrideQualifyTimeout (refB : Bool) (s : State) : Host.Outcome State Fault Refusal :=
  run (overrideTimeout refB) s

/-- Whether loop n's home reference can serve it. -/
def ClkSt.homeQualified (c : ClkSt) (n : Nat) : Bool := c.qualifiedSrc (c.homeRef n)

/-- Return loop n to its own reference and its consumers to it (R304). -/
def goHome (n : Nat) (c : ClkSt) : ClkSt :=
  let c := if c.cons n != .loop then moveCons n .loop c else c
  if c.ref n != c.homeRef n && c.homeQualified n then moveRef n (c.homeRef n) c else c

/-- R304: the loops that CLOCK_RESTORE of a target returns: those on a fallback whose own reference is the source, or the
loop named. -/
def ClkSt.restored (c : ClkSt) (target : Nat) : List Nat :=
  if target = 0 then (List.range 6).filter fun n => (c.ref n).isFallback && c.homeRef n == .sourceA
  else if target = 1 then (List.range 6).filter fun n => (c.ref n).isFallback && c.homeRef n == .sourceB
  else [target - 2]

/-- Move a trunk loop by CLOCK_SET's references: to its primary, or its secondary where only that is qualified (R297). -/
def followRefs (n : Nat) (c : ClkSt) : ClkSt :=
  let sec := (srcRef (if n = 4 then c.trkaSec else c.trkbSec)).getD (c.homeRef n)
  let dst := if c.homeQualified n then c.homeRef n else if c.qualifiedSrc sec then sec else c.fallback
  if c.ref n == dst then c else moveRef n dst c

/-- A reference change at step 3 idles no trunk: the dependent trunks keep transmitting (R385). -/
def applyClkChange (s : State) (ch : ClkChange) : State :=
  match ch with
  | .trunkRefs trkb pri sec =>
    let c := if trkb then { s.clk with trkbPri := BitVec.ofNat 2 pri, trkbSec := BitVec.ofNat 2 sec }
             else { s.clk with trkaPri := BitVec.ofNat 2 pri, trkaSec := BitVec.ofNat 2 sec }
    { s with clk := followRefs (if trkb then 5 else 4) c }
  | .tripPct v => { s with clk.tripPct := BitVec.ofNat 4 v }
  | .restore target id =>
    complete id St.ok 0 [] { s with clk := (s.clk.restored target).foldl (fun c n => goHome n c) s.clk }
  | .override refB want frames id =>
    if 64 ≤ nth s.clk.refRun (bitOf refB) then
      let c := if refB then { s.clk with refbSel := want } else { s.clk with refaSel := want }
      let src := if refB then ClkRef.sourceB else ClkRef.sourceA
      let c := ((List.range 6).filter fun n => c.ref n == src).foldl (fun c n => moveRef n src c) c
      let waits := s.clk.changes.any fun x => match x with
        | .override _ _ _ i => i == id
        | _ => false
      let s := { s with clk := c }
      if waits then s else completeOpt id St.ok s
    else { s with clk.changes := s.clk.changes ++ [.override refB want (frames + 1) id] }

/-- Step 3's clock part: the changes due, in the order their slips committed. -/
def clockStep3 (s : State) : State :=
  s.clk.changes.foldl applyClkChange { s with clk.changes := [] }

/-- R304: the conditions under which the Holdover that a trip caused ends. -/
def State.tripEnded (s : State) : Bool :=
  !((List.range 6).any fun n => s.clk.homeRef n == .sourceA && s.clk.onFallback n) && getBit s.clk.loopLock 0 &&
    !s.clk.onFallback 0 && s.frame.qualified

/-! ## Slips (R385) -/

/-- CLOCK_SET's masked byte: zero unless its mask bit is set, else within its range. -/
def masked (m : Bool) (v lo hi : Nat) : Bool := if m then lo ≤ v && v ≤ hi else v == 0

def clockSetBody (p : List Byte) (id : SlipId) (s : State) : SlipOut := do
  houseOpen s
  let mask := arg p 16 1
  let m := fun i => mask.testBit i
  let v := fun off => arg p off 1
  fields [⟨16, 1, mask < 32⟩, ⟨17, 1, masked (m 0) (v 17) 0 1⟩, ⟨18, 1, masked (m 1) (v 18) 0 1⟩,
    ⟨19, 1, masked (m 2) (v 19) 0 1⟩, ⟨20, 1, masked (m 2) (v 20) 0 2 && !(m 2 && v 19 == v 20)⟩,
    ⟨21, 1, masked (m 3) (v 21) 0 1⟩, ⟨22, 1, masked (m 3) (v 22) 0 2 && !(m 3 && v 21 == v 22)⟩,
    ⟨23, 1, masked (m 4) (v 23) 4 15⟩] p
  let chA := m 0 && (v 17 == 1) != s.clk.refaSel
  let chB := m 1 && (v 18 == 1) != s.clk.refbSel
  let new : List ClkChange :=
    (if m 2 then [.trunkRefs false (v 19) (v 20)] else []) ++ (if m 3 then [.trunkRefs true (v 21) (v 22)] else []) ++
    (if m 4 then [.tripPct (v 23)] else []) ++
    (if chA then [.override false (v 17 == 1) 0 (some id)] else []) ++
    (if chB then [.override true (v 18 == 1) 0 (some id)] else [])
  let s := { s with
    clk.changes := s.clk.changes ++ new
    clk.refaEn := if m 0 then v 17 == 1 else s.clk.refaEn
    clk.refbEn := if m 1 then v 18 == 1 else s.clk.refbEn
    clk.refRun := [if chA then 0 else nth s.clk.refRun 0, if chB then 0 else nth s.clk.refRun 1] }
  if chA || chB then accept s else okSlip s

def execClockSet (h : SlipHdr) (p : List Byte) (s : State) : Host.Outcome State Fault Refusal :=
  slip 0x0103 .ordinary h p (clockSetBody p) s

/-- The unit of CLOCK_RESTORE's target is qualified again (R301). -/
def ClkSt.targetQualified (c : ClkSt) (t : Nat) : Bool :=
  if t = 0 then c.qualA else if t = 1 then c.qualB
  else getBit c.loopLock (t - 2) && 64 ≤ nth c.goodRun (t + 1)

def clockRestoreBody (p : List Byte) (id : SlipId) (s : State) : SlipOut := do
  houseOpen s
  let t := arg p 16 1
  fields [⟨16, 1, t < 8⟩] p
  need (s.clk.targetQualified t) (fail St.notQualified)
  accept { s with clk.changes := s.clk.changes ++ [.restore t id] }

def execClockRestore (h : SlipHdr) (p : List Byte) (s : State) : Host.Outcome State Fault Refusal :=
  slip 0x0104 .ordinary h p (clockRestoreBody p) s

end Sys2Proof.Machine
end

