-- ==== Sys2Proof/Machine/FrameSync.lean ====
section
/-! DEFINITION. Frame sources, qualification, discipline and FRAME_OUT ("Frame, slots and the work budget", R31 to R43,
R49). -/

namespace Sys2Proof.Machine
open Sys2Proof

/-! ## FRAME_IN's window (R35) -/

/-- The edge's distance from the boundary that the selection predicts: its offset is included (R35). -/
def windowDist (sel : FrameSel) (place : Int) : Int :=
  let d := (place + sel.offset) % 125000
  if d ≤ 62500 then d else d - 125000

def inWindow (sel : FrameSel) (place : Int) : Bool := (windowDist sel place).natAbs ≤ 500

/-- The selection being qualified, if any. -/
def FrameSt.cand (f : FrameSt) : Option FrameSel := f.qualifying.map (·.1)

/-- R35: an edge is taken into each window of a FRAME_IN selection that it is the first in; if it is in none, or is a
second, it is counted. Which selection's window counts while two are watched, and that no edge counts while none is
FRAME_IN, is the model's choice (log entry 67). -/
def frameInEdge (place : Int) (f : FrameSt) : FrameSt :=
  let actIn := f.active.src == 1 && inWindow f.active place
  let candSel := f.cand.getD { FrameSel.reset with src := 0 }
  let candIn := candSel.src == 1 && inWindow candSel place
  if f.active.src == 1 || candSel.src == 1 then
    let takes := (actIn && f.edge.isNone) || (candIn && !f.candEdge)
    { f with
      edge := if actIn then f.edge.or (some (windowDist f.active place)) else f.edge
      candEdge := f.candEdge || candIn
      misplaced := if takes then f.misplaced else sat 255 f.misplaced 1 }
  else f

def execFrameInEdge (offset : Int) (s : State) : Host.Outcome State Fault Refusal :=
  done (when s.framesRun (fun s => { s with frame := frameInEdge offset s.frame }) s)

/-- The slot at whose boundary the window of a selection is over: the first at or after its last cycle (R35). -/
def closeSlot (sel : FrameSel) : Nat := (((500 - sel.offset) % 125000).toNat + 499) / 500 % 250

/-- The window of the source in use closes: the frame's measurement takes the edge, or finds none (R34, R39). -/
def closeActive (f : FrameSt) : FrameSt :=
  { f with
    lossRun := if f.edge.isSome then 0 else f.lossRun + 1
    goodRun := if f.edge.isSome then sat 64 f.goodRun 1 else 0
    phaseSeen := f.edge
    edge := none }

def closeCand (f : FrameSt) : FrameSt := { f with candRun := if f.candEdge then sat 64 f.candRun 1 else 0, candEdge := false }

/-- The windows that end by the boundary of this slot close. -/
def closeWindows (slot : Nat) (f : FrameSt) : FrameSt :=
  let f := if f.active.src = 1 ∧ closeSlot f.active = slot then closeActive f else f
  match f.cand with
  | some c => if c.src = 1 ∧ closeSlot c = slot then closeCand f else f
  | none => f

/-! ## Loss and qualification (R34, R36, R37) -/

/-- A trunk source shows no loss criterion that the state holds: its port is in Service and its lanes in sync. -/
def State.trunkGood (s : State) (t : Nat) : Bool :=
  s.portMode (128 + t) == .service && getBit (s.port (128 + t)).lane.inSync 0

/-- The selection meets its qualification, given the good frames counted for it. -/
def State.selQualified (s : State) (sel : FrameSel) (run : Nat) : Bool :=
  if sel.src = 3 then s.clk.qualB else if sel.src = 0 then false else 64 ≤ run

/-- The loss criterion as far as the state shows it; a trunk's lock and frequency are judged outside (R34). -/
def State.lossShown (s : State) : Bool :=
  if s.frame.active.src = 1 then 3 ≤ s.frame.lossRun
  else if s.frame.active.src = 2 then true
  else if s.frame.active.src = 3 then !s.clk.qualB else false

/-- The mean of the control word over the 1,024 frames that end 16 frames before (R41), with the frames there are. -/
def frozenWord (f : FrameSt) : Int :=
  let h := (f.ctrlHist.drop 16).take 1024
  if h.isEmpty then f.ctrlWord else (h.foldl (· + ·) 0) / h.length

/-- R41: the control word freezes. -/
def freeze (f : FrameSt) : FrameSt := { f with frozen := true, ctrlWord := frozenWord f }

/-- R37: the house's Holdover follows at step 3 of the next boundary. -/
def sourceLoss (s : State) : State :=
  warn 0x0103 s.frame.active.src [(4, s.frame.active.src), (4, s.frame.active.trunk)]
    { s with frame := { freeze s.frame with lost := true, qualified := false, goodRun := 0 } }

def execFrameSourceLoss (s : State) : Host.Outcome State Fault Refusal :=
  run (when (s.framesRun && !s.frame.lost && s.frame.active.src != 0 && s.lossShown) sourceLoss) s

/-- R36, R38: the selection being qualified, and the source in use if it was lost, meet their qualification. -/
def sourceQualified (s : State) : State :=
  { s with
    frame.newQualified := s.frame.newQualified || (s.frame.cand.map fun c => s.selQualified c s.frame.candRun).getD false
    frame.qualified := s.frame.qualified || s.selQualified s.frame.active s.frame.goodRun }

def execFrameSourceQualified (s : State) : Host.Outcome State Fault Refusal := done (when s.framesRun sourceQualified s)

/-- R36: 8,000 frames without qualification; the old selection stays in force. -/
def sourceQualifyTimeout (s : State) : State :=
  match s.frame.qualifying with
  | some (_, id, n) =>
    if 8000 ≤ n && !s.frame.newQualified then
      complete id St.qualifyTimeout 0 [] { s with frame.qualifying := none, frame.sel := s.frame.active }
    else s
  | none => s

def execFrameSourceQualifyTimeout (s : State) : Host.Outcome State Fault Refusal := run sourceQualifyTimeout s

/-! ## Lock (R39, R40) -/

/-- The source gives phase: FRAME_IN, or a native trunk taken with its phase. -/
def State.hasPhase (s : State) : Bool :=
  s.frame.active.src == 1 ||
    (s.frame.active.src == 2 && s.frame.active.phase && (s.port (128 + s.frame.active.trunk)).cfg.setting < 2)

/-- What the frame's phase measurement finds: the edge of FRAME_IN's window, or the trunk's frame mark (R34, R122). -/
def State.phaseFound (s : State) : Option Int :=
  if s.frame.active.src = 1 then s.frame.phaseSeen else Sparse.look s.frame.trunkPhase s.frame.active.trunk

/-- One frame's measurement: the phase error, and the runs of good and bad frames (R40). A frame whose source with phase
showed none breaks both runs and leaves the last measurement standing (log entry 68). -/
def measure (i : FrameIn) (s : State) : State :=
  let e := s.phaseFound
  let near := if s.hasPhase then e.any fun x => x.natAbs ≤ 8 else i.freqErrPpb.natAbs ≤ 50
  let far := s.hasPhase && e.any fun x => 100 < x.natAbs
  { s with
    frame.phaseErr := if s.hasPhase then (e.map fun x => clampInt (-32767) 32767 x).getD s.frame.phaseErr else 0
    frame.lockRun := if near then sat 64 s.frame.lockRun 1 else 0
    frame.unlockRun := if far then sat 8 s.frame.unlockRun 1 else 0 }

/-- The phase error that the filter works on: none without a measurement. -/
def State.phaseStep (s : State) : Int := if s.hasPhase then (s.phaseFound).getD 0 else 0

/-- R39: the second-order filter, whose arithmetic at each bandwidth is open: its integrator takes up the frequency error, the
step for the phase error is held to the slew limit, and the word to 50 ppm. Parts per billion. -/
def discipline (i : FrameIn) (s : State) : State :=
  let f := s.frame
  if f.frozen || s.clk.onFallback 0 then s
  else
    let integ := clampInt (-50000) 50000 (Config.loopIntegrator f.active.bandwidth f.ctrlFreq i.freqErrPpb s.phaseStep)
    let cap : Int := 1000 * f.active.slew
    let step := clampInt (-cap) cap (Config.loopStep f.active.bandwidth integ s.phaseStep)
    { s with
      frame.ctrlFreq := integ
      frame.ctrlWord := clampInt (-50000) 50000 (if s.hasPhase then integ + step else integ)
      frame.ctrlHist := (f.ctrlWord :: f.ctrlHist).take 1040 }

/-- What was seen of the phase in the frame that ends is used up. -/
def forgetPhase (s : State) : State := { s with frame.phaseSeen := none, frame.trunkPhase := [] }

def execLoopLocked (s : State) : Host.Outcome State Fault Refusal :=
  done (when (64 ≤ s.frame.lockRun) (fun s => { s with frame.locked := true, frame.unlocked := false }) s)

def execFrameUnlocked (s : State) : Host.Outcome State Fault Refusal :=
  run (when (8 ≤ s.frame.unlockRun && !s.frame.unlocked) fun s =>
    warn 0x0104 s.frame.active.src [(16, ofInt 16 s.frame.phaseErr)]
      { s with frame.locked := false, frame.unlocked := true }) s

/-! ## Selection at step 3 (R36, R38) -/

/-- A new selection takes effect: from here its source is qualified, and an earlier one that was still qualifying ends
SUPERSEDED. -/
def startQualifying (s : State) : State :=
  match s.frame.pendSel with
  | none => s
  | some (sel, id) =>
    let s' := match s.frame.qualifying with
      | some (_, old, _) => complete old St.superseded 0 [] s
      | none => s
    { s' with frame.pendSel := none, frame.qualifying := some (sel, id, 0), frame.newQualified := false,
              frame.candRun := 0, frame.candEdge := false, frame.sel := sel }

/-- The discipline changes over to a source that has qualified. -/
def changeOver (s : State) : State :=
  match s.frame.qualifying with
  | some (sel, id, _) =>
    if s.frame.newQualified then
      complete id St.ok 0 [] { s with
        frame.qualifying := none, frame.newQualified := false, frame.active := sel, frame.qualified := true, frame.edge := none,
        frame.phaseSeen := none,
        frame.lost := false, frame.frozen := s.desk.doubleFail, frame.lossRun := 0, frame.goodRun := s.frame.candRun,
        frame.lockRun := 0, frame.unlockRun := 0 }
    else s
  | none => s

/-- A frame more for the selection being qualified, and for a trunk or crystal source its good run. -/
def countFrames (s : State) : State :=
  let run := fun (sel : FrameSel) (n : Nat) =>
    if sel.src = 2 then (if s.trunkGood sel.trunk then sat 64 n 1 else 0) else n
  { s with
    frame.qualifying := s.frame.qualifying.map fun (sel, id, n) => (sel, id, n + 1)
    frame.candRun := (s.frame.cand.map fun c => run c s.frame.candRun).getD s.frame.candRun
    frame.goodRun := run s.frame.active s.frame.goodRun }

/-- R38: with revertive set, a lost source that qualifies again is in use again. -/
def revert (s : State) : State :=
  if s.frame.lost && s.frame.qualified && s.frame.active.revertive then
    { s with frame.lost := false, frame.frozen := s.desk.doubleFail }
  else s

/-! ## FRAME_OUT (R43) -/

/-- FRAME_OUT may drive: enabled, step A complete, frames running, and the house not closed. -/
def State.outDrives (s : State) : Bool :=
  s.frame.outEn && s.framesRun && (s.modes.house != .intake || s.stepDone 1) && !s.modes.closed.contains .house

/-- An edge of FRAME_OUT; a rising edge takes up the offset and width last written. -/
def execFrameOutEdge (rising : Bool) (s : State) : Host.Outcome State Fault Refusal :=
  done (if rising then
      when s.outDrives (fun s => { s with
        pkg.frameOut := true, frame.outOffset := s.frame.outOffsetNext, frame.outWidth := s.frame.outWidthNext }) s
    else { s with pkg.frameOut := false })

/-! ## Overruns (R49) -/

def execFrameOverrun (unit : Fin 6) (s : State) : Host.Outcome State Fault Refusal :=
  run (when (16 ≤ nth s.frame.overrunRun unit.val && !s.frame.overrunTold.getD unit.val true) fun s =>
    warn 0x0105 unit.val [(16, unit.val)] { s with frame.overrunTold := s.frame.overrunTold.set unit.val true }) s

/-- The end of a frame for unit u: an overrun if it ends with deferred work. -/
def noteOverrun (u : Nat) (late : Bool) (f : FrameSt) : FrameSt :=
  { f with
    overrunRun := f.overrunRun.set u (if late then sat 255 (nth f.overrunRun u) 1 else 0)
    overrunTotal := if late then bump 0xFFFFFF f.overrunTotal u else f.overrunTotal
    overrunTold := if late then f.overrunTold else f.overrunTold.set u false }

/-! ## Slips (R31, R34, R385) -/

/-- R36. One that waits for the same boundary ends SUPERSEDED when a later one commits (log entry 69). -/
def frameSourceBody (p : List Byte) (id : SlipId) (s : State) : SlipOut := do
  houseOpen s
  let src := arg p 16 1
  let trunk := arg p 17 1
  let flags := arg p 18 1
  let off := toInt 32 (arg p 20 4)
  let foreign := 2 ≤ (s.port (128 + trunk)).cfg.setting
  fields [⟨16, 1, 1 ≤ src && src ≤ 3⟩, ⟨17, 1, if src = 2 then trunk < 16 else trunk = 0⟩,
    ⟨18, 1, flags < 4 && (flags < 2 || (src == 2 && !foreign))⟩, ⟨19, 1, arg p 19 1 < 4⟩,
    ⟨20, 4, if src = 1 then -62499 ≤ off && off ≤ 62500 else off = 0⟩, ⟨24, 1, arg p 24 1 ≤ 50⟩] p
  let slew := arg p 24 1
  let sel : FrameSel := { src := src, trunk := trunk, revertive := flags.testBit 0, phase := flags.testBit 1,
                          bandwidth := arg p 19 1, offset := off, slew := if slew = 0 then 10 else slew }
  let s := match s.frame.pendSel with
    | some (_, old) => complete old St.superseded 0 [] s
    | none => s
  accept { s with frame.pendSel := some (sel, id) }

def execFrameSource (h : SlipHdr) (p : List Byte) (s : State) : Host.Outcome State Fault Refusal :=
  slip 0x0101 .ordinary h p (frameSourceBody p) s

def frameNumberSetBody (p : List Byte) (id : SlipId) (s : State) : SlipOut := do
  houseOpen s
  let v := w32 (arg p 16 4)
  let f := w32 (arg p 20 4)
  let ahead := (f - s.frame.number).toNat
  fields [⟨16, 4, true⟩, ⟨20, 4, 1 ≤ ahead && ahead ≤ 65535⟩] p
  let s := match s.frame.pendNumber with
    | some (_, _, old) => complete old St.superseded 0 [] s
    | none => s
  accept { s with frame.pendNumber := some (v, f, id) }

def execFrameNumberSet (h : SlipHdr) (p : List Byte) (s : State) : Host.Outcome State Fault Refusal :=
  slip 0x0102 .ordinary h p (frameNumberSetBody p) s

/-- Step 1 (R31): the number increments, is loaded, or is 0 at the boundary that opens frame 0. -/
def advanceNumber (s : State) : State :=
  if s.cfg.frame0Due then { s with frame.number := 0, frame.slot := 0, frame.cycle := 0 }
  else match s.frame.pendNumber with
    | some (v, f, id) =>
      if s.frame.number + 1 = f then
        complete id St.ok 0 [] { s with frame.number := v, frame.slot := 0, frame.cycle := 0, frame.pendNumber := none }
      else { s with frame.number := s.frame.number + 1, frame.slot := 0, frame.cycle := 0 }
    | none => { s with frame.number := s.frame.number + 1, frame.slot := 0, frame.cycle := 0 }

end Sys2Proof.Machine
end

