-- ==== Sys2Proof/Machine/Stock.lean ====
section
/-! DEFINITION. Stocktake: in-service slices, whole-bay tests, results, repairs and the repair record ("Stocktake: built-in
self-test and repair"; R394). -/

namespace Sys2Proof.Machine
open Sys2Proof

/-! ## Carrels, spares and test entries -/

/-- The controller of a bay (R17): eight bays above each base quadrant. -/
def quadrant (b : Nat) : Nat := b / 8

/-- The logical position that a physical carrel serves. -/
def State.servedBy (s : State) (b ph : Nat) : Option Nat := (List.range 36).find? fun c => s.phys b c == ph

/-- A carrel as an event's subject: bay × 38 + position (R400). -/
def carrelSubject (b ph : Nat) : Nat := b * 38 + ph

/-- The spare serves no position, is not marked failed, and no remap that is pending has it (R335, R337). -/
def State.spareFree (s : State) (b ph : Nat) : Bool :=
  !s.stock.failedSpares.contains (carrelSubject b ph) && (s.servedBy b ph).isNone &&
    !(s.stock.pendRemaps.any fun x => x.1 == b && x.2.2.2 == some ph)

/-- A bank of the physical carrel's quad is retired. -/
def State.quadRetired (s : State) (b ph : Nat) : Bool :=
  s.mem.retired.any fun r => r.bank && r.index / 4 == carrelSubject b ph

def hasTestEntry (r : RotaSt) : Bool := r.entries.any fun w => entryFolio w == 9

/-- R329: every position of the bay has a test entry in the rota it has or will have. -/
def State.testable (s : State) (b : Nat) : Bool :=
  (List.range 36).all fun c =>
    hasTestEntry (if s.bayMode b == .bindery then s.rotaAhead [] (ckey b c) else (s.carrel (ckey b c)).rota)

def State.isDeclared (s : State) (b : Nat) : Bool := getBit s.stock.declared b

/-! ## The logic test's generator and signature (R326; log entry 82) -/

/-- One step of a 64-bit register with polynomial x^64 + x^63 + x^61 + x^60 + 1. -/
def lfsr64 (v : BitVec 64) : BitVec 64 :=
  (v <<< 1) ||| (if (v.getLsbD 63 ^^ v.getLsbD 62) ^^ (v.getLsbD 60 ^^ v.getLsbD 59) then 1 else 0)

/-- The generator before a pattern: 80 shifts for each pattern before it, from its seed. Bit c feeds chain c. -/
def generatorAt (pattern : Nat) : BitVec 64 := Nat.repeat lfsr64 (80 * pattern) (BitVec.allOnes 64)

/-- A carrel's generator, and its generator at the start of the block in progress (R330). -/
def SliceSt.generator (t : SliceSt) : BitVec 64 := generatorAt t.pattern
def SliceSt.blockGenerator (t : SliceSt) : BitVec 64 := generatorAt t.blockStart

/-- The signature register takes in what the chains shift out, from zero at a block's start. -/
def compact (chains : List (BitVec 64)) : BitVec 64 := chains.foldl (fun v w => lfsr64 v ^^^ w) 0

/-- The signature of a block is the one expected. -/
def signatureMet (block : Nat) (chains : List (BitVec 64)) : Bool := compact chains == Config.blockSignature block

/-! ## Slices (R330) -/

/-- The round-robin order of controller q: protected carrels of bays in Service that have a test entry, those whose test has
stopped passed over. -/
def State.sliceOrder (s : State) (q : Nat) : List Nat :=
  ((List.range 8).map (8 * q + ·)).flatMap fun b =>
    if s.isDeclared b && s.bayMode b == .service then
      ((List.range 36).map (ckey b)).filter fun k => hasTestEntry (s.carrel k).rota && !(s.slice k).stopped
    else []

/-- The order from the carrel after the one served last. -/
def State.sliceTurn (s : State) (q : Nat) : List Nat :=
  let l := s.sliceOrder q
  let last := nth s.stock.lastServed q
  (l.filter fun k => last < k) ++ l.filter fun k => k ≤ last

/-- Each controller gives the frame's slices, at most 4, to the next carrels of its order; one already in its test entry
begins at once. -/
def grantSlices (s : State) : State :=
  (List.range 4).foldl (fun s q =>
    let l := (s.sliceTurn q).take 4
    let s := { s with
      stock.granted := s.stock.granted ++ l
      stock.lastServed := s.stock.lastServed.set q (l.getLast?.getD (nth s.stock.lastServed q)) }
    l.foldl (fun s k =>
      let c := s.carrel k
      if s.rotasRun (k / 36) && c.curFolio == 9 then
        beginSlice k ((c.rota.entries[c.cur]?).getD 0) (s.modCarrel k fun t => { t with slicing := true })
      else s) s) s

/-- A frame ends: the slices of spoiled bays are discarded, and each round in progress is a frame longer. -/
def settleSlices (s : State) : State :=
  let s := s.stock.ran.foldl (fun s k =>
    if getBit s.stock.spoiled (k / 36) then
      { s.modSlice k (fun t => { t with pattern := t.blockStart, left := 0 }) with
        stock.discarded := bump 255 s.stock.discarded (k / 288) }
    else s) s
  { s with
    stock.granted := [],
    stock.ran := [],
    stock.spoiled := 0,
    stock.roundFrames := (List.range 4).map fun q =>
      if (s.sliceOrder q).isEmpty then nth s.stock.roundFrames q else sat 0xFFFF (nth s.stock.roundFrames q) 1 }

/-- Slices of these bays in this frame are discarded at its end: a CLOCK_TRIP spoils all, a rail its bay's. -/
def spoil (m : BitVec 32) (s : State) : State := { s with stock.spoiled := s.stock.spoiled ||| m }

/-! ## Results (R334) -/

/-- A result entry of 16 bytes, kept while the buffer has room. -/
def keepResult (l : List Byte) (s : State) : State :=
  if s.stock.results.length < 256 then
    { s with stock.results := s.stock.results ++ [BitVec.ofNat 128 (ofLe (slice (slice l 0 12 ++ leBytes 4 s.frame.number.toNat) 0 16))] }
  else s

/-- Flags of an outcome: applied, pending, unrepairable, persisted; 0 reported only to 4 as STK_FAIL_INFO codes it, and whether the
record has the repair. -/
def resultFlags (diagnosed : Bool) (outcome : Nat) (kept : Bool) : Byte :=
  BitVec.ofNat 8 (pack [(1, bitOf diagnosed), (1, bitOf (outcome == 1 || outcome == 2)), (1, bitOf (outcome == 3)),
    (1, bitOf (outcome == 4)), (1, bitOf (outcome == 2 || (outcome == 3 && kept)))])

def logicBytes (kind b ph block : Nat) (diag : Option (Nat × Nat × Nat)) (flags : Byte) : List Byte :=
  let d := diag.getD (0, 0, 0)
  [BitVec.ofNat 8 kind, BitVec.ofNat 8 b, BitVec.ofNat 8 ph, flags] ++ leBytes 2 block ++
    [BitVec.ofNat 8 d.1, BitVec.ofNat 8 d.2.1] ++ leBytes 2 d.2.2

/-- A cell column as its bit and column position (R327). -/
def colBit (col : Nat) : Nat := col / 8
def colPos (col : Nat) : Nat := col % 8

/-- A cell of a bank as row and cell column, from its line and stored bit (R327). -/
def cellOf (x : Nat × Nat) : Nat × Nat := (x.1 / 8, 8 * x.2 + x.1 % 8)

def bankBytes (b ph k : Nat) (cells : List (Nat × Nat)) (flags : Byte) : List Byte :=
  let c := cells.headD (0, 0)
  [0x02, BitVec.ofNat 8 b, BitVec.ofNat 8 ph, flags, BitVec.ofNat 8 k, BitVec.ofNat 8 c.1, BitVec.ofNat 8 (colPos c.2)] ++
    leBytes 2 (colBit c.2) ++ [0] ++ leBytes 2 (min 0xFFFF cells.length)

/-- A failure is counted, and becomes the latest. -/
def noteFail (log bit outcome : Nat) (s : State) : State :=
  { s with stock.failLog := w32 log, stock.failBit := bit, stock.outcome := outcome,
           stock.failures := sat 0xFFFF s.stock.failures 1 }

/-- The desk handles a result: a transient is informed of, a failure logged and alarmed; a transient that finds the buffer full is
counted with the failures (R331, R334). -/
def handleResult (w : ResultWork) (s : State) : State :=
  if w.transient then
    info 0x0A07 w.subject [] (if s.stock.results.length < 256 then keepResult w.bytes s
      else { s with stock.failures := sat 0xFFFF s.stock.failures 1 })
  else alarm 0x0A01 w.subject [] (keepResult w.bytes (noteFail w.log w.bit w.outcome s))

/-- Core cycles that the handling of a result takes: open, within the frame's 10,000 (R46). -/
def resultCycles (n : Nat) : Nat := (Config.freeValue n).toNat % 10001

/-- A controller's result reaches the desk, behind those that wait; beyond the frame's cycles it waits too (R46, R48). -/
def deskResult (w : ResultWork) (s : State) : State :=
  let n := resultCycles s.frame.freeCount
  if s.stock.inbox.isEmpty && (s.stock.deskCycles == 0 || s.stock.deskCycles + n ≤ 10000) then
    handleResult w { s.useFree with stock.deskCycles := s.stock.deskCycles + n }
  else { s with stock.inbox := s.stock.inbox ++ [w] }

/-- A frame begins: what the desk deferred comes first. -/
def deskResults (s : State) : State :=
  s.stock.inbox.foldl (fun s w => deskResult w s) { s with stock.inbox := [], stock.deskCycles := 0 }

def logicLog (b ph block : Nat) (diag : Option (Nat × Nat × Nat)) : Nat :=
  pack [(7, (diag.map (·.2.1)).getD 0x7F), (6, (diag.map (·.1)).getD 0), (7, block), (6, ph), (5, b), (1, 0)]

def bankLog (b ph k : Nat) (cells : List (Nat × Nat)) : Nat :=
  let c := cells.headD (0, 0)
  pack [(7, 0), (3, colPos c.2), (8, c.1), (2, k), (6, ph), (5, b), (1, 1)]

/-! ## Repairs (R335) -/

/-- Physical bank index: (bay × 38 + carrel) × 4 + bank. -/
def physBank (b ph k : Nat) : Nat := (b * 38 + ph) * 4 + k

/-- A bank loses its contents (R224). -/
def loseBank (n : Nat) (s : State) : State :=
  { s with mem.layer := cellsDrop s.mem.layer (n * 65536) 65536, mem.zeroed := s.mem.zeroed.filter (· != n) }

/-- The spare's folios hold nothing yet; those of the position that were not empty count as loaded, to be written when the bay
leaves Bindery (R90). -/
def carryFolio (old : FolioSt) : FolioSt :=
  if namable old.state then { FolioSt.dflt with state := .loaded, catalogue := old.catalogue } else { FolioSt.dflt with state := old.state }

/-- Position c passes to spare ph: the spare's quad holds nothing written, and the in-service test begins anew (R90, R331). -/
def remapTo (b c ph : Nat) (s : State) : State :=
  let olds := (List.range 8).map fun f => s.folio (fkey b c f)
  let s := s.modBay b fun t => { t with
    c36 := if ph = 36 then some c else if t.c36 = some c then none else t.c36
    c37 := if ph = 37 then some c else if t.c37 = some c then none else t.c37 }
  let s := (olds.zipIdx).foldl (fun s x => s.modFolio (fkey b c x.2) fun _ => carryFolio x.1) s
  let s := (List.range 4).foldl (fun s k => loseBank (physBank b ph k) s) s
  { s.modSlice (ckey b c) (fun _ => .dflt) with fab.remapped := s.fab.remapped ++ [ckey b c] }

def remapEntry (b c ph : Nat) : List Byte := recordEntry [0x10, BitVec.ofNat 8 b, BitVec.ofNat 8 c, BitVec.ofNat 8 ph]
def rowEntry (n sp row : Nat) : List Byte := recordEntry (0x11 :: leBytes 2 n ++ [BitVec.ofNat 8 sp, BitVec.ofNat 8 row])
def colEntry (n col : Nat) : List Byte := recordEntry (0x12 :: leBytes 2 n ++ leBytes 2 col)
def failedEntry (b ph : Nat) : List Byte := recordEntry [0x13, BitVec.ofNat 8 b, BitVec.ofNat 8 ph]

def persistIf (c : Bool) (e : List Byte) (s : State) : State := if c then persist e s else s

/-- A spare that fails is never chosen again. -/
def markSpare (b ph : Nat) (keep : Bool) (s : State) : State :=
  if 36 ≤ ph && !s.stock.failedSpares.contains (carrelSubject b ph) then
    persistIf keep (failedEntry b ph) { s with stock.failedSpares := s.stock.failedSpares ++ [carrelSubject b ph] }
  else s

/-- The lowest free spare. -/
def State.spareFor (s : State) (b : Nat) : Option Nat := [36, 37].find? fun sp => s.spareFree b sp && !s.quadRetired b sp

/-- A failing carrel that serves a position passes it to the lowest free spare: in Bindery at once, in Closing in the record, and
pending (R90, R335, R336). Answers the outcome as STK_FAIL_INFO codes it. -/
def repairCarrel (b ph : Nat) (keep : Bool) (s : State) : Nat × State :=
  match s.servedBy b ph with
  | none => (0, s)
  | some c =>
    match s.spareFor b with
    | some sp =>
      let r := persistIf keep (remapEntry b c sp) s
      if s.bayMode b == .bindery then (if keep then 2 else 1, remapTo b c sp r)
      else (3, { r with stock.pendRemaps := r.stock.pendRemaps ++ [(b, c, keep, some sp)] })
    | none => (4, alarm 0x0A02 (carrelSubject b ph) [] s)

/-- A cover of failing cells: the column used, if any, and the rows. -/
structure Cover where
  col : Option Nat
  rows : List Nat

def Cover.size (c : Cover) : Nat := c.rows.length + (if c.col.isSome then 1 else 0)

/-- The rows left when a column covers its cells. -/
def rowsLeft (cells : List (Nat × Nat)) (col : Option Nat) : List Nat :=
  ((cells.filter fun x => some x.2 != col).map (·.1)).eraseDups

/-- The cover with the fewest spares within those left, a column preferred among equals, the lowest column among columns. -/
def bestCover (cells : List (Nat × Nat)) (rowSpares colSpares : Nat) : Option Cover :=
  let cols := if colSpares = 0 then [] else sortBy (fun a b => decide (a ≤ b)) ((cells.map (·.2)).eraseDups)
  let all := cols.map (fun c => Cover.mk (some c) (rowsLeft cells (some c))) ++ [Cover.mk none (rowsLeft cells none)]
  let fit := all.filter fun c => c.rows.length ≤ rowSpares
  fit.foldl (fun best c => match best with
    | some (d : Cover) => if c.size < d.size then some c else some d
    | none => some c) none

def State.rowsUsed (s : State) (n : Nat) : List Nat := (s.stock.rows.filter fun r => r.1 == n).map (·.2.1)
def State.colUsed (s : State) (n : Nat) : Bool := s.stock.columns.any fun c => c.1 == n

def useRow (n sp row : Nat) (keep : Bool) (s : State) : State :=
  persistIf keep (rowEntry n sp row) (loseBank n { s with stock.rows := s.stock.rows ++ [(n, sp, row)] })

def useCol (n col : Nat) (keep : Bool) (s : State) : State :=
  persistIf keep (colEntry n col) (loseBank n { s with stock.columns := s.stock.columns ++ [(n, col)] })

/-- A failing bank: covered by its spares, else its carrel is remapped. -/
def repairBank (b ph k : Nat) (cells : List (Nat × Nat)) (keep : Bool) (s : State) : Nat × State :=
  let n := physBank b ph k
  match bestCover cells (2 - (s.rowsUsed n).length) (if s.colUsed n then 0 else 1) with
  | some c =>
    let s := match c.col with
      | some x => useCol n x keep s
      | none => s
    let s := c.rows.foldl (fun s row => useRow n (if (s.rowsUsed n).contains 0 then 1 else 0) row keep s) s
    (if keep then 2 else 1, s)
  | none => repairCarrel b ph keep (markSpare b ph keep s)

/-- One failure of a whole-bay test: repaired under the repair mode, and kept as a result. -/
def testFault (b mode : Nat) (f : TestFault) (s : State) : State :=
  match f with
  | .logic ph block diag =>
    let s := markSpare b ph.val (mode == 2) s
    let r := if mode = 0 then (0, s) else repairCarrel b ph.val (mode == 2) s
    deskResult { bytes := logicBytes 1 b ph.val block diag (resultFlags diag.isSome r.1 (mode == 2)), transient := false
                 log := logicLog b ph.val block diag, bit := 0x1FF, outcome := r.1, subject := carrelSubject b ph.val } r.2
  | .bank ph k at_ =>
    let cells := at_.map cellOf
    let r := if mode = 0 then (0, s) else repairBank b ph.val k.val cells (mode == 2) s
    deskResult { bytes := bankBytes b ph.val k.val cells (resultFlags false r.1 (mode == 2)), transient := false
                 log := bankLog b ph.val k.val cells, bit := colBit (cells.headD (0, 0)).2, outcome := r.1
                 subject := carrelSubject b ph.val } r.2

/-! ## A block in a slice (R331) -/

/-- The reaction to a failed rerun: the carrel's test stops, and its bay's policy is acted on. -/
def sliceFail (b c block : Nat) (s : State) : State :=
  let policy := Sparse.get 0 s.stock.policy b
  let ph := s.phys b c
  let outcome := if policy = 0 then 0 else 3
  let s := s.modSlice (ckey b c) fun t => { t with stopped := true, left := 0, rerun := false }
  let s := if policy = 0 then s else { s with stock.pendRemaps := s.stock.pendRemaps ++ [(b, c, policy == 2, none)] }
  deskResult { bytes := logicBytes 1 b ph block none (resultFlags false outcome false), transient := false
               log := logicLog b ph block none, bit := 0x1FF, outcome := outcome, subject := carrelSubject b ph } s

/-- The block passes: its patterns are done; a rerun that passes was a transient. -/
def slicePass (b c block : Nat) (s : State) : State :=
  let k := ckey b c
  let was := (s.slice k).rerun
  let next := (s.slice k).blockStart + 128
  let s := s.modSlice k fun t => { t with
    left := if next = 16384 then 0 else t.left - (next - t.pattern), pattern := next % 16384, blockStart := next % 16384
    rerun := false, completed := t.completed || next == 16384 }
  if was then
    deskResult { bytes := logicBytes 3 b (s.phys b c) block none 0, transient := true, log := 0, bit := 0, outcome := 0
                 subject := carrelSubject b (s.phys b c) }
      { s with stock.transient := bump 255 s.stock.transient (quadrant b) }
  else s

/-- The controller counts a round when every carrel of its order has completed. -/
def countRound (q : Nat) (s : State) : State :=
  let l := s.sliceOrder q
  if l.isEmpty || l.any (fun k => !(s.slice k).completed) then s
  else
    let s := l.foldl (fun s k => s.modSlice k fun t => { t with completed := false }) s
    { s with
      stock.rounds := bump 255 s.stock.rounds q
      stock.lastRound := s.stock.lastRound.set q (nth s.stock.roundFrames q)
      stock.roundFrames := s.stock.roundFrames.set q 0 }

def blockCompare (b c : Nat) (pass : Bool) (s : State) : State :=
  let k := ckey b c
  let t := s.slice k
  let block := t.blockStart / 128
  if !(s.carrel k).slicing || t.pattern + t.left < t.blockStart + 128 then s
  else if pass then countRound (quadrant b) (slicePass b c block s)
  else if t.rerun then countRound (quadrant b) (sliceFail b c block s)
  else s.modSlice k fun t => { t with rerun := true, pattern := t.blockStart, left := 0 }

def execStockBlockCompare (b : Bay) (c : Pos) (chains : List (BitVec 64)) (s : State) : Host.Outcome State Fault Refusal :=
  run (when (s.rotasRun b.val) (blockCompare b.val c.val
    (signatureMet ((s.slice (ckey b.val c.val)).blockStart / 128) chains))) s

/-- A pending remap is made: to the spare that the record names already, where it is still fit, or to the lowest free one. -/
def applyRemap (b c : Nat) (keep : Bool) (named : Option Nat) (s : State) : State :=
  let ph := s.phys b c
  let s := markSpare b ph keep s
  match named.filter fun sp => s.spareFree b sp && !s.quadRetired b sp with
  | some sp => remapTo b c sp s
  | none => (repairCarrel b ph keep s).2

/-- The remaps pending under R331 and R335 are made at the bay's entry to Bindery. -/
def applyPendRemaps (b : Nat) (s : State) : State :=
  let mine := s.stock.pendRemaps.filter fun x => x.1 == b
  mine.foldl (fun s x => applyRemap b x.2.1 x.2.2.1 x.2.2.2 { s with stock.pendRemaps := s.stock.pendRemaps.erase x }) s

/-- R90: when the bay leaves Bindery, the folios of remapped positions are loaded from their archive copies, by the loader. -/
def loadRemapped (b : Nat) (s : State) : State :=
  let mine := s.fab.remapped.filter fun k => k / 36 == b
  let keys := mine.flatMap fun k => ((List.range 8).map (k * 8 + ·)).filter fun fk =>
    namable (s.folio fk).state && !(s.fab.loads.any fun x => x.key == fk)
  let s := { s with fab.remapped := s.fab.remapped.filter fun k => k / 36 != b }
  if keys.isEmpty then s else startLoad .folios none keys s

/-! ## Whole-bay tests (R332, R333) -/

def State.test? (s : State) (b : Nat) : Option TestSt := Sparse.look s.stock.tests b
def State.setTest (s : State) (b : Nat) (t : TestSt) : State := { s with stock.tests := Sparse.ins s.stock.tests b t }

/-- A controller tests one bay at a time. -/
def State.stockBusy (s : State) (q : Nat) : Bool := s.stock.tests.any fun (b, _) => quadrant b == q
def State.stockRuns (s : State) (q : Nat) : Bool := s.stock.tests.any fun (b, t) => quadrant b == q && t.running

def State.clockBad (s : State) : Bool := !getBit s.clk.loopLock 0 || s.clk.onFallback 0
def State.vinBad (s : State) : Bool := s.pwr.vinMv < 11400 || 12600 < s.pwr.vinMv
def State.railsBad (s : State) : Bool := s.pwr.railOut != 0
def State.stockConditions (s : State) : Bool := !s.clockBad && !s.vinBad && !s.railsBad

def noteConditions (s : State) : State :=
  { s with stock.condClock := s.clockBad, stock.condVin := s.vinBad, stock.condRails := s.railsBad }

/-- A Closing whose drain has ended, and that has frames left of the test it was granted, covers the bay. -/
def State.closingTest (s : State) (b : Nat) : Option ClosingSt :=
  s.modes.closing.find? fun c => c.drained && c.left != 0 && !c.tested.contains b &&
    (match c.dom with
      | .house => (List.range b).all fun x => quadrant x != quadrant b || c.tested.contains x
      | .bay x => x.val == b
      | .port _ => false)

/-- The bay's shut-down test has ended or was refused. -/
def closeTested (b : Nat) (s : State) : State :=
  { s with modes.closing := s.modes.closing.map fun c => match c.dom with
      | .port _ => c
      | .bay x => if x.val = b then { c with tested := b :: c.tested } else c
      | .house => { c with tested := b :: c.tested } }

def refuseTest (b : Nat) (id : Option SlipId) (s : State) : State :=
  let s := { noteConditions s with stock.tests := Sparse.del s.stock.tests b }
  warn 0x0A05 b [] (completeOpt id St.stockConditions (closeTested b s))

/-- The test that can start in the bay now: one a STOCK_RUN asked for, or a Closing's. -/
def State.dueTest (s : State) (b : Nat) : Option TestSt :=
  match s.test? b with
  | some t => if t.running || s.bayMode b != .bindery then none else some t
  | none => match s.closingTest b with
    | some c => if s.stockBusy (quadrant b) then none
      else some { logic := true, banks := true, poolBanks := false, repair := 2, budget := c.left, paused := false,
                  running := false, stop := none, id := none }
    | none => none

/-- The test folio of every physical carrel of a bay is loaded, or cleared (R328, R332). -/
def loadTests (b : Nat) (s : State) : State := (List.range 38).foldl (fun s ph => loadTest b ph s) s
def clearTests (b : Nat) (s : State) : State := (List.range 38).foldl (fun s ph => clearTest b ph s) s

def testStart (b : Nat) (s : State) : State :=
  match s.dueTest b with
  | none => s
  | some t =>
    if s.stockConditions then when t.logic (loadTests b) (s.setTest b { t with running := true })
    else refuseTest b t.id s

def execStockTestStart (b : Bay) (s : State) : Host.Outcome State Fault Refusal := run (when s.awake (testStart b.val)) s

/-- R328: the banks of the bay whose contents are not in use. -/
def State.eligibleBanks (s : State) (b : Nat) (pool : Bool) : List Nat :=
  (List.range 38).flatMap fun ph => ((List.range 4).filter fun k =>
    match s.servedBy b ph with
    | none => 36 ≤ ph
    | some c =>
      let t := s.bank (lbank b c k)
      !t.pool || (pool && t.user == 0x13)).map (physBank b ph)

/-- A logic test that ran all its blocks restarts the in-service test of the carrels that passed. -/
def restartPassed (b : Nat) (faults : List TestFault) (s : State) : State :=
  let bad := faults.filterMap fun f => match f with
    | .logic ph _ _ => some ph.val
    | .bank _ _ _ => none
  (List.range 36).foldl (fun s c =>
    if (s.slice (ckey b c)).stopped && !bad.contains (s.phys b c) then s.modSlice (ckey b c) fun _ => .dflt else s) s

/-- How the test can end now: a bay that has left the mode of its test is superseded. -/
def State.testEnds (s : State) (b : Nat) (t : TestSt) (how : TestEnd) : Option TestEnd :=
  if s.bayMode b != (if t.id.isSome then .bindery else .closing) then some .superseded
  else if !t.running then none
  else match t.stop, how with
    | some .conditions, _ => some .conditions
    | some _, .done => some .done
    | some x, _ => some x
    | none, .done => if t.paused then none else some .done
    | none, _ => none

def endStatus : TestEnd → BitVec 16
  | .done => St.ok | .budget => St.ok | .conditions => St.stockConditions | .superseded => St.superseded

/-- The banks that a test has tested when it ends: all that it may, or those done before a stop. -/
def TestSt.banksDone (t : TestSt) (how : TestEnd) (may done : List Nat) : List Nat :=
  if !t.banks || !t.running then [] else if how == .done then may else may.filter done.contains

def testEnd (b : Nat) (how : TestEnd) (blocks : Nat) (tested : List Nat) (faults : List TestFault) (s : State) : State :=
  match s.test? b with
  | none => s
  | some t => match s.testEnds b t how with
    | none => s
    | some how =>
      let banks := t.banksDone how (s.eligibleBanks b t.poolBanks) tested
      let s := clearTests b (banks.foldl (fun s n => loseBank n s) { s with stock.tests := Sparse.del s.stock.tests b })
      let faults := if t.running then faults else []
      let s := faults.foldl (fun s f => match f with
        | .logic ph _ _ => markSpare b ph.val (t.repair == 2) s
        | .bank _ _ _ => s) s
      let s := faults.foldl (fun s f => testFault b t.repair f s) s
      let s := if how == .done && t.logic then restartPassed b faults s else s
      let s := if how == .conditions then noteConditions s else s
      let result := leBytes 2 (if !t.logic then 0 else if how == .done then 128 else min 128 blocks) ++ leBytes 2 banks.length ++
        leBytes 2 (if t.banks then 152 - banks.length else 0) ++ leBytes 2 faults.length
      let s := closeTested b s
      match t.id with
      | some id => complete id (endStatus how) 0 result s
      | none => s

def execStockTestEnd (b : Bay) (how : TestEnd) (ran : TestRun) (faults : List TestFault) (s : State) :
    Host.Outcome State Fault Refusal :=
  run (testEnd b.val how ran.blocks ran.banks faults) s

/-- A frame more of a test that runs: its conditions are checked, its budget shrinks, and the column's temperature pauses it. -/
def countTest (b : Nat) (t : TestSt) (s : State) : State :=
  let temp := (s.node b).temp
  let stop := if t.stop == some .conditions || !s.stockConditions then some .conditions
    else if t.budget ≤ 1 then some .budget else none
  let s := if s.stockConditions then s else noteConditions s
  s.setTest b { t with budget := t.budget - 1, paused := 1600 ≤ temp || (t.paused && 1568 ≤ temp), stop := stop }

/-- A frame boundary's part of the tests; a Closing's frames are one budget for all the bays it tests (R332, R333). -/
def countTests (s : State) : State :=
  let s := s.stock.tests.foldl (fun s (b, t) => if t.running then countTest b t s else s) s
  { s with modes.closing := s.modes.closing.map fun c => if c.drained then { c with left := c.left - 1 } else c }

/-- The tests that a drained Closing was granted have ended, or its frames have. -/
def State.testsDone (s : State) (c : ClosingSt) : Bool :=
  let mine := fun b => c.tested.contains b || (c.left == 0 && (s.test? b).isNone)
  c.test == 0 || (match c.dom with
    | .house => (List.range 32).all mine
    | .bay b => mine b.val
    | .port _ => true)

/-! ## The repair record (R336) -/

def copyBase (c : Nat) : Nat := if c = 0 then 0x60000000 else 0x60800000
def copySize : Nat := 0x800000

/-- A valid copy: its sequence number and entries. -/
def readCopy (m : List Host.Cell) (c : Nat) : Option (Nat × List (List Byte)) :=
  let h := flashBytes m (copyBase c) 64
  let n := leAt h 8 4
  if leAt h 0 4 != 0xD15C0B0E || copySize < 64 + 16 * n then none
  else
    let body := flashBytes m (copyBase c + 64) (16 * n)
    if crc32 body != leAt h 12 4 then none
    else some (leAt h 4 4, (List.range n).map fun i => slice body (16 * i) 16)

/-- Sequence of a copy; an invalid one is the lower. -/
def copySeq (m : List Host.Cell) (c : Nat) : Int := ((readCopy m c).map fun x => (x.1 : Int)).getD (-1)

def copyBytes (seq : Nat) (l : List (List Byte)) : List Byte :=
  leBytes 4 0xD15C0B0E ++ leBytes 4 seq ++ leBytes 4 l.length ++ leBytes 4 (crc32 l.flatten) ++ leBytes 48 0 ++ l.flatten

/-- The new record goes into the copy with the lower number; one that does not fit leaves the previous record in force. -/
def recordDone (s : State) : State :=
  match s.stock.recordWrite with
  | none => s
  | some l =>
    let s := { s with stock.recordWrite := none }
    if copySize < 64 + 16 * l.length then warn 0x0A06 0 [] s
    else
      let a := copySeq s.cfg.flash 0
      let b := copySeq s.cfg.flash 1
      let c := if b < a then 1 else 0
      let seq := (max a b + 1).toNat
      { s with
        cfg.flash := flashPut (cellsDrop s.cfg.flash (copyBase c) copySize) (copyBase c) (copyBytes seq l)
        stock.record := l
        stock.recordSeq := seq }

def execRepairRecordWriteDone (s : State) : Host.Outcome State Fault Refusal := run (when s.awake recordDone) s

/-- One entry of the record is applied at a start; the second answer counts the entries ignored. -/
def applyRecord (acc : State × Nat) (e : List Byte) : State × Nat :=
  let s := acc.1
  let k := leAt e 0 1
  let n := leAt e 1 2
  if k = 0x10 then (remapTo (leAt e 1 1) (leAt e 2 1) (leAt e 3 1) s, acc.2)
  else if k = 0x11 then ({ s with stock.rows := s.stock.rows ++ [(n, leAt e 3 1, leAt e 4 1)] }, acc.2)
  else if k = 0x12 then ({ s with stock.columns := s.stock.columns ++ [(n, leAt e 3 2)] }, acc.2)
  else if k = 0x13 then
    ({ s with stock.failedSpares := s.stock.failedSpares ++ [carrelSubject (leAt e 1 1) (leAt e 2 1)] }, acc.2)
  else if k = 0x14 then
    ({ s with mem.retired := s.mem.retired ++ [{ bank := false, index := leAt e 1 3, inForce := true }] }, acc.2)
  else if k = 0x15 then
    ({ s with mem.retired := s.mem.retired ++ [{ bank := true, index := n, inForce := true }] }, acc.2)
  else (s, acc.2 + 1)

/-- R267 step 1: the copy with a valid CRC and the higher number. -/
def loadRecord (s : State) : State :=
  let best := match readCopy s.cfg.flash 0, readCopy s.cfg.flash 1 with
    | some x, some y => some (if x.1 < y.1 then y else x)
    | some x, none => some x
    | none, y => y
  match best with
  | none => alarm 0x0A03 0 [(16, 0)] s
  | some (seq, l) =>
    let r := l.foldl applyRecord ({ s with stock.record := l, stock.recordSeq := seq }, 0)
    let s := { r.1 with fab.remapped := [] }
    if r.2 = 0 then s else alarm 0x0A03 0 [(16, r.2)] s

/-! ## Registers -/

def State.stkStatus (s : State) : Nat :=
  pack [(8, min 255 s.stock.pendRemaps.length), (8, 0), (9, s.stock.results.length), (3, 0), (4, maskOf 4 s.stockRuns)]

/-- A declared bay with an untested carrel. -/
def State.untestable (s : State) (b : Nat) : Bool :=
  s.isDeclared b && (!s.testable b || (List.range 36).any fun c => (s.slice (ckey b c)).stopped)

def State.stkReg (s : State) (off : Nat) : Nat :=
  let t := s.stock
  let q := off / 4 % 4
  if off = 0x00 then s.stkStatus
  else if off = 0x04 then t.declared.toNat
  else if off = 0x08 then maskOf 32 s.untestable
  else if 0x10 ≤ off && off ≤ 0x1C then pack [(8, nth t.rounds q), (8, 0), (16, nth t.lastRound q)]
  else if 0x20 ≤ off && off ≤ 0x2C then pack [(8, nth t.transient q), (8, nth t.discarded q), (16, nth t.slices q)]
  else if off = 0x30 then t.failLog.toNat
  else if off = 0x34 then pack [(16, t.failures), (4, t.outcome), (3, 0), (9, t.failBit)]
  else if off = 0x38 then pack [(1, bitOf t.condClock), (1, bitOf t.condVin), (1, bitOf t.condRails)]
  else 0

/-- The registers of the STK block. -/
def stkOffsets : List Nat := [0x00, 0x04, 0x08, 0x10, 0x14, 0x18, 0x1C, 0x20, 0x24, 0x28, 0x2C, 0x30, 0x34, 0x38]

/-! ## Slips (R394) -/

def stockDeclareBody (p : List Byte) (s : State) : SlipOut := do
  let b := arg p 16 1
  let act := arg p 17 1
  bayIn s b [.service, .bindery]
  fields [⟨16, 1, b < 32⟩, ⟨17, 1, act < 2⟩, ⟨18, 1, if act = 1 then arg p 18 1 < 3 else arg p 18 1 = 0⟩] p
  if act = 0 then okSlip { s with stock.declared := setBit s.stock.declared b false }
  else do
    need (s.testable b) (fail St.stockNoWindow)
    let s := (List.range 36).foldl (fun s c =>
      if (s.slice (ckey b c)).stopped then s.modSlice (ckey b c) fun _ => .dflt else s) s
    okSlip { s with
      stock.declared := setBit s.stock.declared b true
      stock.policy := Sparse.put 0 s.stock.policy b (arg p 18 1)
      stock.noWindowTold := setBit s.stock.noWindowTold b false }

def execStockDeclare (h : SlipHdr) (p : List Byte) (s : State) : Host.Outcome State Fault Refusal :=
  slip 0x0A01 .ordinary h p (fun _ s => stockDeclareBody p s) s

def stockRunBody (p : List Byte) (id : SlipId) (s : State) : SlipOut := do
  let b := arg p 16 1
  let parts := arg p 17 1
  bayIn s b [.bindery]
  fields [⟨16, 1, b < 32⟩, ⟨17, 1, parts < 8 && parts % 4 != 0 && (parts < 4 || parts.testBit 1)⟩,
    ⟨18, 1, arg p 18 1 < 3⟩, ⟨20, 2, 1 ≤ arg p 20 2⟩] p
  need (!getBit s.clk.gatedBay b) (fail St.modeConflict)
  need (!s.stockBusy (quadrant b)) (fail St.stockBusy)
  let t : TestSt := { logic := parts.testBit 0, banks := parts.testBit 1, poolBanks := parts.testBit 2,
                      repair := arg p 18 1, budget := arg p 20 2, paused := false, running := false, stop := none, id := some id }
  accept (s.setTest b t)

def execStockRun (h : SlipHdr) (p : List Byte) (s : State) : Host.Outcome State Fault Refusal :=
  slip 0x0A02 .ordinary h p (stockRunBody p) s

def stockRepairBody (p : List Byte) (s : State) : SlipOut := do
  let b := arg p 16 1
  let kind := arg p 17 1
  let keep := arg p 18 1 == 1
  let two := arg p 20 2
  bayIn s b [.bindery]
  fields ([⟨16, 1, b < 32⟩, ⟨17, 1, kind < 3⟩, ⟨18, 1, arg p 18 1 < 2⟩] ++
    (if kind = 0 then [⟨20, 1, arg p 20 1 < 36⟩, ⟨21, 1, 36 ≤ arg p 21 1 && arg p 21 1 < 38⟩]
     else if kind = 1 then [⟨20, 2, two < 152⟩, ⟨22, 1, arg p 22 1 < 2⟩, ⟨23, 1, true⟩]
     else [⟨20, 2, two < 152⟩, ⟨22, 2, arg p 22 2 < 2304⟩])) p
  let n := b * 152 + two
  if kind = 0 then do
    let c := arg p 20 1
    let sp := arg p 21 1
    need (s.spareFree b sp) (fail St.repairNoSpare)
    okSlip (persistIf keep (remapEntry b c sp) (remapTo b c sp s))
  else if kind = 1 then do
    need (!(s.rowsUsed n).contains (arg p 22 1)) (fail St.repairNoSpare)
    okSlip (useRow n (arg p 22 1) (arg p 23 1) keep s)
  else do
    need (!s.colUsed n) (fail St.repairNoSpare)
    okSlip (useCol n (arg p 22 2) keep s)

def execStockRepair (h : SlipHdr) (p : List Byte) (s : State) : Host.Outcome State Fault Refusal :=
  slip 0x0A03 .ordinary h p (fun _ s => stockRepairBody p s) s

def stockHouse (s : State) : Except SlipErr Unit := houseIn s [.service, .bindery, .closing]

def stockResultBody (p : List Byte) (s : State) : SlipOut := do
  stockHouse s
  let n := arg p 16 1
  fields [⟨16, 1, 1 ≤ n && n ≤ 128⟩] p
  let l := s.stock.results.take n
  okResult { s with stock.results := s.stock.results.drop n }
    (leBytes 2 l.length ++ leBytes 14 0 ++ l.flatMap fun e => leBytes 16 e.toNat)

def execStockResult (h : SlipHdr) (p : List Byte) (s : State) : Host.Outcome State Fault Refusal :=
  slip 0x0A04 .ordinary h p (fun _ s => stockResultBody p s) s

def execStockQuery (h : SlipHdr) (p : List Byte) (s : State) : Host.Outcome State Fault Refusal :=
  slip 0x0A05 .passable h p (fun _ s => do
    stockHouse s
    fields [] p
    okResult s (stkOffsets.flatMap fun o => leBytes 4 (s.stkReg o))) s

/-- A declared bay that a rota change leaves without a test entry is told of once (R329). -/
def tellUntested (s : State) : State :=
  (List.range 32).foldl (fun s b =>
    if s.isDeclared b && !s.testable b && !getBit s.stock.noWindowTold b then
      warn 0x0A04 b [] { s with stock.noWindowTold := setBit s.stock.noWindowTold b true }
    else s) s

end Sys2Proof.Machine
end

