-- ==== Sys2Proof/Machine/Stream.lean ====
section
/-! DEFINITION. Streams, parts and their checks, start-up, the chain and the application of a part ("Configuration streams,
loading and start-up", R256 to R278). -/

namespace Sys2Proof.Machine
open Sys2Proof

/-! ## Parts (R258, R259, R264) -/

def headerLen : Nat := 128

/-- Length of a part by its header: header, segment table, body and trailer. -/
def partLen (l : List Byte) : Nat := 128 + 32 * leAt l 20 2 + leAt l 16 4 + 32

def partPosition (l : List Byte) : Nat := leAt l 10 1

/-- R270. -/
def validOrder (o : Nat) : Bool :=
  let codes := (List.range 5).map fun i => field o (3 * i + 2) (3 * i)
  o == 0 || (o < 32768 && codes.headD 0 == 1 && [2, 3, 4, 5].all fun k => codes.contains k)

/-- The header's faults in the order of "Table: part failures": 0x03, 0x04, 0x05. -/
def headerFault (l : List Byte) (reserve : Bool) : Option Nat :=
  let pos := partPosition l
  let flags := leAt l 11 1
  let segs := leAt l 20 2
  let zeros := leAt l 22 2 == 0 && (slice l 44 84).all (· == 0)
  if leAt l 0 4 != 0xD1C0F1A5 || leAt l 8 2 != 1 || !zeros || 2 ≤ flags || segs = 0 || 4096 < segs || leAt l 16 4 % 64 != 0 ||
      (8 ≤ pos && pos != 0xFF) || (reserve && (pos != 0xFF || flags != 1)) then some 0x03
  else if leAt l 4 4 != 0xD191440B then some 0x04
  else if !validOrder (leAt l 12 2) then some 0x05
  else none

/-- The trailer stands where the header says, within the bytes there are. -/
def trailerFault (l : List Byte) : Option Nat :=
  let n := partLen l
  if l.length < n || leAt l (n - 32) 4 != 0x7A11D1C0 || leAt l (n - 28) 4 != n then some 0x06 else none

def State.archiveUsed (s : State) : Nat := (s.cfg.archiveUse.map (·.2)).foldl (· + ·) 0

/-- What is wrong with a staged part before its tag is compared, in the order found. -/
def State.partFault (s : State) (l : List Byte) (reserve : Bool) : Option Nat :=
  match headerFault l reserve with
  | some c => some c
  | none =>
    if s.stagingRoom < partLen l then some 0x0A
    else if s.cfg.stageLost then some 0x09
    else match trailerFault l with
      | some c => some c
      | none => if s.pkg.streamKey.isNone then some 0x0F else none

/-! ## Flash (R256, R258) -/

def primaryEnd : Nat := 0x40000000
def reserveBase : Nat := 0x40000000
def reserveEnd : Nat := 0x60000000
def chainBase : Nat := 0x62000000
def flashEnd : Nat := 0x80000000

def inPartRegion (a len : Nat) : Bool :=
  a % 4096 == 0 && (a + len ≤ primaryEnd || (chainBase ≤ a && a + len ≤ flashEnd))

/-- The directory of the prefix: address and length of each part; none where the prefix fails (0x01). -/
def directory (m : List Host.Cell) : Option (List (Nat × Nat)) :=
  let p := flashBytes m 0 128
  let n := leAt p 6 1
  let entries := (List.range n).map fun k => (leAt p (16 + 8 * k) 4, leAt p (20 + 8 * k) 4)
  if leAt p 0 4 != 0x53504C44 || leAt p 4 2 != 1 || n = 0 || 8 < n || !entries.all (fun e => inPartRegion e.1 e.2) then none
  else some entries

/-- The bytes of the primary stream's part for a position, or the cause. -/
def flashPart (m : List Host.Cell) (pos : Nat) : Except Nat (List Byte) :=
  match directory m with
  | none => .error 0x01
  | some es => match es.find? (fun e => flashByte m (e.1 + 10) == BitVec.ofNat 8 pos) with
    | none => .error 0x02
    | some e => .ok (flashBytes m e.1 e.2)

/-- The reserve image as its header measures it. -/
def reservePart (m : List Host.Cell) : Except Nat (List Byte) :=
  let h := flashBytes m reserveBase headerLen
  match headerFault h true with
  | some c => .error c
  | none => if reserveEnd < reserveBase + partLen h then .error 0x06 else .ok (flashBytes m reserveBase (partLen h))

/-! ## Staging (R263) -/

/-- A part's bytes stand in the staging area. -/
def stagePart (l : List Byte) (s : State) : State :=
  let plain := match s.pkg.streamKey with
    | some k => plainPart k l
    | none => l
  areaWrite stagingPage 0 (plain.take s.stagingRoom) { s with cfg.staged := l, cfg.stagedBytes := l.length, cfg.stageState := 1 }

def clearStage (s : State) : State := { s with cfg.staged := [], cfg.stagedBytes := 0, cfg.stageState := 0, cfg.stageLost := false }

/-! ## Content (R264, R268) -/

/-- An entry of the segment table (R260): type, bay, offset and stored length in the body. -/
structure Segment where
  type : Nat
  bay : Nat
  off : Nat
  len : Nat

def segmentAt (l : List Byte) (i : Nat) : Segment :=
  let o := 128 + 32 * i
  ⟨leAt l o 1, leAt l (o + 1) 1, leAt l (o + 4) 4, leAt l (o + 8) 4⟩

/-- Segments lie in the body in table order. -/
def inOrder (at_ : Nat) (l : List Segment) : Bool :=
  match l with
  | [] => true
  | g :: r => at_ ≤ g.off && inOrder (g.off + g.len) r

/-- A segment's type is one of "Table: segment types", and its bay byte fits the type's scope. -/
def Segment.known (g : Segment) : Bool :=
  if 7 ≤ g.type && g.type ≤ 11 then g.bay == 255 else 1 ≤ g.type && g.type ≤ 12 && g.bay < 32

/-- No reserved segment type, no overlap, nothing past the body (R260, R264). -/
def segmentsOk (l : List Byte) : Bool :=
  let segs := (List.range (leAt l 20 2)).map (segmentAt l)
  segs.all Segment.known && inOrder 0 segs && segs.all fun g => g.off + g.len ≤ leAt l 16 4

/-- What the staged part holds, if its segments and their content can be read; bays are those of bay_mask, ascending (R267). -/
def State.content (s : State) : Option PartContent :=
  if !segmentsOk s.cfg.staged then none
  else (Config.partContent s.stagedPlain).map fun c => { c with
    bays := sortBy (fun a b => decide (a.bay ≤ b.bay)) (c.bays.filter fun b => (leAt s.cfg.staged 40 4).testBit b.bay && b.bay < 32) }

def calendarsOk (s : State) (l : List (Nat × List CalEntry × List CalEntry)) : Bool :=
  l.all fun (p, prot, ord) => (s.calendarFault p prot ord).isNone

/-- Enabled queues of each engine lie within its space and do not overlap (R191). -/
def queuesOk (s : State) : Bool :=
  s.queues.all fun (q, d) => !d.enable ||
    (d.run.1 + d.run.2 ≤ 8192 * s.spaceGroups (queueEngine q) &&
      (s.enabledRuns (queueEngine q) q).all fun (a, n) => a + n ≤ d.run.1 || d.run.1 + d.run.2 ≤ a)

/-- R66, R97: a bay's channel allocations number the channels of each set once and within it, one to four sinks each, and hold the
limit of those that cross. -/
def channelsOk (c : BayContent) : Bool :=
  c.channels.all (fun a => keyBay a.folioKey == c.bay && a.chans.all fun x =>
    x.num < (if c.hardened then 2304 else 1152) && x.src < 256 && 1 ≤ x.sinks.length && x.sinks.length ≤ 4 && x.sinks.all fun y => y.2 < 256) &&
  (List.range 8).all fun f =>
    let mine := c.channels.filter fun a => keyFolio a.folioKey == f
    let nums := mine.flatMap (·.numbers)
    nums.eraseDups.length == nums.length && (mine.map fun a => a.cross.length).foldl (· + ·) 0 ≤ (if c.hardened then 576 else 288)

/-- R103: an edition's tag is 0x01 to 0xFF. -/
def tagsOk (c : BayContent) : Bool := c.editions.all fun e => 1 ≤ e.tag && e.tag ≤ 255

/-- R84, R92, R97, R218 over a bay's segments, against the state they have been applied to: a carrel that they leave without a
rota is checked with the rest of its crossings. -/
def bayOk (c : BayContent) (s : State) : Bool :=
  (s.rotaFault c.rotas []).isNone && poolHolds s.fab.banks && channelsOk c && tagsOk c &&
    s.crossings.all fun x => !(keyBay x.src == c.bay || keyBay x.dst == c.bay) || crossingMet (s.rotaAhead []) x

/-! ## Applying a part (R267) -/

/-- A folio as a load leaves it. -/
def loadFolio (k : Nat) (im : FolioImage) (s : State) : State :=
  s.modFolio k fun _ => { FolioSt.dflt.save im.init with state := .loaded, config := im.config, init := im.init }

/-- A bay as a stream leaves one that its bay_mask does not name: no folios, no rotas. -/
def emptyBay (b : Nat) (s : State) : State :=
  let s := { s with
    fab.folios := s.fab.folios.filter fun (k, _) => k / 304 != b
    fab.banks := s.fab.banks.filter fun (k, _) => k / 144 != b }
  let s := (List.range 36).foldl (fun s c => s.modCarrel (ckey b c) fun _ => .dflt) s
  s.modBay b fun t => { t with hardened := false, crossings := [], channels := [], vmin := 0, inMask := false }

/-- A bay as its segments would leave it, for the checks of R264. -/
def appliedBay (c : BayContent) (s : State) : State :=
  applyBaySettings c.bay c (c.folios.foldl (fun s x => loadFolio x.1 x.2.1 s) (dropEditions c.bay s))

/-- The channel of INBAND_SET: f_in with its queue, f_out with its (R365). -/
def setInband (fIn fOut : Nat) (s : State) : State :=
  let s := { s with
    slips.inEnabled := true
    slips.fIn := BitVec.ofNat 16 fIn
    slips.fOut := BitVec.ofNat 16 fOut
    slips.qIn := BitVec.ofNat 14 (s.flow fIn).egQueue
    slips.qOut := BitVec.ofNat 14 (s.flow fOut).egQueue }
  s.modChan 5 fun k => { k with lastSeq := none }

def applyPort (p : Nat) (c : PortCfg) (s : State) : State := s.modPort p fun t => { t with cfg := c, cfgNext := none }

/-- What the lines of a flow's context hold: its engine holds no item for it. -/
def FlowSt.context (f : FlowSt) : FlowSt := { f with dl := [], heads := [], quiet := 0 }

/-- A queue as its descriptor's settings leave it. -/
def QueueSt.settings (d : QueueSt) : QueueSt :=
  { QueueSt.dflt with
    enable := d.enable, ordinary := d.ordinary, sizeCode := d.sizeCode, threshold := d.threshold, base := d.base }

/-- The house segments, 0x07 to 0x0B. The first writes every line of the flow table (R225). -/
def applyHouse (c : PartContent) (s : State) : State :=
  let s := c.flows.foldl (fun s (k, f) => s.setFlow k f.context) { s with flows := [] }
  let s := c.queues.foldl (fun s (k, q) => s.setQueue k q.settings) s
  let s := c.calendars.foldl (fun s (p, a, b) => s.modEgress p fun e => { e with prot := a, ord := b, turn := 0, midTurn := false }) s
  let s := c.credits.foldl (fun s (p, a, b) => s.modCredit p fun t =>
    { t with setProt := if a = 0 then none else some a, setOrd := if b = 0 then none else some b }) s
  let s := c.ports.foldl (fun s (p, v) => applyPort p v s) s
  let s := match c.frameSel with
    | some f => { s with frame.sel := f }
    | none => s
  let s := match c.worst with
    | some w => { s with thm.param.worst := w }
    | none => s
  let s := match c.inband with
    | some (a, b) => setInband a b s
    | none => s
  let s := match c.events with
    | some (i, t, n) => { s with log.infoEn := i, log.traceEn := t, log.periodNext := n }
    | none => s
  { s with
    clk.gateReqBay := c.gateBay
    clk.gateReqPort := c.gatePort
    clk.gateReqQe := c.gateQe
    clk.gateReqPcie := c.gatePcie
    clk.gateReqSide0 := c.gateSide0 }

/-- What stands from before a stream is discarded, and its house segments are applied (R267, R269). -/
def startContent (c : PartContent) (s : State) : State :=
  let s := { s with cfg.archive := [], cfg.archiveUse := [], cfg.archiveCat := [], cfg.archiveNext := 0, fab.editions := [],
                    fab.binds := [], fab.changes := [], fab.pendRota := [], fab.switches := [], fab.loads := [], fab.reqs := [] }
  applyHouse c ((List.range 32).foldl (fun s b => emptyBay b s) s)

/-- The house as every segment of a part would leave it, for the checks of R264. -/
def appliedContent (c : PartContent) (s : State) : State := c.bays.foldl (fun s b => appliedBay b s) (startContent c s)

/-- A part begins to apply: the loader takes the folios of its bays one after the other (R72, R267). -/
def beginApply (s : State) : State :=
  match s.content with
  | none => s
  | some c => beginBays c.bays (startContent c s)

/-- R264, cause 0x08: the content could not be read, or breaks R92, R191, R202 or R218. -/
def State.contentBad (s : State) : Bool :=
  match s.content with
  | none => true
  | some c =>
    let t := appliedContent c s
    !(c.bays.all channelsOk && c.bays.all tagsOk && poolHolds t.fab.banks && (t.rotaFault (c.bays.flatMap (·.rotas)) []).isNone && queuesOk t && calendarsOk t c.calendars)

/-! ## Fallback (R265, R266) -/

/-- Step 3 of R265: the house waits in Intake for a host stream. -/
def waitHost (s : State) : State :=
  alarm 0x0302 0 [(8, s.cfg.firstCause.toNat), (8, s.cfg.reserveCause.toNat)] (clearStage { s with cfg.phase := 3 })

def reserveFails (cause : Nat) (s : State) : State := waitHost { s with cfg.reserveCause := BitVec.ofNat 8 cause }

/-- Step 2: the reserve image is staged. -/
def startReserve (s : State) : State :=
  let s := clearStage { s with cfg.fallbacks := sat 255 s.cfg.fallbacks 1, cfg.phase := 2 }
  match reservePart s.cfg.flash with
  | .error c => reserveFails c s
  | .ok l => match s.partFault l true with
    | some c => reserveFails c s
    | none => stagePart l s

/-- The start source's part fails. -/
def firstFails (cause : Nat) (s : State) : State :=
  let s := { s with cfg.firstCause := BitVec.ofNat 8 cause }
  if cause = 0x0E then waitHost s else startReserve s

/-- The part being read at start fails. -/
def partFails (cause : Nat) (s : State) : State := if s.cfg.phase = 2 then reserveFails cause s else firstFails cause s

/-- A chain block (R273): type, position, block number, payload, and whether its length and CRC-32 fit. -/
structure ChainBlock where
  type : Nat
  pos : Byte
  seq : Nat
  payload : List Byte
  crcOk : Bool

/-- The block of symbols 1 to 11 + len. -/
def chainBlock (sym : List Byte) : ChainBlock :=
  let len := leAt sym 5 2
  let body := sym.take (7 + len)
  { type := leAt sym 0 1, pos := sym.getD 1 0, seq := leAt sym 2 3, payload := slice sym 7 len
    crcOk := sym.length == 11 + len && crc32 body == leAt sym (7 + len) 4 }

/-- Symbols 1 to 7 + len of a block. -/
def chainBody (type pos seq : Nat) (payload : List Byte) : List Byte :=
  leBytes 1 type ++ leBytes 1 pos ++ leBytes 3 seq ++ leBytes 2 payload.length ++ payload

/-- Symbols 1 to 11 + len of a block that arrives, with the CRC it carries. -/
def chainReceived (type pos seq : Nat) (payload : List Byte) (crc : BitVec 32) : List Byte :=
  chainBody type pos seq payload ++ leBytes 4 crc.toNat

/-- Symbols 1 to 11 + len of a block that the device makes. -/
def chainSymbols (type pos seq : Nat) (payload : List Byte) : List Byte :=
  chainBody type pos seq payload ++ leBytes 4 (crc32 (chainBody type pos seq payload))

/-- A block leaves on CHAIN_OUT; a path that runs again under R269 sends and forwards nothing. -/
def chainSend (sym : List Byte) (s : State) : State :=
  if s.cfg.again then s else { s with cfg.forwarded := sym :: s.cfg.forwarded }

/-- The head sends its start block, the parts other than its own in directory order, and the end of stream (R274). -/
def headSends (s : State) : State :=
  if s.cfg.again then s
  else
    let s := chainSend (chainSymbols 1 0 0 []) { s with cfg.startSeen := true }
    match directory s.cfg.flash with
    | none => s
    | some es =>
      let others := es.filter fun e => flashByte s.cfg.flash (e.1 + 10) != 0
      let s := others.foldl (fun s e => (List.range ((e.2 + 1023) / 1024)).foldl (fun s i =>
        chainSend (chainSymbols 2 (flashByte s.cfg.flash (e.1 + 10)).toNat i
          (flashBytes s.cfg.flash (e.1 + 1024 * i) (min 1024 (e.2 - 1024 * i)))) s) s) s
      chainSend (chainSymbols 4 0 0 []) { s with cfg.partsFwd := min 7 others.length }

/-- The path from the start source: reading and staging what flash gives at once, or waiting for the chain or the host. -/
def beginLoad (s : State) : State :=
  let s := clearStage { s with
    cfg.streamInEffect := false, cfg.firstCause := 0, cfg.reserveCause := 0, cfg.chainNext := 0, cfg.chainGot := false,
    cfg.chainFailed := false, cfg.stagedFrom := 0, cfg.stepsDone := 0, cfg.stepTaken := none, cfg.rdvWait := false,
    cfg.rdvTimedOut := false, cfg.image := 0, cfg.serial := 0 }
  if s.pkg.bootSrc = 1 then { s with cfg.phase := 1 }
  else if s.pkg.bootSrc = 2 then { s with cfg.phase := 3 }
  else
    let s := if s.pkg.bootSrc = 3 then warn 0x030A 0 [] s else s
    let s := headSends { s with cfg.position := some 0, cfg.phase := 1 }
    match flashPart s.cfg.flash 0 with
    | .error c => firstFails c s
    | .ok l => match s.partFault l false with
      | some c => firstFails c s
      | none => stagePart l s

/-- R267 steps 1 and 2, and then the start source. -/
def streamLoadStart (s : State) : State :=
  let s := if s.cfg.startDone then s else { startVolumes (loadRecord s) with cfg.startDone := true }
  beginLoad s

def execStreamLoadStart (s : State) : Host.Outcome State Fault Refusal :=
  run (when (s.awake && s.cfg.phase == 0 && s.modes.house == .intake && s.crypto.rngOk) streamLoadStart) s

/-- The trailer of the part being read at start has arrived. -/
def State.partWhole (s : State) : Bool := s.cfg.stageState == 1 && headerLen ≤ s.cfg.staged.length && partLen s.cfg.staged ≤ s.cfg.staged.length

/-- R263, R264: the tag and the contents are checked, and the part is applied or the fallback taken. -/
def trailerCheck (tagOk : Bool) (f : Found) (s : State) : State :=
  let reserve := s.cfg.phase == 2
  let s := sideFinding 0x38 (stagingPage * 64) f false s
  match s.partFault s.cfg.staged reserve with
  | some c => partFails c s
  | none =>
    if foundBad f then partFails 0x09 s
    else if !tagOk then partFails 0x07 s
    else if s.contentBad then partFails 0x08 s
    else beginApply { s with
      cfg.stageState := 3
      cfg.stagedFrom := if reserve then 4 else if s.pkg.bootSrc = 1 then 2 else 1
      cfg.phase := 4 }

def execPartTrailerCheck (tagOk : Bool) (found : Found) (s : State) : Host.Outcome State Fault Refusal :=
  run (when (s.awake && (s.cfg.phase == 1 || s.cfg.phase == 2) && s.partWhole) (trailerCheck tagOk found)) s

/-- The last bay has been applied: the staging area is freed, and the stream is in effect (R267 step 5). -/
def applyComplete (s : State) : State :=
  let h := s.cfg.staged
  let s := writeTables (clearStage { s with
    cfg.image := BitVec.ofNat 3 s.cfg.stagedFrom
    cfg.serial := w32 (leAt h 36 4)
    cfg.order := BitVec.ofNat 16 (leAt h 12 2)
    cfg.rdvTimeout := leAt h 14 2
    cfg.streamInEffect := true
    cfg.phase := 5
    cfg.stepsDone := 0
    cfg.setReset := true })
  let s := if s.cfg.stagedFrom = 4 then
      alarm 0x0301 0 [(8, s.cfg.firstCause.toNat), (8, s.cfg.reserveCause.toNat)] s
    else s
  completeOpt s.cfg.applySlip St.ok { s with cfg.applySlip := none }

/-- Every bay of the part has been applied. -/
def State.allApplied (s : State) : Bool := s.fab.reqs.isEmpty && s.cfg.applyRest.isEmpty

def execStreamApplyComplete (s : State) : Host.Outcome State Fault Refusal :=
  run (when (s.awake && s.cfg.phase == 4 && s.modes.house == .intake && s.allApplied) applyComplete) s

/-- R269: the house enters Intake at run time. An authenticated part of this position, or for any, is applied at once. -/
def restartStream (s : State) : State :=
  let pos := partPosition s.cfg.staged
  let mine := s.cfg.stageState == 2 && (pos == 0xFF || (s.cfg.position.map (·.toNat)) == some pos)
  let s := { s with cfg.again := true, pkg.doneLow := true, cfg.setReset := true, cfg.applyFailed := 0 }
  if mine then beginApply { s with
    cfg.streamInEffect := false, cfg.stageState := 3, cfg.phase := 4, cfg.stepsDone := 0, cfg.stepTaken := none,
    cfg.rdvWait := false, cfg.rdvTimedOut := false, cfg.image := 0, cfg.serial := 0, cfg.stagedFrom := 3 }
  else beginLoad s

/-! ## The chain (R273 to R276) -/

/-- CHAIN_IN is heard: house Intake, a follower. -/
def State.chainHears (s : State) : Bool :=
  s.awake && s.modes.house == .intake && s.pkg.bootSrc == 1 && s.cfg.startDone

/-- A follower takes the position behind the sender's, and passes it on; one that receives 7 takes none (R274). -/
def chainStart (pos : Byte) (s : State) : State :=
  let s := { s with cfg.chainSync := true, cfg.startSeen := true }
  if s.cfg.position.isSome then s
  else if 7 ≤ pos.toNat then
    let s := { s with cfg.tooLong := true }
    if s.cfg.phase = 1 then firstFails 0x0E s else s
  else chainSend (chainSymbols 1 (pos.toNat + 1) 0 []) { s with
    cfg.outActive := !s.cfg.again, cfg.position := some (BitVec.ofNat 3 (pos.toNat + 1)) }

/-- A block that fails its CRC is no start block. -/
def execChainStartBlockReceived (pos : Byte) (crc : BitVec 32) (s : State) : Host.Outcome State Fault Refusal :=
  let b := chainBlock (chainReceived 1 pos.toNat 0 [] crc)
  run (when (s.chainHears && b.type == 1 && b.crcOk) (chainStart b.pos)) s

/-- A block of this device's part. -/
def chainOwn (b : ChainBlock) (s : State) : State :=
  if s.cfg.phase != 1 || s.cfg.chainFailed then s
  else
    let broken := !b.crcOk || b.seq != s.cfg.chainNext || 1024 < b.payload.length
    let s := { s with
      cfg.chainGot := true
      cfg.crcErr := if b.crcOk then s.cfg.crcErr else sat 255 s.cfg.crcErr 1
      cfg.seqErr := if b.crcOk && b.seq != s.cfg.chainNext then sat 255 s.cfg.seqErr 1 else s.cfg.seqErr }
    if broken then firstFails 0x0C { s with cfg.chainFailed := true }
    else stagePart (s.cfg.staged ++ b.payload) { s with cfg.chainNext := s.cfg.chainNext + 1 }

/-- Data blocks for other positions go on unchanged, their CRC unread (R275). -/
def chainData (sym : List Byte) (s : State) : State :=
  let b := chainBlock sym
  let s := { s with cfg.chainSync := true }
  match s.cfg.position with
  | none => s
  | some p =>
    if p.toNat = b.pos.toNat then chainOwn b s
    else chainSend sym { s with cfg.partsFwd := if b.seq = 0 && !s.cfg.again then sat 7 s.cfg.partsFwd 1 else s.cfg.partsFwd }

def execChainDataBlockReceived (pos : Byte) (seq : BitVec 24) (payload : List Byte) (crc : BitVec 32) (s : State) :
    Host.Outcome State Fault Refusal :=
  run (when s.chainHears (chainData (chainReceived 2 pos.toNat seq.toNat payload crc))) s

def chainEnd (sym : List Byte) (s : State) : State :=
  match s.cfg.position with
  | none => s
  | some _ =>
    let s := chainSend sym { s with cfg.outActive := false, cfg.chainSync := true }
    if s.cfg.phase = 1 && !s.cfg.chainGot then firstFails 0x02 s else s

def execChainEndBlockReceived (sym : List Byte) (s : State) : Host.Outcome State Fault Refusal :=
  run (when (s.chainHears && (chainBlock sym).type == 4) (chainEnd sym)) s

/-- 2 s without a start block. -/
def execChainStartTimeout (s : State) : Host.Outcome State Fault Refusal :=
  run (when (s.chainHears && s.cfg.phase == 1 && s.cfg.position.isNone) (firstFails 0x0B)) s

/-- 500 ms without a block while the part is incomplete. -/
def execChainBlockTimeout (s : State) : Host.Outcome State Fault Refusal :=
  run (when (s.chainHears && s.cfg.phase == 1 && s.cfg.position.isSome && !s.partWhole) (firstFails 0x0D)) s

/-! ## The start-up order (R270 to R272) -/

/-- Step A: frame 0 begins at the coming boundary; where frames run already, their numbers go on. -/
def stepA (s : State) : State :=
  if s.frame.running then { s with cfg.stepsDone := 1 }
  else
    let t := { s with
      cfg.stepsDone := 1
      cfg.frame0Due := true
      frame.running := true
      frame.active := s.frame.sel }
    { t with frame.qualified := t.selQualified t.frame.active 0 }

def execStartupStepAComplete (s : State) : Host.Outcome State Fault Refusal :=
  done (when (s.awake && s.cfg.streamInEffect && s.modes.house == .intake && s.cfg.stepsDone == 0 &&
    s.clk.loopLock == 0x3F && s.clk.qualA && s.clk.qualB) stepA s)

/-- The next step of the order, taken at step 2 of a boundary; at most one a boundary. -/
def takeStep (s : State) : State :=
  if !s.cfg.streamInEffect || s.cfg.stepsDone = 0 || 5 ≤ s.cfg.stepsDone || s.cfg.frame0Due || s.cfg.rdvWait then s
  else
    let k := stepCode s.cfg.order s.cfg.stepsDone
    if k = 5 then { s with pkg.doneLow := false, cfg.rdvWait := true, cfg.stepTaken := some 5, cfg.rdvFrames := 0 }
    else { s with cfg.stepsDone := s.cfg.stepsDone + 1, cfg.setReset := s.cfg.setReset && k != 3 }

/-- Step E completes. -/
def endRendezvous (s : State) : State :=
  { s with cfg.rdvWait := false, cfg.stepTaken := none, cfg.stepsDone := s.cfg.stepsDone + 1 }

def execRendezvousMet (s : State) : Host.Outcome State Fault Refusal := done (when (s.awake && s.cfg.rdvWait) endRendezvous s)

def execRendezvousTimeout (s : State) : Host.Outcome State Fault Refusal :=
  run (when (s.awake && s.cfg.rdvWait && s.cfg.rdvTimeout != 0 && s.cfg.rdvTimeout ≤ s.cfg.rdvFrames) fun s =>
    alarm 0x0303 0 [] (endRendezvous { s with cfg.rdvTimedOut := true })) s

/-! ## A bay's apply at run time (R268) -/

/-- The staged part's segments for the bay, if it is authenticated. -/
def State.stagedBay (s : State) (b : Nat) : Option BayContent :=
  if s.cfg.stageState != 2 then none
  else s.content.bind fun c => c.bays.find? fun x => x.bay == b

/-- The loader takes every folio of the bay's archive copies; the settings of new segments follow the last. The slip that brought the
bay to Intake has ended OK at its entry (R63), so an apply that stops has none to end (log entry 85). -/
def startApply (b : Bay) (c : Option BayContent) (s : State) : State :=
  let keys := applyOrder ((s.cfg.archive.filter fun (k, _) => keyBay k == b.val).map (·.1))
  let s := keys.foldl (fun s k => s.modFolio k fun f => if f.state == .inRota then { f with state := .loaded } else f) s
  let kind := LoadKind.apply b c
  let num := s.fab.nextReq
  let s := startLoad kind none keys s
  if keys.isEmpty then endRequest { num := num, kind := kind, id := none } s else s

def bayApply (b : Bay) (s : State) : State :=
  let s := { s with cfg.applyFailed := setBit s.cfg.applyFailed b.val false }
  match s.stagedBay b.val with
  | none => startApply b none s
  | some c =>
    if bayOk c (appliedBay c s) then startApply b (some c) (replaceArchive b.val c s)
    else warn 0x0309 b.val [(8, 0x08)] { s with cfg.applyFailed := setBit s.cfg.applyFailed b.val true }

/-! ## Registers -/

def State.cfgStatus (s : State) : Nat :=
  let c := s.cfg
  pack [(16, if !c.streamInEffect && c.order = 0 then 0 else if c.order = 0 then 0x28E9 else c.order.toNat), (2, 0),
    (1, bitOf c.rdvTimedOut), (1, bitOf c.rdvWait), (3, c.stepsDone), (1, bitOf c.position.isSome),
    (3, (c.position.map (·.toNat)).getD 0), (3, c.image.toNat), (2, s.pkg.bootSrc.toNat)]

def State.cfgFail (s : State) : Nat :=
  let c := s.cfg
  pack [(8, c.fallbacks), (8, c.hostCause.toNat), (8, c.reserveCause.toNat), (8, c.firstCause.toNat)]

def State.cfgStage (s : State) : Nat := pack [(24, s.cfg.stagedBytes / 64), (6, 0), (2, s.cfg.stageState)]

def State.cfgAreas (s : State) : Nat :=
  pack [(10, (s.archiveUsed + 1048575) / 1048576), (6, 0), (16, (s.retiredPages archivePage 0x800000).length)]

def State.chainStatus (s : State) : Nat :=
  let c := s.cfg
  pack [(1, bitOf c.outActive), (1, bitOf c.chainSync), (1, bitOf c.startSeen), (1, bitOf c.tooLong), (4, 0), (4, c.partsFwd),
    (4, 0), (8, c.seqErr), (8, c.crcErr)]

def State.cfgReg (s : State) (off : Nat) : Nat :=
  if off = 0x00 then s.cfgStatus else if off = 0x04 then s.cfgFail else if off = 0x08 then s.cfg.serial.toNat
  else if off = 0x0C then s.cfgStage else if off = 0x10 then s.cfgAreas else if off = 0x14 then s.chainStatus else 0

end Sys2Proof.Machine
end

