-- ==== Sys2Proof/Machine/Thermal.lean ====
section
/-! DEFINITION. Power readings, rails, the thermal model, throttle fractions, ceilings, bands and broken sensors ("Power and
the thermal model"). -/

namespace Sys2Proof.Machine
open Sys2Proof

/-! ## Rails and phases (R309) -/

/-- Rail type of a phase, coded as rail_out, and its index. -/
def phaseType (n : Nat) : Nat := if n < 64 then 0 else if n < 80 then 1 else if n < 84 then 2 else if n < 88 then 3 else if n < 92 then 4 else 5

def phaseIndex (n : Nat) : Nat :=
  if n < 64 then n / 2 else if n < 80 then (n - 64) / 2 else if n < 84 then (n - 80) / 2 else (n - 84) % 4

/-- The sister phase of a two-phase rail (R323). -/
def sister (n : Nat) : Option Nat := if n < 84 then some (n / 2 * 2 + 1 - n % 2) else none

/-- The nodes a phase feeds; 96 is the input current sensor, which feeds the regulator ring. -/
def fedNodes (n : Nat) : List Nat :=
  if n < 64 then [n / 2]
  else if n < 80 then [32 + (n - 64) / 2]
  else if n < 84 then [40 + (n - 80) / 2]
  else if n < 92 then (List.range 8).map (8 * ((n - 84) % 4) + ·)
  else if n < 96 then [42 + (n - 92)]
  else [46]

def feedingPhases (i : Nat) : List Nat := (List.range 97).filter fun n => (fedNodes n).contains i

/-- Rail voltage of a phase in half millivolts. -/
def State.railHalfMv (s : State) (n : Nat) : Nat :=
  match phaseType n with
  | 0 => (s.bay (phaseIndex n)).volt | 1 => 1800 | 2 => 2200 | 3 => 1600 | 4 => 1600 | _ => 1500

/-- The power of a phase in µW. -/
def State.phaseUw (s : State) (n : Nat) : Int := s.pwr.phase.getD n 0 * s.railHalfMv n / 2

/-- A slot of R310's ramps: 1 mV a µs. -/
def rampVolts (s : State) : State := { s with fab.bays := s.fab.bays.map fun (b, t) =>
  (b, { t with volt := if t.volt < 20 * t.vset then t.volt + 1 else if 20 * t.vset < t.volt then t.volt - 1 else t.volt }) }

/-- The power of a node in µW (R309). -/
def State.nodeUw (s : State) (i : Nat) : Int :=
  if i < 32 then
    s.phaseUw (2 * i) + s.phaseUw (2 * i + 1) + (s.phaseUw (84 + i / 8) + s.phaseUw (88 + i / 8)) / 8
  else if i < 42 then s.phaseUw (2 * i) + s.phaseUw (2 * i + 1)
  else if i < 46 then s.phaseUw (50 + i)
  else if i = 46 then s.pwr.lossMw * 1000
  else 0

/-- Step 7's samples (R309, R311). -/
def sampleSlot (i : SlotIn) (s : State) : State :=
  let outside := i.vinMv < 10800 || 13200 < i.vinMv
  { s with
    pwr.sumPhase := (List.range 96).map fun n => s.pwr.sumPhase.getD n 0 + i.phases.getD n 0
    pwr.sumInput := s.pwr.sumInput + i.inputMa
    pwr.sumVin := s.pwr.sumVin + i.vinMv
    pwr.samples := s.pwr.samples + 1
    pwr.railOut := s.pwr.railOut &&& i.railsOut
    pwr.vinRun := if outside then sat 8 s.pwr.vinRun 1 else 0
    pwr.vinTold := s.pwr.vinTold && outside }

/-- The frame's averages (R309): currents in mA, VIN12 in mV, powers in mW. -/
def closeSamples (s : State) : State :=
  let n := s.pwr.samples
  if n = 0 then s
  else
    let avg := (List.range 96).map fun k => s.pwr.sumPhase.getD k 0 / n
    let vin := s.pwr.sumVin / n
    let input : Int := (s.pwr.sumInput / n) * vin / 1000
    let s := { s with pwr.phase := avg }
    let out := (List.range 96).foldl (fun a k => a + s.phaseUw k) (0 : Int)
    { s with
      pwr.vinMv := vin, pwr.inputMw := input, pwr.lossMw := input - out / 1000
      pwr.sumPhase := List.replicate 96 0, pwr.sumInput := 0, pwr.sumVin := 0, pwr.samples := 0 }

/-- R311: a rail has lain outside ±2 % for 8 slots; the slices of a bay on bad conditions are spoiled (R336). -/
def execRailFault (type : Fin 6) (index : Nat) (s : State) : Host.Outcome State Fault Refusal :=
  run (when s.awake fun s =>
    alarm 0x0204 (type.val * 256 + index) [] { s with
      pwr.railOut := setBit s.pwr.railOut type.val true
      stock.spoiled := BitVec.allOnes 32 }) s

/-- R311. -/
def execVinFault (s : State) : Host.Outcome State Fault Refusal :=
  run (when (s.awake && s.pwr.vinRun == 8 && !s.pwr.vinTold) fun s => alarm 0x0205 0 [] { s with pwr.vinTold := true }) s

/-! ## Broken sensors (R323 to R325) -/

def absDiff (a b : Int) : Nat := (a - b).natAbs

/-- R323's checks of phase n against this frame's averages. -/
def State.outOfRange (s : State) (n : Nat) : Bool :=
  if n < 96 then s.pwr.phase.getD n 0 < -1000 || 32000 < s.pwr.phase.getD n 0
  else s.pwr.vinMv != 0 && (s.pwr.inputMw * 1000 < 0 || 30000 * s.pwr.vinMv < s.pwr.inputMw * 1000)

/-- The phase differs by more than 20 % from its sister, which carries at least 2 A. -/
def State.mismatches (s : State) (n : Nat) : Bool :=
  match sister n with
  | some m =>
    let v := s.pwr.phase.getD m 0
    2000 ≤ v && v.natAbs < 5 * absDiff (s.pwr.phase.getD n 0) v
  | none => false

/-- The reference of a phase's stuck check. -/
def State.phaseRef (s : State) (n : Nat) : Int :=
  match sister n with
  | some m => s.pwr.phase.getD m 0
  | none => ((List.range 16).map fun i => s.pwr.phase.getD (16 * phaseIndex n + i) 0).foldl (· + ·) 0

/-- A frame more of the stuck check. -/
def stuckStep (v ref : Int) (t : StuckSt) : StuckSt :=
  if t.count = 0 || 20 < absDiff v t.value then { value := v, count := 1, ref := ref, moved := false }
  else { t with count := sat 4096 t.count 1, moved := t.moved || t.ref.natAbs < 10 * absDiff ref t.ref }

def State.stuckAt (s : State) (n : Nat) : Bool :=
  let t := Sparse.get .dflt s.pwr.stuck n
  t.count == 4096 && t.moved

/-- The kind of fault that the state shows of a sensor: 0 none, else as PWR_PHASE_n codes it. -/
def State.sensorKind (s : State) (n : Nat) : Nat :=
  if s.outOfRange n then 1 else if s.stuckAt n then 2 else if 8 ≤ Sparse.get 0 s.pwr.mismatch n then 3 else 0

/-- The runs of R323 and R325 after a frame's averages. -/
def sensorRuns (s : State) : State :=
  let s := { s with
    pwr.stuck := (List.range 96).foldl (fun l n => Sparse.put .dflt l n
      (stuckStep (s.pwr.phase.getD n 0) (s.phaseRef n) (Sparse.get .dflt s.pwr.stuck n))) s.pwr.stuck
    pwr.mismatch := (List.range 96).foldl (fun l n => Sparse.put 0 l n
      (if s.mismatches n then sat 8 (Sparse.get 0 s.pwr.mismatch n) 1 else 0)) s.pwr.mismatch }
  let fails := fun (n : Nat) => s.outOfRange n || s.stuckAt n || s.mismatches n
  let bad := fun (n : Nat) => fails n || (match sister n with
    | some m => s.mismatches m
    | none => false)
  { s with pwr.passed := (List.range 97).foldl (fun l n => Sparse.put 0 l n
      (if bad n then 0 else sat 1024 (Sparse.get 0 s.pwr.passed n) 1)) s.pwr.passed }

def SensorKind.code : SensorKind → Nat
  | .outOfRange => 1 | .stuck => 2 | .sisterMismatch => 3

/-- A sensor is judged broken, with its sister where they mismatch; its nodes are pinned at step 5 of the next boundary. -/
def judgeSensor (n kind : Nat) (s : State) : State :=
  let both := if kind = 3 then (match sister n with
    | some m => [(n, 3), (m, 3)]
    | none => []) else [(n, kind)]
  let new := both.filter fun x => Sparse.get 0 s.pwr.fault x.1 == 0 && !(s.thm.faultPend.any fun y => y.1 == x.1)
  { s with thm.faultPend := s.thm.faultPend ++ new }

def execSensorFault (phase : Fin 97) (kind : SensorKind) (s : State) : Host.Outcome State Fault Refusal :=
  done (when (s.awake && s.sensorKind phase.val == SensorKind.code kind) (judgeSensor phase.val (SensorKind.code kind)) s)

/-! ## The model (R313 to R317) -/

/-- Nominal conductances of R441 in µW/°C, i below j. -/
def nominal (i j : Nat) : Nat :=
  if i < 32 then
    if j < 32 then (if i / 8 = j / 8 && Config.gridNeighbours i j then 83333 else 0)
    else if j = 42 + i / 8 then 625000 else if j = 47 then 416667 else 0
  else if i < 40 then (if j = 42 + (i - 32) / 2 then 1111111 else if j = 47 then 500000 else 0)
  else if i < 42 then (if 42 ≤ j && j < 46 then 400000 else if j = 47 then 1250000 else 0)
  else if i < 46 then (if j = 47 then 1666667 else 0)
  else if i = 46 && j = 47 then 2000000
  else if i = 47 && j = 48 then 33333333
  else 0

/-- The fused value, within ±10 % (R441). -/
def conductance (i j : Nat) : Nat :=
  let a := min i j
  let b := max i j
  nominal a b * (900000 + Config.conductTrim a b % 200001) / 1000000

/-- The boundary temperature the model uses, in 1/16 °C (R314). -/
def ThmSt.boundaryUsed (t : ThmSt) : Int := if t.boundaryStale then (16 * t.param.worst : Nat) else toInt 12 t.boundary.toNat

/-- The heat that flows out of node i, in µW times 16. -/
def State.outflow (s : State) (i : Nat) : Int :=
  let ti := (s.node i).temp
  let sum := (List.range 48).foldl (fun a j => if j = i then a else a + conductance i j * (ti - (s.node j).temp)) (0 : Int)
  if i = 47 then sum + conductance 47 48 * (ti - s.thm.boundaryUsed) else sum

/-- R316: the slope, once 128 frames have passed. -/
def slopeOf (hist : List Int) : Int :=
  if hist.length < 128 then 0
  else (hist.take 16).foldl (· + ·) 0 - ((hist.drop 112).take 16).foldl (· + ·) 0

/-- The slope is at or above v tenths of a °C/s. -/
def slopeFrom (slope : Int) (v : Int) : Bool := 3584 * v ≤ 10000 * slope

/-- R318: the target fraction. -/
def targetOf (p : ThmParam) (slope : Int) : Nat :=
  if slopeFrom (-slope) (-(p.knee : Int)) then 0 else min p.thetaMax (((p.k : Int) * (10000 * slope - 3584 * p.knee)) / 14000).toNat

def thresholds : List Int := [0, 70, 90, 100]

def bandOf (temp : Int) : Nat := (thresholds.filter fun x => 16 * x ≤ temp).length

/-- What the update makes of node i, from the temperatures at the start of the frame. -/
def nodeStep (s : State) (dt i : Nat) : NodeSt :=
  let t := s.node i
  let p := s.thm.param
  let den : Int := (1 + Config.heatCapacity i : Nat) * (10 ^ 12 : Nat)
  let num : Int := dt * (16 * s.nodeUw i - s.outflow i) + t.rem
  let raw := t.temp + num / den
  let temp := if t.pinned then t.temp else clampInt (-2048) 2047 raw
  let hist := (temp :: t.hist).take 128
  let slope := if t.pinned then 0 else slopeOf hist
  let count := fun (c : Bool) (n : Nat) => if c then sat 64 n 1 else 0
  { t with
    temp := temp
    rem := if t.pinned || raw != temp then 0 else (num % den).toNat
    hist := hist
    slope := slope
    warnHi := count (slopeFrom slope p.warn) t.warnHi
    warnLo := count (!slopeFrom slope ((p.warn : Int) - 5)) t.warnLo
    forced := !t.pinned && (1600 ≤ temp || (t.forced && 1568 ≤ temp))
    target := targetOf p slope
    band := if s.thm.updates = 0 && !t.pinned then bandOf temp else t.band
    bandUp := (List.range 4).map fun k => count (16 * thresholds.getD k 0 ≤ temp) (nth t.bandUp k)
    bandDown := (List.range 4).map fun k => count (temp < 16 * (thresholds.getD k 0 - 2)) (nth t.bandDown k) }

/-- R320: what node i's ceilings do in this frame, its old state given. -/
def ceilings (old : NodeSt) (i : Nat) (s : State) : State :=
  let t := s.node i
  let s := if t.forced && !old.forced then
      alarm 0x0202 i [] { s with thm.event := s.thm.event ||| 0x08 } else s
  let s := if 1760 ≤ t.temp && i < 32 then
      let add : List (Domain × Mode) := match domainOf 1 i with
        | some d => if modeIn (s.mode d) [.intake, .closing] then [] else [(d, .closing)]
        | none => []
      { s with thm.event := s.thm.event ||| 0x10, modes.autos := s.modes.autos ++ add } else s
  if 1840 ≤ t.temp then
    let add : List (Domain × Mode) :=
      if modeIn s.modes.house [.intake, .closing] then [] else [(.house, .closing)]
    let s := { s with thm.event := s.thm.event ||| 0x20, modes.autos := s.modes.autos ++ add }
    if 1840 ≤ old.temp then s else nonMask 0x0201 0 [] s
  else s

/-- The model's update in a frame, over dt ns (R313). -/
def updateModel (dt : Nat) (s : State) : State :=
  let nodes := (List.range 48).foldl (fun l i => Sparse.put .dflt l i (nodeStep s dt i)) s.thm.nodes
  let t := { s with
    thm.nodes := nodes, thm.updates := s.thm.updates + 1, thm.before := s.thm.nodes, thm.dtNs := dt, thm.dtLost := 0 }
  (List.range 48).foldl (fun u i => ceilings (s.node i) i u) t

/-- The desk's fixed task of the frame that begins: averages, sensor runs, and the update from the frame that ended; a desk
that has failed twice makes none (R378). -/
def thermalTask (dt : Nat) (s : State) : State :=
  if s.pwr.samples = 0 then s
  else
    let s := sensorRuns (closeSamples s)
    let s := if s.thm.boundaryStale then s else { s with thm.timer := sat 16000 s.thm.timer 1 }
    if s.desk.doubleFail then s else updateModel (dt + s.thm.dtLost) s

/-- R377: the update of the frame in which the pair stops is lost, and made in the next frame with dt over both. -/
def loseUpdate (s : State) : State :=
  if s.thm.dtNs = 0 then s
  else { s with thm.nodes := s.thm.before, thm.dtLost := s.thm.dtNs, thm.dtNs := 0 }

/-- R317: the warn flag changes. -/
def slopeWarn (n : Nat) (s : State) : State :=
  let t := s.node n
  if !t.warn && 64 ≤ t.warnHi then
    warn 0x0206 n [(6, n), (16, 0)] (s.modNode n (fun t => { t with warn := true }) |> fun s =>
      { s with thm.event := s.thm.event ||| 0x02 })
  else if t.warn && 64 ≤ t.warnLo then warn 0x0206 n [(6, n), (16, 1)] (s.modNode n fun t => { t with warn := false })
  else s

def execSlopeWarn (n : Node) (s : State) : Host.Outcome State Fault Refusal := run (when s.awake (slopeWarn n.val)) s

/-- R321: the band a node moves to at step 5 of the next boundary. -/
def NodeSt.nextBand (t : NodeSt) : Nat :=
  if t.pinned then t.band
  else if t.band < 4 && 64 ≤ nth t.bandUp t.band then t.band + 1
  else if 0 < t.band && 64 ≤ nth t.bandDown (t.band - 1) then t.band - 1
  else t.band

def bandChange (n : Nat) (s : State) : State :=
  let t := s.node n
  if t.nextBand == t.band || s.thm.bandPend.any (fun x => x.1 == n) then s
  else { s with thm.bandPend := s.thm.bandPend ++ [(n, t.nextBand)] }

def execBandChange (n : Node) (s : State) : Host.Outcome State Fault Refusal := done (when s.awake (bandChange n.val) s)

/-! ## Step 5 (R310, R318 to R322, R324, R325) -/

def moveBand (n b : Nat) (s : State) : State :=
  if (s.node n).band = b then s else info 0x0209 n [] (s.modNode n fun t => { t with band := b })

/-- R324: a judged sensor is told and its nodes are pinned. -/
def pinSensor (n kind : Nat) (s : State) : State :=
  let s := alarm 0x0203 n [(16, n), (3, kind)] { s with
    pwr.fault := Sparse.put 0 s.pwr.fault n kind, thm.event := s.thm.event ||| 0x04 }
  (fedNodes n).foldl (fun s i =>
    moveBand i 4 (s.modNode i fun t => { t with pinned := true, temp := 1600, rem := 0, slope := 0, forced := false })) s

/-- R325: a released node goes on from 100 °C. -/
def releaseNode (i : Nat) (s : State) : State :=
  if (s.node i).release then
    let s := s.modNode i fun t => { t with pinned := false, release := false }
    { s with pwr.fault := (feedingPhases i).foldl (fun l n => Sparse.del l n) s.pwr.fault }
  else s

/-- φ of a node at step 5: forced, or towards its target by at most 4/256 (R318). -/
def phiStep (p : ThmParam) (all : Bool) (t : NodeSt) : Nat :=
  if all || t.pinned || t.forced then p.thetaMax
  else if t.phi < t.target then min t.target (t.phi + 4) else max t.target (t.phi - 4)

/-- R319: θ of a node. -/
def thetaOf (phi : Nat → Nat) (i : Nat) : Nat :=
  let common := max (max (phi 40) (phi 41)) (max (phi 46) (phi 47))
  if i < 32 then max (max (phi i) (phi (42 + i / 8))) common
  else if i < 40 then max (max (phi i) (phi (42 + (i - 32) / 2))) common
  else 0

/-- The refresh interval each side takes with its band (R222): 0 for 3.9 µs, 1 for 1.95 µs, 2 for 0.975 µs. -/
def refreshCode (band : Nat) : BitVec 2 := if band = 4 then 2 else if band = 3 then 1 else 0

def thermalStep5 (s : State) : State :=
  let s := match s.thm.paramNext with
    | some p => { s with thm.param := p, thm.paramNext := none }
    | none => s
  let s := s.pwr.pendVset.foldl (fun s x => s.modBay x.1 fun t => { t with vset := x.2 }) { s with pwr.pendVset := [] }
  let s := (List.range 48).foldl (fun s i => releaseNode i s) s
  let s := s.thm.faultPend.foldl (fun s x => pinSensor x.1 x.2 s) { s with thm.faultPend := [] }
  let s := s.thm.bandPend.foldl (fun s x => if (s.node x.1).pinned then s else moveBand x.1 x.2 s) { s with thm.bandPend := [] }
  let s := (List.range 48).foldl (fun s i => s.modNode i fun t => { t with phi := phiStep s.thm.param s.desk.doubleFail t }) s
  let phi := fun i => (s.node i).phi
  let s := (List.range 40).foldl (fun u i => u.modNode i fun t => { t with applied := thetaOf phi i }) s
  { s with
    mem.refresh := [refreshCode (s.node 40).band, refreshCode (s.node 41).band]
    mem.readWait := s.thm.updates != 0 && [42, 43, 44, 45].any fun i => (s.node i).band == 0 || (s.node i).band == 4 }

/-- R378: hardware forces every φ to θ_max at once. -/
def forceThrottle (s : State) : State :=
  let s := (List.range 48).foldl (fun s i => s.modNode i fun t => { t with phi := s.thm.param.thetaMax }) s
  (List.range 40).foldl (fun s i => s.modNode i fun t => { t with applied := s.thm.param.thetaMax }) s

/-- The logic voltages of start-up, which the spec leaves between vmin and 0.80 V (log entry 31). -/
def startVoltages (s : State) : State :=
  (List.range 32).foldl (fun s b =>
    if (s.bay b).vset = 0 then
      let lo := max 65 (s.bay b).vmin
      let v := lo + (Config.freeValue s.frame.freeCount).toNat % (81 - lo)
      s.useFree.modBay b fun t => { t with vset := v, volt := 20 * v }
    else s) s

/-! ## The boundary temperature (R314) -/

def execBoundaryStale (s : State) : Host.Outcome State Fault Refusal :=
  run (when (s.awake && s.thm.timer == 16000 && !s.thm.boundaryStale) fun s =>
    warn 0x0207 0 [] { s with thm.boundaryStale := true, thm.event := s.thm.event ||| 0x01 }) s

/-- A write to THERM_BOUNDARY, its guards passed. -/
def writeBoundary (v : Word) (s : State) : State :=
  let t := toInt 12 v.toNat
  if -640 ≤ t && t ≤ 2000 then
    { s with thm.boundary := BitVec.ofNat 12 v.toNat, thm.boundaryStale := false, thm.timer := 0 }
  else warn 0x0208 0 [] { s with thm.event := s.thm.event ||| 0x01 }

/-! ## Power gating (R312) -/

/-- The ports of a lane group (R17). -/
def groupPorts (g : Nat) : List Nat := (List.range 16).map (16 * g + ·) ++ [128 + 2 * g, 129 + 2 * g]

/-- The block whose rail a POWER_GATE names is clock-gated. -/
def State.clockGated (s : State) (lg : Bool) (i : Nat) : Bool :=
  if lg then (groupPorts i).all fun p => getBit s.clk.gatedPort p else getBit s.clk.gatedBay i

def State.railOff (s : State) (lg : Bool) (i : Nat) : Bool := if lg then getBit s.pwr.offLg i else getBit s.pwr.offBay i

def setRail (lg : Bool) (i : Nat) (off : Bool) (s : State) : State :=
  if lg then { s with pwr.offLg := setBit s.pwr.offLg i off } else { s with pwr.offBay := setBit s.pwr.offBay i off }

/-- A bay's live flip-flops are lost with its rail. -/
def loseFlops (b : Nat) (s : State) : State :=
  (List.range 36).foldl (fun s c =>
    let v := Config.lostFlops s.frame.freeCount
    s.useFree.modCarrel (ckey b c) fun t => { t with live := v }) s

/-- R312: the restored rail is back in range; its slips complete, and the clock follows in the next slot. -/
def railRestored (lg : Bool) (i : Nat) (s : State) : State :=
  let mine := s.pwr.restoring.filter fun r => r.1 == lg && r.2.1 == i
  if mine.isEmpty then s
  else
    let s := setRail lg i false { s with
      pwr.restoring := s.pwr.restoring.filter fun r => !(r.1 == lg && r.2.1 == i)
      pwr.ungate := s.pwr.ungate ++ [(lg, i)] }
    mine.foldl (fun s r => complete r.2.2 St.ok 0 [] s) s

def execRailRestored (laneGroup : Bool) (index : Fin 32) (s : State) : Host.Outcome State Fault Refusal :=
  run (railRestored laneGroup index.val) s

/-- The clocks that follow their rails in this slot: those whose gate request has been cleared. -/
def ungateRails (s : State) : State :=
  s.pwr.ungate.foldl (fun s x =>
    let keep := fun (v : BitVec 144) (p : Nat) => setBit v p (getBit v p && getBit s.clk.gateReqPort p)
    if x.1 then { s with clk.gatedPort := (groupPorts x.2).foldl keep s.clk.gatedPort }
    else { s with clk.gatedBay := setBit s.clk.gatedBay x.2 (getBit s.clk.gatedBay x.2 && getBit s.clk.gateReqBay x.2) })
    { s with pwr.ungate := [] }

/-! ## Registers -/

def State.pwrReg (s : State) (off : Nat) : Nat :=
  let t := s.pwr
  if off = 0x000 then pack [(11, t.vinMv / 10), (5, 0), (6, t.railOut.toNat)]
  else if off = 0x004 then pack [(16, ofInt 16 (t.lossMw / 10)), (16, ofInt 16 (t.inputMw / 10))]
  else if 0x100 ≤ off && off ≤ 0x27C then
    let n := (off - 0x100) / 4
    pack [(16, ofInt 16 (t.phase.getD n 0)), (13, 0), (3, Sparse.get 0 t.fault n)]
  else if 0x300 ≤ off && off ≤ 0x37C then
    let b := s.bay ((off - 0x300) / 4)
    pack [(8, b.volt / 20), (8, 0), (8, b.vmin)]
  else if off = 0x400 then t.offBay.toNat
  else t.offLg.toNat

/-- The hottest node, the lowest of equals. -/
def State.hottest (s : State) : Nat :=
  (List.range 48).foldl (fun a i => if (s.node a).temp < (s.node i).temp then i else a) 0

def ThmParam.reg (p : ThmParam) : Nat := pack [(8, p.worst), (8, p.thetaMax), (8, p.knee), (8, p.k)]
def ThmParam.reg2 (p : ThmParam) : Nat := pack [(20, p.presets.toNat), (4, 0), (8, p.warn)]

/-- The slope in 1/16 °C/s, saturating. -/
def slopeReg (slope : Int) : Nat := ofInt 12 (clampInt (-2048) 2047 (slope * 1000 / 224))

def State.nodeReg (s : State) (i : Nat) : Nat :=
  let t := s.node i
  pack [(12, ofInt 12 t.temp), (12, slopeReg t.slope), (2, 0), (3, t.band), (1, bitOf (t.forced || t.pinned)), (1, bitOf t.warn),
    (1, bitOf t.pinned)]

def State.thmReg (s : State) (off : Nat) : Nat :=
  let t := s.thm
  if off = 0x000 then t.boundary.toNat
  else if off = 0x004 then
    pack [(12, ofInt 12 (s.node s.hottest).temp), (4, 0), (6, s.hottest), (9, 0), (1, bitOf t.boundaryStale)]
  else if off = 0x008 then t.param.reg
  else if off = 0x00C then t.param.reg2
  else if off = 0x010 then t.event.toNat
  else if off ≤ 0x1BC then s.nodeReg ((off - 0x100) / 4)
  else
    let n := s.node ((off - 0x200) / 4)
    pack [(8, n.phi), (8, n.target), (8, n.applied)]

/-! ## Slips (R386) -/

def thermalSetBody (p : List Byte) (s : State) : SlipOut := do
  let mask := arg p 16 1
  let m := fun i => mask.testBit i
  let v := fun off => arg p off 1
  let old := s.thm.paramNext.getD s.thm.param
  let knee := if m 2 then v 19 else old.knee
  let presets := arg p 22 3
  fields [⟨16, 1, mask < 64⟩, ⟨17, 1, masked (m 0) (v 17) 25 100⟩, ⟨18, 1, masked (m 1) (v 18) 1 100⟩,
    ⟨19, 1, masked (m 2) (v 19) 10 200⟩, ⟨20, 1, masked (m 3) (v 20) 5 knee⟩,
    ⟨21, 1, masked (m 4) (v 21) 0 192⟩, ⟨22, 3, masked (m 5) presets 0 0xFFFFF⟩] p
  okSlip { s with thm.paramNext := some {
    worst := if m 0 then v 17 else old.worst
    k := if m 1 then v 18 else old.k
    knee := knee
    warn := if m 3 then v 20 else old.warn
    thetaMax := if m 4 then v 21 else old.thetaMax
    presets := if m 5 then BitVec.ofNat 20 presets else old.presets } }

def execThermalSet (h : SlipHdr) (p : List Byte) (s : State) : Host.Outcome State Fault Refusal :=
  slip 0x0201 .ordinary h p (fun _ s => thermalSetBody p s) s

def thermalReleaseBody (p : List Byte) (s : State) : SlipOut := do
  let n := arg p 16 1
  fields [⟨16, 1, n < 48⟩] p
  if !(s.node n).pinned then okSlip s
  else do
    need ((feedingPhases n).all fun k => 1024 ≤ Sparse.get 0 s.pwr.passed k) (fail St.notQualified)
    okSlip (s.modNode n fun t => { t with release := true })

def execThermalRelease (h : SlipHdr) (p : List Byte) (s : State) : Host.Outcome State Fault Refusal :=
  slip 0x0202 .ordinary h p (fun _ s => thermalReleaseBody p s) s

def thermalQueryBody (p : List Byte) (s : State) : SlipOut := do
  fields [] p
  okResult s (words4 (([0x000, 0x004, 0x008, 0x00C, 0x010].map s.thmReg) ++ [0, 0, 0] ++
    ((List.range 48).map fun i => s.thmReg (0x100 + 4 * i)) ++ ((List.range 48).map fun i => s.thmReg (0x200 + 4 * i))))

def execThermalQuery (h : SlipHdr) (p : List Byte) (s : State) : Host.Outcome State Fault Refusal :=
  slip 0x0203 .passable h p (fun _ s => thermalQueryBody p s) s

def powerSetBody (p : List Byte) (s : State) : SlipOut := do
  let b := arg p 16 1
  let v := arg p 17 1
  fields [⟨16, 1, b < 32⟩, ⟨17, 1, max 65 (s.bay b).vmin ≤ v && v ≤ 80⟩] p
  okSlip { s with pwr.pendVset := s.pwr.pendVset ++ [(b, v)] }

def execPowerSet (h : SlipHdr) (p : List Byte) (s : State) : Host.Outcome State Fault Refusal :=
  slip 0x0204 .ordinary h p (fun _ s => powerSetBody p s) s

/-- Removing at once, restoring when the rail is in range (R312). -/
def powerGateBody (p : List Byte) (id : SlipId) (s : State) : SlipOut := do
  let kind := arg p 16 1
  let i := arg p 17 1
  let lg := kind == 1
  fields [⟨16, 1, kind < 2⟩, ⟨17, 1, i < (if lg then 8 else 32)⟩, ⟨18, 1, arg p 18 1 < 2⟩] p
  if arg p 18 1 = 1 then
    if s.railOff lg i then accept { s with pwr.restoring := s.pwr.restoring ++ [(lg, i, id)] }
    else acceptDone s St.ok
  else if s.railOff lg i then acceptDone s St.ok
  else do
    need (s.clockGated lg i) (fail St.modeConflict)
    let t := setRail lg i true s
    acceptDone (if lg then t else loseFlops i t) St.ok

def execPowerGate (h : SlipHdr) (p : List Byte) (s : State) : Host.Outcome State Fault Refusal :=
  slip 0x0205 .ordinary h p (powerGateBody p) s

def powerQueryBody (p : List Byte) (s : State) : SlipOut := do
  fields [] p
  okResult s (words4 ([s.pwrReg 0, s.pwrReg 4] ++ ((List.range 96).map fun n => s.pwrReg (0x100 + 4 * n)) ++
    ((List.range 32).map fun b => s.pwrReg (0x300 + 4 * b)) ++ [s.pwrReg 0x400, s.pwrReg 0x404]))

def execPowerQuery (h : SlipHdr) (p : List Byte) (s : State) : Host.Outcome State Fault Refusal :=
  slip 0x0206 .passable h p (fun _ s => powerQueryBody p s) s

end Sys2Proof.Machine
end

