-- ==== Sys2Proof/Machine/Channels.lean ====
section
/-! DEFINITION. The slip channels themselves: host rings, the sideband's slip commands, the in-band channel, replies, the
SLIP registers, and the lockstep pairs ("Call slips: channels, format and ordering", R356 to R379). -/

namespace Sys2Proof.Machine
open Sys2Proof

/-! ## Host rings (R358 to R363) -/

/-- The indices start again and the ring's series with them (R358, R368). -/
def resetRing (n : Nat) (s : State) : State :=
  (s.modRing n fun r => { r with prod := 0, cons := 0, rprod := 0, rcons := 0, dmaFault := false, heldEnable := false }).modChan n
    fun k => { k with lastSeq := none, fenceWait := none, written := [] }

/-- SLIP_RING_CTRL_n. A write of enable 1 while draining is held. -/
def writeRingCtrl (n : Nat) (v : Word) (s : State) : State :=
  let r := s.ring n
  let on := getBit v 0
  let s := s.modRing n fun r => { r with irqEn := getBit v 1 }
  if on && !r.enable then
    let s := s.modRing n fun r => { r with enable := true, gen := r.gen + 1, heldEnable := r.draining }
    if r.draining then s else resetRing n s
  else if !on && r.enable then
    s.modRing n fun r => { r with enable := false, draining := true, heldEnable := false }
  else s

/-- R363: the started slips have replied; what was not started is discarded, and an enable that was held takes effect. -/
def drainComplete (n : Nat) (s : State) : State :=
  let r := s.ring n
  let s := (s.modRing n fun r => { r with draining := false, cons := r.prod }).modChan n fun k => { k with fenceWait := none }
  if r.heldEnable then resetRing n s else s

def execRingDrainComplete (n : Fin 4) (s : State) : Host.Outcome State Fault Refusal :=
  done (when (s.up && (s.ring n.val).draining && (s.chan n.val).waiting.isEmpty) (drainComplete n.val) s)

/-- SLIP_RING_BASE_n and SLIP_REPLY_BASE_n: ignored while the ring is enabled or drains. -/
def writeRingBase (n : Nat) (reply : Bool) (v : Word) (s : State) : State :=
  s.modRing n fun r =>
    if r.enable || r.draining then r else if reply then { r with replyBase := v } else { r with base := v }

/-- R359: an out-of-span index is dropped, with a warning. -/
def writeProd (n : Nat) (v : Word) (s : State) : State :=
  let i := v.truncate 9
  if 256 < (i - (s.ring n).cons).toNat then warn 0x0B06 n [] s else s.modRing n fun r => { r with prod := i }

/-- The replies of which slots stay unfreed. -/
def trimReplies (held : Nat) (l : List (List Byte)) : List (List Byte) :=
  match l with
  | [] => []
  | r :: rest => if (l.map List.length).sum ≤ 64 * held then r :: rest else trimReplies held rest

def writeRcons (n : Nat) (v : Word) (s : State) : State :=
  let i := v.truncate 9
  let held := ((s.ring n).rprod - i).toNat
  if 256 < held then warn 0x0B06 n [] s
  else (s.modRing n fun r => { r with rcons := i }).modChan n fun k => { k with written := trimReplies held k.written }

/-- R362: a slip-ring slot could not be read. -/
def dmaFault (n : Nat) (kind : Byte) (s : State) : State :=
  alarm 0x0B0C n [(3, n), (9, (s.ring n).cons.toNat), (16, kind.toNat)] (s.modRing n fun r => { r with dmaFault := true })

def execSlipDmaFault (n : Fin 4) (kind : Byte) (s : State) : Host.Outcome State Fault Refusal :=
  let r := s.ring n.val
  run (when (s.awake && s.pkg.pcieUp && r.enable && !r.draining && !r.dmaFault && r.cons != r.prod) (dmaFault n.val kind)) s

/-! ## Replies (R360, R364, R365, R370) -/

/-- A reply as its slots hold it. -/
def replyBytes (r : Reply) (phase : Bool) : List Byte :=
  let l := headerBytes r phase ++ r.result
  l ++ List.replicate (64 * slotsFor r.result - l.length) 0

/-- The words of bytes, 32 to a word. -/
def wordsOf (l : List Byte) : List Line :=
  (List.range ((l.length + 31) / 32)).map fun i => BitVec.ofNat 256 (leAt l (32 * i) 32)

/-- The reply's item on f_out. What its header holds beside flow, length and class the spec leaves open. -/
def replyItem (s : State) (r : Reply) : List Line :=
  let w := wordsOf (replyBytes r false)
  let f := s.slips.fOut.toNat
  let free := fun i => (Config.freeValue (s.frame.freeCount + i)).toNat
  BitVec.ofNat 256 (pack [(16, f), (9, w.length + 1), (1, bitOf (s.flow f).ordinary), (2, 0), (4, 0), (16, free 0),
    (8, free 1), (8, 0), (64, free 2), (64, free 3), (64, free 4)]) :: w

/-- The first reply that waits leaves the list. -/
def replyGone (ch : Nat) (s : State) : State := s.modChan ch fun k => { k with waiting := k.waiting.tail }

/-- The desk writes the first reply that its channel waits with, if it has room for it. -/
def replyWrite (ch : Nat) (s : State) : State :=
  match (s.chan ch).waiting.head? with
  | none => s
  | some w =>
    if ch < 4 then
      let r := s.ring ch
      let c := slotsFor w.result
      if s.pkg.pcieUp && (r.enable || r.draining) && c ≤ replyRoom r then
        let bytes := replyBytes w (!r.rprod.getLsbD 8)
        let s := (replyGone ch s).modChan ch fun k => { k with written := k.written ++ [bytes] }
        let s := s.modRing ch fun r => { r with rprod := r.rprod + BitVec.ofNat 9 c }
        if r.irqEn then msix ch s else s
      else s
    else if ch = 4 then
      if (s.chan 4).written.length < 16 then
        (replyGone 4 s).modChan 4 fun k => { k with written := k.written ++ [replyBytes w false] }
      else s
    else
      let q := s.slips.qOut.toNat
      if (s.queue q).busy then s
      else
        let it : HeldItem := { queue := q, words := replyItem s w, release := s.frame.time, marker := false,
                               complete := true, poisoned := false, charge := none }
        let s := { s with frame.freeCount := s.frame.freeCount + 5 }
        admitHeld q it (replyGone 5 s)

/-- The active pair writes replies, unless it has stopped (R377, R378). -/
def execReplyWrite (ch : Channel) (s : State) : Host.Outcome State Fault Refusal :=
  run (when (s.awake && !s.desk.doubleFail && !s.desk.takeover) (replyWrite ch.val)) s

/-! ## Sideband slip commands (R364) -/

/-- EXTEST, HIGHZ and CLAMP hold the covered pins, SDA and SCL among them (R438). -/
def State.pinsTaken (s : State) : Bool := s.tap.instr == .extest || s.tap.instr == .highz || s.tap.instr == .clamp

/-- The I²C interface answers: it does while cold too (R303, R343), and not while the TAP holds its pins. -/
def State.i2cAnswers (s : State) : Bool := s.up && !s.clk.stoppedDevice && !s.pinsTaken

/-- A transfer's outcome: acknowledged, and the bytes read. -/
def sbAnswer (ack : Bool) (data : List Byte) (s : State) : State := { s with slips.sbAck := ack, slips.sbData := data }

/-- A transfer to a device that does not answer is not acknowledged. -/
def sideband (f : State → State) (s : State) : Host.Outcome State Fault Refusal :=
  run (fun s => if s.i2cAnswers then f s else sbAnswer false [] s) s

def putBytes (m : Sparse Byte) (o : Nat) (l : List Byte) : Sparse Byte :=
  match l with
  | [] => m
  | b :: r => putBytes (Sparse.put 0 m o b) (o + 1) r

/-- 0xE3: a transfer that stops before its last byte changes nothing. -/
def slipWrite (l : List Byte) (s : State) : State :=
  let o := leAt l 0 2
  let n := leAt l 2 1
  if l.length < 3 then sbAnswer true [] s
  else if n < 1 || 32 < n || 4096 < o + n then sbAnswer false [] s
  else if l.length < 3 + n then sbAnswer true [] s
  else sbAnswer (l.length == 3 + n) [] { s with slips.sbBuffer := putBytes s.slips.sbBuffer o (slice l 3 n) }

def execSidebandSlipWrite (bytes : List Byte) (s : State) : Host.Outcome State Fault Refusal := sideband (slipWrite bytes) s

/-- The slip at buffer offset 0, of the length its slot count gives; a count out of range leaves its first slot. -/
def State.sbSlip (s : State) : List Byte :=
  let c := (Sparse.get 0 s.slips.sbBuffer 3).toNat
  (List.range (64 * (if 1 ≤ c && c ≤ 64 then c else 1))).map fun i => Sparse.get 0 s.slips.sbBuffer i

/-- The sideband holds no queued slip and no reply (R368). -/
def State.sbIdle (s : State) : Bool :=
  s.slips.sbQueue.isEmpty && (s.chan 4).waiting.isEmpty && (s.chan 4).written.isEmpty

/-- The channel's next slip may carry any number (R368). -/
def newSeries (ch : Nat) (s : State) : State := s.modChan ch fun k => { k with lastSeq := none }

/-- 0xE4. A submission after a quiet second begins a new series. -/
def sbSubmit (s : State) : State :=
  if 16 ≤ s.slips.sbQueue.length || s.clk.cold then sbAnswer false [] s
  else
    let s := if 8000 ≤ s.slips.sbQuiet && s.sbIdle then newSeries 4 s else s
    sbAnswer true [] { s with slips.sbQueue := s.slips.sbQueue ++ [s.sbSlip], slips.sbQuiet := 0 }

def execSidebandSubmit (s : State) : Host.Outcome State Fault Refusal := sideband sbSubmit s

/-- 0xE5. -/
def sbReplyRead (l : List Byte) (s : State) : State :=
  let n := leAt l 2 1
  match (s.chan 4).written with
  | [] => sbAnswer false [] s
  | r :: _ => if l.length < 3 || n < 1 || 32 < n then sbAnswer false [] s else sbAnswer true (slice r (leAt l 0 2) n) s

def execSidebandReplyRead (bytes : List Byte) (s : State) : Host.Outcome State Fault Refusal := sideband (sbReplyRead bytes) s

/-- 0xE6. -/
def sbStatus (s : State) : State :=
  let w := (s.chan 4).written
  let c := match w with
    | [] => 0
    | r :: _ => r.length / 64
  sbAnswer true (leBytes 1 s.slips.sbQueue.length ++ leBytes 1 w.length ++ leBytes 1 c ++ leBytes 1 0) s

def execSidebandStatus (s : State) : Host.Outcome State Fault Refusal := sideband sbStatus s

/-- 0xE7. -/
def sbRelease (s : State) : State :=
  if (s.chan 4).written.isEmpty then sbAnswer false [] s
  else sbAnswer true [] (s.modChan 4 fun k => { k with written := k.written.tail })

def execSidebandRelease (s : State) : Host.Outcome State Fault Refusal := sideband sbRelease s

/-- R343: other command codes are not acknowledged. -/
def execSidebandBadCommand (code : Byte) (s : State) : Host.Outcome State Fault Refusal :=
  sideband (when (code.toNat < 0xE1 || 0xE7 < code.toNat) (sbAnswer false [])) s

def execSidebandSeriesReset (s : State) : Host.Outcome State Fault Refusal :=
  done (when (s.up && 8000 ≤ s.slips.sbQuiet && s.sbIdle) (newSeries 4) s)

/-! ## The in-band channel (R365) -/

/-- What the desk popped: a word, whether the item ends with it, and whether it is an abort word. -/
structure DeskWord where
  word : Line
  ends : Bool
  abort : Bool

/-- One pop of a queue by the desk. -/
def deskPop (q : Nat) (f : Found) (s : State) : Option DeskWord × State :=
  let d := s.queue q
  let finish := fun (abort : Bool) (r : Popped) (s : State) =>
    ((some ⟨r.word, r.ends, abort⟩ : Option DeskWord), freeCredit r.frees (s.setQueue q { r.queue with popped := some r.word }))
  if !d.poppable then (none, s)
  else match useQueue q s with
    | some s => (none, s)
    | none =>
      if d.abortNext then finish true (popAbort q s d) s else
      let s1 := popFinding q f s
      if foundBad f then
        let s1 := s1.modEngine (queueEngine q) fun t => { t with event := t.event ||| 0x20 }
        if d.consMid then finish true (popBadWord q s1 d) s1
        else (none, resetQueue q 4 (d.wptr, d.wptrSh, d.rptr, d.rptrSh) s1)
      else if d.consMid then finish false (popWord d) s1
      else finish false (popHeader d) s1

/-- The words of an item popped to its end, none where it came to no end. -/
def deskItem (q fuel i : Nat) (found : List Found) (s : State) : Option (List Line × Bool) × State :=
  match fuel with
  | 0 => (none, s)
  | n + 1 =>
    match deskPop q (found.getD i .clean) s with
    | (none, s) => (none, s)
    | (some w, s) =>
      if w.ends then (some ([w.word], w.abort), s)
      else
        let r := deskItem q n (i + 1) found s
        (r.1.map fun x => (w.word :: x.1, x.2), r.2)

/-- The common header of the slip that bytes hold. -/
def hdrOfBytes (ch : Channel) (l : List Byte) : SlipHdr :=
  { ch := ch, flags := BitVec.ofNat 8 (leAt l 2 1), count := BitVec.ofNat 8 (leAt l 3 1),
    tag := BitVec.ofNat 16 (leAt l 4 2), seq := BitVec.ofNat 16 (leAt l 6 2), reserved := BitVec.ofNat 64 (leAt l 8 8) }

/-- An item of a wrong length is answered at once, as a start that fails (R365, R375). -/
def inbandTooLong (l : List Byte) (s : State) : State :=
  let h := hdrOfBytes 5 l
  let op := BitVec.ofNat 16 (leAt l 0 2)
  let id := slipId s op h .ordinary
  let gap := s.gapIn h
  queueReply (replyOf id St.lengthExcess 3 []) (noteSeq gap h { s with slips.started := s.slips.started + 1, slips.served := 5 })

/-- What the desk makes of an item: markers, and items that an abort word ends or that it met midway, are discarded. -/
def inbandTake (words : List Line) (lost : Bool) (s : State) : State :=
  let bytes := (words.drop 1).flatMap fun w => leBytes 32 w.toNat
  let c := leAt bytes 3 1
  if lost || hdrKind (words.headD 0) != 0 then warn 0x0B08 5 [] s
  else if 1 ≤ c && c ≤ 64 && words.length == 2 * c + 1 then { s with slips.inQueue := s.slips.inQueue ++ [bytes] }
  else inbandTooLong bytes s

/-- The head item is whole, or its abort word is next. -/
def QueueSt.wholeNext (d : QueueSt) : Bool :=
  d.abortPending || (d.poppable && !(d.prodMid && !d.discarding && d.prodAt == d.rptr) && !(d.consMid && d.opened))

def inbandItem (found : List Found) (u : Upset) (s : State) : State :=
  let q := s.slips.qIn.toNat
  let midway := (s.queue q).consMid
  match deskItem q 321 0 found (strikeQueue q u s) with
  | (some (words, abort), s) => inbandTake words (midway || abort) s
  | (none, s) => s

/-- The desk pops while it may start slips. -/
def execInbandItem (found : List Found) (u : Upset) (s : State) : Host.Outcome State Fault Refusal :=
  run (when (s.slips.inEnabled && s.deskStarts 5 && s.slips.inQueue.length < 64 &&
    (s.queue s.slips.qIn.toNat).wholeNext) (inbandItem found u)) s

/-- R395: INBAND_SET. A clear ends the channel's slips that have not started. -/
def inbandSetBody (p : List Byte) (s : State) : SlipOut := do
  let fIn := arg p 16 2
  let fOut := arg p 18 2
  let act := arg p 20 1
  fields [⟨16, 2, act == 1 || (s.flow fIn).valid⟩, ⟨18, 2, act == 1 || (s.flow fOut).valid⟩, ⟨20, 1, act < 2⟩] p
  if act = 1 then okSlip { s with slips.inEnabled := false, slips.inQueue := [] }
  else do
    let qIn := (s.flow fIn).egQueue
    need ((s.queue qIn).enable && (s.queue (s.flow fOut).egQueue).enable) (fail St.queueDisabled)
    need ((s.portOfQueue qIn).isNone) (fail St.calConflict)
    okSlip (setInband fIn fOut s)

def execInbandSet (h : SlipHdr) (p : List Byte) (s : State) : Host.Outcome State Fault Refusal :=
  slip 0x0B10 .fencing h p (fun _ s => inbandSetBody p s) s

/-! ## Unknown opcodes (R366, R383) -/

/-- The opcodes that "Call slip reference" lists: family, and their low bytes. -/
def knownOpcodes : List (Nat × List Nat) :=
  [(0x01, [0x01, 0x02, 0x03, 0x04, 0x05]),
   (0x02, [0x01, 0x02, 0x03, 0x04, 0x05, 0x06]),
   (0x03, [0x01, 0x02, 0x03, 0x04, 0x05, 0x06, 0x07]),
   (0x04, [0x01, 0x02, 0x03, 0x04, 0x05, 0x06, 0x07, 0x08, 0x09, 0x0A]),
   (0x05, [0x01, 0x02]),
   (0x06, [0x01, 0x02, 0x03, 0x04]),
   (0x07, [0x01, 0x02, 0x03, 0x04, 0x05, 0x06, 0x07]),
   (0x08, [0x01, 0x02, 0x03, 0x04, 0x05, 0x06, 0x07]),
   (0x09, [0x01, 0x02, 0x03, 0x04, 0x05, 0x06]),
   (0x0A, [0x01, 0x02, 0x03, 0x04, 0x05]),
   (0x0B, [0x01, 0x02, 0x03, 0x04, 0x05, 0x10]),
   (0x0C, [0x01, 0x02]),
   (0x0D, [0x01, 0x02])]

def opcodeKnown (op : Nat) : Bool := knownOpcodes.any fun f => f.1 == op / 256 && f.2.contains (op % 256)

def execSlipUnknownOpcode (opcode : BitVec 16) (h : SlipHdr) (p : List Byte) (s : State) :
    Host.Outcome State Fault Refusal :=
  if opcodeKnown opcode.toNat then done s
  else slip opcode .ordinary h p (fun _ _ => .error (fail St.unknownOpcode)) s

/-! ## The lockstep pairs (R377, R378) -/

/-- The active pair's cores disagree. -/
def lockstepMismatch (s : State) : State :=
  if s.desk.standbyReady then
    alarm 0x0B02 0 [] (loseUpdate { s with
      desk.standbyReady := false, desk.takeover := true, desk.switchovers := sat 0xFFFF s.desk.switchovers 1 })
  else
    nonMask 0x0B01 0 [] (forceThrottle { s with
      desk.doubleFail := true, desk.takeover := false, frame := freeze s.frame })

def execLockstepMismatch (s : State) : Host.Outcome State Fault Refusal :=
  run (when (s.awake && !s.desk.doubleFail) lockstepMismatch) s

/-- The slips that had started and not committed when the pair stopped, at most one a channel that held one. A start and its
commit are one command here, so which of them were under way is open (log entry 59). -/
def State.underWay (s : State) : Nat :=
  ((List.range 6).filter fun c => s.hasSlip c && (Config.freeValue (s.frame.freeCount + c)).getLsbD 0).length

/-- The standby pair in control marks every reply that it still has to write as replayed. What had not committed stands in its
channel and is executed again from its start. -/
def takeOver (s : State) : State :=
  if !s.desk.takeover then s
  else
    let n := (s.slips.chans.map fun k => k.waiting.length).sum
    { s with
      frame.freeCount := s.frame.freeCount + 6
      slips.reexecuted := sat 0xFFFF s.slips.reexecuted s.underWay
      desk.takeover := false
      desk.activePair := !s.desk.activePair
      desk.reloading := true
      slips.replayed := sat 0xFFFF s.slips.replayed n
      slips.chans := s.slips.chans.map fun k => { k with waiting := k.waiting.map fun r => { r with flags := r.flags ||| 2 } } }

def execStandbyReloadComplete (s : State) : Host.Outcome State Fault Refusal :=
  done (when (s.up && s.desk.reloading && !s.desk.doubleFail)
    (fun s => { s with desk.reloading := false, desk.standbyReady := true }) s)

/-! ## The SLIP registers -/

def State.ringReg (s : State) (n off : Nat) : Nat :=
  let r := s.ring n
  if off = 0x00 then pack [(1, bitOf r.enable), (1, bitOf r.irqEn), (1, bitOf r.draining), (1, bitOf r.dmaFault)]
  else if off = 0x04 then r.base.toNat
  else if off = 0x08 then r.replyBase.toNat
  else if off = 0x0C then r.prod.toNat
  else if off = 0x10 then r.cons.toNat
  else if off = 0x14 then r.rprod.toNat
  else if off = 0x18 then r.rcons.toNat
  else pack [(8, (s.chan n).seqGaps), (1, bitOf (s.stalled n)), (7, r.lengthExcess), (16, r.executed)]

def State.slipReg (s : State) (off : Nat) : Nat :=
  let l := s.slips
  if off < 0x80 then s.ringReg (off / 0x20) (off % 0x20)
  else if off = 0x80 then
    pack [(8, l.sbLengthExcess), (5, (s.chan 4).written.length), (3, 0), (5, l.sbQueue.length), (3, 0), (8, l.sbExecuted)]
  else if off = 0x84 then pack [(14, l.qIn.toNat), (2, 0), (14, l.qOut.toNat), (1, 0), (1, bitOf l.inEnabled)]
  else if off = 0x88 then pack [(16, l.fIn.toNat), (16, l.fOut.toNat)]
  else if off = 0x8C then pack [(17, l.prevCycles), (4, 0), (3, l.prevSb), (8, l.prevStarted)]
  else if off = 0x90 then pack [(16, l.reexecuted), (16, l.replayed)]
  else pack [(16, l.lastSeq.toNat), (3, l.lastCh.toNat)]

/-- What a read of a SLIP register clears. -/
def clearSlip (off : Nat) (s : State) : State :=
  if off < 0x80 then
    (if off % 0x20 = 0x1C then
      (s.modRing (off / 0x20) fun r => { r with executed := 0, lengthExcess := 0 }).modChan (off / 0x20) fun k => { k with seqGaps := 0 }
    else s)
  else if off = 0x80 then { s with slips.sbLengthExcess := 0, slips.sbExecuted := 0 }
  else if off = 0x90 then { s with slips.replayed := 0, slips.reexecuted := 0 }
  else s

/-- Writes of the SLIP block. -/
def writeSlip (off : Nat) (v : Word) (s : State) : State :=
  if 0x80 ≤ off then s
  else
    let n := off / 0x20
    let o := off % 0x20
    if o = 0x00 then writeRingCtrl n v s
    else if o = 0x04 then writeRingBase n false v s
    else if o = 0x08 then writeRingBase n true v s
    else if o = 0x0C then writeProd n v s
    else if o = 0x18 then writeRcons n v s
    else s

/-- A write to the SLIP block that changes a guarded field. -/
def State.slipGuarded (s : State) (off : Nat) (v : Word) : Bool :=
  if 0x80 ≤ off then false
  else
    let r := s.ring (off / 0x20)
    let o := off % 0x20
    let open_ := !(r.enable || r.draining)
    (o == 0x00 && getBit v 0 != r.enable) || (o == 0x04 && open_ && v != r.base) || (o == 0x08 && open_ && v != r.replyBase)

end Sys2Proof.Machine
end

