-- ==== Sys2Proof/Machine/Gates.lean ====
section
/-! DEFINITION. Clock gating of bays, ports, queue engines, side 0 and the PCI Express endpoint (R307, R308, R445). -/

namespace Sys2Proof.Machine
open Sys2Proof

/-- "Table: gating conditions". -/
def State.gateReady (s : State) : GateBlock → Bool
  | .bay b => !(s.bay b.val).running && (s.test? b.val).isNone
  | .port p =>
    let m := s.portMode p.val
    m == .intake || m == .bindery || (m == .closing && (s.port p.val).lane.txIdle)
  | .engine e =>
    ((List.range 9).all fun k => getBit s.clk.gatedPort (groupPort e.val k)) &&
      (s.queues.all fun (q, d) => queueEngine q != e.val || !d.enable)
  | .side0 =>
    ((List.range 39).all fun m => m == 33 || (s.rights m).accLo == 0) && (s.delayVolumes.all fun v => 16 ≤ v)
  | .pcie => true

def State.gateAsked (s : State) : GateBlock → Bool
  | .bay b => getBit s.clk.gateReqBay b.val
  | .port p => getBit s.clk.gateReqPort p.val
  | .engine e => getBit s.clk.gateReqQe e.val
  | .side0 => s.clk.gateReqSide0
  | .pcie => s.clk.gateReqPcie

/-- A dirty node is written back and stays resident (R241). -/
def cleanNode (k : Nat) (s : State) : State :=
  if s.crypto.cache.contains (k, true) then
    bumpParent k { s with
      crypto.cache := s.crypto.cache.map fun e => if e.1 = k then (k, false) else e
      crypto.writebacks := sat 0xFFFF s.crypto.writebacks 1 }
  else s

/-- The counter cache writes back side 0's dirty nodes, from the pages up, each level twice: a minor count that wraps makes its
node's other children dirty again, and from zero it does not wrap a second time. -/
def cleanSide0 (s : State) : State :=
  [0, 0, 1, 1, 2, 2, 3].foldl (fun s l =>
    ((s.crypto.cache.filter fun e => e.2 && nlevel e.1 == l && nodeVol e.1 < 16).map (·.1)).foldl (fun s k => cleanNode k s) s) s

/-- The block's clock is held low. -/
def setGated (g : GateBlock) (s : State) : State :=
  match g with
  | .bay b => { s with clk.gatedBay := setBit s.clk.gatedBay b.val true }
  | .port p => { s with clk.gatedPort := setBit s.clk.gatedPort p.val true }
  | .engine e => { s with clk.gatedQe := setBit s.clk.gatedQe e.val true }
  | .side0 => { cleanSide0 s with clk.gatedSide0 := true }
  | .pcie => { s with clk.gatedPcie := true, pkg.pcieUp := false }

def execGateTakesEffect (blk : GateBlock) (s : State) : Host.Outcome State Fault Refusal :=
  done (when (s.up && s.gateAsked blk && s.gateReady blk) (setGated blk) s)

/-- R302, R308, R404: the endpoint has trained its link, which it cannot while LP_HOST is on a fallback. -/
def execPcieLinkUp (s : State) : Host.Outcome State Fault Refusal :=
  done (when (s.awake && !s.clk.gatedPcie && !s.modes.closed.contains .house && !s.clk.onFallback 3) (fun s => { s with pkg.pcieUp := true }) s)

/-! ## Writes of the requests: a cleared request ungates at once, unless the rail is removed (R307, R312) -/

/-- The gated bits that stay: those whose request stays, or whose rail is off. -/
def keepGated {w : Nat} (gated req : BitVec w) (off : Nat → Bool) : BitVec w :=
  BitVec.ofNat w (maskOf w fun i => getBit gated i && (getBit req i || off i))

/-- Bits [16k+15:16k] of a request replaced by the low half of a register. -/
def putHalf {w : Nat} (req : BitVec w) (k : Nat) (v : Word) : BitVec w :=
  BitVec.ofNat w (maskOf w fun i => if i / 16 = k then getBit v (i % 16) else getBit req i)

def writeGateBay (k : Nat) (v : Word) (s : State) : State :=
  let req := putHalf s.clk.gateReqBay k v
  { s with clk.gateReqBay := req, clk.gatedBay := keepGated s.clk.gatedBay req fun b => getBit s.pwr.offBay b }

def writeGatePort (k : Nat) (v : Word) (s : State) : State :=
  let req := putHalf s.clk.gateReqPort k v
  { s with clk.gateReqPort := req, clk.gatedPort := keepGated s.clk.gatedPort req fun p => getBit s.pwr.offLg (laneGroup p) }

def writeGateQe (v : Word) (s : State) : State :=
  let req := putHalf s.clk.gateReqQe 0 v
  { s with clk.gateReqQe := req, clk.gatedQe := keepGated s.clk.gatedQe req fun _ => false }

def writeGateOther (v : Word) (s : State) : State :=
  { s with
    clk.gateReqSide0 := getBit v 0
    clk.gatedSide0 := s.clk.gatedSide0 && getBit v 0
    clk.gateReqPcie := getBit v 1
    clk.gatedPcie := s.clk.gatedPcie && getBit v 1 }

/-! ## The CLK registers ("CLK registers", "Frame registers") -/

/-- The reference code of a trunk loop (CLK_STATUS). -/
def refCode : ClkRef → Nat
  | .sourceA => 0 | .sourceB => 1 | .ioscF => 2 | .ioscS => 3 | _ => 0

def State.clkStatus (s : State) : Nat :=
  let c := s.clk
  pack [(1, bitOf c.qualA), (1, bitOf c.qualB), (1, bitOf c.qualF), (1, bitOf c.qualS), (2, 0), (2, refCode (c.ref 4)),
    (2, refCode (c.ref 5)), (1, bitOf c.refaSel), (1, bitOf c.refbSel), (4, 0), (6, c.loopLock.toNat),
    (6, maskOf 6 c.onFallback), (1, bitOf c.cold)]

def State.clkRefReg (s : State) : Nat :=
  let c := s.clk
  pack [(1, bitOf c.refaEn), (1, bitOf c.refbEn), (6, 0), (2, c.trkaPri.toNat), (2, c.trkaSec.toNat), (2, c.trkbPri.toNat),
    (2, c.trkbSec.toNat), (4, 0), (4, c.tripPct.toNat)]

def State.monCount (s : State) (n : Nat) : Nat :=
  pack [(24, nth s.clk.count n), (7, nth s.clk.goodRun n), (1, bitOf (getBit s.clk.stopped n))]

def State.frameStatus (s : State) : Nat :=
  let f := s.frame
  pack [(4, f.active.src), (1, bitOf f.qualified), (1, bitOf f.locked), (1, bitOf f.unlocked),
    (1, bitOf (s.modes.house == .holdover)), (1, bitOf f.newQualified), (7, 0), (16, ofInt 16 f.phaseErr)]

def State.frameSlot (s : State) : Nat :=
  let f := s.frame
  pack [(8, f.slot.toNat), (8, f.misplaced), (4, if f.active.src = 2 then f.active.trunk else 0)]

def State.frameOutCtrl (s : State) : Nat :=
  pack [(1, bitOf s.frame.outEn), (1, 0), (2, s.frame.outWidthNext.toNat), (10, s.frame.outOffsetNext.toNat)]

def State.overrunReg (s : State) (u : Nat) : Nat := pack [(24, nth s.frame.overrunTotal u), (8, nth s.frame.overrunRun u)]

def State.clkReg (s : State) (off : Nat) : Nat :=
  let c := s.clk
  if off = 0x000 then s.clkStatus
  else if off = 0x004 then s.clkRefReg
  else if off = 0x008 then c.trip.toNat
  else if off ≤ 0x030 then s.monCount ((off - 0x10) / 4)
  else if off ≤ 0x104 then
    let k := (off - 0x100) / 4
    field c.gateReqBay.toNat (16 * k + 15) (16 * k) + 65536 * field c.gatedBay.toNat (16 * k + 15) (16 * k)
  else if off ≤ 0x130 then
    let k := (off - 0x110) / 4
    field c.gateReqPort.toNat (16 * k + 15) (16 * k) + 65536 * field c.gatedPort.toNat (16 * k + 15) (16 * k)
  else if off = 0x140 then c.gateReqQe.toNat + 65536 * c.gatedQe.toNat
  else if off = 0x144 then
    pack [(1, bitOf c.gateReqSide0), (1, bitOf c.gateReqPcie), (14, 0), (1, bitOf c.gatedSide0), (1, bitOf c.gatedPcie)]
  else if off = 0x800 then s.frameStatus
  else if off = 0x804 then s.frame.number.toNat
  else if off = 0x808 then s.frameSlot
  else if off = 0x810 then s.frameOutCtrl
  else s.overrunReg ((off - 0x840) / 4)

/-- FRAME_OUT_CTRL: the offset and width wait for the next edge, the enable acts at once (R43). -/
def writeFrameOut (v : Word) (s : State) : State :=
  let on := getBit v 0
  { s with
    frame.outEn := on
    frame.outOffsetNext := BitVec.ofNat 10 (field v.toNat 13 4)
    frame.outWidthNext := BitVec.ofNat 2 (field v.toNat 3 2)
    pkg.frameOut := s.pkg.frameOut && on }

def clockQueryBody (p : List Byte) (s : State) : SlipOut := do
  houseOpen s
  fields [] p
  okResult s (words4 ([s.clkReg 0, s.clkReg 4, s.clkReg 8] ++ (List.range 9).map s.monCount))

def execClockQuery (h : SlipHdr) (p : List Byte) (s : State) : Host.Outcome State Fault Refusal :=
  slip 0x0105 .passable h p (fun _ s => clockQueryBody p s) s

end Sys2Proof.Machine
end

