-- ==== Sys2Proof/Machine/Lanes.lean ====
section
/-! DEFINITION. Lanes, ordered sets, item framing and test loops of a port ("Serial lanes and line coding"; marks as R198
counts them). -/

namespace Sys2Proof.Machine
open Sys2Proof

/-! ## What a port receives -/

/-- The lane belongs to the port's kind. -/
def hasLane (p k : Nat) : Bool := isTrunk p || k < 2

/-- The lane is in the port's width: the receivers of others are ignored (R112). -/
def State.inWidth (s : State) (p k : Nat) : Bool := k < lanesOf (s.port p).neg.cur.width

/-- Every lane of the width is in sync. -/
def State.allSync (s : State) (p : Nat) : Bool :=
  (List.range 4).all fun k => !s.inWidth p k || getBit (s.port p).lane.inSync k

/-- A port's PCS is in sync: every lane, and in XAUI mode the lanes are aligned (R136, R161). -/
def State.pcsSync (s : State) (p : Nat) : Bool :=
  let t := s.port p
  s.allSync p && (t.cfg.setting != 3 || t.lane.xauiAligned)

/-- The receivers listen: not in electrical idle by mode (R61), and the device runs. -/
def State.listens (s : State) (p : Nat) : Bool := s.awake && s.portMode p != .intake && !(p < 144 && getBit s.clk.gatedPort p)

/-- A near-end loopback: the receivers hear what their own lanes send, and the pins are ignored (R140). -/
def State.nearEnd (s : State) (p : Nat) : Bool :=
  let b := (s.port p).lane.loopback
  s.portMode p == .bindery && (b == 1 || b == 2)

/-- The receivers hear the pins. -/
def State.hearsPins (s : State) (p : Nat) : Bool := s.listens p && !s.nearEnd p

/-- The port has sent a set in this slot or the one before. -/
def State.hasSent (s : State) (p : Nat) (u : LineUnit) : Bool :=
  let x := (s.port p).tx
  x.units.contains u || x.before.contains u

/-- The port expects slot marks (R133, R161). -/
def expectsMarks (c : PortCfg) : Bool := !foreign c && !(c.setting == 1 && !c.marksRx)

/-- Items and marks are taken as traffic (R61). -/
def carries (m : Mode) : Bool := modeIn m [.service, .holdover]

/-- The item open on a native trunk is closed as poisoned (R128). -/
def closePoisoned (p : Nat) (s : State) : State :=
  if (s.port p).lane.itemOpen then poisonFrom p (s.modLane p fun l => { l with itemOpen := false }) else s

/-- The same with some of it still to come: that is a run of discarded symbols. -/
def poisonOpen (p : Nat) (s : State) : State :=
  if (s.port p).lane.itemOpen then
    countIngress p ((closePoisoned p s).modLane p fun l => { l with discardRun := true })
  else s

/-! ## Sync and code errors (R115 to R117) -/

/-- A lane comes into sync. Its running disparity is what the first comma that it accepted leaves. -/
def execLaneSyncAcquired (p : Port) (comma : LaneComma) (s : State) : Host.Outcome State Fault Refusal :=
  let k := comma.lane.val
  done (when (s.listens p.val && s.inWidth p.val k)
    (fun s => s.modLane p.val fun l => { l with
      inSync := setBit l.inSync k true, rxPositive := setBit l.rxPositive k comma.positive }) s)

/-- Training falls back: the conditions of R150 hold no longer. -/
def untrain (n : NegSt) : NegSt :=
  if n.state = 1 then { n with trained := false, markSeen := false, readySent := false }
  else if n.state = 6 then { n with trained := false, markSeen := false, settled := false } else n

/-- A lane leaves sync: an open item is poisoned, XAUI lanes lose their alignment (R135), a slot judged by sync is lost (R136, R161),
and in Bring-up the receiver is trained no longer (R150). -/
def laneSyncLost (p k : Nat) (s : State) : State :=
  let t := s.port p
  let xaui := t.cfg.setting == 3 && t.lane.xauiAligned
  let s := s.modLane p fun l => { l with
    inSync := setBit l.inSync k false, syncLoss := sat 255 l.syncLoss 1, badThisSlot := l.badThisSlot || !expectsMarks t.cfg
    xauiAligned := false, alignErr := if xaui then sat 255 l.alignErr 1 else l.alignErr }
  let s := if s.portMode p == .bringUp then s.modNeg p untrain else s
  poisonOpen p s

/-- In a PRBS window the rule of R116 is suspended (R151). -/
def execLaneSyncLost (p : Port) (k : Fin 4) (s : State) : Host.Outcome State Fault Refusal :=
  run (when (s.listens p.val && s.inWidth p.val k.val && getBit (s.port p.val).lane.inSync k.val && !(s.port p.val).neg.window)
    (laneSyncLost p.val k.val)) s

/-- A special symbol that the port treats as invalid: the reserved ones, less K28.4 on lane 0 of a XAUI link (R135), and K23.7 on a
slot port (R126). -/
def State.refusesSym (s : State) (p k : Nat) (y : Sym) : Bool :=
  (isReserved y && !(y == kSym 0x9C && k == 0 && (s.port p).cfg.setting == 3)) || (y == k237 && !isTrunk p)

/-- A symbol that an invalid one is delivered as goes where the lane's symbols go: into the edition's bytes, or into the item open on
a native trunk (R117, R128). -/
def deliverSym (p : Nat) (y : Sym) (s : State) : State :=
  if y == k285 then s else if s.native p then (if y == k307 then poisonOpen p s else s) else lineIngress p [y] s

/-- A checker of coded idle that is locked counts a symbol (R138). -/
def codedErrors (p k n : Nat) (s : State) : State :=
  let l := (s.port p).lane
  if s.portMode p == .bindery && ctrlChk (s.testCtrl p k) == 5 && getBit l.chkLock k then
    s.modLane p fun l => { l with prbsErr := l.prbsErr.modify k fun e => sat 0xFFFFFFFF e n }
  else s

/-- A code violation, a reserved symbol or a comma out of place: K30.7 goes on. -/
def codeError (p k : Nat) (s : State) : State :=
  codedErrors p k 1 (deliverSym p k307 (s.modLane p fun l => { l with codeViol := bump 0xFFFF l.codeViol k }))

/-- R116, R117: what the decoder makes of a group; one that is valid as it comes is no invalid symbol. -/
def invalidSymbol (p k : Nat) (b : BadSymbol) (s : State) : State :=
  match b with
  | .misplacedComma => codeError p k s
  | .group g positive =>
    let s := s.modLane p fun l => { l with rxPositive := setBit l.rxPositive k (groupDisparity g.toNat positive) }
    match decodeGroup g.toNat positive with
    | .violation => codeError p k s
    | .good y => if s.refusesSym p k y then codeError p k s else s
    | .wrongDisparity y =>
      if s.refusesSym p k y then codeError p k s
      else deliverSym p y (s.modLane p fun l => { l with disparity := bump 0xFFFF l.disparity k })

def execInvalidSymbol (p : Port) (k : Fin 4) (b : BadSymbol) (s : State) : Host.Outcome State Fault Refusal :=
  run (when (s.hearsPins p.val && s.inWidth p.val k.val) (invalidSymbol p.val k.val b)) s

/-! ## Marks -/

def countCrc (p : Nat) (s : State) : State := s.modLane p fun l => { l with crcFail := sat 0xFFFF l.crcFail 1 }

/-- A mark of n symbols is discarded; each is an error to a checker of coded idle (R138): all of them on every lane, or striped. -/
def countMark (p n : Nat) (everyLane : Bool) (s : State) : State :=
  let w := lanesOf (s.port p).neg.cur.width
  (List.range w).foldl (fun s k => codedErrors p k (if everyLane then n else (n + w - 1 - k) / w) s) (countCrc p s)

/-- A set's last two symbols are the CRC of the n before (R121). -/
def crcGood (n : Nat) (sym : List Byte) : Bool := sym.length == n + 2 && crc16 (sym.take n) == leAt sym n 2

/-- R113: a reserved rate or width code counts as a failed CRC. -/
def codesGood (b : Nat) : Bool := b % 16 ≤ 8 && b / 16 % 4 ≤ 2

/-- A trunk's frame mark whose K28.1 stands in one column, or not; the mark after two in a row that did not realigns the port (R132). -/
def alignCheck (p : Nat) (aligned : Bool) (s : State) : State :=
  if !isTrunk p then s
  else s.modLane p fun l =>
    if aligned || l.alignRun = 2 then { l with alignRun := 0 }
    else { l with alignErr := sat 255 l.alignErr 1, alignRun := l.alignRun + 1 }

/-- R122: the copy on every lane is checked, and a bad one fails the mark whole (log entry 89). -/
def frameMark (p : Nat) (sym : List Byte) (copies : List (List Byte)) (aligned : Bool) (phase : Int) (s : State) : State :=
  let code := leAt sym 3 1
  let c := (s.port p).neg.cur
  if !crcGood 5 sym || !codesGood code || (copies.take (lanesOf c.width - 1)).any (fun l => !crcGood 5 l) then countMark p 8 true s
  else if code % 16 != c.rate || code / 16 % 4 != c.width then
    s.modLane p fun l => { l with markErr := sat 255 l.markErr 1 }
  else
    let s := alignCheck p aligned s
    let s := s.modNeg p fun n => { n with markSeen := n.markSeen || (aligned && s.allSync p) }
    if s.native p then { s with frame.trunkPhase := Sparse.ins s.frame.trunkPhase (p - 128) phase } else s

/-- What a receiver hears of a mark: the pins' marks, or in a near-end loopback its own, as sent or damaged on the way (R140). -/
def State.hearsMark (s : State) (p n : Nat) (sym : List Byte) (u : LineUnit) : Bool :=
  s.listens p && !foreign (s.port p).cfg && (!s.nearEnd p || s.hasSent p u || !crcGood n sym)

def execFrameMarkReceived (p : Port) (marks : List (List Byte)) (aligned : Bool) (phase : Int) (s : State) :
    Host.Outcome State Fault Refusal :=
  let sym := marks.headD []
  done (when (s.hearsMark p.val 5 sym (.every (k281 :: dSyms sym))) (frameMark p.val sym marks.tail aligned phase) s)

/-- The credit fields of a mark (R123). -/
def markFields (w : Nat) (sym : List Byte) : List Nat :=
  let v := leAt sym 3 (4 * w)
  (List.range 32).map fun i => v / 2 ^ (w * i) % 2 ^ w

/-- R124, R198: a good mark in Service credits its increments, or is a fresh reference. -/
def creditMark (w : Nat) (fs : List Nat) (fresh : Bool) (prev : Option (List Nat)) (c : CreditSt) : CreditSt :=
  match prev, fresh with
  | some l, false =>
    { c with grant := (List.range 32).map fun i => nth c.grant i + (nth fs i + 2 ^ w - nth l i) % 2 ^ w }
  | _, _ =>
    { c with fresh := false,
             grant := (List.range 32).map fun i => nth c.sent i + (nth fs i + 2 ^ w - nth c.sent i % 2 ^ w) % 2 ^ w }

/-- The credit width of the port's step (R123). -/
def State.markWidth (s : State) (p : Nat) : Nat :=
  let t := s.port p
  if carries (s.portMode p) then t.lane.creditW else creditWidth t.neg.cur.rate t.neg.cur.width

/-- R124, R125. -/
def slotMark (p : Nat) (sym : List Byte) (s : State) : State :=
  let t := s.port p
  let w := s.markWidth p
  let n := leAt sym 0 1
  if !crcGood (3 + 4 * w) sym || 250 ≤ n then
    countMark p (6 + 4 * w) false (s.modLane p fun l => { l with badThisSlot := true })
  else
    let l := t.lane
    let fs := markFields w sym
    let skip := match l.lastSlotNo with
      | some m => n != (m + 1) % 250
      | none => false
    let fresh := t.credit.fresh || 3 < l.marksLost
    let s := s.modLane p fun l => { l with
      lastSlotNo := some n, lastMark := some fs, seqErr := if skip then sat 255 l.seqErr 1 else l.seqErr
      markThisSlot := true }
    if s.portMode p == .service && pacedByCredit t.cfg then s.modCredit p (creditMark w fs fresh l.lastMark) else s

def execSlotMarkReceived (p : Port) (sym : List Byte) (s : State) : Host.Outcome State Fault Refusal :=
  done (when (s.hearsMark p.val (3 + 4 * s.markWidth p.val) sym (.striped (k280 :: dSyms sym)) && expectsMarks (s.port p.val).cfg)
    (slotMark p.val sym) s)

/-- The judgement of a slot that ends: a good mark, or none (R52, R124, R125); a port that expects no marks must have been in sync at
every point of it (R136, R161). -/
def judgeSlot (p : Nat) (s : State) : State :=
  let t := s.port p
  let out := !expectsMarks t.cfg && !s.pcsSync p
  if !carries (s.portMode p) then s.modLane p fun l => { l with markThisSlot := false, badThisSlot := out }
  else
    let good := !t.lane.badThisSlot && (if expectsMarks t.cfg then t.lane.markThisSlot else !out)
    s.modLane p fun l =>
      if good then { l with marksLost := 0, goodMarks := sat 16 l.goodMarks 1, noMarkSlots := 0, markThisSlot := false,
                            badThisSlot := out }
      else { l with marksLost := sat 255 l.marksLost 1, goodMarks := 0, noMarkSlots := sat 250 l.noMarkSlots 1,
                    markThisSlot := false, badThisSlot := out }

/-! ## Rate matching (R132) -/

/-- R132: L0's fill decides, on every lane. In foreign mode the set is idle that the buffer may delete or repeat (R134, R135). -/
def skipSet (p : Nat) (fill : List Nat) (s : State) : State :=
  let f := nth fill 0
  s.modLane p fun l =>
    if 36 < f then { l with fill := fill.map (· - 1), deletes := sat 0xFFF l.deletes 1 }
    else if f < 28 then { l with fill := fill.map (· + 1), inserts := sat 0xFFF l.inserts 1 }
    else { l with fill := fill }

/-- R126: to a slot port the three K23.7 of each lane are invalid symbols. -/
def skipOnSlot (p : Nat) (s : State) : State :=
  ((List.range (lanesOf (s.port p).neg.cur.width)).flatMap fun k => [k, k, k]).foldl (fun s k => codeError p k s) s

def execSkipSetReceived (p : Port) (fill : List Nat) (s : State) : Host.Outcome State Fault Refusal :=
  run (when (s.hearsPins p.val) (if isTrunk p.val then skipSet p.val fill else skipOnSlot p.val)) s

/-- R135. -/
def execQColumnReceived (p : Port) (s : State) : Host.Outcome State Fault Refusal :=
  done (when (s.hearsPins p.val && (s.port p.val).cfg.setting == 3) (countIngress p.val) s)

def elasticSlip (p : Nat) (s : State) : State :=
  warn 0x0505 p [] (poisonOpen p (s.modLane p fun l => { l with fill := [32, 32, 32, 32], slips := sat 255 l.slips 1 }))

def execElasticSlip (p : Port) (s : State) : Host.Outcome State Fault Refusal :=
  run (when (s.listens p.val && isTrunk p.val) (elasticSlip p.val)) s

/-- R130. -/
def execReceiveBufferRecentre (p : Port) (k : Fin 4) (s : State) : Host.Outcome State Fault Refusal :=
  done (when (s.listens p.val && !isTrunk p.val && s.inWidth p.val k.val) (countIngress p.val) s)

/-- R129: the tracker holds at its limit. -/
def phaseLimit (p k : Nat) (high : Bool) (s : State) : State :=
  let told := (s.port p).lane.limitTold
  let s := s.modLane p fun l => { l with
    track := l.track.set k (if high then 16 else -16), limitHits := bump 255 l.limitHits k, limitTold := true }
  if told then s else warn 0x0504 p [] s

def execLanePhaseLimit (p : Port) (k : Fin 2) (high : Bool) (s : State) : Host.Outcome State Fault Refusal :=
  run (when (s.listens p.val && !isTrunk p.val && s.inWidth p.val k.val) (phaseLimit p.val k.val high)) s

/-- The most steps that a tracker makes in a slot: one for each 64 symbols (R129). -/
def trackSteps (rate : Nat) : Int := ((slotQuarters rate + 255) / 256 : Nat)

/-- A lane's tracker moves within its range (R129). -/
def moveTrack (key : Nat) (d : Int) (s : State) : State :=
  let p := key / 4
  let k := key % 4
  if !s.listens p || isTrunk p || !s.inWidth p k then s
  else
    let n := trackSteps (s.port p).neg.cur.rate
    s.modLane p fun l => { l with track := l.track.modify k fun t => clampInt (-16) 16 (t + clampInt (-n) n d) }

/-! ## Item framing on a native trunk (R128) -/

/-- K27.7: an item still open is closed as poisoned, and the new one opens at once. In Closing the items received are discarded and
counted (R61). -/
def itemStart (p : Nat) (s : State) : State :=
  let s := closePoisoned p s
  if s.portMode p == .closing then countIngress p (s.modLane p fun l => { l with discardRun := true })
  else s.modLane p fun l => { l with itemOpen := true, discardRun := false }

/-- A native trunk in a mode in which items come. -/
def State.hearsItems (s : State) (p : Nat) : Bool :=
  s.hearsPins p && s.native p && modeIn (s.portMode p) [.service, .holdover, .closing]

def execItemStartReceived (p : Port) (s : State) : Host.Outcome State Fault Refusal :=
  run (when (s.hearsItems p.val) (itemStart p.val)) s

/-- A run of discarded symbols ends with the item's last. -/
def endRun (p : Nat) (s : State) : State := s.modLane p fun l => { l with itemOpen := false, discardRun := false }

/-- K29.7: the item is closed, as poisoned where its data bytes are not whole words. -/
def itemEnd (p bytes : Nat) (s : State) : State :=
  let s := if !(s.port p).lane.itemOpen then s else if bytes % 32 = 0 then closeFrom p s else closePoisoned p s
  endRun p s

def execItemEndReceived (p : Port) (bytes : Nat) (s : State) : Host.Outcome State Fault Refusal :=
  run (when (s.hearsItems p.val) (itemEnd p.val bytes)) s

/-- K30.7 in place of K29.7. -/
def execItemPoisonReceived (p : Port) (s : State) : Host.Outcome State Fault Refusal :=
  run (when (s.hearsItems p.val) fun s => endRun p.val (closePoisoned p.val s)) s

/-! ## Patterns, checkers, injection (R137 to R139) -/

/-- A checker of the lane works: in Bindery with a pattern, or bring-up's own. -/
def State.checkerOn (s : State) (p k : Nat) : Bool :=
  (s.portMode p == .bindery && ctrlChk (s.testCtrl p k) != 0) || (s.portMode p == .bringUp && (s.port p).neg.readySent)

/-- The length of an injection in bits: a disparity error or code violation in a PRBS acts as a single bit (R139). -/
def injectBits (c : Word) : Nat := if ctrlKind c = 2 then max 1 (field c.toNat 27 20) else 1

/-- In a near-end loopback a locked checker counts the errors injected into a PRBS (R138 to R140). -/
def injectedErrors (p k : Nat) (c : Word) (s : State) : Nat :=
  match prbsTaps (ctrlChk c) with
  | some (a, b) =>
    if s.nearEnd p && getBit (s.port p).lane.chkLock k && ctrlGen c == ctrlChk c && getBit c 8 == getBit c 9 then
      tapErrors a b (injectBits c)
    else 0
  | none => 0

/-- Idle groups of a lane as a run of n inverted bits from bit off on leaves them, first bit highest, with two groups after it. -/
def hitGroups (off n : Nat) (positive : Bool) : List Nat :=
  let m := (off + n + 9) / 10 + 2
  let mask := (2 ^ n - 1) * 2 ^ (10 * m - off - n)
  (List.range m).map fun i => encodeSym k285 (positive != i.bodd) ^^^ (mask / 2 ^ (10 * (m - 1 - i)) % 1024)

/-- What the lane's own decoder and checker make of groups in a near-end loopback. -/
def hearGroups (p k : Nat) (positive : Bool) (l : List Nat) (s : State) : State :=
  (l.foldl (fun (a : State × Bool) g =>
    let s := match decodeGroup g a.2 with
      | .good y => if y == k285 then a.1 else if a.1.refusesSym p k y then codeError p k a.1 else codedErrors p k 1 a.1
      | _ => invalidSymbol p k (.group (BitVec.ofNat 10 g) a.2) a.1
    (s, groupDisparity g a.2)) (s, positive)).1

/-- An injection into a coded stream that the lane hears itself (R139, R140). Where in the stream a bit error falls is a free value: its
bit of the group, and the disparity of the idle that it strikes; the wrong disparity and the bad group stand in a mark's data. -/
def hearInjected (p k : Nat) (c : Word) (s : State) : State :=
  if !s.nearEnd p || s.laneTx p k != .coded then s
  else if ctrlKind c = 3 then s.modLane p fun l => { l with disparity := bump 0xFFFF l.disparity k }
  else if ctrlKind c = 4 then codeError p k s
  else
    let r := (Config.freeValue s.frame.freeCount).toNat
    let positive := r.testBit 63
    hearGroups p k positive (hitGroups (r % 10) (injectBits c) positive) s.useFree

/-- One injection of the kind set (R139). -/
def inject (p k : Nat) (s : State) : State :=
  let c := s.testCtrl p k
  if ctrlKind c = 0 then s
  else
    let e := injectedErrors p k c s
    hearInjected p k c (s.modLane p fun l => { l with
      injCount := bump 0xFFFFFF l.injCount k
      prbsErr := l.prbsErr.modify k fun n => sat 0xFFFFFFFF n e })

/-- Error injection acts in Bindery, Service and Holdover (R137). -/
def State.injects (s : State) (p : Nat) : Bool := s.listens p && modeIn (s.portMode p) [.bindery, .service, .holdover]

def execErrorInjection (p : Port) (k : Fin 4) (s : State) : Host.Outcome State Fault Refusal :=
  done (when (s.injects p.val && s.inWidth p.val k.val && ctrlRate (s.testCtrl p.val k.val) != 0) (inject p.val k.val) s)

def injOnce (p k : Nat) (s : State) : State :=
  (inject p k s).modLane p fun l => { l with testCtrl := l.testCtrl.modify k fun c => setBit c 31 false }

def execInjOnce (p : Port) (k : Fin 4) (s : State) : Host.Outcome State Fault Refusal :=
  done (when (s.injects p.val && s.inWidth p.val k.val && ctrlOnce (s.testCtrl p.val k.val)) (injOnce p.val k.val) s)

/-! ## Writes of the test controls (R137, R140) -/

/-- The loopback changes; in Bindery, where it acts, the checkers relock (R137, R140). Reserved codes drop the write. -/
def writeLoop (p : Nat) (v : Nat) (s : State) : State :=
  if 4 ≤ v then s
  else
    let acts := s.portMode p == .bindery
    s.modLane p fun l =>
      { l with loopback := BitVec.ofNat 3 v, chkLock := if acts && l.loopback.toNat != v then 0 else l.chkLock }

/-- One field of LANE_TEST_CTRL_k takes its new value unless it is reserved. -/
def takeField (hi lo : Nat) (ok : Nat → Bool) (v old : Word) : Word :=
  let x := field v.toNat hi lo
  if ok x then BitVec.ofNat 32 (old.toNat - field old.toNat hi lo * 2 ^ lo + x * 2 ^ lo) else old

/-- LANE_TEST_CTRL_k is written; its guarded fields change only under an arm. A new pattern restarts the generator from all ones, and
in Bindery makes the checker relock (R137, R140). -/
def writeTest (p k : Nat) (guarded : Bool) (v : Word) (s : State) : State :=
  let was := s.testCtrl p k
  let acts := s.portMode p == .bindery
  let s := s.modLane p fun l =>
    let old := l.testCtrl.getD k 0
    let c := takeField 3 0 (· ≤ 5) v (takeField 7 4 (· ≤ 5) v (takeField 9 8 (fun _ => true) v old))
    let c := if guarded then
        takeField 30 28 (· ≤ 4) v (takeField 27 20 (fun _ => true) v (takeField 19 16 (fun _ => true) v c))
      else c
    let c := if guarded && getBit v 31 then setBit c 31 true else c
    let relock := acts && (ctrlChk c != ctrlChk old || getBit c 9 != getBit old 9)
    { l with testCtrl := l.testCtrl.set k c, chkLock := if relock then setBit l.chkLock k false else l.chkLock }
  if ctrlGen (s.testCtrl p k) = ctrlGen was then s else s.modTx p fun x => { x with generated := x.generated.set k 0 }

end Sys2Proof.Machine
end

