-- ==== Sys2Proof/Machine/Bringup.lean ====
section
/-! DEFINITION. Port bring-up, rate negotiation and PORT_SET ("Port bring-up and rate negotiation", R141 to R164; references
of R131). -/

namespace Sys2Proof.Machine
open Sys2Proof

/-! ## The ladder (R144, R145) -/

def step0 : Step := ⟨0, 0⟩

/-- R144: own masks under the ceiling and the caps; with every rate capped none is left. -/
def State.ownMasks (s : State) (p : Nat) : BitVec 9 × BitVec 3 :=
  let n := (s.port p).neg
  let c := s.ceiling p
  let rate := min c.1 (min (topRate p) (if n.rateCap = 0xF then 8 else n.rateCap.toNat))
  let width := min c.2 (min (topWidth p) (if n.widthCap = 1 then 0 else if n.widthCap = 2 then 1 else 2))
  (if n.rateCap = 0xE then 0 else BitVec.ofNat 9 (2 ^ (rate + 1) - 1), BitVec.ofNat 3 (2 ^ (width + 1) - 1))

/-- R145: step 0, the wider widths at the lowest rate, then the rates at the widest width. -/
def ladder (n : NegSt) : List Step :=
  let rates := if n.partnerValid then n.ownRates &&& n.partnerRates else 1
  let widths := if n.partnerValid then n.ownWidths &&& n.partnerWidths else 1
  let ws := (List.range 3).filter fun w => 1 ≤ w && getBit widths w
  let top := ws.getLast?.getD 0
  step0 :: (ws.map fun w => (⟨0, w⟩ : Step)) ++
    ((List.range 9).filter fun r => 1 ≤ r && getBit rates r).map fun r => ⟨r, top⟩

/-- The step after one on the ladder, and the one before it. -/
def nextStep (n : NegSt) (x : Step) : Option Step :=
  match (ladder n).dropWhile (· != x) with
  | _ :: y :: _ => some y
  | _ => none

def prevStep (n : NegSt) (x : Step) : Step := (((ladder n).takeWhile (· != x)).getLast?).getD step0

/-- Own masks and the target are computed anew. -/
def retarget (p : Nat) (s : State) : State :=
  let m := s.ownMasks p
  s.modNeg p fun n =>
    let n := { n with ownRates := m.1, ownWidths := m.2 }
    { n with target := ((ladder n).getLast?).getD step0 }

/-! ## Steps -/

/-- The port trains at a step from here; its transmitters are idle while clocks settle (R149). -/
def switchTo (x : Step) (p : Nat) (s : State) : State :=
  let s := s.modNeg p fun n => { n with
    state := 1, cur := x, confirmed := none, trained := false, readySent := false, readyRecv := false, ownResult := none,
    partnerResult := none, window := false, windowDue := false, windowSent := 0, checked := [0, 0, 0, 0], checkBad := 0,
    propose := none, switchAt := none, answer := none, revert := none, restart := false, waited := 0, onStep := 0,
    refusedRun := 0, markSeen := false, capsHere := false, capsOwed := false, outSync := 0, backoff := 0, settled := false,
    preset := none }
  idleTx p (s.modLane p fun l => { l with inSync := 0, alignRun := 0, chkLock := 0 })

/-- The step at which Bring-up begins: step 0, the fixed setting, or the one setting of a foreign link (R141, R133, R160). -/
def firstStep (c : PortCfg) (dead : Bool) : Step :=
  if dead then step0 else if c.setting = 1 then ⟨c.fixedRate, c.fixedWidth⟩ else if c.setting = 3 then ⟨2, 2⟩ else step0

/-- Bring-up begins (R141, R160, R163). A port in no step stays there (R155). -/
def beginBringUp (p : Nat) (s : State) : State :=
  let s := s.modPort p fun t => { t with cfg := t.cfgNext.getD t.cfg, cfgNext := none }
  let c := (s.port p).cfg
  let dead := (s.port p).neg.rateCap == 0xE
  let s := switchTo (firstStep c dead) p s
  let s := s.modLane p fun l => { l with tripIdle := false, foreignUp := false, itemOpen := false, discardRun := false,
                                         xauiAligned := false, partnerPage := none }
  let s := retarget p (s.modNeg p fun n => { n with
    state := if dead then 8 else if c.setting = 1 then 6 else if 2 ≤ c.setting then 7 else 1
    leader := !isTrunk p || c.role != 1, won := false, partnerValid := false, noPartnerTold := false })
  if c.setting = 0 then s else s.modNeg p fun n => { n with target := n.cur }

/-- Entry to Bring-up (R141). -/
def enterBringUp (p : Nat) (s : State) : State :=
  ((beginBringUp p s).modNeg p fun n => { n with entriesN := sat 255 n.entriesN 1, inBringUp := 0 }).modLane p
    fun l => { l with creditW := 0 }

/-- Negotiation has no effect on the lanes in another mode (R141, R159). -/
def leaveBringUp (p : Nat) (s : State) : State :=
  (s.modNeg p fun n => { n with
    window := false, windowDue := false, propose := none, switchAt := none, answer := none, revert := none, restart := false,
    capsOwed := false, settled := false }).modLane p fun l => { l with chkLock := 0 }

/-- The port settles where it is. -/
def settle (n : NegSt) : NegSt := { n with state := 5, settled := true, propose := none, switchAt := none, answer := none }

/-- R152: the step is confirmed. -/
def confirmStep (p : Nat) (s : State) : State :=
  s.modNeg p fun n =>
    let n := { n with
      confirmedN := sat 255 n.confirmedN 1, confirmed := some n.cur, ownResult := none, partnerResult := none,
      readySent := false, readyRecv := false, waited := 0, refusedRun := 0, outSync := 0 }
    if n.cur == n.target then settle n else { n with state := 3 }

/-- R154: the second failure of a step caps the port. -/
def capStep (n : NegSt) : NegSt :=
  if n.cur.rate = 0 then { n with widthCap := BitVec.ofNat 2 n.cur.width } else { n with rateCap := BitVec.ofNat 4 (n.cur.rate - 1) }

/-- The step has failed before (R154). -/
def failedBefore (n : NegSt) : Bool := n.fails.contains n.cur

def noteFailure (n : NegSt) : NegSt :=
  let n := if failedBefore n then n else { n with fails := n.cur :: n.fails }
  if n.cur == step0 then n
  else if n.cur.rate = 0 then { n with widthFailed := setBit n.widthFailed (n.cur.width - 1) true }
  else { n with failedOnce := setBit n.failedOnce n.cur.rate true }

/-- A failure of the step is being acted on already. -/
def failing (n : NegSt) : Bool := n.revert.isSome || n.restart

/-- R153, R154: the step fails at this end, which tells its partner unless the partner said so; the port reverts at its next boundary,
or is in no step. -/
def failStep (p : Nat) (tell : Bool) (s : State) : State :=
  let n := (s.port p).neg
  let again := failedBefore n
  let s := s.modNeg p fun n => { noteFailure n with
    failedN := sat 255 n.failedN 1, window := false, windowDue := false, ownResult := none, partnerResult := none, propose := none,
    switchAt := none, answer := none, settled := false }
  let s := if tell then sendSet p 5 n.cur 0 s else s
  if n.cur == step0 then
    if again then
      warn 0x0501 p [] (retarget p (s.modNeg p fun n => { n with
        rateCap := 0xE, state := 8, trained := false, readySent := false, restart := false }))
    else s.modNeg p fun n => { n with restart := true }
  else
    let back := prevStep n n.cur
    let s := if again then retarget p (s.modNeg p capStep) else s
    s.modNeg p fun n => { n with revert := some back }

/-- R150, R151: an end that is trained and holds its partner's capabilities sends ready. -/
def sendReady (n : NegSt) : NegSt :=
  if n.state == 1 && n.trained && n.capsHere && !n.readySent then { n with readySent := true, waited := 0 } else n

/-! ## Sets (R127, R146, R147) -/

def State.bringsUp (s : State) (p : Nat) : Bool := s.listens p && s.portMode p == .bringUp

def countBadSet (p : Nat) (s : State) : State := s.modNeg p fun n => { n with setsBad := sat 0xFFFF n.setsBad 1 }

def setType (sym : List Byte) : Nat := leAt sym 0 1
def setStep (sym : List Byte) : Step := ⟨leAt sym 4 1 % 16, leAt sym 4 1 / 16 % 4⟩
def setFrame (sym : List Byte) : BitVec 16 := BitVec.ofNat 16 (leAt sym 5 2)

/-- Masks and target from the partner's capabilities, which it sends while it trains or after a refusal (R146, R148); a port whose
target is its confirmed step settles (R154). -/
def capsReceived (p : Nat) (sym : List Byte) (s : State) : State :=
  let n := (s.port p).neg
  if !((n.state == 1 && !n.window) || n.state == 3) then countBadSet p s
  else
    let s := s.modNeg p fun n => { n with
      partnerRates := BitVec.ofNat 9 (leAt sym 1 2), partnerWidths := BitVec.ofNat 3 (leAt sym 3 1), partnerValid := true
      capsHere := n.capsHere || setStep sym == n.cur }
    (retarget p s).modNeg p fun n =>
      if n.state == 3 && n.confirmed == some n.target then settle n else sendReady n

def countRefusal (p : Nat) (s : State) : State := s.modNeg p fun n => { n with refusals := sat 255 n.refusals 1 }
def countCollision (p : Nat) (s : State) : State := s.modNeg p fun n => { n with collisions := sat 255 n.collisions 1 }

/-- A refuse answers a propose. -/
def refuse (p : Nat) (sym : List Byte) (s : State) : State := countRefusal p (sendSet p 6 (setStep sym) (setFrame sym) s)

/-- R148: a follower accepts the step next on its ladder, and switches at its first boundary 7 frames after; else it
refuses, and its capabilities follow. -/
def answerPropose (p : Nat) (sym : List Byte) (s : State) : State :=
  let n := (s.port p).neg
  let x := setStep sym
  if n.state = 4 && (n.switchAt.map (·.1)) == some x then s
  else if n.state = 3 && nextStep n n.cur == some x && !failing n then
    sendSet p 3 x (setFrame sym) (s.modNeg p fun n => { n with
      state := 4, leader := false, propose := none, switchAt := some (x, 8), answer := some (x, setFrame sym), waited := 0 })
  else (refuse p sym s).modNeg p fun n => { n with capsOwed := true }

/-- R157: two auto ends that both propose; own is the frame field that this end last sent. The winner leads for the rest of this
Bring-up; it refuses a step that is not next on its ladder, and does nothing else with the loser's propose, of which the spec says no
more (log entry 90). -/
def collide (p : Nat) (own : BitVec 16) (sym : List Byte) (s : State) : State :=
  let other := setFrame sym
  if other.toNat < own.toNat then
    let n := (s.port p).neg
    let s := s.modNeg p fun n => { n with won := true }
    if nextStep n n.cur == some (setStep sym) then s else refuse p sym s
  else if own.toNat < other.toNat then
    answerPropose p sym (s.modNeg p fun n => { n with leader := false, propose := none })
  else
    countCollision p ({ s with frame.freeCount := s.frame.freeCount + 1 }.modNeg p fun n =>
      { n with propose := none, backoff := 2 + (Config.freeValue s.frame.freeCount).toNat % 16 })

def proposeReceived (p : Nat) (sym : List Byte) (s : State) : State :=
  let n := (s.port p).neg
  let c := (s.port p).cfg
  if !isTrunk p || c.role = 0 then countCollision p (refuse p sym s)
  else if n.state = 5 || n.state = 8 then countBadSet p s
  else match n.propose, c.role with
    | some (_, _, f), 2 => collide p f sym s
    | _, _ => if n.won then countBadSet p s else answerPropose p sym s

/-- Boundaries to the one that opens frame f; one that has passed is the next. -/
def framesTo (f number : BitVec 16) : Nat :=
  let n := (f - number).toNat
  if n = 0 || 0x8000 ≤ n then 1 else n

/-- R146, R148: the answer to a propose, by the F of any propose sent for the step, fixes the switch; without a propose outstanding,
an accept means ready. The answers that go on until the follower's switch are not counted. -/
def acceptReceived (p : Nat) (sym : List Byte) (s : State) : State :=
  let n := (s.port p).neg
  match n.propose with
  | some (x, first, last) =>
    let f := setFrame sym
    if setStep sym == x && (f - first).toNat ≤ (last - first).toNat then
      s.modNeg p fun n => { n with
        state := 4, propose := none, switchAt := some (x, framesTo f (s.frame.number.truncate 16)), waited := 0 }
    else countBadSet p s
  | none =>
    if (n.state = 1 || n.state = 2) && setStep sym == n.cur then s.modNeg p fun n => { n with readyRecv := true }
    else if n.state = 4 && (n.switchAt.map (·.1)) == some (setStep sym) then s
    else countBadSet p s

/-- A result is expected while the step is being confirmed. -/
def expectsResult (n : NegSt) (sym : List Byte) : Bool := (n.state == 2 || n.window) && setStep sym == n.cur && !failing n

/-- R152: the partner's confirm. One that is sent again to an end that has confirmed the step is not counted. -/
def confirmReceived (p : Nat) (sym : List Byte) (s : State) : State :=
  let n := (s.port p).neg
  if expectsResult n sym then
    let s := s.modNeg p fun n => { n with partnerResult := some true }
    if n.ownResult == some true then confirmStep p s else s
  else if (n.state = 3 || n.state = 4 || n.state = 5) && setStep sym == n.cur then s
  else countBadSet p s

/-- R153: a fail for the step in use fails it, whether this end trains, checks, or holds it confirmed. -/
def failReceived (p : Nat) (sym : List Byte) (s : State) : State :=
  let n := (s.port p).neg
  if 1 ≤ n.state && n.state ≤ 5 && setStep sym == n.cur && !failing n then failStep p false s
  else countBadSet p s

def refuseReceived (p : Nat) (sym : List Byte) (s : State) : State :=
  match (s.port p).neg.propose with
  | some (x, _, _) =>
    if setStep sym == x then countRefusal p (s.modNeg p fun n => { n with refusedRun := n.refusedRun + 1 })
    else countBadSet p s
  | none => countBadSet p s

/-- A good set acts by its type (R127, R146). -/
def actOnSet (p : Nat) (sym : List Byte) (s : State) : State :=
  match setType sym with
  | 1 => capsReceived p sym s
  | 2 => proposeReceived p sym s
  | 3 => acceptReceived p sym s
  | 4 => confirmReceived p sym s
  | 5 => failReceived p sym s
  | 6 => refuseReceived p sym s
  | _ => countBadSet p s

/-- A set whose CRC and codes are good, of a type that is not reserved, from a partner of the port's kind, reaches the negotiation;
another is discarded and counted (R113, R121, R127, R146, R147, R160). -/
def onSet (p : Nat) (sym : List Byte) (s : State) : State :=
  if !crcGood 13 sym || !codesGood (leAt sym 4 1) then countCrc p s
  else if setType sym = 0 || 7 ≤ setType sym || !s.bringsUp p || (s.port p).cfg.setting != 0 ||
      leAt sym 9 1 % 2 != bitOf (isTrunk p) then countBadSet p s
  else actOnSet p sym (s.modNeg p fun n => { n with partnerFailed := BitVec.ofNat 9 (leAt sym 7 2) })

/-- The command for a set that a port receives. -/
def receiveSet (p : Port) (sym : List Byte) (s : State) : Host.Outcome State Fault Refusal :=
  run (when (s.hearsPins p.val && !foreign (s.port p.val).cfg) (onSet p.val sym)) s

def execNegCapabilitiesReceived (p : Port) (sym : List Byte) (s : State) : Host.Outcome State Fault Refusal := receiveSet p sym s
def execNegProposeReceived (p : Port) (sym : List Byte) (s : State) : Host.Outcome State Fault Refusal := receiveSet p sym s
def execNegAcceptReceived (p : Port) (sym : List Byte) (s : State) : Host.Outcome State Fault Refusal := receiveSet p sym s
def execNegConfirmReceived (p : Port) (sym : List Byte) (s : State) : Host.Outcome State Fault Refusal := receiveSet p sym s
def execNegFailReceived (p : Port) (sym : List Byte) (s : State) : Host.Outcome State Fault Refusal := receiveSet p sym s
def execNegRefuseReceived (p : Port) (sym : List Byte) (s : State) : Host.Outcome State Fault Refusal := receiveSet p sym s

/-! ## Training and the PRBS window (R150, R151, R160) -/

/-- No marks are expected of the partner (R160). -/
def unmarked (c : PortCfg) : Bool := c.setting == 1 && !c.marksRx

/-- R150: sync, and a good mark at the step unless no marks are expected. -/
def State.mayTrain (s : State) (p : Nat) : Bool :=
  let t := s.port p
  (t.neg.state == 1 || t.neg.state == 6) && !t.neg.trained && !failing t.neg && s.allSync p &&
    (t.neg.markSeen || unmarked t.cfg)

/-- R150: the whole-UI offset of each lane of a slot port's width lies in -8 to 8. -/
def State.skewFits (s : State) (p : Nat) (ui0 ui1 : Int) : Bool :=
  let fits := fun (u : Int) => decide (-8 ≤ u ∧ u ≤ 8)
  isTrunk p || unmarked (s.port p).cfg || (fits ui0 && (!s.inWidth p 1 || fits ui1))

def portTrained (p : Nat) (ui0 ui1 : Int) (f0 f1 : Nat) (s : State) : State :=
  let c := (s.port p).cfg
  let s := if isTrunk p then s else s.modLane p fun l => { l with
    trainedUi := if unmarked c then [c.fixedSkew, c.fixedSkew] else [ui0, ui1], trainedFine := [f0, f1], track := [0, 0] }
  s.modNeg p fun n =>
    let n := { n with trained := true }
    if n.state = 6 then { n with settled := true } else sendReady n

def execPortTrained (p : Port) (ui0 ui1 : Int) (fine0 fine1 : Fin 64) (s : State) : Host.Outcome State Fault Refusal :=
  done (when (s.bringsUp p.val && s.mayTrain p.val && s.skewFits p.val ui0 ui1) (portTrained p.val ui0 ui1 fine0.val fine1.val) s)

/-- The leader may open the window: trained, with the partner's capabilities, and ready has gone both ways (R151). -/
def mayOpen (n : NegSt) : Bool :=
  n.state == 1 && n.leader && n.trained && n.capsHere && n.readySent && n.readyRecv && !failing n

/-- The window opens, and bring-up's own generator starts. -/
def openWindow (p : Nat) (s : State) : State :=
  (s.modNeg p fun n => { n with state := 2, window := true, windowDue := false, windowSent := 0 }).modTx p
    fun x => { x with generated := [0, 0, 0, 0] }

/-- The leader's checkers start searching. -/
def startSearch (p : Nat) (s : State) : State :=
  (s.modNeg p fun n => { n with checked := [0, 0, 0, 0], checkBad := 0 }).modLane p fun l => { l with chkLock := 0 }

/-- The leader opens the window at a slot boundary at which it may. -/
def execPrbsWindowStart (p : Port) (s : State) : Host.Outcome State Fault Refusal :=
  let n := (s.port p.val).neg
  done (when (s.bringsUp p.val && n.windowDue && mayOpen n) (fun s => openWindow p.val (startSearch p.val s)) s)

/-- A checker locks (R138). In Bring-up, a follower whose checkers have all locked sends its own PRBS (R151). -/
def checkerLock (p k : Nat) (s : State) : State :=
  let s := s.modLane p fun l => { l with chkLock := setBit l.chkLock k true }
  if s.portMode p != .bringUp then s
  else
    let s := s.modNeg p fun n => { n with checked := n.checked.set k 0 }
    let all := (List.range 4).all fun j => !s.inWidth p j || getBit (s.port p).lane.chkLock j
    let n := (s.port p).neg
    if all && n.state == 1 && !n.leader && !failing n then openWindow p s else s

def execPrbsCheckerLock (p : Port) (k : Fin 4) (s : State) : Host.Outcome State Fault Refusal :=
  done (when (s.listens p.val && s.inWidth p.val k.val && s.checkerOn p.val k.val) (checkerLock p.val k.val) s)

/-- R138; errors counted in bring-up's window do not enter PRBS_ERR_k, and fail the lane's check (R151). -/
def lockLost (p k errors : Nat) (s : State) : State :=
  let up := s.portMode p == .bringUp
  let s := s.modLane p fun l => { l with
    chkLock := setBit l.chkLock k false, lockLost := setBit l.lockLost k true
    prbsErr := if up then l.prbsErr else l.prbsErr.modify k fun n => sat 0xFFFFFFFF n errors }
  if up then s.modNeg p fun n => { n with checkBad := setBit n.checkBad k true } else s

def execPrbsLockLost (p : Port) (k : Fin 4) (errors : Nat) (s : State) : Host.Outcome State Fault Refusal :=
  done (when (s.listens p.val && s.checkerOn p.val k.val && getBit (s.port p.val).lane.chkLock k.val)
    (lockLost p.val k.val errors) s)

/-- Bits in error that a locked checker counted in a slot, which the lock outlived (R138, R151). -/
def checkErrors (key n : Nat) (s : State) : State :=
  let p := key / 4
  let k := key % 4
  if n = 0 || !s.hearsPins p || !s.inWidth p k || !s.checkerOn p k || !getBit (s.port p).lane.chkLock k then s
  else if s.portMode p == .bringUp then
    s.modNeg p fun m => { m with checkBad := if nth m.checked k < 16 then setBit m.checkBad k true else m.checkBad }
  else s.modLane p fun l => { l with prbsErr := l.prbsErr.modify k fun e => sat 0xFFFFFFFF e n }

/-- R151: the 20 slots have been sent, and every lane has been checked for 16 slots, or has failed. -/
def State.windowOver (s : State) (p : Nat) : Bool :=
  let n := (s.port p).neg
  n.window && 20 ≤ n.windowSent && (List.range 4).all fun k =>
    !s.inWidth p k || getBit n.checkBad k || (getBit (s.port p).lane.chkLock k && 16 ≤ nth n.checked k)

/-- The window ends: this end's own result, which it sends. Trunks recentre their buffers and realign (R151, R152). -/
def windowEnd (p : Nat) (pass : Bool) (s : State) : State :=
  let ok := pass && (s.port p).neg.checkBad == 0
  let s := s.modNeg p fun n => { n with window := false, ownResult := some ok, waited := 0 }
  let s := s.modLane p fun l =>
    { l with chkLock := 0, alignRun := 0, fill := if isTrunk p then [32, 32, 32, 32] else l.fill }
  if !ok then failStep p true s
  else
    let s := sendSet p 4 (s.port p).neg.cur 0 s
    if (s.port p).neg.partnerResult == some true then confirmStep p s else s

/-- pass: no checker has counted an error in its 16 slots. -/
def execPrbsWindowEnd (p : Port) (pass : Bool) (s : State) : Host.Outcome State Fault Refusal :=
  run (when (s.bringsUp p.val && s.windowOver p.val && !failing (s.port p.val).neg) (windowEnd p.val pass)) s

/-! ## Timeouts (R156, R157), in slots of 500 ns: 250 to a frame -/

def countTimeout (p : Nat) (s : State) : State := s.modNeg p fun n => { n with timeoutsN := sat 255 n.timeoutsN 1 }

/-- What a slot of Bring-up counts, as it ends; at its end a leader may open its window (R151, R156). -/
def countSlot (p : Nat) (s : State) : State :=
  if s.portMode p != .bringUp then s
  else
    let l := (s.port p).lane
    let out := !s.allSync p
    s.modNeg p fun n => { n with
      waited := n.waited + 1, onStep := n.onStep + 1, inBringUp := n.inBringUp + 1
      windowSent := if n.window then n.windowSent + 1 else n.windowSent
      checked := (List.range 4).map fun k => if getBit l.chkLock k then sat 16 (nth n.checked k) 1 else nth n.checked k
      outSync := if out && (n.state == 3 || n.state == 4) then n.outSync + 1 else 0
      windowDue := mayOpen n }

def execTrainingTimeout (p : Port) (s : State) : Host.Outcome State Fault Refusal :=
  let n := (s.port p.val).neg
  run (when (s.bringsUp p.val && n.state == 1 && !n.trained && n.cur != step0 && 16000 ≤ n.onStep && !failing n)
    fun s => failStep p.val true (countTimeout p.val s)) s

/-- A checker of the width has neither locked on the partner's PRBS nor failed. -/
def State.awaitsLock (s : State) (p : Nat) : Bool :=
  let n := (s.port p).neg
  n.readySent && (n.state == 1 || n.window) && (List.range 4).any fun k =>
    s.inWidth p k && !getBit (s.port p).lane.chkLock k && !getBit n.checkBad k

/-- The end has passed its own check and awaits the partner's result. -/
def awaitsResult (n : NegSt) : Bool := n.state == 2 && !n.window && n.ownResult == some true && n.partnerResult.isNone

def execConfirmTimeout (p : Port) (s : State) : Host.Outcome State Fault Refusal :=
  let n := (s.port p.val).neg
  run (when (s.bringsUp p.val && (s.awaitsLock p.val || awaitsResult n) && 1000 ≤ n.waited && !failing n)
    (failStep p.val true)) s

/-- The leader's propose, or the follower's wait for one, has run out: the port settles at the step it holds. -/
def execNegTimeout (p : Port) (s : State) : Host.Outcome State Fault Refusal :=
  let n := (s.port p.val).neg
  let leads := n.propose.isSome && (4000 ≤ n.waited || 16 ≤ n.refusedRun)
  let follows := n.propose.isNone && !n.leader && 8000 ≤ n.waited
  run (when (s.bringsUp p.val && n.state == 3 && (leads || follows) && !failing n)
    fun s => warn 0x0503 p.val [] (countTimeout p.val (s.modNeg p.val settle))) s

/-- R156: a confirmed step that has been out of sync for two frames begins again at step 0. -/
def execConfirmedStepSyncLoss (p : Port) (s : State) : Host.Outcome State Fault Refusal :=
  let n := (s.port p.val).neg
  done (when (s.bringsUp p.val && (n.state == 3 || n.state == 4) && 500 ≤ n.outSync)
    (fun s => s.modNeg p.val fun n => { n with restart := true, propose := none, switchAt := none, answer := none }) s)

def execPortNoPartner (p : Port) (s : State) : Host.Outcome State Fault Refusal :=
  let n := (s.port p.val).neg
  let waits := (n.state == 1 && n.cur == step0 && !(n.trained && n.partnerValid)) || (n.state == 6 && !n.trained) ||
    (n.state == 7 && !n.settled)
  run (when (s.bringsUp p.val && waits && 2000000 ≤ n.inBringUp && !n.noPartnerTold)
    fun s => warn 0x0502 p.val [] (s.modNeg p.val fun n => { n with noPartnerTold := true })) s

def execCollisionBackoffExpiry (p : Port) (s : State) : Host.Outcome State Fault Refusal :=
  done (when (s.bringsUp p.val && (s.port p.val).neg.backoff == 1) (fun s => s.modNeg p.val fun n => { n with backoff := 0 }) s)

/-! ## Foreign links (R134, R135, R163) -/

/-- The partner advertises full duplex (clause 37: bit 5). -/
def fullDuplex (page : BitVec 16) : Bool := getBit page 5

/-- The link is up: XAUI's lanes are in sync and now aligned; 1000BASE-X is in sync, and its partner's page gives full duplex. In
Bring-up the port settles; a page without full duplex leaves it there. -/
def foreignLinkUp (p : Nat) (page : BitVec 16) (s : State) : State :=
  let xaui := (s.port p).cfg.setting == 3
  let s := s.modLane p fun l => if xaui then { l with xauiAligned := true } else { l with partnerPage := some page }
  if s.portMode p == .bringUp && (s.port p).neg.state == 7 && (xaui || fullDuplex page) then
    (s.modNeg p fun n => { n with settled := true }).modLane p fun l => { l with foreignUp := true }
  else s

def execForeignLinkUp (q : Partner) (s : State) : Host.Outcome State Fault Refusal :=
  let p := q.port.val
  done (when (s.listens p && foreign (s.port p).cfg && s.allSync p) (foreignLinkUp p q.page) s)

/-- R52: the port's marks, as the modes judge them. The mode follows at the next boundary. -/
def noteAuto (d : Domain) (m : Mode) (s : State) : State := { s with modes.autos := s.modes.autos ++ [(d, m)] }

def execPortMarksLost (p : Port) (s : State) : Host.Outcome State Fault Refusal :=
  done (when (s.listens p.val && s.portMode p.val == .service && 4 ≤ (s.port p.val).lane.marksLost)
    (noteAuto (.port p) .holdover) s)

def execPortMarksRestored (p : Port) (s : State) : Host.Outcome State Fault Refusal :=
  done (when (s.listens p.val && s.portMode p.val == .holdover && 16 ≤ (s.port p.val).lane.goodMarks)
    (noteAuto (.port p) .service) s)

def execPortMarksAbsent (p : Port) (s : State) : Host.Outcome State Fault Refusal :=
  done (when (s.listens p.val && s.portMode p.val == .holdover && 250 ≤ (s.port p.val).lane.noMarkSlots)
    (noteAuto (.port p) .bringUp) s)

/-! ## References (R131, R296) -/

def refLost (t : Nat) (s : State) : State :=
  (List.range 16).foldl (fun s i =>
    let c := (s.port (128 + i)).cfg
    if c.refSrc = 2 && c.refTrunk = t && !(s.port (128 + i)).lane.refHeld then
      warn 0x0506 (128 + i) [] (s.modLane (128 + i) fun l => { l with refHeld := true })
    else s) s

def execTrunkRefLost (t : Trunk) (s : State) : Host.Outcome State Fault Refusal := run (when s.awake (refLost t.val)) s

/-- R296, R149: the clocks that moved have settled: the loop locks, or the port's transmitters start. A trunk that a trip
idled stays idle (R302). -/
def execLoopRelocked (loop : Fin 6) (port : Option Port) (s : State) : Host.Outcome State Fault Refusal :=
  done (match port with
    | some p => when (s.awake && s.portMode p.val != .intake && !s.modes.closed.contains (.port p))
        (fun s => s.modLane p.val fun l => { l with txIdle := l.tripIdle }) s
    | none => when s.up (relockLoop loop.val) s)

/-! ## Step 6 of a frame boundary (R44, R148, R153) -/

/-- The leader proposes the next step at its frame strobe, and again each frame with that frame's F, until it is answered (R146,
R152). -/
def proposeNext (p : Nat) (s : State) : State :=
  let n := (s.port p).neg
  let f : BitVec 16 := s.frame.number.truncate 16 + 8
  match n.propose with
  | some (x, first, _) => s.modNeg p fun n => { n with propose := some (x, first, f) }
  | none =>
    if n.state == 3 && n.leader && n.backoff == 0 then
      match nextStep n n.cur with
      | some x => s.modNeg p fun n => { n with propose := some (x, f, f), waited := 0, refusedRun := 0 }
      | none => s.modNeg p settle
    else s

/-- Equaliser adaptation starts from the preset of the band in force (R149, R159, R322). -/
def State.startPreset (s : State) (p : Nat) : Nat :=
  s.thm.param.presets.toNat / 16 ^ (s.node (32 + laneGroup p)).band % 16

def takePreset (p : Nat) (s : State) : State :=
  if (s.port p).neg.preset.isSome then s else s.modNeg p fun n => { n with preset := some (s.startPreset p) }

def negStep6 (p : Nat) (s : State) : State :=
  let t := s.port p
  let n := t.neg
  if t.cfgNext.isSome then beginBringUp p s
  else if n.restart then switchTo step0 p s
  else match n.revert, n.switchAt with
    | some x, _ => switchTo x p s
    | none, some (x, left) =>
      if left ≤ 1 then switchTo x p s else s.modNeg p fun n => { n with switchAt := some (x, left - 1) }
    | none, none => proposeNext p (s.modNeg p fun n => { n with backoff := if 1 < n.backoff then n.backoff - 1 else n.backoff })

def portStep6 (p : Nat) (s : State) : State :=
  if s.portMode p != .bringUp then s else takePreset p (negStep6 p s)

/-! ## PORT_SET (R164), PORT_QUERY -/

/-- R131: following recovered-clock references from trunk t, under a new setting of trunk i, returns to t past another trunk. -/
def refCycle (s : State) (i : Nat) (src trunk : Nat) : Bool :=
  let next := fun (t : Nat) =>
    let c := (s.port (128 + t)).cfg
    if t = i then (if src = 2 then some trunk else none) else if c.refSrc = 2 then some c.refTrunk else none
  let rec go (fuel t : Nat) : Bool :=
    match fuel with
    | 0 => false
    | n + 1 => match next t with
      | none => false
      | some u => u == i || (u != t && go n u)
  match next i with
  | some u => u != i && go 16 u
  | none => false

def clearCaps (n : NegSt) : NegSt :=
  { n with failedOnce := 0, widthFailed := 0, rateCap := 0xF, widthCap := 0, fails := [] }

/-- R162. -/
def fixedOk (s : State) (port rate width mr mw : Nat) : Bool :=
  let b := Sparse.look s.fab.binds port
  rate ≤ min mr ((b.map (·.rate)).getD 8) && width ≤ min mw ((b.map (·.width)).getD 2)

/-- A cycle of references is reported at byte 27, though the spec names neither 26 nor 27 (log entry 91). In Bring-up a change of the
reference fields alone restarts bring-up as another change does (log entry 92). -/
def portSetBody (p : List Byte) (s : State) : SlipOut := do
  let port := arg p 16 2
  portIn s port [.intake, .bringUp, .service, .holdover, .bindery]
  let trunk := isTrunk port
  let set := arg p 18 1
  let skew := toInt 8 (arg p 25 1)
  let refSrc := arg p 26 1
  fields [⟨16, 2, port < 144⟩, ⟨18, 1, if trunk then set ≤ 3 else set ≤ 1⟩, ⟨19, 1, arg p 19 1 ≤ topRate port⟩,
    ⟨20, 1, arg p 20 1 ≤ topWidth port⟩, ⟨21, 1, if trunk then arg p 21 1 ≤ 2 else arg p 21 1 = 0⟩,
    ⟨22, 1, arg p 22 1 ≤ topRate port⟩, ⟨23, 1, arg p 23 1 ≤ topWidth port⟩, ⟨24, 1, arg p 24 1 < 4⟩,
    ⟨25, 1, -8 ≤ skew && skew ≤ 8⟩, ⟨26, 1, if trunk then refSrc ≤ 2 else refSrc = 0⟩, ⟨27, 1, arg p 27 1 < 16⟩,
    ⟨28, 1, arg p 28 1 < 2⟩, ⟨29, 1, arg p 29 1 < 4⟩] p
  let rx := (arg p 24 1).testBit 1
  need (set != 1 || fixedOk s port (arg p 22 1) 0 (arg p 19 1) (arg p 20 1)) (bad 22)
  need (set != 1 || fixedOk s port 0 (arg p 23 1) (arg p 19 1) (arg p 20 1)) (bad 23)
  need (set != 1 || !trunk || rx || arg p 23 1 = 0) (bad 23)
  need (!trunk || !refCycle s (port - 128) refSrc (arg p 27 1)) (bad 27)
  let t := s.port port
  let c : PortCfg :=
    { setting := set, maxRate := arg p 19 1, maxWidth := arg p 20 1, role := arg p 21 1, fixedRate := arg p 22 1,
      fixedWidth := arg p 23 1, marksTx := (arg p 24 1).testBit 0, marksRx := rx, fixedSkew := skew, refSrc := refSrc,
      refTrunk := arg p 27 1, remoteFault := arg p 29 1 }
  let old := t.cfgNext.getD t.cfg
  let s := s.modPort port fun t => { t with
    cfg := { t.cfg with refSrc := refSrc, refTrunk := arg p 27 1 }
    cfgNext := if c == old then t.cfgNext else some c }
  let s := if trunk then s.modLane port fun l => { l with refHeld := false } else s
  if arg p 28 1 = 1 then
    let s := s.modNeg port fun n => { clearCaps n with restart := n.restart || n.state == 8 }
    okSlip (if (s.port port).neg.ownWidths = 0 then s else retarget port s)
  else okSlip s

def execPortSet (h : SlipHdr) (p : List Byte) (s : State) : Host.Outcome State Fault Refusal :=
  slip 0x0501 .ordinary h p (fun _ s => portSetBody p s) s

end Sys2Proof.Machine
end

