-- ==== Sys2Proof/Machine/Egress.lean ====
section
/-! DEFINITION. The egress calendars' grants, credit increments and the line at a slot boundary ("Flows, scheduling and
latency", R198 to R207; step 7 of R44), and the cut-off of R444. -/

namespace Sys2Proof.Machine
open Sys2Proof

/-! ## What may begin -/

/-- The modes in which a port sends items (R61); a Closing that has completed sends none. -/
def State.sends (s : State) (p : Nat) (d : Domain) : Bool :=
  modeIn (s.portMode p) [.service, .holdover, .closing] && !s.modes.closed.contains d

/-- The editions' side of a hop from a queue: a bay that holds back what its queues hold takes none (R56). -/
def State.bayTakes (s : State) (p : Nat) : Bool :=
  s.native p || (match s.bind? p with
    | some w =>
      let m := match w.old with
        | some o => if o.ex then s.memberAt w.edition w.item else s.memberAt o.edition o.item
        | none => s.memberAt w.edition w.item
      m.elim false fun m => emitsItems (s.bayMode m.bay)
    | none => false)

/-- Items may begin: lanes on for a native trunk, an edition that has asked for a word (R106, R204, R302). -/
def State.mayBegin (s : State) (p : Nat) (d : Domain) : Bool :=
  s.sends p d && s.bayTakes p &&
    (if s.native p then !(s.port p).lane.txIdle else (if s.offersNew p then (s.port p).egress.exTakesNew else (s.port p).egress.exTakes) != 0)

/-- The header at pointer p may be popped (R179, R180). -/
def QueueSt.readyAt (d : QueueSt) (p : Nat) : Bool :=
  let n := hdrLen (d.word p)
  let t := d.threshold.toNat
  !(d.prodMid && !d.discarding && d.prodAt.toNat == p) || (1 < n && t != 0 && min t n ≤ d.prodTaken)

/-- The length of the k-th item that a queue can begin, if it is there and ready. -/
def QueueSt.itemAt (d : QueueSt) (k : Nat) : Option Nat :=
  if !d.enable then none
  else match d.unopened[k]? with
    | some p => if d.readyAt p then some (max 1 (hdrLen (d.word p))) else none
    | none => none

/-! ## One slot's schedule -/

/-- How far a slot's schedule has come: words left of B, items taken by queue, units by index, grants newest first. -/
structure Sched where
  left : Nat
  took : Sparse Nat
  units : Sparse Nat
  grants : List (Nat × Nat)

/-- The head item of an entry's queue may begin: poppable and within its credit (R197, R198, R201). The desk pops the in-band
queue itself (R365). -/
def State.nextItem (s : State) (p : Nat) (paced : Bool) (c : CalEntry) (x : Sched) : Option Nat :=
  let d := s.queue c.queue
  if s.slips.inEnabled && c.queue = s.slips.qIn.toNat then none
  else match d.itemAt (Sparse.get 0 x.took c.queue) with
    | none => none
    | some n =>
      let i := 2 * c.far + bitOf d.ordinary
      let t := (s.port p).credit
      if !paced || unitsOf n + Sparse.get 0 x.units i + nth t.sent i ≤ nth t.grant i then some n else none

/-- An item of n words begins within a budget: what goes beyond it is carried (R204). -/
def Sched.begin_ (x : Sched) (c : CalEntry) (ord : Bool) (n budget : Nat) : Sched :=
  let i := 2 * c.far + bitOf ord
  { left := x.left - min n budget
    took := Sparse.ins x.took c.queue (Sparse.get 0 x.took c.queue + 1)
    units := Sparse.ins x.units i (Sparse.get 0 x.units i + unitsOf n)
    grants := (c.queue, min n budget) :: x.grants }

/-- A protected entry begins items while it has allocation and the slot has words. -/
def protEntry (s : State) (p : Nat) (paced : Bool) (c : CalEntry) (fuel alloc : Nat) (x : Sched) : Sched :=
  match fuel with
  | 0 => x
  | k + 1 =>
    if alloc = 0 || x.left = 0 then x
    else match s.nextItem p paced c x with
      | some n => protEntry s p paced c k (alloc - n) (x.begin_ c false n x.left)
      | none => x

/-- Deficit round-robin over the ordinary entries: the entries with their deficits, the turn, those passed for the slot. -/
structure Drr where
  entries : List CalEntry
  turn : Nat
  mid : Bool
  passed : List Nat
  sched : Sched
  budget : Nat

def Drr.setDeficit (r : Drr) (j : Nat) (v : Int) : Drr :=
  { r with entries := r.entries.modify j fun c => { c with deficit := v } }

/-- The turn passes to the next entry. -/
def Drr.pass (r : Drr) (forSlot : Bool) : Drr :=
  { r with
    turn := if r.entries.length ≤ r.turn + 1 then 0 else r.turn + 1
    mid := false
    passed := if forSlot then r.turn :: r.passed else r.passed }

/-- One step of R205: a turn begins, an item goes, or the turn passes. -/
def drrStep (s : State) (p : Nat) (paced : Bool) (r : Drr) : Drr :=
  match r.entries[r.turn]? with
  | none => { r with turn := 0, mid := false }
  | some c =>
    if !r.mid && r.passed.contains r.turn then r.pass false
    else
      let def_ := if r.mid then c.deficit else c.deficit + (8 * c.amount : Nat)
      let r := r.setDeficit r.turn def_
      match s.nextItem p paced c r.sched with
      | some n =>
        if (n : Int) ≤ def_ then
          { (r.setDeficit r.turn (def_ - (n : Nat))) with
            mid := true, sched := r.sched.begin_ c true n r.budget, budget := r.budget - min n r.budget }
        else r.pass false
      | none =>
        let empty := ((s.queue c.queue).unopened[Sparse.get 0 r.sched.took c.queue]?).isNone
        (if empty then r.setDeficit r.turn 0 else r).pass true

/-- The round goes on while words are left and some entry has not been passed for the slot. -/
def drrRun (s : State) (p : Nat) (paced : Bool) (fuel : Nat) (r : Drr) : Drr :=
  match fuel with
  | 0 => r
  | k + 1 =>
    if r.budget = 0 || r.entries.length ≤ r.passed.length then r
    else drrRun s p paced k (drrStep s p paced r)

/-- A turn whose queue has no further item to send ends with its slot's budget. -/
def drrRest (s : State) (p : Nat) (paced : Bool) (r : Drr) : Drr :=
  if r.mid && r.budget = 0 then
    match r.entries[r.turn]? with
    | some c => match s.nextItem p paced c r.sched with
      | some n => if (n : Int) ≤ c.deficit then r else r.pass false
      | none => drrStep s p paced r
    | none => r
  else r

/-- R206: the ordinary budget of the words left, and the accumulator after it. -/
def ordinaryBudget (theta acc left : Nat) : Nat × Nat :=
  let a := acc + left * (256 - theta)
  (a / 256, a % 256)

/-- R204: the grants of a slot for port p. -/
def scheduleSlot (p : Nat) (d : Domain) (s : State) : State :=
  let t := s.port p
  let e := t.egress
  let b := slotBudget t.cfg t.neg.cur.rate t.neg.cur.width
  let carried := match e.sending with
    | some x => if s.native p && !s.sends p d then 0 else min x.left b
    | none => 0
  let x0 : Sched := { left := b - carried, took := [], units := [], grants := match e.sending with
    | some x => if carried = 0 then [] else [(x.queue, carried)]
    | none => [] }
  let go := s.mayBegin p d
  let paced := pacedByCredit t.cfg
  let x1 := if go then e.prot.foldl (fun x c => protEntry s p paced c 320 c.amount x) x0 else x0
  let ob := ordinaryBudget (s.node (32 + laneGroup p)).applied e.acc x1.left
  let r0 : Drr := { entries := e.ord, turn := e.turn, mid := e.midTurn, passed := [], sched := x1, budget := ob.1 }
  let r := if go then drrRest s p paced (drrRun s p paced (50 * (e.ord.length + 1) * (ob.1 + 1)) r0) else r0
  let sum := (e.prot.map (·.amount)).foldl (· + ·) 0
  s.modEgress p fun e => { e with
    grants := r.sched.grants.reverse
    ord := r.entries
    turn := r.turn
    midTurn := r.mid
    acc := if s.sends p d then ob.2 else e.acc
    withheld := if s.sends p d then sat 0xFFFF e.withheld (x1.left - ob.1) else e.withheld
    underrate := e.underrate && b < sum
    exTakes := if r.sched.grants.isEmpty then 0 else e.exTakes
    exTakesNew := if r.sched.grants.isEmpty then 0 else e.exTakesNew }

/-! ## Credit increments of the slot's mark (R56, R61, R124, R198, R199) -/

/-- The increments are held at zero: the port closes, or its ingress edition takes nothing. -/
def State.holdsCredit (s : State) (p : Nat) : Bool :=
  s.portMode p == .closing || (!s.native p && !s.takesIngress p)

/-- What the mark of this slot adds to index i: the units freed and not yet returned, within 2^w - 1 over four slots. -/
def CreditSt.increment (c : CreditSt) (w i : Nat) : Nat :=
  let due : Int := (nth c.freed i : Int) - (nth c.inMark i : Int) - c.holdBack.getD i 0
  let used := (c.recent.map fun l => nth l i).foldl (· + ·) 0
  min due.toNat (2 ^ w - 1 - used)

def creditSlot (p : Nat) (s : State) : State :=
  let t := s.port p
  if !returnsCredit t.cfg || !modeIn (s.portMode p) [.service, .holdover, .closing] then s
  else
    let hold := s.holdsCredit p
    s.modCredit p fun c =>
      let inc := (List.range 32).map fun i => if hold then 0 else c.increment t.lane.creditW i
      { c with inMark := (List.range 32).map fun i => nth c.inMark i + nth inc i, recent := (inc :: c.recent).take 3 }

/-! ## The line (R106) -/

def lineSlot (p : Nat) (d : Domain) (s : State) : State :=
  if s.native p || !s.sends p d || (s.port p).lane.txIdle then s else lineFill p s

/-! ## Step 7 for the ports that are not in Intake -/

def portOf (n : Nat) : Domain := (domainOf 2 n).getD .house

/-- A slot begins: its marks and sets go out, the line takes what an edition has given, and the calendar grants the slot. -/
def slotPort (p : Nat) (s : State) : State := scheduleSlot p (portOf p) (lineSlot p (portOf p) (openTx p (creditSlot p s)))

/-- A slot ends on the port's lanes, both ways. -/
def endSlotPort (p : Nat) (s : State) : State := closeTx p (judgeSlot p s)

def slotPorts (s : State) : State := (s.modes.ports.map (·.1)).foldl (fun s p => slotPort p s) s

/-! ## Cut-off (R444) -/

/-- The rest of the consumer's item is popped and discarded; a producer still in it discards what comes. -/
def cutQueue (q : Nat) (s : State) : State :=
  let d := s.queue q
  if !d.consMid then s
  else
    let r := if d.abortPending then d.abortAt.toNat
             else if d.opened then d.wptr.toNat else d.rptr.toNat + (hdrLen d.consHdr - d.consTaken)
    freeCredit d.consCharge (s.setQueue q { d.closeItem.setR r with
      abortPending := false, abortCause := 0, discarding := d.discarding || d.opened
      discardCounts := d.discarding && d.discardCounts })

/-- A native trunk's item in progress is cut off, its last symbol K30.7; an edition's goes on into its item attach. -/
def cutOff (p : Nat) (s : State) : State :=
  match (s.port p).egress.sending with
  | some x =>
    if s.native p then
      let s := if (s.port p).lane.txIdle then s else sendData p [k307] s
      countEgress p ((cutQueue x.queue s).modEgress p fun e => { e with sending := none, grants := [] })
    else s
  | none => s

end Sys2Proof.Machine
end

