-- ==== Sys2Proof/Machine/ModeMoves.lean ====
section
/-! DEFINITION. Mode changes at a boundary: which change a domain makes, what an entry and an exit do, and the drains of Closing
("Operating modes and their combinations", R50 to R56, R61 to R63, R442, R444). -/

namespace Sys2Proof.Machine
open Sys2Proof

/-! ## One change -/

/-- A mode change of one domain; drain and test are Closing's (R62). -/
structure Move where
  dom : Domain
  target : Mode
  cause : Cause
  thermal : Bool
  drain : Nat
  test : Nat
  id : Option SlipId

def Move.auto (d : Domain) (m : Mode) : Move :=
  { dom := d, target := m, cause := .auto, thermal := m == .closing, drain := 800, test := 0, id := none }

def Move.forced (d : Domain) (m : Mode) (drain : Nat) : Move :=
  { dom := d, target := m, cause := .forced, thermal := false, drain := drain, test := 0, id := none }

def Move.slip (m : PendMode) : Move :=
  { dom := m.dom, target := m.target, cause := .slip, thermal := false, drain := m.drain, test := m.test, id := some m.id }

/-- The auto transitions of "Table: mode transitions". A fallback to the reserve image comes only in house Intake, so none takes
the house there (log entry 72). -/
def autoMay (d : Domain) (old new : Mode) : Bool :=
  match d with
  | .house => match old, new with
    | .intake, .bringUp => true
    | .bringUp, .service => true
    | .intake, _ => false
    | .closing, _ => false
    | _, .closing => true
    | _, _ => false
  | .bay _ => match old, new with
    | .intake, .bringUp => true
    | .bringUp, .service => true
    | .service, .holdover => true
    | .service, .bindery => true
    | .holdover, .bindery => true
    | .intake, _ => false
    | .closing, _ => false
    | _, .closing => true
    | _, _ => false
  | .port _ => match old, new with
    | .intake, .bringUp => true
    | .bringUp, .service => true
    | .service, .holdover => true
    | .holdover, .service => true
    | .holdover, .bringUp => true
    | _, _ => false

/-- The house's source is usable and its loop locked; source 3 needs neither (R52). -/
def State.settledSource (s : State) : Bool := s.frame.active.src == 3 || (s.frame.qualified && s.frame.locked)

/-- The house must be, or stay, in Holdover (R37, R38, R304). -/
def State.mustHold (s : State) : Bool := s.frame.lost || (s.clk.tripHoldover && !(s.modes.house == .holdover && s.tripEnded))

/-- A bay may leave Intake: its folios are written, step C is complete, its clock runs (R52, R268, R307). -/
def State.bayWritten (s : State) (b : Nat) : Bool :=
  s.cfg.streamInEffect && s.stepDone 3 && !s.applyIn b && !getBit s.cfg.applyFailed b && !getBit s.clk.gatedBay b

/-- The auto change whose condition held when the frame ended, for the conditions that no command has noted. -/
def State.ownAuto (s : State) : Domain → Option Mode
  | .house =>
    if s.modes.house == .intake && s.cfg.streamInEffect && s.cfg.stepsDone == 5 then some .bringUp
    else if s.modes.house == .bringUp && s.settledSource && !s.mustHold then some .service
    else none
  | .bay b =>
    if s.bayMode b.val == .intake && s.bayWritten b.val then some .bringUp
    else if s.bayMode b.val == .bringUp && s.stepDone 4 && s.bayReady b.val then some .service
    else none
  | .port p =>
    if s.portMode p.val == .intake && s.stepDone 2 && !getBit s.clk.gatedPort p.val then some .bringUp
    else if s.portMode p.val == .bringUp && (s.port p.val).neg.settled then some .service
    else none

/-- The auto change of a domain: a thermal Closing first, then what was noted first. -/
def State.autoOf (s : State) (d : Domain) : Option Mode :=
  let noted := (s.modes.autos.filter fun x => x.1 == d && autoMay d (s.mode d) x.2).map (·.2)
  if noted.contains .closing then some .closing else (noted.head?).or (s.ownAuto d)

/-! ## What an entry or an exit does -/

/-- The folios of a loader request return, and its slip ends SUPERSEDED. -/
def dropRequest (r : LoadReq) (s : State) : State :=
  match r.kind with
  | .apply b _ => stopApply b s
  | .folios => completeOpt r.id St.superseded
      (returnFolios r.num { s with fab.reqs := s.fab.reqs.filter fun x => x.num != r.num })
  | .edition n => completeOpt r.id St.superseded
      (unloadEdition n (returnFolios r.num { s with fab.reqs := s.fab.reqs.filter fun x => x.num != r.num }))

/-- The loader's requests that write into a bay end when it enters Intake. -/
def dropLoads (b : Nat) (s : State) : State :=
  let mine := s.fab.reqs.filter fun r => s.fab.loads.any fun x => x.request == r.num && keyBay x.key == b
  mine.foldl (fun s r => dropRequest r s) s

/-- A bay enters Bring-up (R51, R52, R78). -/
def bayBringUp (b : Nat) (s : State) : State :=
  startBay b { s with
    modes.bringUpFrames := Sparse.del s.modes.bringUpFrames b
    modes.notReadyTold := setBit s.modes.notReadyTold b false
    modes.ready := setBit s.modes.ready b false }

def State.bayRuns (s : State) (b : Nat) : Bool := (s.bay b).running

def haltBay (b : Nat) (s : State) : State := if s.bayRuns b then stopBay b s else s

/-- What a bay does as it leaves and enters modes; the house's mode is that of the same boundary. -/
def bayMoved (b : Bay) (old new : Mode) (s : State) : State :=
  let n := b.val
  let s := if old == .bindery then loadRemapped n s else s
  match new with
  | .intake =>
    let s := initBay n (haltBay n (if s.modes.house == .intake then s else dropLoads n s))
    if s.modes.house == .intake then s else bayApply b s
  | .bringUp => bayBringUp n s
  | .bindery => applyPendRemaps n (retireBanks n (haltBay n s))
  | .closing =>
    let s := if old == .intake then stopApply b s else s
    if old == .bindery && !getBit s.clk.gatedBay n then startBay n s else s
  | _ => s

/-- The modes in which a port's lanes carry items. -/
def lineMode (m : Mode) : Bool := modeIn m [.service, .holdover, .closing]

/-- Entry to Service from Bring-up: counters at zero, allowances, the throttle accumulator, and the calendar against B (R158,
R198, R199, R206, R207). -/
def portService (p : Nat) (s : State) : State :=
  let t := s.port p
  let c := t.neg.cur
  let w := creditWidth c.rate c.width
  let allow := fun (set : Option Nat) =>
    match set with
    | some a => if a < 2 ^ w then a else defaultAllowance w
    | none => defaultAllowance w
  let s := s.modLane p fun l => { l with creditW := if foreign t.cfg then 0 else w, lastMark := none, lastSlotNo := none, marksLost := 0,
                                         goodMarks := 0, noMarkSlots := 0 }
  let s := s.modCredit p fun k => { CreditSt.dflt with
    allowProt := allow k.setProt, allowOrd := allow k.setOrd, setProt := k.setProt, setOrd := k.setOrd,
    overdraw := k.overdraw, overdrawTold := k.overdrawTold, fresh := true }
  let low := decide (slotBudget t.cfg c.rate c.width < (t.egress.prot.map (·.amount)).foldl (· + ·) 0)
  let s := s.modEgress p fun e => { e with acc := 0, underrate := low }
  if low then warn 0x0508 p [] s else s

/-- What a port does as it leaves and enters modes (R61, R141, R155, R158, R444). -/
def portMoved (p : Nat) (old new : Mode) (s : State) : State :=
  let s := if lineMode old && !lineMode new then closePoisoned p (cutOff p s) else s
  let s := if old == .bringUp then leaveBringUp p s else if old == .bindery then s.modLane p fun l => { l with chkLock := 0 } else s
  match new with
  | .intake => idleTx p ((s.modNeg p clearCaps).modLane p fun l => { l with inSync := 0, discardRun := false })
  | .bringUp => enterBringUp p s
  | .service =>
    if old == .holdover then s.modCredit p fun c => { c with fresh := true } else portService p s
  | _ => s

/-- The house enters Intake at run time (R253, R269, R278, R329). -/
def houseIntake (s : State) : State :=
  let s := s.fab.reqs.foldl (fun s r => dropRequest r s) s
  restartStream { s with stock.declared := 0, pkg.frameOut := false, clk.tripHoldover := false }

/-- CHAIN_OUT carries comma idle outside Intake (R60). -/
def houseMoved (new : Mode) (s : State) : State :=
  let s := { s with cfg.outActive := s.cfg.outActive && new == .intake }
  match new with
  | .intake => houseIntake s
  | .bringUp => startVoltages s
  | .closing => { s with pkg.doneLow := true }
  | _ => s

/-- A Closing that is left before it completed ends SUPERSEDED. -/
def leaveClosing (d : Domain) (s : State) : State :=
  let mine := s.modes.closing.filter fun c => c.dom == d
  mine.foldl (fun s c => completeOpt c.id St.superseded s) { s with
    modes.closing := s.modes.closing.filter fun c => c.dom != d
    modes.closed := s.modes.closed.filter fun x => x != d }

/-- R53, R445: what enters Closing from Intake, or gated, has nothing to drain. -/
def State.drainsAtOnce (s : State) (d : Domain) : Bool := s.mode d == .intake || s.gatedDom d

/-- The bays whose shut-down test a Closing passes over: gated ones (R445). -/
def State.untestedBays (s : State) : Domain → List Nat
  | .house => (List.range 32).filter fun b => getBit s.clk.gatedBay b
  | .bay b => if getBit s.clk.gatedBay b.val then [b.val] else []
  | .port _ => []

/-- A domain makes a change at a boundary (R50 to R55). -/
def applyMove (m : Move) (s : State) : State :=
  let d := m.dom
  let old := s.mode d
  let atOnce := s.drainsAtOnce d
  let s := noteMode d old m.target m.cause m.thermal ((leaveClosing d s).setMode d m.target)
  let s := match d with
    | .house => houseMoved m.target s
    | .bay b => bayMoved b old m.target s
    | .port p => portMoved p.val old m.target s
  if m.target == .closing then
    { s with modes.closing := s.modes.closing ++ [({ dom := d, framesLeft := m.drain, test := m.test, left := m.test, drained := atOnce,
                                                     tested := s.untestedBays d, lo := [], ix := [], id := m.id } : ClosingSt)] }
  else completeOpt m.id St.ok s

/-! ## Which change each domain makes (R54) -/

/-- What a MODE_SET that is due meets: the mode is reached already, the change can be made, or its condition fails. -/
def State.slipFits (s : State) (m : PendMode) : Bool :=
  let old := s.mode m.dom
  slipMay m.dom old m.target && !(m.target == .bringUp && s.gatedDom m.dom) &&
    (match m.dom with
      | .bay b => !(old == .bringUp && m.target == .service) || (s.stepDone 4 && (m.force || s.bayReady b.val))
      | _ => true)

/-- The desk reads every archive copy of a bay that is to leave Holdover for Service (R52). -/
def State.archiveFails (s : State) (m : PendMode) : Bool :=
  match m.dom with
  | .bay _ => s.mode m.dom == .holdover && m.target == .service && !m.archiveOk
  | _ => false

/-- The MODE_SETs due for a domain, in channel order: the first that changes it does, those behind it wait. -/
def trySlips (l : List PendMode) (s : State) : State :=
  match l with
  | [] => s
  | m :: rest =>
    if s.mode m.dom == m.target then trySlips rest (complete m.id St.ok 0 [] s)
    else if !s.slipFits m then trySlips rest (complete m.id St.modeConflict 0 [] s)
    else if s.archiveFails m then trySlips rest (complete m.id St.archiveBad 0 [] s)
    else applyMove (.slip m) { s with modes.pend := s.modes.pend ++ rest }

def loseSlips (l : List PendMode) (s : State) : State := l.foldl (fun s m => complete m.id St.superseded 0 [] s) s

def byChannel (a b : PendMode) : Bool := decide (a.id.ch.val ≤ b.id.ch.val)

def dueFor (due : List PendMode) (d : Domain) : List PendMode := sortBy byChannel (due.filter fun m => m.dom == d)

/-- A bay or port: forced with the house, else an auto change, else a slip's. Conditions are those of the state before. -/
def domainStep (before : State) (forced : Option (Mode × Nat)) (due : List PendMode) (s : State) (d : Domain) : State :=
  let mine := dueFor due d
  match forced with
  | some (m, drain) =>
    let s := loseSlips mine s
    if s.mode d == m then s else applyMove (.forced d m drain) s
  | none => match before.autoOf d with
    | some m => applyMove (.auto d m) (loseSlips mine s)
    | none => trySlips mine s

/-- The house's own step; holds tells that step 3 will enter or leave Holdover, which outranks a slip. -/
def houseStep (before : State) (holds : Bool) (due : List PendMode) (s : State) : State :=
  let mine := dueFor due .house
  match before.autoOf .house with
  | some m => applyMove (.auto .house m) (loseSlips mine s)
  | none => if holds then loseSlips mine s else trySlips mine s

/-- What the house forces on every bay and port at this boundary (R53). -/
def forcedBy (old : Mode) (s : State) : Option (Mode × Nat) :=
  let new := s.modes.house
  if new == old then none
  else if new == .intake then some (.intake, 0)
  else if new == .closing then
    some (.closing, ((s.modes.closing.find? fun c => c.dom == .house).map (·.framesLeft)).getD 800)
  else none

/-- House Holdover at step 3: entered while a cause holds, left when none does (R37, R38, R54, R304). -/
def State.holdMove (s : State) : Option Mode :=
  if modeIn s.modes.house [.bringUp, .service, .bindery] && s.mustHold then some .holdover
  else if s.modes.house == .holdover && !s.mustHold then some .service
  else none

/-- Step 2 of a boundary: the mode changes, then a start-up step (R271). -/
def boundaryStep2 (holds : Bool) (s : State) : State :=
  let before := s
  let due := s.modes.pend.filter fun m => m.delay == 0
  let later := (s.modes.pend.filter fun m => m.delay != 0).map fun m => { m with delay := m.delay - 1 }
  let s := houseStep before holds due { s with modes.pend := later, modes.autos := [] }
  let forced := forcedBy before.modes.house s
  let s := ((allBays.map Domain.bay) ++ allPorts.map Domain.port).foldl (domainStep before forced due) s
  if s.modes.house == .intake then takeStep s else s

/-- Step 3's mode change; a house that changed at step 2 makes no other. -/
def boundaryHold (old : Mode) (s : State) : State :=
  if s.modes.house != old then s
  else match s.holdMove with
    | some m =>
      let s := { s with clk.tripHoldover := s.clk.tripHoldover && m == .holdover }
      applyMove (.auto .house m) s
    | none => s

/-! ## Drains (R63, R442) -/

/-- Every queue of the port's calendar is empty, no item is in progress, and the line has taken what it was given. -/
def State.portDrained (s : State) (p : Nat) : Bool :=
  let e := (s.port p).egress
  ((e.prot ++ e.ord).all fun c => (s.queue c.queue).occupied == 0 && !(s.queue c.queue).prodMid) && e.sending.isNone &&
    e.exOut.isEmpty && e.loBuf.isEmpty

/-- Every port bound to an edition of the bay has been released by that edition since the bay entered Closing (R442). -/
def State.bayDrained (s : State) (c : ClosingSt) (b : Nat) : Bool :=
  s.fab.binds.all fun (p, w) => !s.editionIn w.edition b || (c.lo.contains (p, w.edition) && c.ix.contains (p, w.edition))

/-- The other domains' drains have ended. -/
def State.othersDrained (s : State) : Bool := s.modes.closing.all fun c => c.dom == .house || c.drained

def State.hasDrained (s : State) (c : ClosingSt) : Bool :=
  match c.dom with
  | .house => s.othersDrained
  | .bay b => s.bayDrained c b.val
  | .port p => s.portDrained p.val

def setDrained (d : Domain) (s : State) : State :=
  { s with modes.closing := s.modes.closing.map fun c => if c.dom = d then { c with drained := true } else c }

/-- The queues that remain in a port's calendar are flushed. -/
def flushPort (p : Nat) (s : State) : State :=
  let e := (s.port p).egress
  (e.prot ++ e.ord).foldl (fun s c => if (s.queue c.queue).occupied = 0 then s else flushQueue c.queue s) s

/-- drain_frames has run out: what remains is flushed, or lost with the bay. -/
def expireDrain (d : Domain) (s : State) : State :=
  match d with
  | .port p => flushPort p.val s
  | .house => allPorts.foldl (fun s p => flushPort p.val s) s
  | .bay b => s.fab.binds.foldl (fun s (p, w) =>
      match s.memberAt w.edition w.item with
      | some m => if m.bay = b.val then poisonAttach p s else s
      | none => s) s

/-- The drain of d has ended: a bay's rotas stop (R78). -/
def endDrain (d : Domain) (s : State) : State :=
  match d with
  | .bay b => haltBay b.val (setDrained d s)
  | _ => setDrained d s

/-- A bay's logic rail is removed once its Closing completes, its clock held with it ("Table: mode codes", R312). -/
def gateClosed (b : Nat) (s : State) : State :=
  loseFlops b { s with pwr.offBay := setBit s.pwr.offBay b true, clk.gatedBay := setBit s.clk.gatedBay b true }

/-- A bay in a house Closing waits for the house's test of it. -/
def State.testWaits (s : State) (d : Domain) : Bool :=
  match d with
  | .bay b => s.modes.closing.any fun c => c.dom == .house && c.left != 0 && !c.tested.contains b.val || c.dom == .house && (s.test? b.val).isSome
  | _ => false

/-- The Closing of d completes: its slip ends OK; a port goes to electrical idle, a bay loses its rail, a house saves the tail
of the day book and takes its link and FRAME_OUT down (R60, R61, R63, R414). -/
def completeClosing (d : Domain) (s : State) : State :=
  match s.modes.closing.find? (fun c => c.dom == d) with
  | none => s
  | some c =>
    if !c.drained || !s.testsDone c || s.testWaits d || s.modes.closed.contains d then s
    else
      let s := completeOpt c.id St.ok { s with
        modes.closing := s.modes.closing.map fun x => if x.dom = d then { x with id := none } else x
        modes.closed := s.modes.closed ++ [d] }
      match d with
      | .port p => idleTx p.val s
      | .bay b => gateClosed b.val s
      | .house => writeTail { s with pkg.frameOut := false, pkg.pcieUp := false }

/-- CLOSING_DRAIN_END: the drain of a domain in Closing ends as its condition stands, and the Closing completes. A bay's drain
ends only at frame boundaries. -/
def drainEnd (d : Domain) (s : State) : State :=
  match s.modes.closing.find? (fun c => c.dom == d) with
  | none => s
  | some c =>
    let due := match d with
      | .bay _ => false
      | _ => !c.drained && s.hasDrained c
    completeClosing d (if due then endDrain d s else s)

def execClosingDrainEnd (d : Domain) (s : State) : Host.Outcome State Fault Refusal := run (when s.awake (drainEnd d)) s

/-- The boundary's part of one Closing: a frame less, and the drain ends if its condition holds or its frames run out. -/
def drainFrame (s : State) (d : Domain) : State :=
  match s.modes.closing.find? (fun c => c.dom == d) with
  | none => s
  | some c =>
    if c.drained then completeClosing d s
    else
      let s := { s with modes.closing := s.modes.closing.map fun x =>
        if x.dom = d then { x with framesLeft := x.framesLeft - 1 } else x }
      if s.hasDrained c then completeClosing d (endDrain d s)
      else if c.framesLeft ≤ 1 then completeClosing d (endDrain d (expireDrain d s))
      else s

/-- The drains in progress, the house's after the others'. -/
def drainFrames (s : State) : State :=
  let doms := s.modes.closing.map (·.dom)
  (doms.filter (· != .house) ++ doms.filter (· == .house)).foldl drainFrame s

end Sys2Proof.Machine
end

