-- ==== Sys2Proof/Machine/DayBook.lean ====
section
/-! DEFINITION. The event logger, the drain, the summaries, the latches, the LOG registers and the slips of family 0x0B that
act on them ("Events, the day book and recovery order"; R395). -/

namespace Sys2Proof.Machine
open Sys2Proof

/-! ## Reads of entries (R405, R410) -/

/-- The layer's finding at the read of the i-th entry from the head, under the day book's requester code (R233). -/
def entryFinding (i : Nat) (f : Found) (s : State) : State :=
  match f with
  | .clean => s
  | _ => memFinding 0x32 (s.entryAddr ((s.log.rptr.toNat + i) % bookSize) +
      8 * ((Config.freeValue s.frame.freeCount).toNat % 4)) f false s.useFree

/-! ## Writing (R407 to R410) -/

/-- The filter leaves the entry unwritten (R408). -/
def State.filtered (s : State) (e : Event) : Bool :=
  (e.cls == .trace && !s.log.traceEn) || (e.cls == .info && !s.log.infoEn)

/-- The place of a source's latest entry. -/
def latestOf (l : List Entry) (code : BitVec 16) (subject : Nat) : Option Nat :=
  ((List.range l.length).filter fun i => match l[i]? with
    | some e => e.code == code && e.subject == subject && !e.lacuna
    | none => false).getLast?

/-- An occurrence joins an entry (R407). -/
def Entry.absorb (o e : Entry) : Entry :=
  { e with lastFrame := o.lastFrame, lastSlot := o.lastSlot, count := e.count + 1, detail := o.detail }

/-- The place of the entry that an occurrence coalesces into. -/
def coalescesAt (l : List Entry) (o : Entry) : Option Nat :=
  (latestOf l o.code o.subject).bind fun i => match l[i]? with
    | some e => if e.cls == o.cls && decide (e.count < 0xFFFF) then some i else none
    | none => none

def countCoalesced (s : State) : State := { s with log.coalesced := sat 0xFFFFFFFF s.log.coalesced 1 }

/-- An occurrence is coalesced or written as a new entry; the read that coalescing makes may be bad. -/
def writeEntry (o : Entry) (f : Found) (s : State) : State :=
  match coalescesAt s.log.ring o with
  | none => writeNew o s
  | some i =>
    let s := entryFinding i f s
    if foundBad f then writeNew o (countLost 1 { s with log.ring := s.log.ring.set i badEntry })
    else countCoalesced { s with log.ring := s.log.ring.modify i o.absorb }

/-- While the desk runs cold, 64 new entries are held and the rest counted (R410). -/
def holdEntry (o : Entry) (s : State) : State :=
  match coalescesAt s.log.cold o with
  | some i => countCoalesced { s with log.cold := s.log.cold.modify i o.absorb }
  | none =>
    if s.log.cold.length < 64 then { s with log.cold := s.log.cold ++ [o] }
    else
      let l := lossOf1 o 8
      countLost 1 { s with log.coldLost := some (match s.log.coldLost with
        | some x => x.joinLoss l
        | none => l) }

/-- One entry of the event logger: what was held while cold comes first, then the events in the order they were raised. -/
def loggerStep (f : Found) (u : Upset) (s : State) : State :=
  if s.clk.cold then
    match s.log.raised with
    | [] => s
    | e :: r =>
      let s := { s with log.raised := r }
      if s.filtered e then s else holdEntry (.ofEvent e) s
  else match s.log.cold, s.log.coldLost, s.log.raised with
    | e :: r, _, _ =>
      let s := { s with log.cold := r }
      if pointersDiffer u then resetBook s else writeNew e s
    | [], some l, _ =>
      let s := { s with log.coldLost := none }
      if pointersDiffer u then resetBook s else writeNew l s
    | [], none, e :: r =>
      let s := { s with log.raised := r }
      if s.filtered e then s
      else if pointersDiffer u then resetBook s else writeEntry (.ofEvent e) f s
    | [], none, [] => s

def execDaybookEntryWrite (found : Found) (u : Upset) (s : State) : Host.Outcome State Fault Refusal :=
  run (when (s.up && !s.clk.stoppedDevice) (loggerStep found u)) s

/-! ## The drain ring (R411) -/

def DrainSt.size (d : DrainSt) : Nat := 2 ^ d.log2
def DrainSt.held (d : DrainSt) : Nat := (d.prod + 2 * d.size - d.cons) % (2 * d.size)

/-- Core cycles that the copy of an entry takes: open, within the frame's 10,000 (R46). -/
def drainCost (n : Nat) : Nat := (Config.freeValue n).toNat % 10001

/-- The drain can copy its next entry in this frame. -/
def State.drainsNow (s : State) : Bool :=
  s.awake && s.log.drain.active && s.pkg.pcieUp && !s.desk.doubleFail && !s.desk.takeover &&
    decide (s.log.drain.held < s.log.drain.size) &&
    (!s.frame.running || (decide (s.log.copies < 512) && (s.log.drainCycles == 0 || s.log.drainCycles + drainCost s.frame.freeCount ≤ 10000)))

/-- What a read of the head delivers (R410). -/
def headEntry (f : Found) (s : State) : Option (Entry × State) :=
  match s.log.ring with
  | [] => none
  | e :: _ =>
    let s := entryFinding 0 f s
    if foundBad f then some (badEntry, countLost 1 s) else some (e, s)

/-- The copy's bytes go to the ring with the phase bit of this pass; the producer index advances, and the entry leaves. -/
def drainCopy (f : Found) (u : Upset) (s : State) : State :=
  if pointersDiffer u then resetBook s
  else match headEntry f s with
    | none => s
    | some (e, s) =>
      let d := s.log.drain
      let phase := d.prod / d.size % 2 == 0
      let s := dropEntry { s with
        log.drained := e.bytes phase :: s.log.drained
        log.drain := { d with prod := (d.prod + 1) % (2 * d.size) }
        log.copies := s.log.copies + 1 }
      if s.log.irqDrain then msix 5 s else s

def execDaybookDrainCopy (found : Found) (u : Upset) (s : State) : Host.Outcome State Fault Refusal :=
  run (when (s.drainsNow && !s.log.ring.isEmpty) fun s =>
    drainCopy found u { s.useFree with log.drainCycles := s.log.drainCycles + drainCost s.frame.freeCount }) s

/-! ## Summaries (R413) -/

def summaryEnd (s : State) : State :=
  { s with
    log.summary := s.log.current
    log.summaryFrame := s.frame.number
    log.current := Summary.zero
    log.period := s.log.periodNext
    log.periodLeft := s.log.periodNext }

def execSummaryPeriodEnd (s : State) : Host.Outcome State Fault Refusal :=
  done (when (s.framesRun && s.log.periodLeft == 0) summaryEnd s)

/-! ## Latches (R401 to R403) -/

/-- The class that a listed code's table entry gives it; MODE_CHANGED counts as information ("Table: event codes"). -/
def codeClass (code : Nat) : Option EvClass :=
  let i := code % 256
  let pick := fun (n a w last : Nat) (rest : EvClass) =>
    if i = 0 || last < i then none
    else some (if i ≤ n then EvClass.nonMaskable else if i ≤ a then .alarm else if i ≤ w then .warning else rest)
  match code / 256 with
  | 1 => pick 1 1 5 5 .info
  | 2 => pick 1 5 8 9 .info
  | 3 => pick 0 6 10 10 .info
  | 4 => pick 0 0 4 4 .info
  | 5 => pick 0 0 8 8 .info
  | 6 => pick 0 2 5 5 .info
  | 7 => pick 0 2 3 3 .info
  | 8 => pick 0 2 4 6 .info
  | 9 => pick 1 4 4 7 .info
  | 10 => pick 0 3 6 7 .info
  | 11 => if i = 12 then some .alarm else if i = 11 then some .trace else pick 1 3 9 10 .info
  | 12 => pick 0 0 0 1 .info
  | _ => none

/-- The non-maskable events in the order of LOG_NM_LATCH. -/
def nmCodes : List Nat := [0x0101, 0x0201, 0x0901, 0x0B01]

/-- "Table: non-maskable conditions". -/
def State.nmActive (s : State) (code : Nat) : Bool :=
  if code = 0x0101 then ((List.range 6).any s.clk.onFallback) || s.clk.cold
  else if code = 0x0201 then (List.range 48).any fun n => 1808 ≤ (s.node n).temp
  else if code = 0x0B01 then s.desk.doubleFail
  else false

def State.latchedCode (s : State) (code : Nat) : Bool := s.log.latched.any fun l => l.1.toNat == code

/-- The latch bits of the codes clear, but a non-maskable one whose condition holds. -/
def clearLatches (f : Nat → Bool) (s : State) : State :=
  { s with log.latched := s.log.latched.filter fun l => !(f l.1.toNat && !s.nmActive l.1.toNat) }

def eventAckBody (p : List Byte) (s : State) : SlipOut := do
  let classes := arg p 16 1
  let code := arg p 18 2
  let named := fun (c : EvClass) => (c == .alarm && classes.testBit 0) || (c == .nonMaskable && classes.testBit 1)
  fields [⟨16, 1, 1 ≤ classes && classes < 4⟩, ⟨18, 2, code == 0 || ((codeClass code).map named).getD true⟩] p
  let t := clearLatches (fun c => ((codeClass c).map named).getD false && (code == 0 || c == code)) s
  okResult t (leBytes 2 (s.log.latched.length - t.log.latched.length))

def execEventAck (h : SlipHdr) (p : List Byte) (s : State) : Host.Outcome State Fault Refusal :=
  slip 0x0B01 .ordinary h p (fun _ s => eventAckBody p s) s

/-! ## The LOG registers -/

def State.logStatus (s : State) : Nat :=
  let n := s.bookFill
  pack [(15, n), (11, 0), (1, bitOf s.log.traceEn), (1, bitOf s.log.infoEn), (1, bitOf s.log.drain.active),
    (1, bitOf (n == bookSize)), (1, bitOf (decide (12288 < n))), (1, bitOf s.alert)]

def State.nmLatch (s : State) : Nat :=
  pack [(4, maskOf 4 fun k => s.latchedCode (nth nmCodes k)), (12, 0), (4, maskOf 4 fun k => s.nmActive (nth nmCodes k))]

/-- LOG_ALARM_f: bit i for the alarm f * 256 + i. -/
def State.logAlarm (s : State) (f : Nat) : Nat :=
  maskOf 32 fun i => codeClass (256 * f + i) == some .alarm && s.latchedCode (256 * f + i)

def State.logReg (s : State) (off : Nat) : Nat :=
  let l := s.log
  let d := l.drain
  if off = 0x00 then pack [(1, bitOf l.irqLatch), (1, bitOf l.irqDrain)]
  else if off = 0x04 then s.logStatus
  else if off = 0x08 then s.nmLatch
  else if 0x0C ≤ off && off ≤ 0x34 then s.logAlarm ((off - 0x0C) / 4 + 1)
  else if off = 0x40 then
    if d.active then pack [(16, 0), (4, d.log2), (6, 0), (2, d.ch), (3, 0), (1, 1)] else 0
  else if off = 0x44 then d.prod
  else if off = 0x48 then d.cons
  else if off = 0x4C then pack [(16, l.lacunas), (16, l.lost)]
  else if off = 0x50 then pack [(16, l.shedTrace), (16, l.shedInfo)]
  else if off = 0x54 then l.coalesced
  else if off = 0x60 then pack [(16, l.summary.warnings), (8, l.summary.alarms), (8, l.summary.nm)]
  else if off = 0x64 then pack [(16, l.summary.trace), (16, l.summary.info)]
  else if off = 0x68 then l.summaryFrame.toNat
  else if off = 0x70 then pack [(16, l.lastAlarm.2.toNat), (16, l.lastAlarm.1.toNat)]
  else 0

/-- What a read of a LOG register clears. -/
def clearLog (off : Nat) (s : State) : State :=
  if off = 0x4C then { s with log.lost := 0, log.lacunas := 0 }
  else if off = 0x50 then { s with log.shedInfo := 0, log.shedTrace := 0 }
  else if off = 0x54 then { s with log.coalesced := 0 }
  else s

def writeLogCtrl (v : Word) (s : State) : State := { s with log.irqLatch := getBit v 0, log.irqDrain := getBit v 1 }

/-- LOG_NM_LATCH: the bits a write of v clears (R402). -/
def State.nmClears (s : State) (v : Word) : List Nat :=
  (List.range 4).filter fun k => getBit v k && s.latchedCode (nth nmCodes k) && !s.nmActive (nth nmCodes k)

def writeNmLatch (v : Word) (s : State) : State := clearLatches (fun c => ((s.nmClears v).map (nth nmCodes)).contains c) s

def writeAlarm (f : Nat) (v : Word) (s : State) : State :=
  clearLatches (fun c => c / 256 == f && codeClass c == some .alarm && getBit v (c % 256)) s

/-- LOG_DRAIN_CONS: out-of-span writes are dropped (R411). -/
def writeDrainCons (v : Word) (s : State) : State :=
  let d := s.log.drain
  let i := v.toNat % 2 ^ 15 % (2 * d.size)
  if d.active && (d.prod + 2 * d.size - i) % (2 * d.size) ≤ d.size then { s with log.drain := { d with cons := i } } else s

/-! ## Slips (R395) -/

/-- The entries that a DAYBOOK_READ takes from the head; bad: the places, from the head, of those with an uncorrectable
word. -/
def takeEntries (bad : List Nat) (n i : Nat) (s : State) : List Entry × State :=
  match n with
  | 0 => ([], s)
  | k + 1 =>
    let f : Found := if bad.contains i then .uncorrectable ((Config.freeValue s.frame.freeCount).truncate 8) else .clean
    match headEntry f s with
    | none => ([], s)
    | some (e, t) =>
      let r := takeEntries bad k (i + 1) (dropEntry t)
      (e :: r.1, r.2)

/-- R412. -/
def daybookReadBody (p : List Byte) (bad : List Nat) (s : State) : SlipOut := do
  let n := arg p 16 2
  fields [⟨16, 2, 1 ≤ n && n ≤ 126⟩] p
  need (!s.log.drain.active) (fail St.modeConflict)
  let r := takeEntries bad n 0 s
  okResult r.2 (leBytes 2 r.1.length ++ leBytes 14 0 ++ r.1.flatMap fun e => e.bytes false)

def execDaybookRead (h : SlipHdr) (p : List Byte) (bad : List Nat) (s : State) : Host.Outcome State Fault Refusal :=
  slip 0x0B02 .ordinary h p (fun _ s => daybookReadBody p bad s) s

/-- R411. -/
def drainSetBody (p : List Byte) (id : SlipId) (s : State) : SlipOut := do
  let act := arg p 16 1
  let ch := arg p 17 1
  let addr := arg p 20 8
  let n := arg p 28 2
  let k := Nat.log2 n
  fields [⟨16, 1, act < 2⟩, ⟨17, 1, ch < 4⟩, ⟨20, 8, act == 0 || (addr % 4096 == 0 && addr < 2 ^ 44)⟩,
    ⟨28, 2, act == 0 || (2 ^ k == n && 64 ≤ n && n ≤ 16384)⟩] p
  need (4 ≤ id.ch.val || id.ch.val == ch) (fail St.rights)
  okSlip { s with log.drain :=
    if act = 0 then { s.log.drain with active := false }
    else { active := true, ch := ch, addr := addr, log2 := k, prod := 0, cons := 0 } }

def execDaybookDrainSet (h : SlipHdr) (p : List Byte) (s : State) : Host.Outcome State Fault Refusal :=
  slip 0x0B03 .ordinary h p (drainSetBody p) s

/-- R408, R413. -/
def eventFilterBody (p : List Byte) (s : State) : SlipOut := do
  let f := arg p 16 1
  let n := arg p 17 2
  fields [⟨16, 1, f < 4⟩, ⟨17, 2, 1 ≤ n && n ≤ 8000⟩] p
  okSlip { s with log.traceEn := f.testBit 0, log.infoEn := f.testBit 1, log.periodNext := n }

def execEventFilterSet (h : SlipHdr) (p : List Byte) (s : State) : Host.Outcome State Fault Refusal :=
  slip 0x0B04 .ordinary h p (fun _ s => eventFilterBody p s) s

def execEventQuery (h : SlipHdr) (p : List Byte) (s : State) : Host.Outcome State Fault Refusal :=
  slip 0x0B05 .passable h p (fun _ s => do
    fields [] p
    okResult s (words4 ((List.range 64).map fun i => s.logReg (4 * i)))) s

end Sys2Proof.Machine
end

