-- ==== Sys2Proof/Machine/PortRegs.lean ====
section
/-! DEFINITION. What the PORT registers read, and the slips that report or set a port's lanes (R389, R397). -/

namespace Sys2Proof.Machine
open Sys2Proof

/-! ## Registers of a port's block -/

def State.portStatus (s : State) (p : Nat) : Nat :=
  let t := s.port p
  let n := t.neg
  let bu := s.portMode p == .bringUp
  let tgt := if bu && t.cfg.setting == 0 then n.target else n.cur
  pack [(4, n.cur.rate), (4, 0), (2, n.cur.width), (2, 0), (4, tgt.rate), (2, tgt.width), (3, 0),
    (3, (s.portMode p).code), (1, 0), (2, min 2 t.cfg.setting), (1, bitOf (bu && n.leader)), (4, if bu then n.state else 0)]

def State.portCaps (s : State) (p : Nat) : Nat :=
  let n := (s.port p).neg
  pack [(9, n.ownRates.toNat), (7, 0), (3, n.ownWidths.toNat), (1, bitOf n.partnerValid), (3, n.partnerWidths.toNat),
    (9, n.partnerRates.toNat)]

def State.portCapsFail (s : State) (p : Nat) : Nat :=
  let n := (s.port p).neg
  pack [(9, n.failedOnce.toNat), (3, 0), (4, n.rateCap.toNat), (2, n.widthFailed.toNat), (2, n.widthCap.toNat), (3, 0),
    (9, n.partnerFailed.toNat)]

def State.portBringupCount (s : State) (p : Nat) : Nat :=
  let n := (s.port p).neg
  pack [(8, n.entriesN), (8, n.timeoutsN), (8, n.failedN), (8, n.confirmedN)]

def State.portNegErr (s : State) (p : Nat) : Nat :=
  let n := (s.port p).neg
  pack [(8, n.collisions), (8, n.refusals), (16, n.setsBad)]

def State.portFixed (s : State) (p : Nat) : Nat :=
  let c := (s.port p).cfg
  if c.setting = 1 then
    pack [(4, c.fixedRate), (2, c.fixedWidth), (1, bitOf c.marksTx), (1, bitOf c.marksRx), (5, ofInt 5 c.fixedSkew)]
  else 0

def State.portLinkCfg (s : State) (p : Nat) : Nat :=
  let t := s.port p
  let c := t.cfg
  pack [(4, t.lane.creditW), (2, if c.setting = 2 then 1 else if c.setting = 3 then 2 else 0), (2, 0),
    (1, bitOf t.lane.refHeld), (3, if isTrunk p then c.refSrc else 3), (4, if isTrunk p && c.refSrc = 2 then c.refTrunk else 0)]

def State.laneCodeErr (s : State) (p k : Nat) : Nat :=
  let l := (s.port p).lane
  pack [(16, nth l.codeViol k), (16, nth l.disparity k)]

def State.laneSyncReg (s : State) (p : Nat) : Nat :=
  let l := (s.port p).lane
  pack [(4, l.inSync.toNat), (12, 0), (8, l.syncLoss), (8, l.alignErr)]

def State.markStatus (s : State) (p : Nat) : Nat :=
  let l := (s.port p).lane
  pack [(8, l.markErr), (8, l.seqErr), (16, l.crcFail)]

def State.portDiscard (s : State) (p : Nat) : Nat :=
  let l := (s.port p).lane
  pack [(16, l.discEg), (16, l.discIn)]

def State.fwdClk (s : State) (p k : Nat) : Nat :=
  let l := (s.port p).lane
  if isTrunk p then 0
  else pack [(8, nth l.limitHits k), (8, ofInt 8 (l.track.getD k 0)), (8, nth l.trainedFine k), (8, ofInt 8 (l.trainedUi.getD k 0))]

def State.elasticFill (s : State) (p : Nat) : Nat :=
  if isTrunk p then pack ((s.port p).lane.fill.map fun n => (8, n)) else 0

def State.elasticCount (s : State) (p : Nat) : Nat :=
  let l := (s.port p).lane
  pack [(12, l.inserts), (12, l.deletes), (8, l.slips)]

def State.laneTestStatus (s : State) (p k : Nat) : Nat :=
  let l := (s.port p).lane
  pack [(24, nth l.injCount k), (6, 0), (1, bitOf (getBit l.lockLost k)), (1, bitOf (getBit l.chkLock k))]

/-- The port's registers read 0 while it is gated (R307). -/
def State.gatedPortAt (s : State) (p : Nat) : Bool := getBit s.clk.gatedPort p

/-- The PORT register at a word offset of a block; 0 where the block has none. -/
def State.portReg (s : State) (p off : Nat) : Nat :=
  if s.gatedPortAt p then 0
  else
    let l := (s.port p).lane
    let k := off / 4 % 4
    if off = 0x000 then s.portStatus p
    else if off = 0x004 then s.portCaps p
    else if off = 0x008 then s.portCapsFail p
    else if off = 0x00C then s.portBringupCount p
    else if off = 0x010 then s.portNegErr p
    else if off = 0x014 then s.portFixed p
    else if off = 0x100 then s.portLinkCfg p
    else if 0x110 ≤ off && off ≤ 0x11C then s.laneCodeErr p k
    else if off = 0x120 then s.laneSyncReg p
    else if off = 0x130 then s.markStatus p
    else if off = 0x140 then s.portDiscard p
    else if off = 0x144 then l.underrun
    else if off = 0x150 then s.fwdClk p 0
    else if off = 0x154 then s.fwdClk p 1
    else if off = 0x160 then s.elasticFill p
    else if off = 0x164 then s.elasticCount p
    else if off = 0x200 then l.loopback.toNat
    else if 0x210 ≤ off && off ≤ 0x21C then (l.testCtrl.getD k 0).toNat
    else if 0x220 ≤ off && off ≤ 0x22C then s.laneTestStatus p k
    else if 0x230 ≤ off && off ≤ 0x23C then nth l.prbsErr k
    else 0

/-- The offsets at which a port's block has a register. -/
def portRegAt (off : Nat) : Bool :=
  off % 4 == 0 && (off ≤ 0x014 || off == 0x100 || (0x110 ≤ off && off ≤ 0x120) || off == 0x130 || off == 0x140 || off == 0x144 ||
    off == 0x150 || off == 0x154 || off == 0x160 || off == 0x164 || off == 0x200 || (0x210 ≤ off && off ≤ 0x23C))

/-! ## Slips -/

def portQueryBody (p : List Byte) (s : State) : SlipOut := do
  let port := arg p 16 2
  portIn s port [.intake, .bringUp, .service, .holdover, .bindery]
  fields [⟨16, 2, port < 144⟩] p
  okResult s (words4 ([0x000, 0x004, 0x008, 0x00C, 0x010, 0x014, 0x100, 0x120, 0x130, 0x140, 0x144, 0x150, 0x154, 0x160,
    0x164].map (s.portReg port)))

def execPortQuery (h : SlipHdr) (p : List Byte) (s : State) : Host.Outcome State Fault Refusal :=
  slip 0x0502 .passable h p (fun _ s => portQueryBody p s) s

def laneTestSetBody (p : List Byte) (s : State) : SlipOut := do
  let port := arg p 16 2
  portIn s port [.bindery]
  let mask := arg p 18 1
  let lb := arg p 19 1
  let v := w32 (arg p 20 4)
  fields [⟨16, 2, port < 144⟩, ⟨18, 1, mask < (if isTrunk port then 16 else 4)⟩, ⟨19, 1, lb ≤ 3 || lb == 255⟩,
    ⟨20, 4, true⟩, ⟨24, 1, arg p 24 1 < 2⟩] p
  let lanes := (List.range 4).filter fun k => mask.testBit k
  let s := if lb = 255 then s else writeLoop port lb s
  let s := lanes.foldl (fun s k => writeTest port k true v s) s
  let clear := fun (k : Nat) (l : LaneSt) =>
    { l with prbsErr := l.prbsErr.set k 0, injCount := l.injCount.set k 0, lockLost := setBit l.lockLost k false }
  okSlip (if arg p 24 1 = 1 then lanes.foldl (fun s k => s.modLane port (clear k)) s else s)

def execLaneTestSet (h : SlipHdr) (p : List Byte) (s : State) : Host.Outcome State Fault Refusal :=
  slip 0x0D01 .ordinary h p (fun _ s => laneTestSetBody p s) s

def laneTestQueryBody (p : List Byte) (s : State) : SlipOut := do
  let port := arg p 16 2
  portIn s port [.bindery]
  fields [⟨16, 2, port < 144⟩] p
  okResult s (words4 (((List.range 4).flatMap fun k =>
    [s.portReg port (0x220 + 4 * k), s.portReg port (0x230 + 4 * k), s.portReg port (0x110 + 4 * k)]) ++
    [s.portReg port 0x200, s.portReg port 0x120]))

def execLaneTestQuery (h : SlipHdr) (p : List Byte) (s : State) : Host.Outcome State Fault Refusal :=
  slip 0x0D02 .passable h p (fun _ s => laneTestQueryBody p s) s

end Sys2Proof.Machine
end

