-- ==== Sys2Proof/Machine/Shelf.lean ====
section
/-! DEFINITION. The shelf-reader: the sweep, what it does with what it finds, its own protection and its registers
("Configuration upsets and shelf-reading"). -/

namespace Sys2Proof.Machine
open Sys2Proof

/-! ## The sweep (R283 to R285) -/

/-- Configuration frames of a folio, of a frame's budget, and the pending list's length (R280, R284, R287). -/
def framesPerFolio : Nat := 640
def sweepBudget : Nat := 7812
def pendingMax : Nat := 16

/-- R283, R285: the sweep visits the folio. -/
def State.visits (s : State) (fk : Nat) : Bool :=
  let b := keyBay fk
  isLoaded (s.folioState fk) && !(s.bay b).hardened && s.bayMode b != .intake &&
    !(s.modes.house == .closing && s.bayMode b == .closing)

/-- The first folio that the sweep visits from folio key k on. -/
def State.visitFrom (s : State) (k : Nat) : Option Nat := (s.foliosInUse.find? fun x => k ≤ x.1 && s.visits x.1).map (·.1)

/-- R285: the modes in which the shelf-reader runs; a stop by R289 lasts until the next boundary. -/
def State.sweepRuns (s : State) : Bool :=
  s.awake && s.modes.house != .intake && s.shelf.sweepEn && !s.shelf.stopped

/-- The position from which the next configuration frame is read: the present one, or frame 0 of the folio visited next. -/
def State.sweepAt (s : State) : Option Nat :=
  let k := s.shelf.position / framesPerFolio
  match s.visitFrom k with
  | some j => some (if j = k then s.shelf.position else j * framesPerFolio)
  | none => (s.visitFrom 0).map (· * framesPerFolio)

/-- Nothing is left to visit from the position on: the sweep before is complete. -/
def State.sweepWraps (s : State) : Bool := (s.visitFrom (s.shelf.position / framesPerFolio)).isNone

/-- A sweep is complete, and the next one starts at once (R283). -/
def endSweep (t : ShelfSt) : ShelfSt :=
  { t with position := 0, positionSh := 0, sweeps := sat 0xFFFF t.sweeps 1, lastLen := min 4095 (t.sweepFrames + 1),
           sweepFrames := 0, lateTold := false }

/-- The sweep moves past the configuration frame at pos. -/
def passFrame (pos : Nat) (s : State) : State :=
  let s := if s.sweepWraps then { s with shelf := endSweep s.shelf } else s
  let s := { s with
    shelf.position := pos + 1, shelf.positionSh := pos + 1, shelf.readThisFrame := s.shelf.readThisFrame + 1 }
  if s.sweepWraps then { s with shelf := endSweep s.shelf } else s

/-! ## What is found (R280, R286 to R288) -/

/-- The bits of a configuration frame that stand in error. -/
def onesOf (v : BitVec 1036) : List (Fin 1036) := (List.finRange 1036).filter fun i => v.getLsbD i.val

/-- R280: any single bit in error is corrected, any two are detected, and more are found as they may be. -/
def decodeFrame (v : BitVec 1036) : FrameFound :=
  match onesOf v with
  | [] => .clean
  | [i] => .single i
  | [_, _] => .uncorrectable
  | _ => Config.manyErrors v

def FolioSt.inError (t : FolioSt) (frame : Nat) : BitVec 1036 := Sparse.get 0 t.struck frame
def FolioSt.setInError (t : FolioSt) (frame : Nat) (v : BitVec 1036) : FolioSt := { t with struck := Sparse.put 0 t.struck frame v }

/-- Upsets strike bits of a configuration frame. -/
def strikeFrame (fk frame : Nat) (strike : BitVec 1036) (s : State) : State :=
  if strike = 0 then s else s.modFolio fk fun t => t.setInError frame (t.inError frame ^^^ strike)

/-- The action SHELF_ACTION gives for bay b (0 none, 1 reload, 2 Bindery). -/
def State.shelfAction (s : State) (b : Nat) : Nat :=
  if b < 16 then field s.shelf.actionLo.toNat (2 * b + 1) (2 * b)
  else field s.shelf.actionHi.toNat (2 * (b - 16) + 1) (2 * (b - 16))

/-- "Table: actions by bay mode": 0 none, 1 reload, 2 Bindery, 3 withheld; ue for an uncorrectable frame. -/
def actionIn (m : Mode) (ue : Bool) (a : Nat) : Nat :=
  match m with
  | .holdover => if ue then 2 else if a = 0 then 0 else if a = 1 then 3 else 2
  | .bindery => if ue || a = 1 then 1 else 0
  | .service => if ue || a = 1 then 1 else a
  | _ => if ue || a = 1 || a = 2 then 1 else 0

/-- Take the action: a reload by the loader (not repeated), or the bay's transition at the next boundary (R52). -/
def takeAction (fk a : Nat) (s : State) : State :=
  if a = 1 then (if isLoaded (s.folioState fk) then startRequest true .folios none [fk] s else s)
  else if a = 2 then
    (match domainOf 1 (keyBay fk) with
      | some d => { s with modes.autos := s.modes.autos ++ [(d, .bindery)] }
      | none => s)
  else s

/-- A correction writes its whole frame, with fresh check bits. -/
def writeCorrection (c : Correction) (s : State) : State := s.modFolio c.folioKey fun t => t.setInError c.frame c.left

/-- A correction is held for the folio's next turn-out, or written at once where the folio is not active (R287). -/
def correct (fk frame bit : Nat) (s : State) : State :=
  let c : Correction := { folioKey := fk, frame := frame, bit := bit, ready := false
                          left := (s.folio fk).inError frame ^^^ BitVec.ofNat 1036 (2 ^ bit) }
  if s.folioActive fk then { s with shelf.pending := s.shelf.pending ++ [c] } else writeCorrection c s

/-- SHELF_LOG and SHELF_LOG_INFO of an essential or uncorrectable outcome. -/
def logShelf (ue : Bool) (b carrel f frame bit a : Nat) (s : State) : State :=
  { s with
    shelf.log := w32 (pack [(6, 0), (10, frame), (3, f), (6, carrel), (5, b), (1, bitOf !ue), (1, bitOf ue)])
    shelf.logInfo := w32 (pack [(11, bit), (19, 0), (2, a)]) }

def shelfDetail (b carrel f frame bit a : Nat) : List (Nat × Nat) := [(5, b), (6, carrel), (3, f), (10, frame), (11, bit), (2, a)]

/-- R281: the data bit in error is essential. -/
def State.essential (s : State) (fk frame bit : Nat) : Bool :=
  bit < 1024 && (match (s.folio fk).catalogue with
    | none => true
    | some l => l.contains ((frame * 1024 + bit) / 16))

/-- "Table: shelf-reader outcomes". -/
def shelfOutcome (pos : Nat) (found : FrameFound) (s : State) : State :=
  let fk := pos / framesPerFolio
  let frame := pos % framesPerFolio
  let b := keyBay fk
  let carrel := s.phys b (keyPos fk)
  let f := keyFolio fk
  let subject := b * 38 + carrel
  match found with
  | .clean => s
  | .single bit =>
    let s := correct fk frame bit.val s
    if s.essential fk frame bit.val then
      let a := actionIn (s.bayMode b) false (s.shelfAction b)
      let s := logShelf false b carrel f frame bit.val a { s with shelf.essential := sat 0xFFFF s.shelf.essential 1 }
      takeAction fk a (warn 0x0307 subject (shelfDetail b carrel f frame bit.val a) s)
    else { s with shelf.nonessential := sat 0xFFFF s.shelf.nonessential 1 }
  | .uncorrectable =>
    let a := actionIn (s.bayMode b) true (s.shelfAction b)
    let s := logShelf true b carrel f frame 0x7FF a { s with shelf.uncorrectable := sat 0xFFFF s.shelf.uncorrectable 1 }
    takeAction fk a (alarm 0x0304 subject (shelfDetail b carrel f frame 0x7FF a) s)

/-! ## Its own protection (R289, R290) -/

/-- R289: the sweep stops until the next boundary and starts again from the beginning; fault 1 is a setting's. -/
def shelfFault (setting : Bool) (s : State) : State :=
  let t := { s.shelf with
    stopped := true, pending := [], fullAllFrame := false, position := 0, positionSh := 0, sweepFrames := 0, lateTold := false,
    selfFaults := sat 255 s.shelf.selfFaults 1 }
  let t := if setting then
      { t with sweepEn := true, actionLo := 0x55555555, actionHi := 0x55555555 } else t
  alarm 0x0305 0 [(16, bitOf setting)] { s with shelf := t }

/-- What a use of the shelf-reader's settings and position finds (R289). -/
def shelfUpset (u : Upset) : Option Bool :=
  match u with
  | .none => none
  | .writePtr flip => if flip = 0 then none else some false
  | .readPtr flip => if flip = 0 then none else some false
  | .parity => some true

/-- R284, R286: one configuration frame is read and decoded; while the pending list is full the sweep pauses. -/
def shelfFrameRead (strike : BitVec 1036) (u : Upset) (s : State) : State :=
  match shelfUpset u with
  | some setting => shelfFault setting s
  | none =>
    match s.sweepAt with
    | none => s
    | some pos =>
      if pendingMax ≤ s.shelf.pending.length || sweepBudget ≤ s.shelf.readThisFrame then s
      else
        let s := strikeFrame (pos / framesPerFolio) (pos % framesPerFolio) strike s
        shelfOutcome pos (decodeFrame ((s.folio (pos / framesPerFolio)).inError (pos % framesPerFolio))) (passFrame pos s)

def execShelfFrameRead (data : BitVec 1024) (check : BitVec 12) (u : Upset) (s : State) : Host.Outcome State Fault Refusal :=
  run (when s.sweepRuns (shelfFrameRead (check ++ data) u)) s

/-- R287: the oldest correction whose folio turns out, or is not active, is written. -/
def shelfCorrectionWrite (s : State) : State :=
  match s.shelf.pending.find? fun c => c.ready || !s.folioActive c.folioKey with
  | none => s
  | some c => writeCorrection c { s with shelf.pending := s.shelf.pending.erase c, shelf.fullAllFrame := false }

def execShelfCorrectionWrite (s : State) : Host.Outcome State Fault Refusal := done (when s.awake shelfCorrectionWrite s)

/-- R46, R284: a sweep takes more than 800 counted frames. -/
def execSweepLate (s : State) : Host.Outcome State Fault Refusal :=
  run (when (800 ≤ s.shelf.sweepFrames && !s.shelf.lateTold) fun s =>
    warn 0x0308 0 [] { s with shelf.lateTold := true }) s

/-- R290: the desk resets the shelf-reader; its settings stay. -/
def execShelfStall (s : State) : Host.Outcome State Fault Refusal :=
  run (when (4 ≤ s.shelf.stallRun) fun s =>
    alarm 0x0306 0 [] { s with shelf := { s.shelf with
      pending := [], fullAllFrame := false, position := 0, positionSh := 0, sweepFrames := 0, lateTold := false, stopped := false,
      stallRun := 0, stalls := sat 255 s.shelf.stalls 1 } }) s

/-- The boundary's part: the desk's check of the position, a frame more of the sweep, a restart after R289, a fresh budget. -/
def shelfBoundary (s : State) : State :=
  let t := s.shelf
  let still := s.sweepRuns && t.position == t.boundaryPos && t.enAllFrame && (s.visitFrom 0).isSome && !t.fullAllFrame
  { s with shelf := { t with
      sweepFrames := if s.sweepRuns && t.enAllFrame then t.sweepFrames + 1 else t.sweepFrames
      stallRun := if still then t.stallRun + 1 else 0
      boundaryPos := t.position
      stopped := false
      readThisFrame := 0
      fullAllFrame := t.pending.length == pendingMax
      enAllFrame := t.sweepEn } }

/-- R49: the shelf-reader ends the frame short of its budget although it runs and has folios to visit. -/
def State.shelfLate (s : State) : Bool :=
  s.sweepRuns && s.shelf.readThisFrame < sweepBudget && (s.visitFrom 0).isSome

/-! ## Registers -/

/-- A write of sweep_en (SHELF_CTRL). -/
def writeSweepEn (v : Word) (s : State) : State :=
  let on := getBit v 0
  { s with shelf.sweepEn := on, shelf.enAllFrame := s.shelf.enAllFrame && on }

/-- A write of SHELF_ACTION_LO or HI: a field of 0b11 keeps its value. -/
def mergeActions (old new : Word) : Word :=
  w32 (pack ((List.range 16).map fun k =>
    let v := field new.toNat (2 * k + 1) (2 * k)
    (2, if v = 3 then field old.toNat (2 * k + 1) (2 * k) else v)))

def writeShelfAction (hi : Bool) (v : Word) (s : State) : State :=
  if hi then { s with shelf.actionHi := mergeActions s.shelf.actionHi v }
  else { s with shelf.actionLo := mergeActions s.shelf.actionLo v }

def State.shelfStatus (s : State) : Nat :=
  let fk := s.shelf.position / framesPerFolio
  let running := s.sweepRuns
  pack [(1, 0), (10, s.shelf.position % framesPerFolio), (3, keyFolio fk), (6, s.phys (keyBay fk) (keyPos fk)), (5, keyBay fk),
    (5, s.shelf.pending.length), (1, bitOf (s.shelf.pending.length == pendingMax)), (1, bitOf running)]

/-- The SHELF registers as they read (offsets from the block). -/
def State.shelfReg (s : State) (off : Nat) : Nat :=
  let t := s.shelf
  if off = 0x00 then bitOf t.sweepEn
  else if off = 0x04 then t.actionLo.toNat
  else if off = 0x08 then t.actionHi.toNat
  else if off = 0x0C then s.shelfStatus
  else if off = 0x10 then pack [(16, t.sweeps), (4, 0), (12, t.lastLen)]
  else if off = 0x14 then pack [(16, t.essential), (16, t.nonessential)]
  else if off = 0x18 then pack [(8, t.stalls), (8, t.selfFaults), (16, t.uncorrectable)]
  else if off = 0x1C then t.log.toNat
  else t.logInfo.toNat

/-- What a read clears. -/
def clearShelf (off : Nat) (s : State) : State :=
  if off = 0x10 then { s with shelf.sweeps := 0 }
  else if off = 0x14 then { s with shelf.essential := 0, shelf.nonessential := 0 }
  else if off = 0x18 then { s with shelf.uncorrectable := 0, shelf.selfFaults := 0, shelf.stalls := 0 }
  else s

end Sys2Proof.Machine
end

