-- ==== Sys2Proof/Machine/StreamSlips.lean ====
section
/-! DEFINITION. Family 0x03: staging, authentication, application, flash and the archive (R257, R279, R387). -/

namespace Sys2Proof.Machine
open Sys2Proof

/-- S1 and the modes that accept the whole family. -/
def streamModes : List Mode := [.intake, .service, .holdover, .bindery]

/-- A failed part's completion: the cause stands in the detail (R370). -/
def streamFail (cause : Nat) : SlipErr := { status := St.streamFail, detail := cause }

/-- The loader applies a part, or stages the part of its own start. -/
def State.loaderBusy (s : State) : Bool :=
  s.cfg.stageState == 3 || s.cfg.phase == 4 || ((s.cfg.phase == 1 || s.cfg.phase == 2) && s.modes.house == .intake)

/-! ## STREAM_STAGE -/

/-- Bytes that committed STREAM_STAGE slips have yet to stage. -/
def State.stagingDue (s : State) : Nat :=
  (s.cfg.work.map fun w => match w with
    | .stage _ 0 _ _ _ len _ => len
    | _ => 0).foldl (· + ·) 0

def streamStageBody (p : List Byte) (host : Option (List Byte)) (id : SlipId) (s : State) : SlipOut := do
  houseIn s streamModes
  let src := arg p 16 1
  let pos := arg p 17 1
  let off := arg p 20 4
  let len := arg p 24 4
  let addr := arg p 28 8
  let planned := s.cfg.stagedBytes + s.stagingDue
  fields [⟨16, 1, src < 3⟩, ⟨17, 1, if src = 1 then pos < 8 else pos = 0⟩,
    ⟨20, 4, off % 64 == 0 && (off == 0 || (src == 0 && off == planned && off < 0x20000000))⟩,
    ⟨24, 4, if src = 0 then 64 ≤ len && len % 64 == 0 && off + len ≤ 0x20000000 else len = 0⟩,
    ⟨28, 8, if src = 0 then addr % 64 = 0 else addr = 0⟩] p
  need (src != 0 || 2 ≤ s.access (actsAs id.ch.val) 31) { status := St.rights, discard := deny (actsAs id.ch.val) 31 }
  need (!s.loaderBusy) (fail St.streamBusy)
  let s := if off = 0 then clearStage { s with cfg.work := s.cfg.work.map fun w => match w with
      | .stage i _ h q o _ m => .stage i 3 h q o 0 m
      | w => w } else s
  accept { s with
    cfg.stageState := 1
    cfg.work := s.cfg.work ++ [.stage id src host pos off len 0x400000] }

def execStreamStage (h : SlipHdr) (p : List Byte) (host : Option (List Byte)) (s : State) : Host.Outcome State Fault Refusal :=
  slip 0x0301 .ordinary h p (streamStageBody p host) s

/-- The work of kind f at the front of those waiting. -/
def State.workFor {α : Type} (s : State) (f : CfgWork → Option α) : Option (CfgWork × α) :=
  match s.cfg.work.filterMap (fun w => (f w).map fun x => (w, x)) with
  | x :: _ => some x
  | [] => none

def dropWork (w : CfgWork) (s : State) : State := { s with cfg.work := s.cfg.work.erase w }

def endStage (id : SlipId) (status : BitVec 16) (cause : Nat) (s : State) : State :=
  complete id status cause (leBytes 4 s.cfg.stagedBytes) s

/-- A whole part from flash is staged, or its cause answered. -/
def stageFlash (id : SlipId) (part : Except Nat (List Byte)) (f : Found) (s : State) : State :=
  match part with
  | .error c => endStage id St.streamFail c (clearStage s)
  | .ok l =>
    if s.stagingRoom < l.length then endStage id St.streamTooLong 0 (clearStage s)
    else if foundBad f || s.cfg.stageLost then endStage id St.streamFail 0x09 (clearStage s)
    else endStage id St.ok 0 (stagePart l { s with cfg.stagedFrom := 3 })

/-- The bytes that a staging moves. -/
def State.stageSize (s : State) (src pos len : Nat) : Nat :=
  let flash := fun (r : Except Nat (List Byte)) => match r with
    | .ok l => l.length
    | .error _ => 0
  if src = 1 then flash (flashPart s.cfg.flash pos) else if src = 2 then flash (reservePart s.cfg.flash) else len

/-- A STREAM_STAGE's bytes stand in the staging area; source 3 is one whose staging a later slip has restarted. -/
def stageDone (f : Found) (s : State) : State :=
  match s.workFor (fun w => match w with
    | .stage id src host pos off len moved => if s.stageSize src pos len ≤ moved then some (id, src, host, pos, off, len) else none
    | _ => none) with
  | none => s
  | some (w, id, src, host, pos, off, len) =>
    let s := sideFinding 0x38 (stagingPage * 64 + off / 64) f false (dropWork w s)
    if src = 3 then endStage id St.superseded 0 s
    else if src = 1 then stageFlash id (flashPart s.cfg.flash pos) f s
    else if src = 2 then stageFlash id (reservePart s.cfg.flash) f s
    else match host with
      | none => endStage id St.busError 0 s
      | some l =>
        if s.stagingRoom < off + len then endStage id St.streamTooLong 0 s
        else if foundBad f || s.cfg.stageLost then endStage id St.streamFail 0x09 s
        else endStage id St.ok 0 (stagePart (s.cfg.staged.take off ++ slice l 0 len) { s with cfg.stagedFrom := 3 })

def execStreamStageDone (found : Found) (s : State) : Host.Outcome State Fault Refusal := run (when s.awake (stageDone found)) s

/-! ## STREAM_AUTH, STREAM_APPLY -/

def streamAuthBody (p : List Byte) (id : SlipId) (s : State) : SlipOut := do
  houseIn s streamModes
  fields [] p
  accept { s with cfg.work := s.cfg.work ++ [.auth id] }

def execStreamAuth (h : SlipHdr) (p : List Byte) (s : State) : Host.Outcome State Fault Refusal :=
  slip 0x0302 .ordinary h p (streamAuthBody p) s

/-- The cause that the staged part's checks give: 0x06 where no complete part stands there. -/
def State.authCause (s : State) (tagOk : Bool) : Option Nat :=
  if s.cfg.staged.length < headerLen then some 0x06
  else match s.partFault s.cfg.staged false with
    | some c => some c
    | none => if !tagOk then some 0x07 else if s.contentBad then some 0x08 else none

def authDone (tagOk : Bool) (s : State) : State :=
  match s.workFor (fun w => match w with
    | .auth id => some id
    | _ => none) with
  | none => s
  | some (w, id) =>
    let s := dropWork w s
    match s.authCause tagOk with
    | none => complete id St.ok 0 [] { s with cfg.hostCause := 0, cfg.stageState := if s.cfg.stageState = 3 then 3 else 2 }
    | some c =>
      complete id (if c = 0x08 then St.streamContent else St.streamFail) (if c = 0x08 then 0 else c) []
        { s with cfg.hostCause := BitVec.ofNat 8 c }

def execStreamAuthDone (tagOk : Bool) (s : State) : Host.Outcome State Fault Refusal := run (when s.awake (authDone tagOk)) s

def streamApplyBody (p : List Byte) (id : SlipId) (s : State) : SlipOut := do
  houseIn s [.intake]
  fields [] p
  need (s.cfg.stageState != 3) (fail St.streamBusy)
  need (s.cfg.stageState == 2) { streamFail 0x06 with discard := fun s => { s with cfg.hostCause := 0x06 } }
  accept (beginApply { s with
    cfg.hostCause := 0, cfg.stageState := 3, cfg.stagedFrom := 3, cfg.phase := 4, cfg.applySlip := some id
    cfg.streamInEffect := false, cfg.stepsDone := 0, cfg.stepTaken := none })

def execStreamApply (h : SlipHdr) (p : List Byte) (s : State) : Host.Outcome State Fault Refusal :=
  slip 0x0303 .fencing h p (streamApplyBody p) s

/-! ## Flash (R257) -/

/-- The region of a flash address that the host may write: 0 primary, 1 reserve, 2 chain area; none for the device's own. -/
def hostRegion (a : Nat) : Option Nat :=
  if a < primaryEnd then some 0 else if a < reserveEnd then some 1 else if a < chainBase then none else if a < flashEnd then some 2 else none

def regionEnd (r : Nat) : Nat := if r = 0 then primaryEnd else if r = 1 then reserveEnd else flashEnd

/-- The reserve region is open in house Bindery only. -/
def flashMode (s : State) (a : Nat) : Except SlipErr Unit :=
  houseIn s (if hostRegion a = some 1 then [.bindery] else [.intake, .bindery])

/-- The span lies in one region of the host's. -/
def flashSpan (a len : Nat) : Bool := ((hostRegion a).map fun r => decide (a + len ≤ regionEnd r)).getD false

def flashWriteBody (p : List Byte) (host : Option (List Byte)) (id : SlipId) (s : State) : SlipOut := do
  let a := arg p 16 4
  let len := arg p 20 4
  let ring := decide (id.ch.val < 4)
  flashMode s a
  let pages := len / 256
  let lenOk := len % 256 == 0 && 1 ≤ pages && pages ≤ (if ring then 16384 else 15) && flashSpan a len
  if ring then
    fields [⟨16, 4, a % 256 == 0 && (hostRegion a).isSome⟩, ⟨20, 4, lenOk⟩, ⟨24, 8, true⟩] p
  else do
    fieldsTo [⟨16, 4, a % 256 == 0 && (hostRegion a).isSome⟩, ⟨20, 4, lenOk⟩, ⟨24, 8, arg p 24 8 == 0⟩] 32 p
    need (32 + len ≤ 16 + p.length) (tooLong 20)
    zeroFrom (32 + len) p
  let data := if ring then host.map fun l => slice l 0 len else some (slice p 16 len)
  match data with
  | none => acceptDone s St.busError
  | some l => accept { s with cfg.work := s.cfg.work ++ [.flashWrite id a l] }

def execFlashWrite (h : SlipHdr) (p : List Byte) (host : Option (List Byte)) (s : State) : Host.Outcome State Fault Refusal :=
  slip 0x0304 .ordinary h p (flashWriteBody p host) s

/-- Bytes written since their sector was erased stay as they were. -/
def flashWriteDone (s : State) : State :=
  match s.workFor (fun w => match w with
    | .flashWrite id a l => some (id, a, l)
    | _ => none) with
  | none => s
  | some (w, id, a, l) =>
    let s := dropWork w s
    if s.cfg.flash.any fun c => a ≤ c.1 && c.1 < a + l.length then complete id St.flashNotErased 0 [] s
    else complete id St.ok 0 [] { s with cfg.flash := flashPut s.cfg.flash a l }

def execFlashWriteDone (s : State) : Host.Outcome State Fault Refusal := run (when s.awake flashWriteDone) s

def flashEraseBody (p : List Byte) (id : SlipId) (s : State) : SlipOut := do
  let a := arg p 16 4
  let len := arg p 20 4
  flashMode s a
  fields [⟨16, 4, a % 65536 == 0 && (hostRegion a).isSome⟩, ⟨20, 4, 0 < len && len % 65536 == 0 && flashSpan a len⟩] p
  accept { s with cfg.work := s.cfg.work ++ [.flashErase id a len] }

def execFlashErase (h : SlipHdr) (p : List Byte) (s : State) : Host.Outcome State Fault Refusal :=
  slip 0x0305 .ordinary h p (flashEraseBody p) s

def flashEraseDone (s : State) : State :=
  match s.workFor (fun w => match w with
    | .flashErase id a len => some (id, a, len)
    | _ => none) with
  | none => s
  | some (w, id, a, len) =>
    complete id St.ok 0 [] { dropWork w s with cfg.flash := cellsDrop s.cfg.flash a len }

def execFlashEraseDone (s : State) : Host.Outcome State Fault Refusal := run (when s.awake flashEraseDone) s

/-! ## STREAM_QUERY, ARCHIVE_ADD -/

def execStreamQuery (h : SlipHdr) (p : List Byte) (s : State) : Host.Outcome State Fault Refusal :=
  slip 0x0306 .passable h p (fun _ s => do
    houseIn s streamModes
    fields [] p
    okResult s (leBytes 4 s.cfgStatus ++ leBytes 4 s.cfgFail ++ leBytes 4 s.cfgStage ++ leBytes 4 0 ++
      slice s.cfg.staged 0 headerLen)) s

def archiveAddBody (p : List Byte) (id : SlipId) (s : State) : SlipOut := do
  houseIn s streamModes
  let b := arg p 16 1
  bayIn s b streamModes
  fields [⟨16, 1, b < 32⟩] p
  need (s.cfg.stageState != 3) (fail St.streamBusy)
  need (s.cfg.stageState == 2) (streamFail 0x06)
  accept { s with cfg.work := s.cfg.work ++ [.archiveAdd id (Fin.ofNat 32 b)] }

def execArchiveAdd (h : SlipHdr) (p : List Byte) (s : State) : Host.Outcome State Fault Refusal :=
  slip 0x0307 .ordinary h p (archiveAddBody p) s

/-- The bay's editions join the archive with the copies of their folios; the folios' own copies that stand there stay (log entry
83). -/
def addArchive (b : Nat) (c : BayContent) (s : State) : State :=
  let cats := if c.hardened then [] else c.catalogue
  let r := placeCopies c.folios s
  let fresh := r.1.filter fun x => (Sparse.look s.cfg.archive x.1).isNone
  addEditions c.editions 0 r.1 cats { r.2 with
    cfg.archive := fresh.foldl (fun l (k, v) => Sparse.ins l k v) s.cfg.archive
    cfg.archiveCat := (cats.filter fun x => fresh.any fun y => y.1 == x.1).foldl (fun l (k, v) => Sparse.ins l k v) s.cfg.archiveCat
    cfg.archiveUse := Sparse.put 0 s.cfg.archiveUse b (Sparse.get 0 s.cfg.archiveUse b + c.stored) }

def archiveAddDone (s : State) : State :=
  match s.workFor (fun w => match w with
    | .archiveAdd id b => some (id, b)
    | _ => none) with
  | none => s
  | some (w, id, b) =>
    let s := dropWork w s
    match s.stagedBay b.val with
    | none =>
      if s.cfg.stageState = 2 then complete id St.ok 0 (leBytes 2 0) s
      else complete id St.streamFail 0x06 [] s
    | some c =>
      if s.archiveRoom < s.archiveUsed + c.stored then complete id St.streamTooLong 0 [] s
      else
        let nums := s.freeEditions.take c.editions.length
        complete id St.ok 0 (leBytes 2 nums.length ++ leBytes 14 0 ++ nums.flatMap (leBytes 2)) (addArchive b.val c s)

def execArchiveAddDone (s : State) : Host.Outcome State Fault Refusal := run (when s.awake archiveAddDone) s

end Sys2Proof.Machine
end

