-- ==== Sys2Proof/Machine/RegMap.lean ====
section
/-! DEFINITION. The register map: blocks, the offsets that exist, what each register reads, and what a read clears
("Register conventions and map", and the register tables of every chapter). -/

namespace Sys2Proof.Machine
open Sys2Proof

/-! ## Blocks -/

/-- The blocks of the window. Their numbers name them in arms and lockouts. -/
inductive Block where
  | desk | clk | pwr | thm | cfg | shelf | stk | mem | side | log | slip
  | fab (b : Nat) | port (p : Nat) | qeng (e : Nat)
  /-- the queue descriptors, which have no UNLOCK -/
  | qd
deriving DecidableEq, Repr

def Block.num : Block → Nat
  | .desk => 0 | .clk => 1 | .pwr => 2 | .thm => 3 | .cfg => 4 | .shelf => 5 | .stk => 6 | .mem => 7 | .side => 8
  | .log => 9 | .slip => 10 | .fab b => 16 + b | .port p => 64 + p | .qeng e => 224 + e | .qd => 240

/-- The block of a window offset and the offset in it. -/
def blockAt (o : Nat) : Option (Block × Nat) :=
  if o < 0x070000 then
    some ([Block.desk, .clk, .pwr, .thm, .cfg, .shelf, .stk].getD (o / 0x10000) .desk, o % 0x10000)
  else if 0x080000 ≤ o && o < 0x0C0000 then some (.fab ((o - 0x080000) / 0x2000), o % 0x2000)
  else if 0x100000 ≤ o && o < 0x190000 then some (.port ((o - 0x100000) / 0x1000), o % 0x1000)
  else if 0x200000 ≤ o && o < 0x300000 then some (.qeng ((o - 0x200000) / 0x10000), o % 0x10000)
  else if 0x300000 ≤ o && o < 0x380000 then some (.qd, o - 0x300000)
  else if 0x380000 ≤ o && o < 0x3C0000 then
    some ([Block.mem, .side, .log, .slip].getD ((o - 0x380000) / 0x10000) .mem, o % 0x10000)
  else none

/-- Where a block's UNLOCK lies (R354). -/
def Block.unlockAt : Block → Option Nat
  | .fab _ => some 0x0FFC
  | .port _ => some 0x0FFC
  | .qeng _ => some 0x0FFC
  | .qd => none
  | _ => some 0xFFFC

/-- Registers from lo to hi inclusive. -/
def upto (off lo hi : Nat) : Bool := lo ≤ off && off ≤ hi

/-- A register stands at a word offset of a block (UNLOCK apart). -/
def Block.hasReg (b : Block) (off : Nat) : Bool :=
  off % 4 == 0 && match b with
  | .desk => upto off 0x00 0x24 || upto off 0x30 0x84
  | .clk => upto off 0x000 0x008 || upto off 0x010 0x030 || upto off 0x100 0x104 || upto off 0x110 0x130 ||
      upto off 0x140 0x144 || upto off 0x800 0x808 || off == 0x810 || upto off 0x840 0x854
  | .pwr => upto off 0x000 0x004 || upto off 0x100 0x27C || upto off 0x300 0x37C || upto off 0x400 0x404
  | .thm => upto off 0x000 0x010 || upto off 0x100 0x1BC || upto off 0x200 0x2BC
  | .cfg => upto off 0x00 0x14
  | .shelf => upto off 0x00 0x20
  | .stk => stkOffsets.contains off
  | .mem => upto off 0x00 0x18
  | .side => upto off 0x000 0x018 || upto off 0x100 0x120 || upto off 0x200 0x2FC ||
      (upto off 0x400 0x66C && off % 16 != 0xC)
  | .log => upto off 0x00 0x34 || upto off 0x40 0x54 || upto off 0x60 0x68 || off == 0x70
  | .slip => upto off 0x00 0x94
  | .fab _ => upto off 0x000 0x008 || upto off 0x100 0x18C || upto off 0x400 0x48C || upto off 0x500 0xE1C ||
      upto off 0xE40 0xECC || upto off 0xF00 0xF04
  | .port _ => portRegAt off
  | .qeng _ => upto off 0x000 0x018 || upto off 0x400 0x8A0 || upto off 0x8C0 0x8E0 || upto off 0x900 0x908
  | .qd => off < 0x80000

/-- R307: the block, or the engine of the descriptor, is gated. -/
def State.blockGated (s : State) (b : Block) (off : Nat) : Bool :=
  match b with
  | .fab n => getBit s.clk.gatedBay n
  | .port n => getBit s.clk.gatedPort n
  | .qeng n => getBit s.clk.gatedQe n
  | .qd => getBit s.clk.gatedQe (off / 32 / 1024)
  | _ => false

/-! ## What registers read -/

/-- Eight mode fields with their pending bits. -/
def State.modeReg (s : State) (l : List Domain) : Nat :=
  pack (l.flatMap fun d => [(3, (s.mode d).code), (1, bitOf (s.modePending d))])

def State.deskReg (s : State) (off : Nat) : Nat :=
  let d := s.desk
  let r := s.regs
  if off = 0x00 then deskId
  else if off = 0x04 then d.version.toNat
  else if off = 0x08 then pack [(1, bitOf d.activePair), (1, bitOf d.standbyReady), (1, bitOf d.doubleFail), (13, 0), (16, d.switchovers)]
  else if off = 0x0C then r.shelfId.toNat
  else if off = 0x10 then r.scratch.toNat
  else if off = 0x1C then pack [(22, r.errOffset.toNat), (4, 0), (4, r.errCause.toNat), (2, r.errMaster.toNat)]
  else if off = 0x20 then r.errCount
  else if off = 0x24 then s.modeReg [.house]
  else if 0x30 ≤ off && off ≤ 0x3C then s.modeReg (((allBays.map .bay).drop (8 * ((off - 0x30) / 4))).take 8)
  else if 0x40 ≤ off then s.modeReg (((allPorts.map .port).drop (8 * ((off - 0x40) / 4))).take 8)
  else 0

def FolioState.code : FolioState → Nat
  | .empty => 0 | .loading => 1 | .loaded => 2 | .inRota => 3 | .reloading => 4 | .absent => 5

/-- A hardened bay has no F4 to F7 (R69). -/
def State.folioCode (s : State) (b c f : Nat) : Nat :=
  if (s.bay b).hardened && 4 ≤ f then 5 else (s.folio (fkey b c f)).state.code

def State.reloadPending (s : State) (b : Nat) : Bool :=
  s.fab.folios.any fun (k, f) => k / 304 == b && f.state == .reloading

def State.bayStatus (s : State) (b : Nat) : Nat :=
  let t := s.bay b
  pack [(3, (s.bayMode b).code), (1, bitOf (s.bayReady b)), (1, bitOf t.hardened), (1, bitOf t.running),
    (2, bitOf t.c36.isSome + bitOf t.c37.isSome), (1, bitOf (s.reloadPending b))]

def State.fabReg (s : State) (b off : Nat) : Nat :=
  let t := s.bay b
  let w := fun (base : Nat) => (off - base) / 4
  if off = 0x000 then s.bayStatus b
  else if off = 0x004 then pack [(6, t.c36.getD 0x3F), (2, 0), (6, t.c37.getD 0x3F)]
  else if off = 0x008 then pack [(16, t.sfCount), (7, t.sfGroup), (3, t.sfFolio), (6, t.sfCarrel)]
  else if upto off 0x100 0x18C then pack ((List.range 8).map fun f => (4, s.folioCode b (w 0x100) f))
  else if upto off 0x400 0x48C then
    let c := s.carrel (ckey b (w 0x400))
    let n := c.rota.entries.length
    pack [(5, n), (3, 0), (1, bitOf c.rota.long), (11, 0), (4, if n = 0 then 0 else c.cur)]
  else if upto off 0x500 0xDFC then ((s.carrel (ckey b (w 0x500 / 16))).rota.entries.getD (w 0x500 % 16) 0).toNat
  else if upto off 0xE00 0xE1C then s.channelSetReg b (w 0xE00)
  else if upto off 0xE40 0xECC then pack ((List.range 4).flatMap fun k =>
    let v := s.bank (ckey b (w 0xE40) * 4 + k)
    [(5, v.user.toNat), (2, v.share.toNat), (1, bitOf v.pool)])
  else if off = 0xF00 then pack [(16, t.idled), (8, (s.node b).applied)]
  else pack [(16, t.calCount), (8, 0), (2, t.calBank), (6, t.calPos)]

def State.creditReg (s : State) (p i : Nat) : Nat :=
  let t := s.port p
  let c := t.credit
  let avail := if pacedByCredit t.cfg then min 0x7F (nth c.grant i - nth c.sent i) else 0xFF
  pack [(8, min 0xFF (nth c.charged i - nth c.freed i)), (8, 0), (8, avail)]

def State.qengReg (s : State) (e off : Nat) : Nat :=
  let t := s.engine e
  let port := fun (base : Nat) => groupPort e ((off - base) / 4)
  let svc := fun (p : Nat) => s.portMode p == .service
  if off = 0x000 then pack [(12, s.spaceGroups e), (4, 0), (13, (banksOf s.fab.banks e).length)]
  else if off = 0x004 then t.event.toNat
  else if off = 0x008 then pack [(16, t.dropMarkers), (16, t.dropItems)]
  else if off = 0x00C then pack [(10, t.faultQueue), (18, 0), (4, t.faultKind)]
  else if off = 0x010 then pack [(16, t.descFaults), (16, t.resets)]
  else if off = 0x014 then pack [(16, t.oversize), (16, t.malformed)]
  else if off = 0x018 then t.disabledDrop
  else if upto off 0x400 0x87C then s.creditReg (groupPort e ((off - 0x400) / 0x80)) ((off - 0x400) % 0x80 / 4)
  else if upto off 0x880 0x8A0 then
    let p := port 0x880
    let c := (s.port p).credit
    pack [(8, if svc p then c.allowProt else 0), (8, if svc p then c.allowOrd else 0), (16, c.overdraw)]
  else if upto off 0x8C0 0x8E0 then
    let p := port 0x8C0
    let x := s.port p
    pack [(16, x.egress.withheld), (8, if svc p then slotBudget x.cfg x.neg.cur.rate x.neg.cur.width else 0), (7, 0),
      (1, bitOf x.egress.underrate)]
  else if off = 0x900 then pack [(16, t.miss), (16, t.contextErr)]
  else if off = 0x904 then pack [(16, t.duplicates), (8, t.gaps), (8, t.dlResets)]
  else pack [(16, t.dlFull), (16, t.dlStorage)]

def State.memReg (s : State) (off : Nat) : Nat :=
  let m := s.mem
  if off = 0x00 then pack [(16, m.ue), (16, m.ce)]
  else if off = 0x04 then m.ceLog.toNat
  else if off = 0x08 then m.ceInfo.toNat
  else if off = 0x0C then m.ueLog.toNat
  else if off = 0x10 then m.ueInfo.toNat
  else if off = 0x14 then bitOf m.readWait
  else pack [(16, m.retireHits), (5, 0), (11, m.retired.length)]

def State.sideReg (s : State) (off : Nat) : Nat :=
  let m := s.mem
  let c := s.crypto
  if off = 0x000 then if s.clk.gatedSide0 then 0 else pack [(16, nth m.sideUe 0), (16, nth m.sideCe 0)]
  else if off = 0x004 then pack [(16, nth m.sideUe 1), (16, nth m.sideCe 1)]
  else if off = 0x008 then m.sideCeLog.toNat
  else if off = 0x00C then m.sideCeInfo.toNat
  else if off = 0x010 then m.sideUeLog.toNat
  else if off = 0x014 then m.sideUeInfo.toNat
  else if off = 0x018 then pack (m.refresh.map fun r => (2, r.toNat))
  else if off = 0x100 then s.cryptoStatus
  else if off = 0x104 then s.rekeyPending
  else if off = 0x108 then pack [(16, c.writebacks), (16, c.misses)]
  else if off = 0x10C then pack [(16, c.poisoned), (16, c.ledgerCe)]
  else if off = 0x110 then c.ledgerLog.toNat
  else if off = 0x114 then pack [(16, c.authLedger), (16, c.authData)]
  else if off = 0x118 then c.macFailLog.toNat
  else if off = 0x11C then pack [(16, c.denyCount), (5, 0), (5, c.denyVolume), (6, c.denyMaster)]
  else if off = 0x120 then s.fuseStatus
  else if upto off 0x200 0x27C then s.volState ((off - 0x200) / 4)
  else if upto off 0x280 0x2FC then s.volGen ((off - 0x280) / 4)
  else
    let r := s.rights ((off - 0x400) / 16)
    if off % 16 = 0 then r.accLo.toNat else if off % 16 = 4 then r.accHi.toNat else r.view.toNat

/-- The value of a register that exists, in a block that is not gated (UNLOCK and DESK_TIME apart). -/
def State.blockReg (s : State) (b : Block) (off : Nat) : Nat :=
  match b with
  | .desk => s.deskReg off
  | .clk => s.clkReg off
  | .pwr => s.pwrReg off
  | .thm => s.thmReg off
  | .cfg => s.cfgReg off
  | .shelf => s.shelfReg off
  | .stk => s.stkReg off
  | .mem => s.memReg off
  | .side => s.sideReg off
  | .log => s.logReg off
  | .slip => s.slipReg off
  | .fab n => s.fabReg n off
  | .port n => s.portReg n off
  | .qeng n => s.qengReg n off
  | .qd => (s.qdRegs (off / 32)).getD (off % 32 / 4) 0

/-! ## What a read clears (RC fields) -/

def clearPort (p off : Nat) (s : State) : State :=
  let k := off / 4 % 4
  if off = 0x00C then s.modNeg p fun n => { n with confirmedN := 0, failedN := 0, timeoutsN := 0, entriesN := 0 }
  else if off = 0x010 then s.modNeg p fun n => { n with setsBad := 0, refusals := 0, collisions := 0 }
  else s.modLane p fun l =>
    if upto off 0x110 0x11C then { l with codeViol := l.codeViol.set k 0, disparity := l.disparity.set k 0 }
    else if off = 0x120 then { l with alignErr := 0, syncLoss := 0 }
    else if off = 0x130 then { l with crcFail := 0, seqErr := 0, markErr := 0 }
    else if off = 0x140 then { l with discIn := 0, discEg := 0 }
    else if off = 0x144 then { l with underrun := 0 }
    else if off = 0x150 then { l with limitHits := l.limitHits.set 0 0 }
    else if off = 0x154 then { l with limitHits := l.limitHits.set 1 0 }
    else if off = 0x164 then { l with slips := 0, deletes := 0, inserts := 0 }
    else if upto off 0x220 0x22C then { l with injCount := l.injCount.set k 0 }
    else if upto off 0x230 0x23C then { l with prbsErr := l.prbsErr.set k 0 }
    else l

def clearEngine (e off : Nat) (s : State) : State :=
  if upto off 0x880 0x8A0 then s.modCredit (groupPort e ((off - 0x880) / 4)) fun c => { c with overdraw := 0 }
  else if upto off 0x8C0 0x8E0 then s.modEgress (groupPort e ((off - 0x8C0) / 4)) fun x => { x with withheld := 0 }
  else s.modEngine e fun t =>
    if off = 0x008 then { t with dropItems := 0, dropMarkers := 0 }
    else if off = 0x010 then { t with resets := 0, descFaults := 0 }
    else if off = 0x014 then { t with malformed := 0, oversize := 0 }
    else if off = 0x018 then { t with disabledDrop := 0 }
    else if off = 0x900 then { t with contextErr := 0, miss := 0 }
    else if off = 0x904 then { t with dlResets := 0, gaps := 0, duplicates := 0 }
    else if off = 0x908 then { t with dlStorage := 0, dlFull := 0 }
    else t

def clearSide (off : Nat) (s : State) : State :=
  if off = 0x000 then
    (if s.clk.gatedSide0 then s else { s with mem.sideCe := s.mem.sideCe.set 0 0, mem.sideUe := s.mem.sideUe.set 0 0 })
  else if off = 0x004 then { s with mem.sideCe := s.mem.sideCe.set 1 0, mem.sideUe := s.mem.sideUe.set 1 0 }
  else if off = 0x100 then { s with crypto.overflows := 0 }
  else if off = 0x108 then { s with crypto.misses := 0, crypto.writebacks := 0 }
  else if off = 0x10C then { s with crypto.ledgerCe := 0, crypto.poisoned := 0 }
  else if off = 0x114 then { s with crypto.authData := 0, crypto.authLedger := 0 }
  else if off = 0x11C then { s with crypto.denyCount := 0 }
  else if upto off 0x280 0x2FC then s.modVol ((off - 0x280) / 4) fun t => { t with rekeys := 0 }
  else s

def clearStock (off : Nat) (s : State) : State :=
  let q := off / 4 % 4
  if upto off 0x10 0x1C then { s with stock.rounds := s.stock.rounds.set q 0 }
  else if upto off 0x20 0x2C then { s with
    stock.slices := s.stock.slices.set q 0, stock.discarded := s.stock.discarded.set q 0
    stock.transient := s.stock.transient.set q 0 }
  else if off = 0x34 then { s with stock.failures := 0 }
  else s

/-- The RC fields of a register clear for every master (R348). -/
def clearReg (b : Block) (off : Nat) (s : State) : State :=
  match b with
  | .desk =>
    if off = 0x08 then { s with desk.switchovers := 0 } else if off = 0x20 then { s with regs.errCount := 0 } else s
  | .clk =>
    if off = 0x808 then { s with frame.misplaced := 0 }
    else if upto off 0x840 0x854 then { s with frame.overrunTotal := s.frame.overrunTotal.set ((off - 0x840) / 4) 0 }
    else s
  | .pwr => s
  | .thm => s
  | .cfg =>
    if off = 0x04 then { s with cfg.fallbacks := 0 }
    else if off = 0x14 then { s with cfg.crcErr := 0, cfg.seqErr := 0 } else s
  | .shelf => clearShelf off s
  | .stk => clearStock off s
  | .mem =>
    if off = 0x00 then { s with mem.ce := 0, mem.ue := 0 } else if off = 0x18 then { s with mem.retireHits := 0 } else s
  | .side => clearSide off s
  | .log => clearLog off s
  | .slip => clearSlip off s
  | .fab n =>
    if off = 0x008 then s.modBay n fun t => { t with sfCount := 0 }
    else if off = 0xF00 then s.modBay n fun t => { t with idled := 0 }
    else if off = 0xF04 then s.modBay n fun t => { t with calCount := 0 }
    else s
  | .port n => clearPort n off s
  | .qeng n => clearEngine n off s
  | .qd => s

end Sys2Proof.Machine
end

