-- ==== Sys2Proof/Machine/Regs.lean ====
section
/-! DEFINITION. Register accesses: how one is judged, errors, unlocks, writes, and every command that is an access ("Register
conventions and map", R341 to R355). -/

namespace Sys2Proof.Machine
open Sys2Proof

def Master.code : Master → Nat
  | .pcie => 0 | .i2c => 1 | .desk => 2 | .readingRoom => 3

/-! ## Errors and answers (R346) -/

/-- What the master's access returned: data, and whether it took the error form. -/
def regAnswer (m : Master) (data : Word) (err : Bool) (s : State) : State :=
  { s with
    regs.readData := Sparse.put 0 s.regs.readData (Master.code m) data
    regs.readErr := Sparse.put false s.regs.readErr (Master.code m) err }

/-- The error form: nothing changes but the record of it. -/
def regError (m : Master) (off cause : Nat) (s : State) : State :=
  let s := regAnswer m 0 true { s with
    regs.errMaster := BitVec.ofNat 2 (Master.code m)
    regs.errCause := BitVec.ofNat 4 cause
    regs.errOffset := BitVec.ofNat 22 (off / 4 * 4)
    regs.errCount := sat 0xFFFF s.regs.errCount 1 }
  warn (if cause = 5 then 0x0B05 else 0x0B04) (Master.code m) [] s

/-! ## Unlocks (R352 to R354) -/

def State.armed (s : State) (m : Master) (b : Block) : Bool :=
  s.regs.arms.any fun a => a.master == m && a.block == b.num && 0 < a.left

def State.lockedOut (s : State) (b : Block) : Bool := 0 < Sparse.get 0 s.regs.lockout b.num

def dropArm (m : Master) (n : Nat) (s : State) : State :=
  { s with regs.arms := s.regs.arms.filter fun a => !(a.master == m && a.block == n) }

def unlockKey : Word := 0x0000B00C

/-- What UNLOCK reads for a master. -/
def State.unlockReg (s : State) (m : Master) (b : Block) : Nat :=
  pack [(1, bitOf (s.armed m b)), (1, bitOf (s.lockedOut b)), (1, bitOf (s.regs.superseded.contains b.num))]

/-- A write to UNLOCK (R353): the key arms, a wrong key lapses the master's arm, and the third in a frame locks out. -/
def writeUnlock (m : Master) (b : Block) (off : Nat) (v : Word) (s : State) : State :=
  let n := b.num
  if s.lockedOut b then regError m off 4 s
  else if v = unlockKey then
    regAnswer m 0 false { dropArm m n s with regs.arms := (dropArm m n s).regs.arms ++ [{ master := m, block := n, left := 2 }] }
  else
    let k := Sparse.get 0 s.regs.wrongKeys n + 1
    let s := { dropArm m n s with
      regs.wrongKeys := Sparse.put 0 s.regs.wrongKeys n k
      regs.lockout := if 3 ≤ k then Sparse.put 0 s.regs.lockout n 9 else s.regs.lockout }
    regError m off 3 s

/-- An arm lapses at the second boundary after its key write; the boundaries count it down. -/
def execUnlockArmLapse (m : Master) (block : Nat) (s : State) : Host.Outcome State Fault Refusal :=
  done { s with regs.arms := s.regs.arms.filter fun a => !(a.master == m && a.block == block && a.left == 0) }

def execLockoutEnd (block : Nat) (s : State) : Host.Outcome State Fault Refusal :=
  done (when (Sparse.get 0 s.regs.lockout block == 0) (fun s => { s with regs.lockout := Sparse.del s.regs.lockout block }) s)

/-! ## Reads -/

/-- The core-clock count of DESK_TIME at a read, as many desk cycles past the latest carry as given. -/
def deskTime (s : State) (cycle : Nat) : Nat := s.frame.time + cycle

/-- A register's value for a master. -/
def State.regValue (s : State) (m : Master) (b : Block) (off cycle : Nat) : Nat :=
  if b.unlockAt = some off then s.unlockReg m b
  else if b = .desk && off = 0x14 then deskTime s cycle
  else if b = .desk && off = 0x18 then (Sparse.get 0 s.regs.shadow (Master.code m)).toNat
  else s.blockReg b off

/-- The side effects of a read: RC fields clear, and DESK_TIME_LO takes the shadow (R348, R351). -/
def readEffects (m : Master) (b : Block) (off cycle : Nat) (s : State) : State :=
  if b.unlockAt = some off then { s with regs.superseded := s.regs.superseded.filter (· != b.num) }
  else if b = .desk && off = 0x14 then
    { s with regs.shadow := Sparse.put 0 s.regs.shadow (Master.code m) (w32 (deskTime s cycle / 2 ^ 32)) }
  else clearReg b off s

/-- A read, judged: decode, gating, access code (R345). -/
def regRead (m : Master) (off cycle : Nat) (s : State) : State :=
  match blockAt off with
  | none => regError m off 1 s
  | some (b, o) =>
    if !(b.hasReg o || b.unlockAt == some o) then regError m off 1 s
    else if s.blockGated b o then regAnswer m 0 false s
    else regAnswer m (w32 (s.regValue m b o cycle)) false (readEffects m b o cycle s)

/-! ## Writes -/

/-- A write that changes a guarded field, or writes 1 to inj_once (R348, R352). -/
def State.guarded (s : State) (b : Block) (off : Nat) (v : Word) : Bool :=
  match b with
  | .clk =>
    if upto off 0x100 0x104 then field v.toNat 15 0 != s.clkReg off % 65536
    else if upto off 0x110 0x130 then field v.toNat 15 0 != s.clkReg off % 65536
    else if off = 0x140 then field v.toNat 15 0 != s.clkReg off % 65536
    else off == 0x144 && field v.toNat 1 0 != s.clkReg off % 4
  | .shelf =>
    if off = 0x00 then getBit v 0 != s.shelf.sweepEn
    else if off = 0x04 then mergeActions s.shelf.actionLo v != s.shelf.actionLo
    else off == 0x08 && mergeActions s.shelf.actionHi v != s.shelf.actionHi
  | .log => off == 0x08 && !(s.nmClears v).isEmpty
  | .slip => s.slipGuarded off v
  | .port p =>
    let k := off / 4 % 4
    let was := ((s.port p).lane.testCtrl.getD k 0).toNat
    let now := (((writeTest p k true v s).port p).lane.testCtrl.getD k 0).toNat
    upto off 0x210 0x21C && hasLane p k && (getBit v 31 || field was 30 16 != field now 30 16)
  | _ => false

/-- A write's effect on the fields of a register by their access codes (R347, R348). -/
def writeReg (b : Block) (off : Nat) (v : Word) (s : State) : State :=
  match b with
  | .desk => if off = 0x10 then { s with regs.scratch := v } else s
  | .clk =>
    if off = 0x008 then { s with clk.trip := s.clk.trip &&& ~~~v }
    else if upto off 0x100 0x104 then writeGateBay ((off - 0x100) / 4) v s
    else if upto off 0x110 0x130 then writeGatePort ((off - 0x110) / 4) v s
    else if off = 0x140 then writeGateQe v s
    else if off = 0x144 then writeGateOther v s
    else if off = 0x810 then writeFrameOut v s
    else s
  | .thm =>
    if off = 0x000 then writeBoundary v s
    else if off = 0x010 then { s with thm.event := s.thm.event &&& ~~~(v.truncate 6) }
    else s
  | .shelf => if off = 0x00 then writeSweepEn v s else if off = 0x04 then writeShelfAction false v s
    else if off = 0x08 then writeShelfAction true v s else s
  | .side => if off = 0x100 then { s with crypto.rngFail := s.crypto.rngFail && !getBit v 30 } else s
  | .log =>
    if off = 0x00 then writeLogCtrl v s
    else if off = 0x08 then writeNmLatch v s
    else if upto off 0x0C 0x34 then writeAlarm ((off - 0x0C) / 4 + 1) v s
    else if off = 0x48 then writeDrainCons v s
    else s
  | .slip => writeSlip off v s
  | .port p =>
    let k := off / 4 % 4
    if off = 0x200 then writeLoop p (field v.toNat 2 0) s
    else if upto off 0x210 0x21C && hasLane p k then writeTest p k true v s
    else if upto off 0x220 0x22C then
      s.modLane p fun l => { l with lockLost := setBit l.lockLost k (getBit l.lockLost k && !getBit v 30) }
    else s
  | .qeng e => if off = 0x004 then s.modEngine e fun t => { t with event := t.event &&& ~~~(v.truncate 6) } else s
  | .qd => if off % 32 = 0 && getBit v 30 then flushQueue (off / 32) s else s
  | _ => s

/-- DESK_SHELF_ID takes its first write; the rest err (R355). -/
def writeShelfId (m : Master) (off : Nat) (v : Word) (s : State) : State :=
  if s.regs.shelfIdSet then regError m off 5 s
  else regAnswer m 0 false { s with regs.shelfId := v, regs.shelfIdSet := true }

/-- A write, judged: the reading room's fuse, decode, gating, UNLOCK, guard, access codes (R344, R345). -/
def regWrite (m : Master) (off : Nat) (v : Word) (s : State) : State :=
  if m = .readingRoom && s.pkg.debugFuse != 2 then regError m off 7 s
  else match blockAt off with
    | none => regError m off 1 s
    | some (b, o) =>
      if !(b.hasReg o || b.unlockAt == some o) then regError m off 1 s
      else if s.blockGated b o then regAnswer m 0 false s
      else if b.unlockAt = some o then writeUnlock m b off v s
      else if s.guarded b o v then
        if s.armed m b then regAnswer m 0 false (writeReg b o v (dropArm m b.num s)) else regError m off 2 s
      else if b = .desk && o = 0x0C then writeShelfId m off v s
      else regAnswer m 0 false (writeReg b o v s)

/-- The access reaches the device, or has no effect (R303, R341, R404). -/
def access (m : Master) (f : State → State) (s : State) : Host.Outcome State Fault Refusal :=
  run (when (s.reaches m && !s.clk.stoppedDevice) f) s

/-! ## The commands -/

def execRegisterRead (m : Master) (offset : BitVec 22) (s : State) : Host.Outcome State Fault Refusal :=
  access m (regRead m offset.toNat 0) s

def execRegisterWrite (m : Master) (offset : BitVec 22) (v : Word) (s : State) : Host.Outcome State Fault Refusal :=
  access m (regWrite m offset.toNat v) s

def execUnlockWrite (m : Master) (offset : BitVec 22) (v : Word) (s : State) : Host.Outcome State Fault Refusal :=
  access m (regWrite m offset.toNat v) s

def execDeskShelfIdWrite (m : Master) (v : Word) (s : State) : Host.Outcome State Fault Refusal :=
  access m (regWrite m 0x00000C v) s

def execDeskTimeLoRead (m : Master) (cycle : Nat) (s : State) : Host.Outcome State Fault Refusal :=
  access m (regRead m 0x000014 cycle) s

/-- R342: a zero-length read returns 0 and makes no access. -/
def execPcieZeroLengthRead (_offset : BitVec 22) (s : State) : Host.Outcome State Fault Refusal :=
  access .pcie (regAnswer .pcie 0 false) s

/-- R342: a request of a wrong form errs with cause 6. -/
def execPcieBadRequest (offset : BitVec 22) (_write : Bool) (s : State) : Host.Outcome State Fault Refusal :=
  access .pcie (regError .pcie offset.toNat 6) s

def execBayGateRequest (m : Master) (k : Fin 2) (v : Word) (s : State) : Host.Outcome State Fault Refusal :=
  access m (regWrite m (0x010100 + 4 * k.val) v) s

def execPortGateRequest (m : Master) (k : Fin 9) (v : Word) (s : State) : Host.Outcome State Fault Refusal :=
  access m (regWrite m (0x010110 + 4 * k.val) v) s

def execQeGateRequest (m : Master) (v : Word) (s : State) : Host.Outcome State Fault Refusal :=
  access m (regWrite m 0x010140 v) s

def execSide0GateRequest (m : Master) (v : Word) (s : State) : Host.Outcome State Fault Refusal :=
  access m (regWrite m 0x010144 v) s

def execPcieGateRequest (m : Master) (v : Word) (s : State) : Host.Outcome State Fault Refusal :=
  access m (regWrite m 0x010144 v) s

def execThermBoundaryWrite (m : Master) (v : Word) (s : State) : Host.Outcome State Fault Refusal :=
  access m (regWrite m 0x030000 v) s

def execFrameOutCtrlWrite (m : Master) (v : Word) (s : State) : Host.Outcome State Fault Refusal :=
  access m (regWrite m 0x010810 v) s

/-- A settings fault in the cycle of the write returns the settings to reset; the software's value stands, and the block's
superseded bit tells of it (R289, R349). -/
def shelfCtrlWrite (m : Master) (v : Word) (parityFault : Bool) (s : State) : State :=
  let served := !s.guarded .shelf 0 v || s.armed m .shelf
  let t := regWrite m 0x050000 v s
  if parityFault then
    let t := shelfFault true t
    if served then
      { writeSweepEn v t with regs.superseded := t.regs.superseded.filter (· != Block.shelf.num) ++ [Block.shelf.num] }
    else t
  else t

def execShelfCtrlWrite (m : Master) (v : Word) (parityFault : Bool) (s : State) : Host.Outcome State Fault Refusal :=
  access m (shelfCtrlWrite m v parityFault) s

def execShelfActionWrite (m : Master) (hi : Bool) (v : Word) (s : State) : Host.Outcome State Fault Refusal :=
  access m (regWrite m (if hi then 0x050008 else 0x050004) v) s

def execPortLoopWrite (m : Master) (p : Port) (v : Word) (s : State) : Host.Outcome State Fault Refusal :=
  access m (regWrite m (0x100200 + 0x1000 * p.val) v) s

def execLaneTestCtrlWrite (m : Master) (p : Port) (k : Fin 4) (v : Word) (s : State) : Host.Outcome State Fault Refusal :=
  access m (regWrite m (0x100210 + 0x1000 * p.val + 4 * k.val) v) s

def execQdFlushWrite (m : Master) (q : Queue) (s : State) : Host.Outcome State Fault Refusal :=
  access m (regWrite m (0x300000 + 32 * q.val) 0x40000000) s

def execLogNmLatchClear (m : Master) (v : Word) (s : State) : Host.Outcome State Fault Refusal :=
  access m (regWrite m 0x3A0008 v) s

def execLogAlarmClear (m : Master) (family : Fin 11) (v : Word) (s : State) : Host.Outcome State Fault Refusal :=
  access m (regWrite m (0x3A000C + 4 * family.val) v) s

def execLogDrainConsWrite (m : Master) (v : Word) (s : State) : Host.Outcome State Fault Refusal :=
  access m (regWrite m 0x3A0048 v) s

/-- SLIP_RING_CTRL_n with enable 1, and irq_en as given. -/
def execSlipRingEnable (m : Master) (n : Fin 4) (irq : Bool) (s : State) : Host.Outcome State Fault Refusal :=
  access m (regWrite m (0x3B0000 + 0x20 * n.val) (w32 (pack [(1, 1), (1, bitOf irq)]))) s

def execSlipRingDisable (m : Master) (n : Fin 4) (irq : Bool) (s : State) : Host.Outcome State Fault Refusal :=
  access m (regWrite m (0x3B0000 + 0x20 * n.val) (w32 (pack [(1, 0), (1, bitOf irq)]))) s

def execSlipProdWrite (m : Master) (n : Fin 4) (v : Word) (s : State) : Host.Outcome State Fault Refusal :=
  access m (regWrite m (0x3B000C + 0x20 * n.val) v) s

def execSlipRconsWrite (m : Master) (n : Fin 4) (v : Word) (s : State) : Host.Outcome State Fault Refusal :=
  access m (regWrite m (0x3B0018 + 0x20 * n.val) v) s

/-! ## Registers over the sideband (R343) -/

def State.i2cErr (s : State) : Bool := Sparse.get false s.regs.readErr (Master.code .i2c)

/-- The offset of three address bytes; bits past the window are a reserved location. -/
def sbOffset (l : List Byte) : Nat := leAt l 0 3

/-- 0xE1: the access is made at d3, whose acknowledge tells of an error; a byte after it is not acknowledged. -/
def sidebandWrite (l : List Byte) (s : State) : State :=
  if l.length < 7 then sbAnswer true [] s
  else
    let s := regWrite .i2c (sbOffset l) (w32 (leAt l 3 4)) s
    sbAnswer (!s.i2cErr && l.length == 7) [] s

def execSidebandRegWrite (bytes : List Byte) (s : State) : Host.Outcome State Fault Refusal := sideband (sidebandWrite bytes) s

/-- 0xE2: the side effects happen at a2; an error is told at address+R. -/
def sidebandRead (l : List Byte) (cycle : Nat) (s : State) : State :=
  if l.length < 3 then sbAnswer false [] s
  else
    let s := regRead .i2c (sbOffset l) cycle s
    if s.i2cErr then sbAnswer false [] s
    else sbAnswer true (leBytes 4 (Sparse.get 0 s.regs.readData (Master.code .i2c)).toNat) s

def execSidebandRegRead (bytes : List Byte) (cycle : Nat) (s : State) : Host.Outcome State Fault Refusal :=
  sideband (sidebandRead bytes cycle) s

end Sys2Proof.Machine
end

