-- ==== Sys2Proof/Machine/Boundary.lean ====
section
/-! DEFINITION. Frame boundaries and slot boundaries ("Frame, slots and the work budget", R31 to R33, R44 to R49). -/

namespace Sys2Proof.Machine
open Sys2Proof

/-! ## The frame that ends -/

/-- Slips lie unstarted in a channel that could start them. -/
def State.slipsWait (s : State) : Bool :=
  (s.slips.rings.any fun r => r.enable && !r.draining && !r.dmaFault && r.cons != r.prod) || !s.slips.sbQueue.isEmpty ||
    !s.slips.inQueue.isEmpty

/-- The call-slip unit ends the frame with work its budget put off (R46, R49). -/
def State.slipsLate (s : State) : Bool :=
  ((64 ≤ s.slips.started || 70000 < s.slips.cycles + 1000) && s.slipsWait) || (4 ≤ s.slips.sbStarted && !s.slips.sbQueue.isEmpty)

/-- The loader's next folio did not fit the frame. -/
def State.loaderLate (s : State) : Bool :=
  match s.loadNext with
  | some it => !it.waiting && !s.loadFits it.key
  | none => false

/-- The day-book drain has entries that its budget put off. -/
def State.drainLate (s : State) : Bool :=
  s.log.drain.active && !s.log.ring.isEmpty && (512 ≤ s.log.copies ||
    (s.log.drainCycles != 0 && 10000 < s.log.drainCycles + drainCost s.frame.freeCount))

/-- Which units end the frame with deferred work: FRAME_OVERRUN_u, u = 0 to 5 (R49). -/
def State.lateUnits (s : State) : List Bool :=
  [s.loaderLate, s.shelfLate, s.crypto.rekeyOrder.any fun v => (s.vol v).twoLive, s.slipsLate,
   s.drainLate, !s.stock.inbox.isEmpty]

def noteOverruns (s : State) : State :=
  let late := s.lateUnits
  { s with frame := (List.range 6).foldl (fun f u => noteOverrun u (late.getD u false) f) s.frame }

/-- Warnings given at most once a frame may be given again. -/
def clearTold (s : State) : State :=
  { s with
    engines := s.engines.map fun (e, t) => (e, { t with toldDisabled := false, toldMiss := false, toldContext := false })
    ports := s.ports.map fun (p, t) =>
      (p, { t with credit := { t.credit with overdrawTold := false }, lane := { t.lane with limitTold := false } })
    mem.toldRetired := [] }

/-- The budgets of R46 begin anew; SLIP_BUDGET shows what the frame used. -/
def freshBudgets (s : State) : State :=
  { s with
    slips.prevStarted := s.slips.started, slips.prevSb := s.slips.sbStarted, slips.prevCycles := s.slips.cycles
    slips.started := 0, slips.sbStarted := 0, slips.cycles := 0
    fab.loadsThisFrame := 0
    log.copies := 0, log.drainCycles := 0 }

/-- Unlock arms, wrong keys and lockouts are counted in boundaries (R352, R353). -/
def countUnlocks (s : State) : State :=
  { s with
    regs.arms := s.regs.arms.map fun a => { a with left := a.left - 1 }
    regs.wrongKeys := []
    regs.lockout := s.regs.lockout.map fun (b, n) => (b, n - 1) }

/-- What is counted in frames: summaries, bays in Bring-up, the rendezvous, switches, pairs, the sideband's quiet time. -/
def countWaits (s : State) : State :=
  let bays := (allBays.map (·.val)).filter fun b => s.bayMode b == .bringUp
  { s with
    log.periodLeft := s.log.periodLeft - 1
    modes.bringUpFrames := bays.foldl (fun l b => Sparse.ins l b (Sparse.get 0 l b + 1)) s.modes.bringUpFrames
    cfg.rdvFrames := if s.cfg.rdvWait then s.cfg.rdvFrames + 1 else s.cfg.rdvFrames
    fab.binds := s.fab.binds.map fun (p, w) => (p, { w with old := w.old.map fun o => { o with frames := o.frames + 1 } })
    flows := s.flows.map fun (k, f) => (k, if f.paired then { f with quiet := f.quiet + 1 } else f)
    slips.sbQuiet := if s.sbIdle then s.slips.sbQuiet + 1 else 0 }

/-- The desk's interrupts have been delivered. -/
def deliverIrqs (s : State) : State := { s with desk.alarmIrq := false, desk.nmIrq := false }

/-- What ends with a slot on the ports' lanes (R52, R118, R151, R156). -/
def endSlots (s : State) : State := (s.modes.ports.map (·.1)).foldl (fun s p => countSlot p (endSlotPort p s)) s

/-- The lanes' trackers and checkers in the slot that ends (R129, R138). -/
def laneSlot (i : SlotIn) (s : State) : State :=
  i.errors.foldl (fun s x => checkErrors x.1 x.2 s) (i.moves.foldl (fun s x => moveTrack x.1 x.2 s) s)

/-- A slot ends. -/
def slotEnds (i : SlotIn) (s : State) : State := endSlots (rampVolts (laneSlot i s))

/-- What ends with the frame, before the boundary's steps. -/
def endFrame (i : FrameIn) (s : State) : State :=
  let s := { s with frame := closeWindows 0 s.frame }
  let s := forgetPhase (countFrames (discipline i (measure i s)))
  let s := noteOverruns (rekeyFrame (countTests (settleSlices (workFrame s))))
  deliverIrqs (countUnlocks (freshBudgets (clearTold (countWaits (shelfBoundary s)))))

/-! ## The boundary -/

/-- Step 3: clock changes, frame sources, and house Holdover (R36 to R38, R304). -/
def sourceStep3 (s : State) : State := revert (startQualifying (changeOver (clockStep3 s)))

/-- Step 3 will enter or leave Holdover (R54). -/
def State.holdDue (s : State) : Bool := (sourceStep3 s).holdMove.isSome

/-- Closings that need no drain complete at the boundary of their entry. -/
def finishClosings (s : State) : State :=
  ((s.modes.closing.filter fun c => c.drained).map (·.dom)).foldl (fun s d => completeClosing d s) s

/-- Steps 1 to 6 of R44; drains end as the frame does, before the mode changes of step 2. The test of R45 for rotas was made at the
frame's last turn, or is made now (R94); what that turn loads is entry 0 of the rotas in force after step 4. -/
def boundarySteps (i : FrameIn) (s : State) : State :=
  let old := s.modes.house
  let n := s.frame.number
  let s := boundaryStep2 s.holdDue (drainFrames (advanceNumber (testRotas s)))
  let s := boundaryHold old (sourceStep3 s)
  let s := boundaryStep4 (forceSwitches (finishClosings s))
  let s := thermalStep5 (tellUntested (beginEntries n i.restores s))
  allPorts.foldl (fun s p => portStep6 p.val s) s

/-- Step 7: the slot's work. -/
def slotStep (i : SlotIn) (s : State) : State := ungateRails (sampleSlot i (slotPorts s))

/-- A frame begins: the desk's fixed tasks, the slices, the results it deferred, and the standby pair in control (R46, R330, R377). -/
def beginFrame (i : FrameIn) (s : State) : State := deskResults (grantSlices (takeOver (thermalTask i.dtNs s)))

/-- A boundary ends with its frame counted, and frame 0's is over. -/
def closeBoundary (s : State) : State :=
  { s with frame.frames := s.frame.frames + 1, frame.time := s.frame.time + 500, cfg.frame0Due := false }

/-- No frame ends at the boundary that opens frame 0. -/
def frameBoundary (i : FrameIn) (s : State) : State :=
  let s := if s.cfg.frame0Due then freshBudgets s else endFrame i (slotEnds i.sample s)
  closeBoundary (slotStep i.sample (beginFrame i (boundarySteps i s)))

/-- R33: a frame boundary follows slot 249, and nothing else but step A (R31). -/
def State.boundaryDue (s : State) : Bool := s.framesRun && (s.frame.slot == 249 || s.cfg.frame0Due)

def execFrameBoundary (i : FrameIn) (s : State) : Host.Outcome State Fault Refusal :=
  run (when s.boundaryDue (frameBoundary i)) s

/-- A slot boundary within a frame. -/
def slotBoundary (i : SlotIn) (s : State) : State :=
  let s := slotEnds i s
  let s := { s with
    frame := { closeWindows (s.frame.slot.toNat + 1) s.frame with
      slot := s.frame.slot + 1, cycle := 0, time := s.frame.time + 500 } }
  slotStep i s

def State.slotDue (s : State) : Bool := s.framesRun && s.frame.slot.toNat < 249 && !s.cfg.frame0Due

def execSlotBoundary (i : SlotIn) (s : State) : Host.Outcome State Fault Refusal :=
  run (when s.slotDue (slotBoundary i)) s

end Sys2Proof.Machine
end

