-- ==== Sys2Proof/Machine/Tap.lean ====
section
/-! DEFINITION. The reading-room port: the TAP's instructions, the boundary register, RR_REG and RR_MEM (R438 to R440). -/

namespace Sys2Proof.Machine
open Sys2Proof

def idcodeValue : Nat := 0x391440F3

/-- An instruction is loaded; the capture is what its data register holds at the next Capture-DR. -/
def loadTap (i : TapInstr) (capture : Nat) (s : State) : State :=
  { s with tap.instr := i, tap.capture := BitVec.ofNat 102 capture }

/-- Test-Logic-Reset selects IDCODE. -/
def execTapReset (s : State) : Host.Outcome State Fault Refusal := done (loadTap .idcode idcodeValue s)

/-- The covered pins are driven from the boundary cells at once, whatever the mode (State.pinsTaken). -/
def execExtest (cells : BitVec 20) (s : State) : Host.Outcome State Fault Refusal :=
  done { loadTap .extest cells.toNat s with tap.boundary := cells }

def execIdcode (s : State) : Host.Outcome State Fault Refusal := done (loadTap .idcode idcodeValue s)

/-- The pins as they stand are captured; a preload writes the cells. -/
def execSamplePreload (update : Option (BitVec 20)) (pins : BitVec 20) (s : State) : Host.Outcome State Fault Refusal :=
  done { loadTap .sample pins.toNat s with tap.boundary := update.getD s.tap.boundary }

def execHighz (s : State) : Host.Outcome State Fault Refusal := done (loadTap .highz 0 s)

def execClamp (s : State) : Host.Outcome State Fault Refusal := done (loadTap .clamp 0 s)

/-- Any code that the table does not list acts as BYPASS; a listed one has its own command. -/
def execBypass (_code : Byte) (s : State) : Host.Outcome State Fault Refusal := done (loadTap .bypass 0 s)

/-! ## The pins the TAP takes over -/

/-- A boundary cell, counted from the one nearest TDI. -/
def State.cell (s : State) (n : Nat) : Bool := getBit s.tap.boundary n

/-- What drives a pin low: none while HIGHZ floats it, the cell while EXTEST or CLAMP drives it, else the device. -/
def State.pinLow (s : State) (cell : Nat) (own : Bool) : Option Bool :=
  match s.tap.instr with
  | .highz => none
  | .extest => some (s.cell cell)
  | .clamp => some (s.cell cell)
  | _ => some own

/-- DONE_N, ALERT_N and the level of FRAME_OUT (R60). -/
def State.doneLowPin (s : State) : Option Bool := s.pinLow 7 s.pkg.doneLow
def State.alertLowPin (s : State) : Option Bool := s.pinLow 9 s.alert
def State.frameOutPin (s : State) : Option Bool :=
  match s.tap.instr with
  | .highz => none
  | .extest => if s.cell 5 then some (s.cell 4) else none
  | .clamp => if s.cell 5 then some (s.cell 4) else none
  | _ => some s.pkg.frameOut

/-! ## RR_REG (R439) -/

/-- The capture of an access: data, offset, error, done. -/
def rrRegDone (off : Nat) (s : State) : State :=
  let err := Sparse.get false s.regs.readErr (Master.code .readingRoom)
  let data := if err then 0 else (Sparse.get 0 s.regs.readData (Master.code .readingRoom)).toNat
  { s with tap.regDr := BitVec.ofNat 56 (pack [(32, data), (22, off), (1, bitOf err), (1, 1)]) }

def rrRegAccess (dr : BitVec 56) (cycle : Nat) (s : State) : State :=
  let off := field dr.toNat 53 34 * 4
  rrRegDone off (if getBit dr 54 then regWrite .readingRoom off (w32 (field dr.toNat 31 0)) s
    else regRead .readingRoom off cycle s)

def execRrReg (dr : BitVec 56) (cycle : Nat) (s : State) : Host.Outcome State Fault Refusal :=
  let s := { s with tap.instr := .rrReg }
  if getBit dr 55 then access .readingRoom (rrRegAccess dr cycle) s else done s

/-! ## RR_MEM (R440) -/

/-- The debug fuse allows a memory-layer access (R440): reads need one other than 0b00, writes 0b10. -/
def State.rrAllows (s : State) (write : Bool) : Bool :=
  if write then s.pkg.debugFuse == 2 else s.pkg.debugFuse != 0

/-- The access: how it ended, what it read, the state. -/
def rrMemOp (store a : Nat) (write : Bool) (data : Nat) (f : Found) (path : List NodeFound) (s : State) :
    Acc × List Byte × State :=
  if store = 0 then
    if !s.rrAllows write || layerSize ≤ a || !s.userReach 0 a 8 || !s.poolReach 0 a 8 then (.rights, [], s)
    else if write then writePiece 0 38 0x37 a (leBytes 8 data) f s
    else readPiece 0 38 0x37 a 8 f s
  else if write then
    let r := writeBlock 38 0x37 a (leBytes 8 data) f path s
    (r.1, [], r.2)
  else
    let r := readBlock 38 0x37 (a / 64) f path s
    (r.1, slice (r.2.viewOf 38 (a / 64)) (a % 64) 8, r.2)

def rrMemAccess (dr : BitVec 102) (f : Found) (path : List NodeFound) (s : State) : State :=
  let a := field dr.toNat 98 67 * 8
  let r := rrMemOp (field dr.toNat 99 99) a (getBit dr 100) (field dr.toNat 63 0) f path s
  let data := if r.1.isOk && !getBit dr 100 then ofLe r.2.1 else 0
  { r.2.2.useFree with
    tap.memDr := BitVec.ofNat 102 (pack [(64, data), (35, a), (1, bitOf (!r.1.isOk)), (1, 1)]) }

def execRrMem (dr : BitVec 102) (found : Found) (path : List NodeFound) (s : State) : Host.Outcome State Fault Refusal :=
  let s := { s with tap.instr := .rrMem }
  if getBit dr 101 then run (when (s.up && !s.clk.stoppedDevice) (rrMemAccess dr found path)) s else done s

end Sys2Proof.Machine
end

