-- ==== Sys2Proof/Machine/Dispatch.lean ====
section
/-! DEFINITION. One arm per command: a direct call of its meaning, or a refusal by name. -/

namespace Sys2Proof.Machine
open Sys2Proof

def exec (i : Instr) (s : State) : Host.Outcome State Fault Refusal :=
  match i with
  | .vstbyRise => Sys2Proof.Machine.execVstbyRise s
  | .vstbyLoss => Sys2Proof.Machine.execVstbyLoss s
  | .vin12Rise addr bootSrc => Sys2Proof.Machine.execVin12Rise addr bootSrc s
  | .vin12Shutdown => Sys2Proof.Machine.execVin12Shutdown s
  | .porstNAssert => Sys2Proof.Machine.execPorstNAssert s
  | .porstNRelease addr bootSrc => Sys2Proof.Machine.execPorstNRelease addr bootSrc s
  | .leaveReset => Sys2Proof.Machine.execLeaveReset s
  | .monitorWindowEnd counts refA refB lock => Sys2Proof.Machine.execMonitorWindowEnd counts refA refB lock s
  | .clockStoppedDetect pairing => Sys2Proof.Machine.execClockStoppedDetect pairing s
  | .ioscSStopped => Sys2Proof.Machine.execIoscSStopped s
  | .glitchFreeSwitchDone sw => Sys2Proof.Machine.execGlitchFreeSwitchDone sw s
  | .switchForced sw => Sys2Proof.Machine.execSwitchForced sw s
  | .overrideQualifyTimeout refB => Sys2Proof.Machine.execOverrideQualifyTimeout refB s
  | .trunkRefLost t => Sys2Proof.Machine.execTrunkRefLost t s
  | .frameBoundary fi => Sys2Proof.Machine.execFrameBoundary fi s
  | .slotBoundary si => Sys2Proof.Machine.execSlotBoundary si s
  | .changeAbandoned ch => Sys2Proof.Machine.execChangeAbandoned ch s
  | .frameOutEdge rising => Sys2Proof.Machine.execFrameOutEdge rising s
  | .frameInEdge offset => Sys2Proof.Machine.execFrameInEdge offset s
  | .frameSourceLoss => Sys2Proof.Machine.execFrameSourceLoss s
  | .frameSourceQualified => Sys2Proof.Machine.execFrameSourceQualified s
  | .frameSourceQualifyTimeout => Sys2Proof.Machine.execFrameSourceQualifyTimeout s
  | .loopLocked => Sys2Proof.Machine.execLoopLocked s
  | .frameUnlocked => Sys2Proof.Machine.execFrameUnlocked s
  | .frameOverrun unit => Sys2Proof.Machine.execFrameOverrun unit s
  | .bayNotReady b => Sys2Proof.Machine.execBayNotReady b s
  | .closingDrainEnd d => Sys2Proof.Machine.execClosingDrainEnd d s
  | .turn b c t u => Sys2Proof.Machine.execTurn b c t u s
  | .stockBlockCompare b c chains => Sys2Proof.Machine.execStockBlockCompare b c chains s
  | .carrelBankAccess b c bank cycle rd wr found => Sys2Proof.Machine.execCarrelBankAccess b c bank cycle rd wr found s
  | .folioWriteComplete b c f => Sys2Proof.Machine.execFolioWriteComplete b c f s
  | .reloadRewriteStart b c f => Sys2Proof.Machine.execReloadRewriteStart b c f s
  | .archiveReadError b => Sys2Proof.Machine.execArchiveReadError b s
  | .lineAttachTake p succ => Sys2Proof.Machine.execLineAttachTake p succ s
  | .lineAttachSend p succ data k => Sys2Proof.Machine.execLineAttachSend p succ data k s
  | .itemAttachBeat p succ beat => Sys2Proof.Machine.execItemAttachBeat p succ beat s
  | .egressTake p succ => Sys2Proof.Machine.execEgressTake p succ s
  | .liRelease p => Sys2Proof.Machine.execLiRelease p s
  | .loRelease p => Sys2Proof.Machine.execLoRelease p s
  | .ixRelease p => Sys2Proof.Machine.execIxRelease p s
  | .editionSwitchForced p => Sys2Proof.Machine.execEditionSwitchForced p s
  | .laneSyncAcquired p comma => Sys2Proof.Machine.execLaneSyncAcquired p comma s
  | .laneSyncLost p k => Sys2Proof.Machine.execLaneSyncLost p k s
  | .invalidSymbol p k kind => Sys2Proof.Machine.execInvalidSymbol p k kind s
  | .frameMarkReceived p marks aligned phase => Sys2Proof.Machine.execFrameMarkReceived p marks aligned phase s
  | .slotMarkReceived p sym => Sys2Proof.Machine.execSlotMarkReceived p sym s
  | .skipSetReceived p fill => Sys2Proof.Machine.execSkipSetReceived p fill s
  | .qColumnReceived p => Sys2Proof.Machine.execQColumnReceived p s
  | .negCapabilitiesReceived p sym => Sys2Proof.Machine.execNegCapabilitiesReceived p sym s
  | .negProposeReceived p sym => Sys2Proof.Machine.execNegProposeReceived p sym s
  | .negAcceptReceived p sym => Sys2Proof.Machine.execNegAcceptReceived p sym s
  | .negConfirmReceived p sym => Sys2Proof.Machine.execNegConfirmReceived p sym s
  | .negFailReceived p sym => Sys2Proof.Machine.execNegFailReceived p sym s
  | .negRefuseReceived p sym => Sys2Proof.Machine.execNegRefuseReceived p sym s
  | .portTrained p ui0 ui1 fine0 fine1 => Sys2Proof.Machine.execPortTrained p ui0 ui1 fine0 fine1 s
  | .prbsWindowStart p => Sys2Proof.Machine.execPrbsWindowStart p s
  | .prbsWindowEnd p pass => Sys2Proof.Machine.execPrbsWindowEnd p pass s
  | .trainingTimeout p => Sys2Proof.Machine.execTrainingTimeout p s
  | .confirmTimeout p => Sys2Proof.Machine.execConfirmTimeout p s
  | .negTimeout p => Sys2Proof.Machine.execNegTimeout p s
  | .confirmedStepSyncLoss p => Sys2Proof.Machine.execConfirmedStepSyncLoss p s
  | .portNoPartner p => Sys2Proof.Machine.execPortNoPartner p s
  | .collisionBackoffExpiry p => Sys2Proof.Machine.execCollisionBackoffExpiry p s
  | .foreignLinkUp q => Sys2Proof.Machine.execForeignLinkUp q s
  | .portMarksLost p => Sys2Proof.Machine.execPortMarksLost p s
  | .portMarksRestored p => Sys2Proof.Machine.execPortMarksRestored p s
  | .portMarksAbsent p => Sys2Proof.Machine.execPortMarksAbsent p s
  | .itemStartReceived p => Sys2Proof.Machine.execItemStartReceived p s
  | .itemEndReceived p bytes => Sys2Proof.Machine.execItemEndReceived p bytes s
  | .itemPoisonReceived p => Sys2Proof.Machine.execItemPoisonReceived p s
  | .elasticSlip p => Sys2Proof.Machine.execElasticSlip p s
  | .receiveBufferRecentre p k => Sys2Proof.Machine.execReceiveBufferRecentre p k s
  | .lanePhaseLimit p k high => Sys2Proof.Machine.execLanePhaseLimit p k high s
  | .prbsCheckerLock p k => Sys2Proof.Machine.execPrbsCheckerLock p k s
  | .prbsLockLost p k errors => Sys2Proof.Machine.execPrbsLockLost p k errors s
  | .errorInjection p k => Sys2Proof.Machine.execErrorInjection p k s
  | .injOnce p k => Sys2Proof.Machine.execInjOnce p k s
  | .flowLookup p header found => Sys2Proof.Machine.execFlowLookup p header found s
  | .delayLineRelease f found u => Sys2Proof.Machine.execDelayLineRelease f found u s
  | .mergeStep f => Sys2Proof.Machine.execMergeStep f s
  | .mergeGapTimeout f => Sys2Proof.Machine.execMergeGapTimeout f s
  | .mergeAutoResync f => Sys2Proof.Machine.execMergeAutoResync f s
  | .itemHeaderTaken q header u => Sys2Proof.Machine.execItemHeaderTaken q header u s
  | .itemWordWrite q w u => Sys2Proof.Machine.execItemWordWrite q w u s
  | .itemComplete q => Sys2Proof.Machine.execItemComplete q s
  | .itemPoisonedEnd q => Sys2Proof.Machine.execItemPoisonedEnd q s
  | .queuePop q found u => Sys2Proof.Machine.execQueuePop q found u s
  | .flushMarkerWrite q => Sys2Proof.Machine.execFlushMarkerWrite q s
  | .qdFlushWrite m q => Sys2Proof.Machine.execQdFlushWrite m q s
  | .memoryLayerRead requester word found => Sys2Proof.Machine.execMemoryLayerRead requester word found s
  | .memoryLayerWrite requester addr data found => Sys2Proof.Machine.execMemoryLayerWrite requester addr data found s
  | .sideStoreRead m block found path => Sys2Proof.Machine.execSideStoreRead m block found path s
  | .sideStoreWrite m addr data found path => Sys2Proof.Machine.execSideStoreWrite m addr data found path s
  | .sideRefresh side => Sys2Proof.Machine.execSideRefresh side s
  | .rngFail => Sys2Proof.Machine.execRngFail s
  | .streamLoadStart => Sys2Proof.Machine.execStreamLoadStart s
  | .partTrailerCheck tagOk found => Sys2Proof.Machine.execPartTrailerCheck tagOk found s
  | .streamApplyComplete => Sys2Proof.Machine.execStreamApplyComplete s
  | .chainStartBlockReceived pos crc => Sys2Proof.Machine.execChainStartBlockReceived pos crc s
  | .chainDataBlockReceived pos seq payload crc => Sys2Proof.Machine.execChainDataBlockReceived pos seq payload crc s
  | .chainEndBlockReceived sym => Sys2Proof.Machine.execChainEndBlockReceived sym s
  | .chainStartTimeout => Sys2Proof.Machine.execChainStartTimeout s
  | .chainBlockTimeout => Sys2Proof.Machine.execChainBlockTimeout s
  | .startupStepAComplete => Sys2Proof.Machine.execStartupStepAComplete s
  | .rendezvousMet => Sys2Proof.Machine.execRendezvousMet s
  | .rendezvousTimeout => Sys2Proof.Machine.execRendezvousTimeout s
  | .shelfFrameRead data check u => Sys2Proof.Machine.execShelfFrameRead data check u s
  | .shelfCorrectionWrite => Sys2Proof.Machine.execShelfCorrectionWrite s
  | .sweepLate => Sys2Proof.Machine.execSweepLate s
  | .shelfStall => Sys2Proof.Machine.execShelfStall s
  | .stockTestStart b => Sys2Proof.Machine.execStockTestStart b s
  | .stockTestEnd b how ran faults => Sys2Proof.Machine.execStockTestEnd b how ran faults s
  | .repairRecordWriteDone => Sys2Proof.Machine.execRepairRecordWriteDone s
  | .boundaryStale => Sys2Proof.Machine.execBoundaryStale s
  | .thermBoundaryWrite m v => Sys2Proof.Machine.execThermBoundaryWrite m v s
  | .slopeWarn n => Sys2Proof.Machine.execSlopeWarn n s
  | .bandChange n => Sys2Proof.Machine.execBandChange n s
  | .sensorFault phase kind => Sys2Proof.Machine.execSensorFault phase kind s
  | .railFault type index => Sys2Proof.Machine.execRailFault type index s
  | .vinFault => Sys2Proof.Machine.execVinFault s
  | .railRestored laneGroup index => Sys2Proof.Machine.execRailRestored laneGroup index s
  | .gateTakesEffect blk => Sys2Proof.Machine.execGateTakesEffect blk s
  | .pcieLinkUp => Sys2Proof.Machine.execPcieLinkUp s
  | .bayGateRequest m k v => Sys2Proof.Machine.execBayGateRequest m k v s
  | .portGateRequest m k v => Sys2Proof.Machine.execPortGateRequest m k v s
  | .qeGateRequest m v => Sys2Proof.Machine.execQeGateRequest m v s
  | .side0GateRequest m v => Sys2Proof.Machine.execSide0GateRequest m v s
  | .pcieGateRequest m v => Sys2Proof.Machine.execPcieGateRequest m v s
  | .registerWrite m offset v => Sys2Proof.Machine.execRegisterWrite m offset v s
  | .unlockWrite m offset v => Sys2Proof.Machine.execUnlockWrite m offset v s
  | .unlockArmLapse m block => Sys2Proof.Machine.execUnlockArmLapse m block s
  | .lockoutEnd block => Sys2Proof.Machine.execLockoutEnd block s
  | .deskShelfIdWrite m v => Sys2Proof.Machine.execDeskShelfIdWrite m v s
  | .deskTimeLoRead m cycle => Sys2Proof.Machine.execDeskTimeLoRead m cycle s
  | .pcieZeroLengthRead offset => Sys2Proof.Machine.execPcieZeroLengthRead offset s
  | .pcieBadRequest offset write => Sys2Proof.Machine.execPcieBadRequest offset write s
  | .logNmLatchClear m v => Sys2Proof.Machine.execLogNmLatchClear m v s
  | .logAlarmClear m family v => Sys2Proof.Machine.execLogAlarmClear m family v s
  | .shelfCtrlWrite m v parityFault => Sys2Proof.Machine.execShelfCtrlWrite m v parityFault s
  | .shelfActionWrite m hi v => Sys2Proof.Machine.execShelfActionWrite m hi v s
  | .portLoopWrite m p v => Sys2Proof.Machine.execPortLoopWrite m p v s
  | .laneTestCtrlWrite m p k v => Sys2Proof.Machine.execLaneTestCtrlWrite m p k v s
  | .frameOutCtrlWrite m v => Sys2Proof.Machine.execFrameOutCtrlWrite m v s
  | .slipRingEnable m n irq => Sys2Proof.Machine.execSlipRingEnable m n irq s
  | .slipRingDisable m n irq => Sys2Proof.Machine.execSlipRingDisable m n irq s
  | .ringDrainComplete n => Sys2Proof.Machine.execRingDrainComplete n s
  | .slipProdWrite m n v => Sys2Proof.Machine.execSlipProdWrite m n v s
  | .slipRconsWrite m n v => Sys2Proof.Machine.execSlipRconsWrite m n v s
  | .logDrainConsWrite m v => Sys2Proof.Machine.execLogDrainConsWrite m v s
  | .replyWrite ch => Sys2Proof.Machine.execReplyWrite ch s
  | .slipDmaFault n kind => Sys2Proof.Machine.execSlipDmaFault n kind s
  | .sidebandRegWrite bytes => Sys2Proof.Machine.execSidebandRegWrite bytes s
  | .sidebandRegRead bytes cycle => Sys2Proof.Machine.execSidebandRegRead bytes cycle s
  | .sidebandSlipWrite bytes => Sys2Proof.Machine.execSidebandSlipWrite bytes s
  | .sidebandSubmit => Sys2Proof.Machine.execSidebandSubmit s
  | .sidebandReplyRead bytes => Sys2Proof.Machine.execSidebandReplyRead bytes s
  | .sidebandStatus => Sys2Proof.Machine.execSidebandStatus s
  | .sidebandRelease => Sys2Proof.Machine.execSidebandRelease s
  | .sidebandBadCommand code => Sys2Proof.Machine.execSidebandBadCommand code s
  | .sidebandSeriesReset => Sys2Proof.Machine.execSidebandSeriesReset s
  | .inbandItem found u => Sys2Proof.Machine.execInbandItem found u s
  | .slipUnknownOpcode opcode h p => Sys2Proof.Machine.execSlipUnknownOpcode opcode h p s
  | .lockstepMismatch => Sys2Proof.Machine.execLockstepMismatch s
  | .standbyReloadComplete => Sys2Proof.Machine.execStandbyReloadComplete s
  | .daybookEntryWrite found u => Sys2Proof.Machine.execDaybookEntryWrite found u s
  | .daybookDrainCopy found u => Sys2Proof.Machine.execDaybookDrainCopy found u s
  | .summaryPeriodEnd => Sys2Proof.Machine.execSummaryPeriodEnd s
  | .streamStageDone found => Sys2Proof.Machine.execStreamStageDone found s
  | .streamAuthDone tagOk => Sys2Proof.Machine.execStreamAuthDone tagOk s
  | .flashWriteDone => Sys2Proof.Machine.execFlashWriteDone s
  | .flashEraseDone => Sys2Proof.Machine.execFlashEraseDone s
  | .archiveAddDone => Sys2Proof.Machine.execArchiveAddDone s
  | .memoryFillDone bad => Sys2Proof.Machine.execMemoryFillDone bad s
  | .memoryCopyDone bad => Sys2Proof.Machine.execMemoryCopyDone bad s
  | .frameSource h p => Sys2Proof.Machine.execFrameSource h p s
  | .frameNumberSet h p => Sys2Proof.Machine.execFrameNumberSet h p s
  | .clockSet h p => Sys2Proof.Machine.execClockSet h p s
  | .clockRestore h p => Sys2Proof.Machine.execClockRestore h p s
  | .clockQuery h p => Sys2Proof.Machine.execClockQuery h p s
  | .thermalSet h p => Sys2Proof.Machine.execThermalSet h p s
  | .thermalRelease h p => Sys2Proof.Machine.execThermalRelease h p s
  | .thermalQuery h p => Sys2Proof.Machine.execThermalQuery h p s
  | .powerSet h p => Sys2Proof.Machine.execPowerSet h p s
  | .powerGate h p => Sys2Proof.Machine.execPowerGate h p s
  | .powerQuery h p => Sys2Proof.Machine.execPowerQuery h p s
  | .streamStage h p host => Sys2Proof.Machine.execStreamStage h p host s
  | .streamAuth h p => Sys2Proof.Machine.execStreamAuth h p s
  | .streamApply h p => Sys2Proof.Machine.execStreamApply h p s
  | .flashWrite h p host => Sys2Proof.Machine.execFlashWrite h p host s
  | .flashErase h p => Sys2Proof.Machine.execFlashErase h p s
  | .streamQuery h p => Sys2Proof.Machine.execStreamQuery h p s
  | .archiveAdd h p => Sys2Proof.Machine.execArchiveAdd h p s
  | .rotaSet h p => Sys2Proof.Machine.execRotaSet h p s
  | .rotaQuery h p => Sys2Proof.Machine.execRotaQuery h p s
  | .folioLoad h p => Sys2Proof.Machine.execFolioLoad h p s
  | .editionLoad h p => Sys2Proof.Machine.execEditionLoad h p s
  | .editionBind h p => Sys2Proof.Machine.execEditionBind h p s
  | .editionSwitch h p => Sys2Proof.Machine.execEditionSwitch h p s
  | .editionQuery h p => Sys2Proof.Machine.execEditionQuery h p s
  | .bankSet h p => Sys2Proof.Machine.execBankSet h p s
  | .channelQuery h p => Sys2Proof.Machine.execChannelQuery h p s
  | .editionRetire h p => Sys2Proof.Machine.execEditionRetire h p s
  | .portSet h p => Sys2Proof.Machine.execPortSet h p s
  | .portQuery h p => Sys2Proof.Machine.execPortQuery h p s
  | .queueSet h p => Sys2Proof.Machine.execQueueSet h p s
  | .queueQuery h p => Sys2Proof.Machine.execQueueQuery h p s
  | .queueFlush h p => Sys2Proof.Machine.execQueueFlush h p s
  | .queueSpaceQuery h p => Sys2Proof.Machine.execQueueSpaceQuery h p s
  | .flowSet h p => Sys2Proof.Machine.execFlowSet h p s
  | .flowQuery h p => Sys2Proof.Machine.execFlowQuery h p s
  | .pairSet h p => Sys2Proof.Machine.execPairSet h p s
  | .flowCountClear h p => Sys2Proof.Machine.execFlowCountClear h p s
  | .egressSet h p => Sys2Proof.Machine.execEgressSet h p s
  | .egressQuery h p => Sys2Proof.Machine.execEgressQuery h p s
  | .creditSet h p => Sys2Proof.Machine.execCreditSet h p s
  | .read h p bad => Sys2Proof.Machine.execRead h p bad s
  | .write h p bad => Sys2Proof.Machine.execWrite h p bad s
  | .fill h p => Sys2Proof.Machine.execFill h p s
  | .copy h p => Sys2Proof.Machine.execCopy h p s
  | .retire h p => Sys2Proof.Machine.execRetire h p s
  | .retireClear h p => Sys2Proof.Machine.execRetireClear h p s
  | .retireQuery h p => Sys2Proof.Machine.execRetireQuery h p s
  | .rightsSet h p => Sys2Proof.Machine.execRightsSet h p s
  | .rightsQuery h p => Sys2Proof.Machine.execRightsQuery h p s
  | .rekey h p => Sys2Proof.Machine.execRekey h p s
  | .rekeyQuery h p => Sys2Proof.Machine.execRekeyQuery h p s
  | .ledgerRead h p => Sys2Proof.Machine.execLedgerRead h p s
  | .keyFuseSet h p => Sys2Proof.Machine.execKeyFuseSet h p s
  | .stockDeclare h p => Sys2Proof.Machine.execStockDeclare h p s
  | .stockRun h p => Sys2Proof.Machine.execStockRun h p s
  | .stockRepair h p => Sys2Proof.Machine.execStockRepair h p s
  | .stockResult h p => Sys2Proof.Machine.execStockResult h p s
  | .stockQuery h p => Sys2Proof.Machine.execStockQuery h p s
  | .eventAck h p => Sys2Proof.Machine.execEventAck h p s
  | .daybookRead h p bad => Sys2Proof.Machine.execDaybookRead h p bad s
  | .daybookDrainSet h p => Sys2Proof.Machine.execDaybookDrainSet h p s
  | .eventFilterSet h p => Sys2Proof.Machine.execEventFilterSet h p s
  | .eventQuery h p => Sys2Proof.Machine.execEventQuery h p s
  | .inbandSet h p => Sys2Proof.Machine.execInbandSet h p s
  | .modeSet h p archiveOk => Sys2Proof.Machine.execModeSet h p archiveOk s
  | .modeQuery h p => Sys2Proof.Machine.execModeQuery h p s
  | .laneTestSet h p => Sys2Proof.Machine.execLaneTestSet h p s
  | .laneTestQuery h p => Sys2Proof.Machine.execLaneTestQuery h p s
  | .tapReset => Sys2Proof.Machine.execTapReset s
  | .extest cells => Sys2Proof.Machine.execExtest cells s
  | .idcode => Sys2Proof.Machine.execIdcode s
  | .samplePreload update pins => Sys2Proof.Machine.execSamplePreload update pins s
  | .highz => Sys2Proof.Machine.execHighz s
  | .clamp => Sys2Proof.Machine.execClamp s
  | .bypass code => Sys2Proof.Machine.execBypass code s
  | .rrReg dr cycle => Sys2Proof.Machine.execRrReg dr cycle s
  | .rrMem dr found path => Sys2Proof.Machine.execRrMem dr found path s
  | .ioscSRunsAgain => Sys2Proof.Machine.execIoscSRunsAgain s
  | .editionReady b => Sys2Proof.Machine.execEditionReady b s
  | .registerRead m offset => Sys2Proof.Machine.execRegisterRead m offset s
  | .lineAttachIngress p data => Sys2Proof.Machine.execLineAttachIngress p data s
  | .egressUnderrun p => Sys2Proof.Machine.execEgressUnderrun p s
  | .loopRelocked loop port => Sys2Proof.Machine.execLoopRelocked loop port s

end Sys2Proof.Machine
end

