-- ==== Sys2Proof/Safety.lean ====
section
/-! DEFINITION. What a safe run is, and the terms in which the statements speak: a run that goes on, the form that the tables
of State keep, a slip that is taken, answered and awaited, and an event that is raised. -/

namespace Sys2Proof.Machine
open Sys2Proof

/-- Keys strictly rising, all above lo. -/
def Sparse.risesFrom {α : Type} (lo : Nat) (m : Sparse α) : Bool :=
  match m with
  | [] => true
  | (k, _) :: r => lo ≤ k && Sparse.risesFrom (k + 1) r

def Sparse.rises {α : Type} (m : Sparse α) : Bool := Sparse.risesFrom 0 m

/-- No entry of a bank that was cleared says 0, as an unlisted one does. -/
def MemSt.noZeros (m : MemSt) : Bool := m.layer.all fun c => !(m.zeroed.contains (c.1 / 65536) && c.2 == 0)

/-- The canonical form of the three stores: each address is listed at most once, in rising order, and no entry says what an
unlisted one would. Elsewhere than in a cleared bank an unlisted byte of the memory layer or of the side store has no fixed
value (log entry 4), and a listed byte of flash is one written since its sector was erased. -/
def Memory.wf (m : MemSt) (flash : List Host.Cell) : Bool :=
  Sparse.rises m.layer && m.noZeros && Sparse.rises m.side && Sparse.rises flash

/-- The lists with one place for each channel and each ring have all their places. -/
def SlipSt.wf (x : SlipSt) : Bool := x.chans.length == 6 && x.rings.length == 4

/-- The lists with one place for each pairing, loop and consumer have all their places. -/
def ClkSt.wf (c : ClkSt) : Bool := c.goodRun.length == 9 && c.loopRef.length == 6 && c.consumer.length == 6

/-- The tables of State, and the words of each queue, list each key at most once, in rising order. -/
def State.tablesRise (s : State) : Bool :=
  Sparse.rises s.ports && Sparse.rises s.queues && Sparse.rises s.engines && Sparse.rises s.flows &&
  Sparse.rises s.fab.bays && Sparse.rises s.fab.carrels && Sparse.rises s.fab.folios && Sparse.rises s.fab.editions &&
  Sparse.rises s.fab.binds && Sparse.rises s.fab.banks && Sparse.rises s.modes.bays && Sparse.rises s.modes.ports &&
  Sparse.rises s.crypto.nodes && Sparse.rises s.crypto.vols && Sparse.rises s.crypto.rights && Sparse.rises s.thm.nodes &&
  Sparse.rises s.thm.before &&
  Sparse.rises s.stock.carrels && Sparse.rises s.stock.tests && Sparse.rises s.stock.policy && Sparse.rises s.clk.switches &&
  Sparse.rises s.regs.readData && Sparse.rises s.regs.readErr && Sparse.rises s.regs.shadow && Sparse.rises s.regs.wrongKeys &&
  Sparse.rises s.regs.lockout && s.queues.all fun x => Sparse.rises x.2.words

/-- What every step keeps of State's form. -/
def State.wf (s : State) : Bool := Memory.wf s.mem s.cfg.flash && s.slips.wf && s.clk.wf && s.tablesRise

/-- The step from s neither faults nor is refused. -/
def State.goesOn (s : State) : Prop := ∃ t, step s = .next t

/-! ## Slips as the statements speak of them -/

/-- The slip starts now, its header passes its own checks (R366, R367), and it asks for its replies (R374). -/
def State.takes (s : State) (op : BitVec 16) (c : OrdClass) (h : SlipHdr) (p : List Byte) : Prop :=
  s.starts op h p c = true ∧ headerCheck s h = .ok () ∧ wantsNoReply h = false ∧ h.ch.val < s.slips.chans.length

/-- What the body of a slip sees: the slip started and its number noted. -/
def State.begun (s : State) (op : BitVec 16) (h : SlipHdr) (p : List Byte) : State :=
  noteSeq (s.gapIn h) h (startSlip op h p s)

/-- A reply to the slip waits to be written on its channel, with this status and result (R370). -/
def State.answered (t : State) (op : BitVec 16) (h : SlipHdr) (status : BitVec 16) (result : List Byte) : Prop :=
  ∃ r ∈ (t.chan h.ch.val).waiting, r.completion = false ∧ r.id.op = op ∧ r.id.ch = h.ch ∧ r.id.seq = h.seq ∧
    r.id.tag = h.tag ∧ r.status = status ∧ r.result = result

/-- The slip has been answered ACCEPTED and its completion event is awaited (R374). -/
def State.accepted (t : State) (op : BitVec 16) (h : SlipHdr) : Prop :=
  t.answered op h St.accepted [] ∧
  ∃ id ∈ (t.chan h.ch.val).open_, id.op = op ∧ id.ch = h.ch ∧ id.seq = h.seq ∧ id.tag = h.tag

/-- The slip's completion event waits to be written, with this status and result (R374). -/
def State.completed (t : State) (id : SlipId) (status : BitVec 16) (result : List Byte) : Prop :=
  ∃ r ∈ (t.chan id.ch.val).waiting, r.completion = true ∧ r.id = id ∧ r.status = status ∧ r.result = result

/-- t differs from s only by what every slip's start, reply and trace touch: the channels, the event log, and the count of
free values. -/
def State.sameButSlips (s t : State) : Prop :=
  t = { s with slips := t.slips, log := t.log, frame.freeCount := t.frame.freeCount }

/-- The command answers OK with a result of n bytes that says this, and changes nothing but the slips' own record. -/
def State.tells (s : State) (c : Instr) (op : BitVec 16) (h : SlipHdr) (n : Nat) (holds : List Byte → Prop) : Prop :=
  ∃ t r, exec c s = .next t ∧ t.answered op h St.ok r ∧ r.length = n ∧ holds r ∧ s.sameButSlips t

/-- From byte off of a result stand these words of four bytes. -/
def wordsFrom (r : List Byte) (off : Nat) (l : List Nat) : Prop := ∀ i, i < l.length → leAt r (off + 4 * i) 4 = nth l i % 2 ^ 32

/-- t differs from s only by events raised: the log, the desk's interrupts and MSI-X. -/
def State.sameButEvents (s t : State) : Prop :=
  t = { s with log := t.log, desk.alarmIrq := t.desk.alarmIrq, desk.nmIrq := t.desk.nmIrq, slips.msix := t.slips.msix }

/-- t differs from s in port p alone. -/
def State.onlyPort (s t : State) (p : Nat) : Prop := t = { s with ports := t.ports } ∧ ∀ q, q ≠ p → t.port q = s.port q

/-- A negotiation set of a type that reaches the negotiation of port p. -/
def State.hears (s : State) (p : Port) (sym : List Byte) (type : Nat) : Prop :=
  s.bringsUp p.val = true ∧ (s.port p.val).cfg.setting = 0 ∧ crcGood 13 sym = true ∧ codesGood (leAt sym 4 1) = true ∧
  setType sym = type ∧ leAt sym 9 1 % 2 = bitOf (isTrunk p.val)

/-- The event stands among those raised. -/
def State.told (t : State) (c : EvClass) (code : BitVec 16) (subject : Nat) : Prop :=
  ∃ e ∈ t.log.raised, e.cls = c ∧ e.code = code ∧ e.subject = subject

/-! ## Register accesses as the statements speak of them -/

/-- The master's write reaches the device, and a reading room's is allowed by its fuse (R303, R341, R344, R404). -/
def State.mayAccess (s : State) (m : Master) : Prop :=
  s.reaches m = true ∧ s.clk.stoppedDevice = false ∧ (m = .readingRoom → s.pkg.debugFuse = 2)

/-- What the master's latest access answered: its data, and whether it took the error form. -/
def State.gave (t : State) (m : Master) (data : Word) (err : Bool) : Prop :=
  Sparse.get 0 t.regs.readData (Master.code m) = data ∧ Sparse.get false t.regs.readErr (Master.code m) = err

/-- The access erred: its cause and its offset are recorded and counted (R346). -/
def State.erred (s t : State) (m : Master) (off cause : Nat) : Prop :=
  t.gave m 0 true ∧ t.regs.errMaster.toNat = Master.code m ∧ t.regs.errCause.toNat = cause ∧
    t.regs.errOffset.toNat = off / 4 * 4 ∧ t.regs.errCount = min 65535 (s.regs.errCount + 1) ∧
    t.told .warning (if cause = 5 then 0x0B05 else 0x0B04) (Master.code m)

/-- t differs from s only in the registers' own record and by events raised. -/
def State.sameButAccess (s t : State) : Prop := s.sameButEvents { t with regs := s.regs }

/-- What no reset short of VSTBY's loss changes, and what a reset clears. -/
def State.clearedFrom (s t : State) : Prop :=
  t.modes = .reset ∧ t.fab = .reset ∧ t.ports = [] ∧ t.queues = [] ∧ t.engines = [] ∧ t.flows = [] ∧ t.mem = .reset ∧
  t.shelf = .reset ∧ t.stock = .reset ∧ t.pwr = .reset ∧ t.thm = .reset ∧ t.regs = .reset ∧ t.desk = .reset ∧
  t.slips = .reset ∧ t.log = .reset ∧ t.frame.number = 0 ∧ t.frame.running = false ∧ t.cfg.stepsDone = 0 ∧
  (s.cfg.work = [] → t.cfg.flash = s.cfg.flash) ∧ t.pending = s.pending ∧ t.pkg.inReset = true ∧
  t.pkg.streamKey = s.pkg.streamKey ∧ t.pkg.debugFuse = s.pkg.debugFuse

/-- The monitor's counts and what has qualified. -/
def ClkSt.sameMonitor (a b : ClkSt) : Prop :=
  b.goodRun = a.goodRun ∧ b.count = a.count ∧ b.stopped = a.stopped ∧ b.qualA = a.qualA ∧ b.qualB = a.qualB ∧
  b.qualF = a.qualF ∧ b.qualS = a.qualS

end Sys2Proof.Machine
end

