-- ==== Sys2Proof/Certificates/Slice0/Obligations.lean ====
section
/-! DEFINITION. The statements for the provers, family by family: what each command does, what it leaves unchanged, what a
step keeps, and what the block promises as a whole. -/

open Sys2Proof Sys2Proof.Machine

/-! ## Every step -/

/-- The command at the front of the queue runs on the state with the queue's rest; with nothing pending the block idles
(log entry 2). -/
def Obligations.StepRunsFrontCommand : Prop :=
  (∀ (c : Instr) (rest : List Instr) (s : State), step { s with pending := c :: rest } = exec c { s with pending := rest }) ∧
  (∀ s : State, s.pending = [] → step s = .next s)

/-- Every command has a next state in every state, but for an access of the memory layer to a check word that R217 gives no
address: that one faults. -/
def Obligations.EveryCommandEnds : Prop :=
  ∀ (c : Instr) (s : State), (∃ t, exec c s = .next t) ∨
    (exec c s = .fault .noSuchAddress ∧
      ((∃ r w f, c = .memoryLayerRead r w f ∧ layerSize ≤ 8 * w) ∨
       (∃ r a d f, c = .memoryLayerWrite r a d f ∧ layerSize < a + d.length)))

/-- The form of the stores, and the places of the channels and rings, hold after every step. -/
def Obligations.StepKeepsForm : Prop :=
  ∀ s t : State, s.wf = true → step s = .next t → t.wf = true

/-- They hold at reset. -/
def Obligations.ResetHasForm : Prop := State.reset.wf = true

/-- The values that the register tables and rules give for reset: every domain in Intake, every queue, port register and table
at its default, the rights of R253, the thermal boundary at 70 °C, the sweep enabled and every bay's action correct. R426,
R427, R428: PORST_N low resets all but the clock monitor and the regulators, and the test access port's own state stays; the
loss of VIN12 does so with the regulators off; the loss of VSTBY resets the VSTBY domain as well. Fuses and flash are not
affected. -/
def Obligations.ResetState : Prop :=
  (allDomains.all (fun d => State.reset.mode d == .intake) = true ∧
   State.reset.pkg.inReset = true ∧ State.reset.frame.running = false ∧ State.reset.cfg.stepsDone = 0 ∧
   State.reset.rights 33 = { accLo := 0xFFFFFFFF, accHi := 0xFFFFFFFF, view := 0 } ∧
   [34, 35, 36, 37].all (fun m => State.reset.rights m == { accLo := 0, accHi := 0x80000000, view := 0 }) = true ∧
   State.reset.rights 0 = { accLo := 0, accHi := 0, view := 0 } ∧
   State.reset.thm.boundary = 0x460 ∧ State.reset.shelf.sweepEn = true ∧ State.reset.shelf.actionLo = 0x55555555 ∧
   State.reset.log.infoEn = true ∧ State.reset.log.traceEn = false ∧ State.reset.pending = []) ∧
  (∀ s : State,
   (∃ t, exec .porstNAssert s = .next t ∧ State.clearedFrom s t ∧ ClkSt.sameMonitor s.clk t.clk ∧ t.pkg.porstLow = true ∧
     t.pkg.rails = s.pkg.rails ∧ t.pkg.vstby = s.pkg.vstby ∧ t.pkg.doneLow = s.pkg.vstby ∧ t.alert = false ∧ t.tap = s.tap) ∧
   (s.pkg.rails = true → ∃ t, exec .vin12Shutdown s = .next t ∧ State.clearedFrom s t ∧ ClkSt.sameMonitor s.clk t.clk ∧
     t.pkg.rails = false ∧ t.pkg.porstLow = s.pkg.porstLow ∧ t.pkg.vstby = s.pkg.vstby ∧ t.tap = s.tap) ∧
   (∃ t, exec .vstbyLoss s = .next t ∧ State.clearedFrom s t ∧ t.clk = .reset ∧ t.pkg.vstby = false ∧ t.pkg.rails = false ∧
     t.pkg.trimmed = false ∧ t.tap = .reset))

/-! ## Supplies and reset -/

/-- R291, R293, R423, R425: VSTBY starts the monitor from nothing and trims IOSC_F; the rails and the release of PORST_N take
the straps; the device leaves reset once PORST_N is high and IOSC_F, source A and source B are qualified, and not before. -/
def Obligations.SuppliesRise : Prop := ∀ (s : State) (a : BitVec 3) (b : BitVec 2),
  (s.pkg.vstby = false →
    exec .vstbyRise s = .next { s with pkg.vstby := true, pkg.trimmed := true, clk := .reset }) ∧
  (s.pkg.vstby = true → s.pkg.rails = false → s.pkg.porstLow = false →
    exec (.vin12Rise a b) s = .next { s with pkg.rails := true, pkg.addr := a, pkg.bootSrc := b }) ∧
  (s.pkg.vstby = true → s.pkg.rails = false → s.pkg.porstLow = true →
    exec (.vin12Rise a b) s = .next { s with pkg.rails := true }) ∧
  (s.pkg.porstLow = true →
    exec (.porstNRelease a b) s = .next { s with pkg.porstLow := false, pkg.addr := a, pkg.bootSrc := b }) ∧
  (s.pkg.rails = true → s.pkg.porstLow = false → s.pkg.inReset = true →
    s.clk.qualF = true → s.clk.qualA = true → s.clk.qualB = true →
    ∃ t, exec .leaveReset s = .next t ∧ t.up = true ∧ t.desk.standbyReady = true ∧ t.crypto.rngOk = true ∧
      t.modes = s.modes ∧ t.fab = s.fab ∧ t.mem = { s.mem with layer := t.mem.layer } ∧
      (banksOf s.fab.banks 0x11 = [] → t.mem = s.mem)) ∧
  (s.clk.qualF = false ∨ s.clk.qualA = false ∨ s.clk.qualB = false → exec .leaveReset s = .next s)

/-! ## Clocks and the monitor -/

/-- R298, R301: a window whose nine counts lie within their limits and whose loops are locked counts as good for every
pairing; the 64th good window in a row qualifies source A, source B, IOSC_F and IOSC_S. R299, R300, R302: a clock that stops
is marked stopped and its run of good windows ends; source A stopping alone, once qualified, trips it: it loses its
qualification, its bit of CLK_TRIP is set, CLOCK_TRIP is raised, and no loop goes on using it. -/
def Obligations.ClocksQualifyAndTrip : Prop :=
  (∀ (s : State) (counts : List Nat) (refA refB : Nat) (lock : BitVec 6), s.pkg.vstby = true → s.clk.stoppedDevice = false →
     (∀ n < 9, s.clk.badPair counts refA refB lock n = false) →
     ∃ t, exec (.monitorWindowEnd counts refA refB lock) s = .next t ∧ t.clk.count = (List.range 9).map (nth counts) ∧
       t.clk.goodRun = (List.range 9).map (fun n => min 64 (nth s.clk.goodRun n + 1)) ∧
       t.clk.qualA = (s.clk.qualA || decide (63 ≤ nth s.clk.goodRun 0)) ∧
       t.clk.qualB = (s.clk.qualB || decide (63 ≤ nth s.clk.goodRun 1)) ∧
       t.clk.qualF = (s.clk.qualF || decide (63 ≤ nth s.clk.goodRun 2)) ∧
       t.clk.qualS = decide (63 ≤ nth s.clk.goodRun 2)) ∧
  (∀ s : State, s.pkg.vstby = true → s.clk.stoppedDevice = false →
   (∀ n : Fin 9, ∃ t, exec (.clockStoppedDetect n) s = .next t ∧ getBit t.clk.stopped n.val = true ∧
     nth t.clk.goodRun n.val = 0) ∧
   (s.wf = true → s.clk.stopped = 0 → s.clk.qualA = true → ∃ t, exec (.clockStoppedDetect 0) s = .next t ∧ t.clk.qualA = false ∧
     getBit t.clk.trip 5 = true ∧ t.told .nonMaskable 0x0101 0 ∧ t.stock.spoiled = BitVec.allOnes 32 ∧
     ∀ n < 6, s.clk.ref n = .sourceA → t.clk.ref n ≠ .sourceA))

/-- R303, R305, R306: the device stops with IOSC_S while it runs cold on it, and runs again with it; a switch that has passed
its new clock is no longer in progress; a forced one is marked, in CLK_TRIP too; a loop that relocks is locked. R292: a
reference-pin override that has not qualified in 8,000 frames ends QUALIFY_TIMEOUT; the selection in force stays, and the
enable shown returns to it. -/
def Obligations.ClockSourcesMove : Prop :=
  (∀ (s : State) (sw : Fin 12),
   (s.clk.cold = true → exec .ioscSStopped s = .next { s with clk.stoppedDevice := true }) ∧
   (s.clk.stoppedDevice = true → exec .ioscSRunsAgain s = .next { s with clk.stoppedDevice := false }) ∧
   (∃ t, exec (.glitchFreeSwitchDone sw) s = .next t ∧
     (Sparse.rises s.clk.switches = true → Sparse.look t.clk.switches sw.val = none) ∧
     t = { s with clk.switches := t.clk.switches }) ∧
   (∀ w, Sparse.look s.clk.switches sw.val = some w → ∃ t, exec (.switchForced sw) s = .next t ∧
     Sparse.look t.clk.switches sw.val = some { w with forced := true } ∧ getBit t.clk.trip 16 = true ∧
     t = { s with clk.switches := t.clk.switches, clk.trip := t.clk.trip })) ∧
  (∀ (s : State) (refB want : Bool) (frames : Nat) (id : SlipId),
   s.clk.changes.find? (isOverride refB) = some (.override refB want frames (some id)) → 8000 ≤ frames →
   s.ringGone id = false → id.ch.val < s.slips.chans.length →
   ∃ t, exec (.overrideQualifyTimeout refB) s = .next t ∧ t.completed id St.qualifyTimeout [] ∧
     t.clk.refaSel = s.clk.refaSel ∧ t.clk.refbSel = s.clk.refbSel ∧
     (refB = false → t.clk.refaEn = s.clk.refaSel) ∧ (refB = true → t.clk.refbEn = s.clk.refbSel) ∧
     ClkChange.override refB want frames (some id) ∉ t.clk.changes)

/-- R385: CLOCK_SET stores for step 3 each value whose mask bit is set; it is answered OK, or ACCEPTED where an override of
REFA or REFB has to qualify first. CLOCK_RESTORE of a qualified unit is accepted and pends; of another it is NOT_QUALIFIED. -/
def Obligations.ClockSlips : Prop := ∀ (s : State) (h : SlipHdr) (p : List Byte), s.modes.house ≠ .closing →
  (s.takes 0x0103 .ordinary h p →
    let m := fun i => (arg p 16 1).testBit i
    let v := fun off => arg p off 1
    fields [⟨16, 1, arg p 16 1 < 32⟩, ⟨17, 1, masked (m 0) (v 17) 0 1⟩, ⟨18, 1, masked (m 1) (v 18) 0 1⟩,
      ⟨19, 1, masked (m 2) (v 19) 0 1⟩, ⟨20, 1, masked (m 2) (v 20) 0 2 && !(m 2 && v 19 == v 20)⟩,
      ⟨21, 1, masked (m 3) (v 21) 0 1⟩, ⟨22, 1, masked (m 3) (v 22) 0 2 && !(m 3 && v 21 == v 22)⟩,
      ⟨23, 1, masked (m 4) (v 23) 4 15⟩] p = .ok () →
    ∃ t, exec (.clockSet h p) s = .next t ∧
      (m 2 = true → ClkChange.trunkRefs false (v 19) (v 20) ∈ t.clk.changes) ∧
      (m 3 = true → ClkChange.trunkRefs true (v 21) (v 22) ∈ t.clk.changes) ∧
      (m 4 = true → ClkChange.tripPct (v 23) ∈ t.clk.changes) ∧
      t.clk.refaEn = (if m 0 then v 17 == 1 else s.clk.refaEn) ∧
      t.clk.refbEn = (if m 1 then v 18 == 1 else s.clk.refbEn) ∧
      (if (m 0 && (v 17 == 1) != s.clk.refaSel) || (m 1 && (v 18 == 1) != s.clk.refbSel) then t.accepted 0x0103 h
       else t.answered 0x0103 h St.ok [])) ∧
  (s.takes 0x0104 .ordinary h p → fields [⟨16, 1, arg p 16 1 < 8⟩] p = .ok () →
    ∃ t, exec (.clockRestore h p) s = .next t ∧
      (s.clk.targetQualified (arg p 16 1) = true →
        t.accepted 0x0104 h ∧ ∃ id, t.clk.changes = s.clk.changes ++ [.restore (arg p 16 1) id] ∧ id.seq = h.seq) ∧
      (s.clk.targetQualified (arg p 16 1) = false → t.answered 0x0104 h St.notQualified [] ∧ s.sameButSlips t))

/-! ## Frame, sources and FRAME_OUT -/

/-- R35, R43: the first edge of FRAME_IN inside the window of the selection in use is taken, with its distance from the predicted
boundary; any other is counted, up to 255. FRAME_OUT's rising edge takes up the offset and the width last written; its falling edge ends the pulse. R40, R49: 64
frames in a row within the limits lock the loop; eight frames in a row over the limit raise FRAME_UNLOCKED once; a unit late
for 16 frames in a row raises FRAME_OVERRUN once. -/
def Obligations.FrameEdgesAndLock : Prop :=
  (∀ (s : State) (place : Int),
   (s.framesRun = true → s.frame.active.src = 1 → s.frame.qualifying = none →
     ∃ t, exec (.frameInEdge place) s = .next t ∧
       t.frame.edge = (if inWindow s.frame.active place ∧ s.frame.edge = none then some (windowDist s.frame.active place)
         else s.frame.edge) ∧
       t.frame.misplaced = (if inWindow s.frame.active place ∧ s.frame.edge = none then s.frame.misplaced
         else min 255 (s.frame.misplaced + 1)) ∧
       t = { s with frame.edge := t.frame.edge, frame.candEdge := t.frame.candEdge, frame.misplaced := t.frame.misplaced }) ∧
   (s.outDrives = true → exec (.frameOutEdge true) s = .next { s with
     pkg.frameOut := true, frame.outOffset := s.frame.outOffsetNext, frame.outWidth := s.frame.outWidthNext }) ∧
   exec (.frameOutEdge false) s = .next { s with pkg.frameOut := false }) ∧
  (∀ (s : State) (u : Fin 6),
   (64 ≤ s.frame.lockRun →
     exec .loopLocked s = .next { s with frame.locked := true, frame.unlocked := false }) ∧
   (s.frame.lockRun < 64 → exec .loopLocked s = .next s) ∧
   (8 ≤ s.frame.unlockRun → s.frame.unlocked = false →
     ∃ t, exec .frameUnlocked s = .next t ∧ t.frame.locked = false ∧ t.frame.unlocked = true ∧
       t.told .warning 0x0104 s.frame.active.src) ∧
   (16 ≤ nth s.frame.overrunRun u.val → s.frame.overrunTold[u.val]? = some false →
     ∃ t, exec (.frameOverrun u) s = .next t ∧ t.told .warning 0x0105 u.val ∧ t.frame.overrunTold[u.val]? = some true ∧
       t.frame.overrunRun = s.frame.overrunRun))

/-- R36 to R38, R41: a source whose loss criterion holds is lost: the control word freezes at its mean of 1,024 frames and
FRAME_SOURCE_LOSS is raised. A source in use that meets its qualification is qualified, and so is one newly selected; one that
has not qualified in 8,000 frames ends its slip QUALIFY_TIMEOUT and leaves the old selection in force. -/
def Obligations.SourceLostAndQualified : Prop := ∀ s : State,
  (s.framesRun = true → s.frame.lost = false → s.frame.active.src ≠ 0 → s.lossShown = true →
    ∃ t, exec .frameSourceLoss s = .next t ∧ t.frame.lost = true ∧ t.frame.frozen = true ∧ t.frame.qualified = false ∧
      t.frame.ctrlWord = frozenWord s.frame ∧ t.told .warning 0x0103 s.frame.active.src) ∧
  (s.framesRun = true → s.frame.qualifying = none → s.selQualified s.frame.active s.frame.goodRun = true →
    exec .frameSourceQualified s = .next { s with frame.qualified := true }) ∧
  (∀ sel id n, s.framesRun = true → s.frame.qualifying = some (sel, id, n) → s.selQualified sel s.frame.candRun = true →
    exec .frameSourceQualified s = .next { s with
      frame.newQualified := true
      frame.qualified := s.frame.qualified || s.selQualified s.frame.active s.frame.goodRun }) ∧
  (∀ sel id n, s.frame.qualifying = some (sel, id, n) → 8000 ≤ n → s.frame.newQualified = false →
    s.ringGone id = false → id.ch.val < s.slips.chans.length →
    ∃ t, exec .frameSourceQualifyTimeout s = .next t ∧ t.completed id St.qualifyTimeout [] ∧ t.frame.qualifying = none ∧
      t.frame.active = s.frame.active ∧ t.frame.sel = s.frame.active)

/-- R31, R34, R385: FRAME_SOURCE stores the selection for step 3 of the next boundary, its slew 10 where the field is 0;
FRAME_NUMBER_SET stores the value and the frame it names. Both are accepted and complete later; an earlier one still pending
ends SUPERSEDED. -/
def Obligations.FrameSlips : Prop := ∀ (s : State) (h : SlipHdr) (p : List Byte), s.modes.house ≠ .closing →
  (s.takes 0x0101 .ordinary h p →
    fields [⟨16, 1, 1 ≤ arg p 16 1 && arg p 16 1 ≤ 3⟩, ⟨17, 1, if arg p 16 1 = 2 then arg p 17 1 < 16 else arg p 17 1 = 0⟩,
      ⟨18, 1, arg p 18 1 < 4 && (arg p 18 1 < 2 || (arg p 16 1 == 2 && !(2 ≤ (s.port (128 + arg p 17 1)).cfg.setting)))⟩,
      ⟨19, 1, arg p 19 1 < 4⟩,
      ⟨20, 4, if arg p 16 1 = 1 then -62499 ≤ toInt 32 (arg p 20 4) && toInt 32 (arg p 20 4) ≤ 62500
              else toInt 32 (arg p 20 4) = 0⟩,
      ⟨24, 1, arg p 24 1 ≤ 50⟩] p = .ok () →
    ∃ t sel id, exec (.frameSource h p) s = .next t ∧ t.accepted 0x0101 h ∧ t.frame.pendSel = some (sel, id) ∧
      id.seq = h.seq ∧ sel.src = arg p 16 1 ∧ sel.trunk = arg p 17 1 ∧ sel.revertive = (arg p 18 1).testBit 0 ∧
      sel.phase = (arg p 18 1).testBit 1 ∧ sel.bandwidth = arg p 19 1 ∧ sel.offset = toInt 32 (arg p 20 4) ∧
      sel.slew = (if arg p 24 1 = 0 then 10 else arg p 24 1) ∧ t.frame.sel = s.frame.sel ∧ t.frame.active = s.frame.active ∧
      (∀ x old, s.frame.pendSel = some (x, old) → s.ringGone old = false → old.ch ≠ h.ch →
        old.ch.val < s.slips.chans.length → t.completed old St.superseded [])) ∧
  (s.takes 0x0102 .ordinary h p →
    fields [⟨16, 4, true⟩, ⟨20, 4, 1 ≤ (w32 (arg p 20 4) - s.frame.number).toNat &&
      (w32 (arg p 20 4) - s.frame.number).toNat ≤ 65535⟩] p = .ok () →
    ∃ t id, exec (.frameNumberSet h p) s = .next t ∧ t.accepted 0x0102 h ∧ id.seq = h.seq ∧
      t.frame.pendNumber = some (w32 (arg p 16 4), w32 (arg p 20 4), id) ∧ t.frame.number = s.frame.number)

/-! ## Modes -/

/-- R62, R63, R64, R372: MODE_SET of a transition the table allows is accepted and pends with its delay, its drain (800 frames
where the field is 0), its test and its force; one for the mode the domain is in answers ACCEPTED and completes OK at once, and
ends those that wait for a delay; one
that the table does not give is MODE_CONFLICT and changes nothing. MODE_QUERY answers the modes of house, bays and ports. -/
def Obligations.ModeSlips : Prop := ∀ (s : State) (h : SlipHdr) (p : List Byte) (d : Domain) (new : Mode) (ok : Bool),
  (s.takes 0x0C01 .ordinary h p → domainOf (arg p 16 1) (arg p 18 2) = some d → Mode.ofCode (arg p 17 1) = some new →
    fields [⟨16, 1, arg p 16 1 < 3⟩, ⟨17, 1, arg p 17 1 < 6⟩, ⟨18, 2, true⟩, ⟨20, 2, true⟩, ⟨22, 2, true⟩, ⟨24, 2, true⟩,
      ⟨26, 1, arg p 26 1 < 2⟩] p = .ok () →
    (s.mode d ≠ new → s.modeAhead d ≠ new → slipMay d (s.modeAhead d) new = true → (new = .bringUp → s.gatedDom d = false) →
      ∃ t m, exec (.modeSet h p ok) s = .next t ∧ t.accepted 0x0C01 h ∧ m ∈ t.modes.pend ∧ m.dom = d ∧ m.target = new ∧
        m.delay = arg p 20 2 ∧ m.drain = (if arg p 22 2 = 0 then 800 else arg p 22 2) ∧ m.test = arg p 24 2 ∧
        m.force = (arg p 26 1 == 1) ∧ m.archiveOk = ok ∧ m.id.seq = h.seq ∧ (∀ e, t.mode e = s.mode e)) ∧
    (s.mode d = new → s.ringGone (slipId s 0x0C01 h .ordinary) = false → (∀ m ∈ s.modes.pend, m.dom = d → m.delayed = false) →
      ∃ t, exec (.modeSet h p ok) s = .next t ∧ t.answered 0x0C01 h St.accepted [] ∧
        t.completed (slipId s 0x0C01 h .ordinary) St.ok [] ∧ t.modes = s.modes) ∧
    (s.mode d ≠ new → s.modeAhead d ≠ new → slipMay d (s.modeAhead d) new = false →
      ∃ t, exec (.modeSet h p ok) s = .next t ∧ t.answered 0x0C01 h St.modeConflict [] ∧ s.sameButSlips t)) ∧
  (s.takes 0x0C02 .passable h p → fields [] p = .ok () →
    ∃ t r, exec (.modeQuery h p) s = .next t ∧ t.answered 0x0C02 h St.ok r ∧ r.length = 112 ∧ leAt r 0 1 = s.modes.house.code ∧
      (∀ b : Bay, leAt r (1 + b.val / 2) 1 / 16 ^ (b.val % 2) % 16 = (s.bayMode b.val).code) ∧ s.sameButSlips t)

/-! ## Carrels, the loader and the attaches -/

/-- R73, R74, R76, R79, R80, R87: a carrel turns in the turn cycle of its entry, and in no other cycle. The turn saves the
flip-flops of the entry that ran with their parity, and leaves its mesh wires at the values driven last; it counts an entry that
ran as idle as missed, up to 255. But for the frame's last turn, the next entry is the one in progress, be it idle, a test or a
folio. Into one that names a folio, is not to be throttled and waits for no reload, the turn loads that folio's saved state as
the upsets of its store left it, and shows and reports the groups whose parity does not hold. A bay whose rotas do not run makes
no turn. R67, R75, R100, R102, R271: in an active cycle of a folio its carrel writes a whole line of a bank of its quad, and
changes no other byte; it reads a line as it stands; an access of a pool bank in a cycle that the bank's share does not grant is
dropped, counted for the read and for the write, and reads as zeros. A pool bank of a bay in Closing is not reached, and a carrel
in no active cycle reaches no bank. -/
def Obligations.CarrelTurns : Prop :=
 (∀ (s : State) (b : Bay) (c : Pos) (v : TurnIn) (u : StoreUpset), s.wf = true →
  let k := ckey b.val c.val
  let x := s.carrel k
  let own := fkey b.val c.val x.curFolio
  let into := x.rota.entries[s.nextEntry k]?
  let again := s.turnAt k ≠ 62499 ∧ into.map entryFolio = some x.curFolio
  ((s.rotasRun b.val && s.turnDue k) = false → exec (.turn b c v u) s = .next s) ∧
  ((s.rotasRun b.val && s.turnDue k) = true → ∃ t, exec (.turn b c v u) s = .next t ∧
    (t.carrel k).turned = some (s.turnAt k) ∧ (t.carrel k).rota = x.rota ∧
    (t.carrel k).cur = (if s.turnAt k = 62499 then x.cur else s.nextEntry k) ∧
    (x.curFolio < 8 → x.idle = false →
      (t.folio own).store = (if again then v.live ^^^ u.bits else v.live) ∧
      (t.folio own).parity = (if again then stateParity v.live ^^^ u.parity else stateParity v.live) ∧
      (t.folio own).missed = 0 ∧ (t.carrel k).mesh = (x.mesh &&& ~~~v.drove) ||| (v.mesh &&& v.drove)) ∧
    (x.curFolio < 8 → x.idle = true →
      (t.folio own).store = (if again then (s.folio own).store ^^^ u.bits else (s.folio own).store) ∧
      (t.folio own).missed = min 255 ((s.folio own).missed + 1) ∧ (t.carrel k).mesh = x.mesh ∧ (t.carrel k).lift = x.lift) ∧
    (∀ w f, s.turnAt k ≠ 62499 → into = some w → entryFolio w = f → f < 8 → entryThrottle w = false →
      s.reloadIdles (fkey b.val c.val f) = false →
      let saved := x.idle = false ∧ x.curFolio = f
      let store := (if saved then v.live else (s.folio (fkey b.val c.val f)).store) ^^^ u.bits
      let parity := (if saved then stateParity v.live else (s.folio (fkey b.val c.val f)).parity) ^^^ u.parity
      (t.carrel k).idle = false ∧ (t.carrel k).live = store ∧
      (t.folio (fkey b.val c.val f)).faultMask = stateParity store ^^^ parity ∧
      (stateParity store ^^^ parity ≠ 0 → t.told .warning 0x0401 (b.val * 38 + s.phys b.val c.val))))) ∧
 (∀ (s : State) (b : Bay) (c : Pos) (k : Fin 4) (cycle : Fin 250) (l : BitVec 11) (w : Line) (found : List Found), s.wf = true →
   let n := lbank b.val c.val k.val
   let a := n * 65536 + 32 * l.toNat
   let phys := s.bankIndex b.val c.val k.val
   let reached := (s.bank n).pool = false ∨ (s.bayMode b.val ≠ .closing ∧ shareCycle (s.bank n).share.toNat cycle.val = true)
   (∀ rd wr, s.carrelRuns b.val c.val cycle.val = false → exec (.carrelBankAccess b c k cycle rd wr found) s = .next s) ∧
   (s.carrelRuns b.val c.val cycle.val = true → reached → s.physRetired phys = false →
     ((s.bank n).pool = true ∨ s.fabricWrites = true) →
     ∃ t, exec (.carrelBankAccess b c k cycle none (some (l, w)) found) s = .next t ∧
       t.layerRead a 32 = leBytes 32 w.toNat ∧ t.mem.zeroed = s.mem.zeroed ∧
       (∀ x, (x < phys * 65536 + 32 * l.toNat ∨ phys * 65536 + 32 * l.toNat + 32 ≤ x) →
         Sparse.look t.mem.layer x = Sparse.look s.mem.layer x) ∧
       t = { s with frame.cycle := cycle.val, mem.layer := t.mem.layer }) ∧
   (s.carrelRuns b.val c.val cycle.val = true → reached → s.physRetired phys = false → (found.take 4).any foundBad = false →
     ∃ t, exec (.carrelBankAccess b c k cycle (some l) none found) s = .next t ∧
       t.mem.lastData = s.layerRead a 32 ∧ t.mem.lastError = false ∧ t.mem.layer = s.mem.layer ∧
       getBit (t.carrel (ckey b.val c.val)).bankErr k.val = false) ∧
   (s.carrelRuns b.val c.val cycle.val = true → (s.bank n).pool = true → s.bayMode b.val ≠ .closing →
     shareCycle (s.bank n).share.toNat cycle.val = false →
     ∃ t, exec (.carrelBankAccess b c k cycle (some l) (some (l, w)) found) s = .next t ∧
       t.mem.lastData = List.replicate 32 0 ∧ t.mem.lastError = false ∧
       getBit (t.carrel (ckey b.val c.val)).bankErr k.val = false ∧ t.mem.layer = s.mem.layer ∧
       (t.bay b.val).calCount = min 65535 ((s.bay b.val).calCount + 2) ∧ (t.bay b.val).calPos = c.val ∧
       (t.bay b.val).calBank = k.val))

/-- R69, R71, R72, R89, R277: the loader's write ends with the archive copy's configuration in the folio; a load initialises the
state store and its parity, a reload keeps the store and is told to the design; the folio is in its rota where the rota in force
of a bay that runs names it, else loaded. A rewrite waits no longer once its entry has turned. An archive copy that cannot be
read ends its request, whose slip completes UNCORRECTABLE. (The write that ends a bay's apply under R267 goes on with the next
bay: `StartsAndSteps`.) -/
def Obligations.LoaderWrites : Prop := ∀ (s : State) (b : Bay) (c : Pos) (f : Folio), s.wf = true →
  (∀ it im cat, s.loadNext = some it → it.key = fkey b.val c.val f.val → it.waiting = false →
    s.loadFits it.key = true → s.copyLost it = false → s.copyFor it = some (im, cat) →
    (s.cfg.phase ≠ 4 ∨ (∃ x ∈ s.fab.loads, x.request = it.request ∧ x.key ≠ it.key) ∨
      ∀ r ∈ s.fab.reqs, r.num = it.request → ∀ b c, r.kind ≠ .apply b c) →
    ∃ t, exec (.folioWriteComplete b c f) s = .next t ∧ (t.folio it.key).config = im.config ∧ (t.folio it.key).init = im.init ∧
      (t.folio it.key).struck = [] ∧
      (t.folio it.key).state = s.writtenState it.key ((s.folio it.key).state == .reloading) ∧
      ((s.folio it.key).state = .reloading ∨ it.keep = true →
        (t.folio it.key).store = (s.folio it.key).store ∧ (t.folio it.key).reloaded = true) ∧
      ((s.folio it.key).state ≠ .reloading → it.keep = false → (t.folio it.key).store = im.init ∧
        (t.folio it.key).parity = stateParity im.init ∧ (t.folio it.key).missed = 0)) ∧
  (s.folioActive (fkey b.val c.val f.val) = false →
    ∃ t, exec (.reloadRewriteStart b c f) s = .next t ∧
      (∀ x ∈ t.fab.loads, x.key = fkey b.val c.val f.val → x.waiting = false) ∧
      t = { s with fab.loads := t.fab.loads }) ∧
  (∀ it r id, s.fab.loads.find? (fun x => keyBay x.key == b.val) = some it →
    s.fab.reqs.find? (fun r => r.num == it.request) = some r → r.id = some id → s.ringGone id = false →
    ∃ t, exec (.archiveReadError b) s = .next t ∧ t.completed id St.uncorrectable [] ∧ t.told .alarm 0x0802 0x38 ∧
      (∀ x ∈ t.fab.loads, x.request ≠ it.request) ∧ (∀ x ∈ t.fab.reqs, x.num ≠ it.request))

/-- R56, R106, R136: what a foreign line receives stands in the ingress buffer up to 2,048 bytes; a take is answered with
eight of them, oldest first; eight bytes sent stand in the egress buffer; a buffer that runs empty within a slot is an
underrun, and in foreign mode the rest of an open packet will be discarded. No other port is touched. R106, R204: while the
lookup stage has room, four beats make one word of an ingress item, and its header gives the words to come; a take is answered
by the beat at the head of those granted, or stands until there is one (log entry 80).
R110, R111, R442: under a switch each release of the old edition is noted, and the third ends the switch of its port; LO and
IX releases are noted for a Closing bay of that edition too. After eight frames the switch is forced: the binding is the successor's alone and
EDITION_FORCED is raised. -/
def Obligations.AttachesMove : Prop :=
  (∀ (s : State) (p : Port) (succ : Bool) (l : List (Byte × Bool)) (w : BindSt) (data : BitVec 64) (kk : BitVec 8), s.wf = true →
     s.bind? p.val = some w → s.native p.val = false →
     let e := (s.port p.val).egress
     ((s.portMode p.val = .service ∨ s.portMode p.val = .holdover) → s.takesIngress p.val = true →
       e.liBuf.length + l.length ≤ 2048 → ∃ t, exec (.lineAttachIngress p l) s = .next t ∧
         (t.port p.val).egress.liBuf = e.liBuf ++ l ∧ (∀ q, q ≠ p.val → t.port q = s.port q) ∧
         t = { s with ports := t.ports }) ∧
     (s.emits (s.server w (w.old.isSome && !succ) true) = true → servesPath w (·.li) succ = true → 8 ≤ e.liBuf.length →
       ∃ t, exec (.lineAttachTake p succ) s = .next t ∧ (t.port p.val).egress.liOut = some (liWord (e.liBuf.take 8)) ∧
         (t.port p.val).egress.liBuf = e.liBuf.drop 8 ∧ (∀ q, q ≠ p.val → t.port q = s.port q) ∧ t = { s with ports := t.ports }) ∧
     (s.emits (s.server w (w.old.isSome && !succ) true) = true → servesPath w (·.lo) succ = true →
       modeIn (s.portMode p.val) [.service, .holdover, .closing] = true → e.txDrop = false → e.loBuf.length + 8 ≤ 2048 →
       ∃ t, exec (.lineAttachSend p succ data kk) s = .next t ∧
         (t.port p.val).egress.loBuf = e.loBuf ++ (List.range 8).map (fun i => (BitVec.ofNat 8 (data.toNat / 256 ^ i), kk.getLsbD i)) ∧
         (∀ q, q ≠ p.val → t.port q = s.port q) ∧ t = { s with ports := t.ports }) ∧
     (modeIn (s.portMode p.val) [.service, .holdover, .closing] = true → e.loBuf.length ≤ s.lineRoom p.val →
       ∃ t, exec (.egressUnderrun p) s = .next t ∧ (t.port p.val).egress.loBuf = [] ∧
         (t.port p.val).lane.underrun = min 65535 ((s.port p.val).lane.underrun + 1) ∧
         ((t.port p.val).egress.txDrop = (e.txDrop || (foreign (s.port p.val).cfg && packetOpen e.txPacket e.loBuf))) ∧
         (∀ q, q ≠ p.val → t.port q = s.port q))) ∧
  (∀ (s : State) (p : Port) (succ : Bool) (w : BindSt) (beat : BitVec 64), s.wf = true →
   s.bind? p.val = some w → s.native p.val = false → s.emits (s.server w (w.old.isSome && !succ) false) = true →
   let e := (s.port p.val).egress
   let room := e.ixSkip = 0 ∧ e.ixLost = false ∧ e.stageBeats < stageRoom
   (servesPath w (·.ix) succ = true → room → e.ixOffered < 3 → ∃ t, exec (.itemAttachBeat p succ beat) s = .next t ∧
     (t.port p.val).egress.ixBeats = e.ixBeats ++ [beat] ∧ (t.port p.val).egress.ixOffered = e.ixOffered + 1 ∧
     (∀ q, q ≠ p.val → t.port q = s.port q) ∧ t = { s with ports := t.ports }) ∧
   (∀ b0 b1 b2 : BitVec 64, servesPath w (·.ix) succ = true → room → e.ixOffered = 3 → e.ixBeats = [b0, b1, b2] →
     let word : Line := beat ++ b2 ++ b1 ++ b0
     ∃ t, exec (.itemAttachBeat p succ beat) s = .next t ∧ (t.port p.val).egress.ixBeats = [] ∧
       (t.port p.val).egress.ixWords = e.ixWords ++ [(word, false)] ∧
       (t.port p.val).egress.ixLeft = (if e.ixLeft = 0 then hdrLen word else e.ixLeft) - 1 ∧
       (∀ q, q ≠ p.val → t.port q = s.port q) ∧ t = { s with ports := t.ports, xbar := t.xbar, queues := t.queues }) ∧
   (∀ v rest, e.exOut = ((succ && w.old.isSome), v) :: rest → ∃ t, exec (.egressTake p succ) s = .next t ∧
     (t.port p.val).egress.exTaken = some v ∧ (t.port p.val).egress.exOut = rest ∧ (∀ q, q ≠ p.val → t.port q = s.port q) ∧
     t = { s with ports := t.ports }) ∧
   (e.exOut.head?.map (·.1) ≠ some (succ && w.old.isSome) → ∃ t, exec (.egressTake p succ) s = .next t ∧
     (t.port p.val).egress.exTaken = none ∧
     (t.port p.val).egress.exTakes + (t.port p.val).egress.exTakesNew = e.exTakes + e.exTakesNew + 1 ∧
     ((t.port p.val).egress.exTakesNew = e.exTakesNew + bitOf (succ && w.old.isSome)) ∧
     (∀ q, q ≠ p.val → t.port q = s.port q) ∧ t = { s with ports := t.ports })) ∧
  (∀ (s : State) (p : Port) (w : BindSt) (o : SwitchBind), s.wf = true →
   s.bind? p.val = some w → w.old = some o →
   (s.releases p.val true = true → ∃ t, exec (.liRelease p) s = .next t ∧
     t.bind? p.val = some { w with old := if o.lo && o.ix then none else some { o with li := true } }) ∧
   (s.releases p.val true = true → ∃ t, exec (.loRelease p) s = .next t ∧
     (∀ cl ∈ s.modes.closing, ∀ b, cl.dom = .bay b → s.editionIn w.releaser b.val = true →
       { cl with lo := (p.val, w.releaser) :: cl.lo } ∈ t.modes.closing) ∧
     t.bind? p.val = some { w with old := if o.li && o.ix then none else some { o with lo := true } }) ∧
   (s.releases p.val false = true → ∃ t, exec (.ixRelease p) s = .next t ∧
     (∀ cl ∈ s.modes.closing, ∀ b, cl.dom = .bay b → s.editionIn w.releaser b.val = true →
       { cl with ix := (p.val, w.releaser) :: cl.ix } ∈ t.modes.closing) ∧
     t.bind? p.val = some { w with old := if o.li && o.lo then none else some { o with ix := true } }) ∧
   (8 ≤ o.frames → ∃ t, exec (.editionSwitchForced p) s = .next t ∧ t.bind? p.val = some { w with old := none } ∧
     t.told .warning 0x0402 p.val))

/-! ## Fabric slips -/

/-- R93, R94, R388: ROTA_SET adds its records to its channel's pending set, or abandons the set; with commit, a set that breaks a
rule is answered with that rule's status and discarded, one whose bays are all in Bindery takes effect at once where no earlier
commit of its channel or for its carrels waits, and any other waits for step 4. -/
def Obligations.RotaSetPendsOrCommits : Prop := ∀ (s : State) (h : SlipHdr) (p : List Byte), s.wf = true →
  s.takes 0x0401 .ordinary h p →
  let flags := arg p 16 1
  let count := arg p 18 2
  let ch := h.ch.val
  let recs := recordsAt p 20 (fit p 20 68 count)
  let set := recs.foldl addRecord (Sparse.get [] s.fab.pendRota ch)
  let waits := (∃ r ∈ set, s.bayMode r.bay ≠ .bindery) ∨
    ∃ c ∈ s.fab.changes, c.ch = h.ch ∨ ∃ x ∈ c.change.rotasOf, ∃ r ∈ set, x.key = r.key
  fieldsTo [⟨16, 1, flags < 3⟩, ⟨18, 2, count ≤ 59 && (0 < count || flags != 0)⟩] 20 p = .ok () →
  counted p 18 count 0 59 20 68 = .ok () → entriesOk 20 68 count (recordBad p) = .ok () →
  zeroFrom (20 + 68 * count) p = .ok () → set.length ≤ 1152 → (∀ r ∈ set, modeIn (s.bayMode r.bay) fabricModes = true) →
  (∀ r ∈ recs, modeIn (s.bayMode r.bay) fabricModes = true) → Sparse.rises s.fab.pendRota = true →
  (flags = 2 → ∃ t, exec (.rotaSet h p) s = .next t ∧ t.answered 0x0401 h St.ok [] ∧ Sparse.get [] t.fab.pendRota ch = []) ∧
  (flags = 0 → ∃ t, exec (.rotaSet h p) s = .next t ∧ t.answered 0x0401 h St.ok [] ∧ Sparse.get [] t.fab.pendRota ch = set ∧
    t.fab.changes = s.fab.changes ∧ t.fab.carrels = s.fab.carrels) ∧
  (∀ st, flags = 1 → s.commitFault set = some st → st ≠ St.lengthExcess → ∃ t, exec (.rotaSet h p) s = .next t ∧
    t.answered 0x0401 h st [] ∧ Sparse.get [] t.fab.pendRota ch = [] ∧ t.fab.changes = s.fab.changes ∧
    t.fab.carrels = s.fab.carrels) ∧
  (flags = 1 → s.commitFault set = none → ¬waits →
    s.ringGone (slipId s 0x0401 h .ordinary) = false →
    ∃ t, exec (.rotaSet h p) s = .next t ∧ t.answered 0x0401 h St.accepted [] ∧
      t.completed (slipId s 0x0401 h .ordinary) St.ok [] ∧ Sparse.get [] t.fab.pendRota ch = [] ∧
      ∀ r ∈ set, (∀ x ∈ set, x.key = r.key → x = r) → (t.carrel r.key).rota = r.rota) ∧
  (flags = 1 → s.commitFault set = none → waits →
    ∃ t c, exec (.rotaSet h p) s = .next t ∧ t.accepted 0x0401 h ∧ Sparse.get [] t.fab.pendRota ch = [] ∧
      t.fab.changes = s.fab.changes ++ [c] ∧ c.change = .rotas set ∧ c.ch = h.ch ∧ c.seq = h.seq ∧
      t.fab.carrels = s.fab.carrels)

/-- R71, R72, R103, R109, R387: FOLIO_LOAD takes each folio it names for the loader, from its former state to loading or
reloading; EDITION_LOAD takes the edition's folios, whose state becomes loading. EDITION_RETIRE removes an edition, with its
archive copies if asked, and empties the folios of one that is loaded. -/
def Obligations.LoadAndRetireSlips : Prop := ∀ (s : State) (h : SlipHdr) (p : List Byte), s.wf = true →
  (s.takes 0x0403 .ordinary h p →
    let n := arg p 16 2
    let offs := (List.range (fit p 20 4 n)).map fun i => 20 + 4 * i
    let keys := (offs.map fun o => fkey (arg p o 1) (arg p (o + 1) 1) (arg p (o + 2) 1)).eraseDups
    (∀ o ∈ offs, modeIn (s.bayMode (arg p o 1)) fabricModes = true) →
    fieldsTo [⟨16, 2, 1 ≤ n && n ≤ 1000⟩] 20 p = .ok () → counted p 16 n 1 1000 20 4 = .ok () →
    entriesOk 20 4 n (fun o => firstBad [(o, arg p o 1 < 32), (o + 1, arg p (o + 1) 1 < 36), (o + 2, arg p (o + 2) 1 < 8),
      (o + 3, arg p (o + 3) 1 == 0)]) = .ok () → zeroFrom (20 + 4 * n) p = .ok () →
    (∀ k ∈ keys, (s.folio k).state ≠ .loading ∧ (s.folio k).state ≠ .reloading ∧
      (Sparse.look s.cfg.archive k).isSome = true ∧ s.folioState k ≠ .absent) →
    ∃ t, exec (.folioLoad h p) s = .next t ∧ t.accepted 0x0403 h ∧
      (∀ k ∈ keys, (t.folio k).state = (if (s.folio k).state = .inRota then .reloading else .loading) ∧
        (∃ x ∈ t.fab.loads, x.key = k ∧ x.prior = (s.folio k).state ∧ x.request = s.fab.nextReq)) ∧
      (∃ r ∈ t.fab.reqs, r.num = s.fab.nextReq ∧ r.kind = .folios) ∧
      (∀ k, k ∉ keys → t.folio k = s.folio k)) ∧
  (∀ e, s.takes 0x0404 .ordinary h p → fields [⟨16, 2, arg p 16 2 < 1024⟩] p = .ok () →
    s.edition (arg p 16 2) = some e → (∀ b ∈ s.editionBays (arg p 16 2), modeIn (s.bayMode b) fabricModes = true) →
    (∀ k ∈ s.editionKeys (arg p 16 2), (s.folioState k = .empty ∨ s.folioState k = .loaded) ∧ s.inARota k = false ∧
      ((Sparse.look e.copies k).isSome = true ∨ (Sparse.look s.cfg.archive k).isSome = true)) → s.channelsClash e.channels = false →
    ∃ t, exec (.editionLoad h p) s = .next t ∧ t.accepted 0x0404 h ∧
      (t.edition (arg p 16 2)).map (·.state) = some 1 ∧
      (∀ k ∈ s.editionKeys (arg p 16 2), (t.folio k).state = .loading) ∧
      (∃ r ∈ t.fab.reqs, r.num = s.fab.nextReq ∧ r.kind = .edition (arg p 16 2))) ∧
  (∀ e, s.takes 0x040A .ordinary h p → fields [⟨16, 2, arg p 16 2 < 1024⟩, ⟨18, 1, arg p 18 1 < 2⟩] p = .ok () →
    s.edition (arg p 16 2) = some e → (∀ b ∈ s.editionBays (arg p 16 2), modeIn (s.bayMode b) fabricModes = true) →
    (e.state = 0 ∨ (e.state = 2 ∧ (∀ x ∈ s.bindsAhead [], x.2.edition ≠ arg p 16 2 ∧
      x.2.old.map (·.edition) ≠ some (arg p 16 2)) ∧ ∀ k ∈ s.editionKeys (arg p 16 2), s.inARota k = false)) →
    ∃ t, exec (.editionRetire h p) s = .next t ∧ t.answered 0x040A h St.ok [] ∧
      (arg p 18 1 = 1 → t.edition (arg p 16 2) = none ∧
        ∀ k ∈ s.editionKeys (arg p 16 2), ∀ x ∈ t.cfg.archive, x.1 ≠ k) ∧
      (arg p 18 1 = 0 → (t.edition (arg p 16 2)).map (·.state) = some 0 ∧ t.cfg.archive = s.cfg.archive) ∧
      (e.state = 2 → ∀ k ∈ s.editionKeys (arg p 16 2), t.folio k = .dflt))

/-- R107, R110, R388: EDITION_BIND of a loaded edition that fits is answered OK and its binding, or its unbinding, waits for
step 4; EDITION_SWITCH whose rotas and binding are good is accepted and waits too; BANK_SET that keeps the pool's contents is
answered OK and waits, an exchange is accepted and waits for the desk's copy. Nothing is in force before step 4. R45: a
deferred set whose folio has become empty, or whose 8,000th retry has failed, is abandoned: its slip completes FOLIO_EMPTY or
FOLIO_BUSY and CHANGE_ABANDONED is raised. -/
def Obligations.BindingsPendOrEnd : Prop :=
  (∀ (s : State) (h : SlipHdr) (p : List Byte),
   (s.takes 0x0405 .ordinary h p →
     let n := arg p 16 2
     let count := arg p 19 1
     let es := portEntriesAt p 20 count
     (∀ b ∈ s.editionBays n, modeIn (s.bayMode b) fabricModes = true) →
     fieldsTo [⟨16, 2, n < 1024⟩, ⟨18, 1, arg p 18 1 < 2⟩, ⟨19, 1, 1 ≤ count && count ≤ 144⟩] 20 p = .ok () →
     counted p 19 count 1 144 20 8 = .ok () → zeroFrom (20 + 8 * count) p = .ok () →
     (arg p 18 1 = 0 → entriesOk 20 8 count (portEntryBad s n p) = .ok () → s.tagTaken n none = false →
       entriesOk 20 8 count (fun o => firstBad [(o + 2, s.ceilingHolds (portEntryAt p o))]) = .ok () → s.editionIs n 2 = true →
       s.attachesFit (s.bindsAhead [.bind n es]) (s.rotaAhead [])
         ((s.attachKeys (s.bindsAhead [.bind n es])).map (· / 8)) = true →
       ∃ t c, exec (.editionBind h p) s = .next t ∧ t.answered 0x0405 h St.ok [] ∧ t.fab.changes = s.fab.changes ++ [c] ∧
         c.change = .bind n es ∧ c.ch = h.ch ∧ t.fab.binds = s.fab.binds) ∧
     (arg p 18 1 = 1 → entriesOk 20 8 count (fun o => firstBad [(o, arg p o 2 < 144)]) = .ok () →
       (∀ q ∈ (es.map (·.port)).filter fun q => s.boundTo n q, s.flowNames q (s.tagOf n) = false) →
       ∃ t c, exec (.editionBind h p) s = .next t ∧ t.answered 0x0405 h St.ok [] ∧ t.fab.changes = s.fab.changes ++ [c] ∧
         c.change = .unbind ((es.map (·.port)).filter fun q => s.boundTo n q) ∧ t.fab.binds = s.fab.binds)) ∧
   (s.takes 0x0406 .fencing h p →
     let old := arg p 16 2
     let succ := arg p 18 2
     let np := arg p 20 1
     let nr := arg p 21 1
     let es := portEntriesAt p 24 np
     let rs := recordsAt p (24 + 8 * np) (fit p (24 + 8 * np) 68 nr)
     let recs := rs.foldl addRecord []
     let c4 := Step4.switch old succ es recs
     (∀ b ∈ s.editionBays old ++ s.editionBays succ ++ rs.map (·.bay), modeIn (s.bayMode b) fabricModes = true) →
     fieldsTo [⟨16, 2, old < 1024⟩, ⟨18, 2, succ < 1024⟩, ⟨20, 1, 1 ≤ np && np ≤ 9⟩, ⟨21, 1, nr ≤ 58⟩] 24 p = .ok () →
     24 + 8 * np + 68 * nr ≤ 16 + p.length → entriesOk 24 8 np (portEntryBad s succ p) = .ok () →
     entriesOk (24 + 8 * np) 68 nr (recordBad p) = .ok () → zeroFrom (24 + 8 * np + 68 * nr) p = .ok () →
     entriesOk 24 8 np (fun o => firstBad [(o, s.boundTo old (arg p o 2))]) = .ok () → s.tagTaken succ (some old) = false →
     s.editionIs succ 2 = true → s.removesSwitching recs = false → s.rotaFault recs [c4] = none →
     s.attachesFit (s.bindsAhead [c4]) (s.rotaAhead recs) ((s.attachKeys (s.bindsAhead [c4])).map (· / 8)) = true →
     ∃ t c, exec (.editionSwitch h p) s = .next t ∧ t.accepted 0x0406 h ∧ t.fab.changes = s.fab.changes ++ [c] ∧
       c.change = c4 ∧ c.ch = h.ch ∧ c.seq = h.seq ∧ t.fab.binds = s.fab.binds) ∧
   (s.takes 0x0408 .ordinary h p →
     let b := arg p 16 1
     let count := arg p 18 2
     let offs := (List.range count).map fun i => 20 + 4 * i
     let key := fun o => lbank b (arg p o 1) (arg p (o + 1) 1)
     let bs := offs.map fun o => (key o, bankCfgOf (arg p (o + 2) 1))
     let cur := s.banksAhead []
     modeIn (s.bayMode b) fabricModes = true →
     counted p 18 count 1 144 20 4 = .ok () → zeroFrom (20 + 4 * count) p = .ok () →
     (arg p 17 1 = 0 →
       fieldsTo [⟨16, 1, b < 32⟩, ⟨17, 1, true⟩, ⟨18, 2, 1 ≤ count && count ≤ 144⟩] 20 p = .ok () →
       entriesOk 20 4 count (bankEntryBad p false) = .ok () →
       entriesOk 20 4 count (fun o => firstBad [(o + 2, shareAllowed (bankCfgOf (arg p (o + 2) 1)))]) = .ok () →
       s.bayMode b = .bindery → poolHolds (s.banksAhead [.banks bs]) = true →
       s.wordsMove cur (s.banksAhead [.banks bs]) = false →
       (∀ x ∈ bs, x.2.pool = false ∨ x.2.user = 0x13 ∨ s.bankRetired x.1 = false) →
       ∃ t c, exec (.bankSet h p) s = .next t ∧ t.answered 0x0408 h St.ok [] ∧ t.fab.changes = s.fab.changes ++ [c] ∧
         c.change = .banks bs ∧ t.fab.banks = s.fab.banks) ∧
     (arg p 17 1 = 1 → count = 2 → fieldsTo [⟨16, 1, b < 32⟩, ⟨17, 1, true⟩, ⟨18, 2, true⟩] 20 p = .ok () →
       entriesOk 20 4 count (bankEntryBad p true) = .ok () →
       (Sparse.get .dflt cur (key 20)).pool = true → (Sparse.get .dflt cur (key 24)).pool = true →
       ((Sparse.get .dflt cur (key 20)).user = 0x10 ∨ (Sparse.get .dflt cur (key 20)).user = 0x11) →
       (Sparse.get .dflt cur (key 24)).user = 0x13 → s.bankRetired (key 24) = false →
       ∃ t c, exec (.bankSet h p) s = .next t ∧ t.accepted 0x0408 h ∧ t.fab.changes = s.fab.changes ++ [c] ∧
         c.change = .exchange (key 20) (key 24) ∧ c.ready = false ∧ t.fab.banks = s.fab.banks))) ∧
  (∀ (s : State) (ch : Channel) (c : Change4) (id : SlipId),
   s.fab.changes.find? (fun c => c.ch == ch) = some c → s.abandonable c = true → c.id = some id → s.ringGone id = false →
   id.ch.val < s.slips.chans.length →
   ∃ t, exec (.changeAbandoned ch) s = .next t ∧ t.told .warning 0x0404 ch.val ∧
     t.completed id (if (s.changeFolios c.change).any (fun k => s.folioState k == .empty) then St.folioEmpty else St.folioBusy) [] ∧
     t.fab.changes.length < s.fab.changes.length)

/-! ## The memory layer and the side store -/

/-- R217, R227, R228, R229: a check word is read as it stands, with a corrected error counted and logged and an uncorrectable one
given in the error form and raised; bytes of one check word are written and no other byte is, but a partial write of a word
that cannot be corrected is refused. What a retired bank holds is not reached. Past the layer's last address there is nothing. -/
def Obligations.LayerAccess :
    Prop := ∀ (s : State) (req : Byte) (w a : Nat) (data : List Byte) (f : Found), s.wf = true →
  (layerSize ≤ 8 * w → exec (.memoryLayerRead req w f) s = .fault .noSuchAddress) ∧
  (layerSize < a + data.length → exec (.memoryLayerWrite req a data f) s = .fault .noSuchAddress) ∧
  (8 * w < layerSize → s.awake = true → s.servedAt req.toNat (8 * w) = true → s.physRetired (s.layerPhys (8 * w) / 65536) = false →
    ∃ t, exec (.memoryLayerRead req w f) s = .next t ∧ t.mem.layer = s.mem.layer ∧ t.mem.lastError = foundBad f ∧
      (foundBad f = false → t.mem.lastData = s.layerRead (8 * w) 8) ∧
      (∀ pos v, f = .corrected pos v → t.mem.ce = min 65535 (s.mem.ce + 1) ∧ t.told .info 0x0805 req.toNat) ∧
      (∀ syn, f = .uncorrectable syn → t.mem.ue = min 65535 (s.mem.ue + 1) ∧ t.told .alarm 0x0801 req.toNat)) ∧
  (8 * w < layerSize → s.awake = true → s.servedAt req.toNat (8 * w) = true → s.physRetired (s.layerPhys (8 * w) / 65536) = true →
    ∃ t, exec (.memoryLayerRead req w f) s = .next t ∧ t.mem.lastError = true ∧ t.mem.lastData = [] ∧
      t.mem.retireHits = min 65535 (s.mem.retireHits + 1) ∧ t.mem.layer = s.mem.layer) ∧
  (a + data.length ≤ layerSize → a % 8 + data.length ≤ 8 → s.awake = true → s.servedAt req.toNat a = true →
    s.physRetired (s.layerPhys a / 65536) = false → (a % 8 = 0 ∧ data.length = 8) ∨ foundBad f = false →
    ∃ t, exec (.memoryLayerWrite req a data f) s = .next t ∧ t.mem.lastError = false ∧
      t.layerRead a data.length = data ∧ t.mem.zeroed = s.mem.zeroed ∧
      (∀ x, (x < s.layerPhys a ∨ s.layerPhys a + data.length ≤ x) → Sparse.look t.mem.layer x = Sparse.look s.mem.layer x)) ∧
  (a + data.length ≤ layerSize → s.awake = true → s.servedAt req.toNat a = true →
    s.physRetired (s.layerPhys a / 65536) = false → ¬(a % 8 = 0 ∧ data.length = 8) → foundBad f = true →
    ∃ t, exec (.memoryLayerWrite req a data f) s = .next t ∧ t.mem.lastError = true ∧ t.mem.layer = s.mem.layer ∧
      t.told .warning 0x0804 req.toNat)

/-- R239, R243, R246, R251: a master that may read a volume is given a block's plaintext, its own writes that wait for a key among
it; one that may write it stores a whole block and changes no other byte, and where no counter is left and no key can be had the
write is held; without the right the access changes nothing, is counted and is named. A refresh of a side is counted and changes
no byte. -/
def Obligations.SideAccess : Prop :=
  ∀ (s : State) (m : SideMaster) (block : BitVec 29) (addr : BitVec 35) (data : List Byte) (f : Found) (path : List NodeFound)
    (side : Fin 2), s.awake = true → s.fabricIssues m.val = true → s.served (s.reqOf m.val) false = true →
  (s.sideGated (block.toNat / 2 ^ 24) = false → s.mayRead m.val (block.toNat / 2 ^ 24) = true →
    s.cipherView m.val (block.toNat / 2 ^ 24) = false → s.pageRetired (block.toNat / 64) = false →
    (walkPage (block.toNat / 64) path s).unbuilt block.toNat = false → foundBad f = false →
    ∃ t, exec (.sideStoreRead m block f path) s = .next t ∧ t.mem.lastError = false ∧
      t.mem.lastData = s.blockSeen (s.reqOf m.val) block.toNat ∧ t.mem.side = s.mem.side ∧ t.mem.layer = s.mem.layer) ∧
  (s.sideGated (block.toNat / 2 ^ 24) = false → s.mayRead m.val (block.toNat / 2 ^ 24) = false →
    ∃ t, exec (.sideStoreRead m block f path) s = .next t ∧ t.mem.lastError = true ∧
      t.mem.lastData = List.replicate (if m.val < 32 then 64 else 0) 0 ∧ t.mem.side = s.mem.side ∧
      t.crypto.denyMaster = m.val ∧ t.crypto.denyVolume = block.toNat / 2 ^ 24 ∧
      t.crypto.denyCount = min 65535 (s.crypto.denyCount + 1)) ∧
  ((32 ≤ m.val ∨ s.fabricWrites = true) → s.sideGated (addr.toNat / 2 ^ 30) = false →
    s.mayWrite m.val (addr.toNat / 2 ^ 30) = true → loaderArea addr.toNat = false →
    s.pageRetired (addr.toNat / 64 / 64) = false → addr.toNat % 64 = 0 → data.length = 64 →
    (bumpBlock (addr.toNat / 64) (walkPage (addr.toNat / 64 / 64) path s)).isSome = true →
    ∃ t, exec (.sideStoreWrite m addr data f path) s = .next t ∧ t.mem.lastError = false ∧
      (∀ i b, data[i]? = some b → Sparse.look t.mem.side (addr.toNat + i) = some b) ∧
      (∀ x, (x < addr.toNat ∨ addr.toNat + 64 ≤ x) → Sparse.look t.mem.side x = Sparse.look s.mem.side x) ∧
      t.mem.layer = s.mem.layer) ∧
  ((32 ≤ m.val ∨ s.fabricWrites = true) → s.sideGated (addr.toNat / 2 ^ 30) = false →
    s.mayWrite m.val (addr.toNat / 2 ^ 30) = true → loaderArea addr.toNat = false →
    s.pageRetired (addr.toNat / 64 / 64) = false → addr.toNat % 64 = 0 → data.length = 64 →
    bumpBlock (addr.toNat / 64) (walkPage (addr.toNat / 64 / 64) path s) = none →
    ∃ t, exec (.sideStoreWrite m addr data f path) s = .next t ∧ t.mem.lastError = false ∧
      t.crypto.held = s.crypto.held ++ [(s.reqOf m.val, addr.toNat, data)] ∧ t.mem.side = s.mem.side) ∧
  ((32 ≤ m.val ∨ s.fabricWrites = true) → s.sideGated (addr.toNat / 2 ^ 30) = false →
    s.mayWrite m.val (addr.toNat / 2 ^ 30) = false →
    ∃ t, exec (.sideStoreWrite m addr data f path) s = .next t ∧ t.mem.lastError = true ∧ t.mem.side = s.mem.side ∧
      t.crypto.denyMaster = m.val ∧ t.crypto.denyCount = min 65535 (s.crypto.denyCount + 1)) ∧
  (s.pkg.rails = true → s.clk.cold = false → ¬(s.clk.gatedSide0 = true ∧ side = 0) →
    exec (.sideRefresh side) s = .next { s with mem.refreshes := s.mem.refreshes.modify side.val (· + 1) })

/-- R226, R229: a region of the memory layer that no retirement touches reads back what is written to it, unit by unit, and no
byte outside it changes. -/
def Obligations.LayerRegionReadsBack : Prop := ∀ (s : State) (m req a : Nat) (data : List Byte), s.wf = true →
  (∀ i < data.length, s.servedAt req (a + i) = true) → 0 < data.length → a + data.length ≤ layerSize →
  (∀ i < data.length, s.physRetired (s.layerPhys (a + i) / 65536) = false) →
  (writeRegion 0 m req a data [] s).acc = .ok ∧
  (writeRegion 0 m req a data [] s).state.layerRead a data.length = data ∧
  (∀ x, (∀ i < data.length, x ≠ s.layerPhys (a + i)) →
    Sparse.look (writeRegion 0 m req a data [] s).state.mem.layer x = Sparse.look s.mem.layer x)

/-- R226, R392: READ and WRITE walk the units of their region and answer its status, the address of the first unit that failed,
and what was read; FILL and COPY are accepted and wait as the desk's work; when that work ends its status and address complete
the slip, and the stores hold what was written. -/
def Obligations.MemorySlips : Prop := ∀ (s : State) (h : SlipHdr) (p : List Byte) (bad : List UnitFound), s.wf = true →
  (s.takes 0x0801 .ordinary h p → s.userReach (arg p 16 1) (arg p 20 8) (arg p 28 4) = true →
    fields [⟨16, 1, arg p 16 1 < 2⟩, ⟨20, 8, arg p 20 8 < storeEnd (arg p 16 1)⟩,
      ⟨28, 4, 1 ≤ arg p 28 4 && arg p 28 4 ≤ 4064 && regionIn (arg p 16 1) (arg p 20 8) (arg p 28 4)⟩] p = .ok () →
    s.poolReach (arg p 16 1) (arg p 20 8) (arg p 28 4) = true →
    ∃ t w, exec (.read h p bad) s = .next t ∧
      w = readRegion (arg p 16 1) (actsAs h.ch.val) (actsReq h.ch.val) (arg p 20 8) (arg p 28 4) bad (s.begun 0x0801 h p) ∧
      t.answered 0x0801 h w.acc.status (leBytes 8 w.at_ ++ leBytes 4 w.bytes.length ++ leBytes 4 0 ++ w.bytes) ∧
      t.mem = w.state.mem ∧ t.mem.layer = s.mem.layer ∧ t.mem.side = s.mem.side) ∧
  (s.takes 0x0802 .ordinary h p → s.userReach (arg p 16 1) (arg p 20 8) (arg p 28 4) = true →
    fieldsTo [⟨16, 1, arg p 16 1 < 2⟩, ⟨20, 8, arg p 20 8 < storeEnd (arg p 16 1)⟩,
      ⟨28, 4, 1 ≤ arg p 28 4 && arg p 28 4 ≤ 4032 && regionIn (arg p 16 1) (arg p 20 8) (arg p 28 4)⟩] 32 p = .ok () →
    counted p 28 (arg p 28 4) 1 4032 32 1 = .ok () → zeroFrom (32 + arg p 28 4) p = .ok () →
    s.poolReach (arg p 16 1) (arg p 20 8) (arg p 28 4) = true →
    ∃ t w, exec (.write h p bad) s = .next t ∧
      w = writeRegion (arg p 16 1) (actsAs h.ch.val) (actsReq h.ch.val) (arg p 20 8) (slice p 16 (arg p 28 4)) bad
        (s.begun 0x0802 h p) ∧
      t.answered 0x0802 h w.acc.status (leBytes 8 w.at_) ∧ t.mem = w.state.mem) ∧
  (s.takes 0x0803 .ordinary h p → s.userReach (arg p 16 1) (arg p 20 8) (min (arg p 28 8) 0x40000000) = true →
    fields [⟨16, 1, arg p 16 1 < 2⟩, ⟨20, 8, arg p 20 8 < storeEnd (arg p 16 1) && arg p 20 8 % fillUnit (arg p 16 1) == 0⟩,
      ⟨28, 8, 1 ≤ arg p 28 8 && arg p 28 8 ≤ 0x40000000 && arg p 28 8 % fillUnit (arg p 16 1) == 0 &&
        regionIn (arg p 16 1) (arg p 20 8) (arg p 28 8)⟩, ⟨36, 8, true⟩] p = .ok () →
    s.poolReach (arg p 16 1) (arg p 20 8) (arg p 28 8) = true →
    s.sideMay (actsAs h.ch.val) (arg p 16 1) (arg p 20 8) true = true →
    s.sideMay (actsAs h.ch.val) (arg p 16 1) (arg p 20 8 + arg p 28 8 - 1) true = true →
    ∃ t w, exec (.fill h p) s = .next t ∧ t.accepted 0x0803 h ∧ t.mem.work = s.mem.work ++ [w] ∧ w.copy = false ∧
      w.dstStore = arg p 16 1 ∧ w.dst = arg p 20 8 ∧ w.len = arg p 28 8 ∧ w.pattern = BitVec.ofNat 64 (arg p 36 8) ∧
      w.id.seq = h.seq ∧ t.mem.layer = s.mem.layer ∧ t.mem.side = s.mem.side) ∧
  (∀ ss ds src dst len, s.takes 0x0804 .ordinary h p → ss = arg p 16 1 → ds = arg p 17 1 → src = arg p 20 8 →
    dst = arg p 28 8 → len = arg p 36 8 → s.userReach ss src (min len 0x40000000) = true →
    s.userReach ds dst (min len 0x40000000) = true →
    fields [⟨16, 1, ss < 2⟩, ⟨17, 1, ds < 2⟩, ⟨20, 8, src < storeEnd ss && src % fillUnit ss == 0⟩,
      ⟨28, 8, dst < storeEnd ds && dst % fillUnit ds == 0⟩,
      ⟨36, 8, 1 ≤ len && len ≤ 0x40000000 && len % copyUnit ss ds == 0 && regionIn ss src len && regionIn ds dst len &&
        !(ss == ds && overlaps src dst len)⟩] p = .ok () →
    s.poolReach ss src len = true → s.poolReach ds dst len = true → s.sideMay (actsAs h.ch.val) ss src false = true →
    s.sideMay (actsAs h.ch.val) ds dst true = true → s.sideMay (actsAs h.ch.val) ds (dst + len - 1) true = true →
    ∃ t w, exec (.copy h p) s = .next t ∧ t.accepted 0x0804 h ∧ t.mem.work = s.mem.work ++ [w] ∧ w.copy = true ∧
      w.srcStore = ss ∧ w.dstStore = ds ∧ w.src = src ∧ w.dst = dst ∧ w.len = len ∧ w.id.seq = h.seq) ∧
  (∀ w, s.awake = true → s.mem.work.find? (fun w => w.copy == false && w.len ≤ w.moved) = some w → s.ringGone w.id = false →
    w.id.writes (fillRegion w { s with mem.work := s.mem.work.erase w }).acc.status = true →
    ∃ t r, exec (.memoryFillDone bad) s = .next t ∧ r = fillRegion w { s with mem.work := s.mem.work.erase w } ∧
      t.completed w.id r.acc.status (leBytes 8 r.at_) ∧ t.mem = r.state.mem) ∧
  (∀ w, s.awake = true → s.mem.work.find? (fun w => w.copy == true && w.len ≤ w.moved) = some w → s.ringGone w.id = false →
    w.id.writes (copyRegion w bad { s with mem.work := s.mem.work.erase w }).acc.status = true →
    ∃ t r, exec (.memoryCopyDone bad) s = .next t ∧ r = copyRegion w bad { s with mem.work := s.mem.work.erase w } ∧
      t.completed w.id r.acc.status (leBytes 8 r.at_) ∧ t.mem = r.state.mem)

/-- R231, R232: RETIRE adds a page or a bank to the table, a bank in force only once its bay is in Bindery, once only; with
persist it joins the repair record to be written. RETIRE_CLEAR removes the entry it names, or all. -/
def Obligations.RetireSlips : Prop := ∀ (s : State) (h : SlipHdr) (p : List Byte),
  let kind := arg p 16 1
  let n := arg p 20 4
  let index := if kind = 0 then n else s.bankIndex (n / 144) (n / 4 % 36) (n % 4)
  (s.takes 0x0805 .ordinary h p →
    fields [⟨16, 1, kind < 2⟩, ⟨17, 1, arg p 17 1 < 2⟩, ⟨20, 4, if kind = 0 then n < 2 ^ 23 else n < 4608⟩] p = .ok () →
    s.mem.retired.length < 1024 →
    (kind = 0 ∨ (Sparse.get .dflt (s.banksAhead []) n).pool = false ∨ (Sparse.get .dflt (s.banksAhead []) n).user = 0x13) →
    ∃ t, exec (.retire h p) s = .next t ∧ t.answered 0x0805 h St.ok (leBytes 2 t.mem.retired.length) ∧
      (∃ r ∈ t.mem.retired, r.bank = (kind == 1) ∧ r.index = index) ∧
      ((∀ r ∈ s.mem.retired, r.bank = (kind == 1) → r.index ≠ index) → t.mem.retired = s.mem.retired ++
        [{ bank := kind == 1, index := index, inForce := kind == 0 || s.bayMode (n / 144) == .bindery }]) ∧
      ((∃ r ∈ s.mem.retired, r.bank = (kind == 1) ∧ r.index = index) → t.mem.retired = s.mem.retired) ∧
      (arg p 17 1 = 0 → t.stock.recordWrite = s.stock.recordWrite)) ∧
  (s.takes 0x0806 .fencing h p → s.modes.house = .bindery →
    fields [⟨16, 1, kind < 3⟩, ⟨20, 4, if kind = 0 then n < 2 ^ 23 else if kind = 1 then n < 4864 else n = 0⟩] p = .ok () →
    ∃ t, exec (.retireClear h p) s = .next t ∧
      t.answered 0x0806 h St.ok (leBytes 2 (s.mem.retired.length - t.mem.retired.length)) ∧
      t.mem.retired = s.mem.retired.filter (fun r => !(kind == 2 || (r.bank == (kind == 1) && r.index == n))))

/-! ## Rights, keys and the random source -/

/-- R244, R253, R254, R393: RIGHTS_SET gives a master the access and the view on the volumes of its mask and leaves every other
right as it was; RE-KEY is accepted and its volume is pending or sweeping; KEY_FUSE_SET writes a fuse once; a random source
that fails its tests is alarmed and makes no more keys. -/
def Obligations.KeysAndRights : Prop := ∀ (s : State) (h : SlipHdr) (p : List Byte), s.wf = true →
  (s.takes 0x0901 .ordinary h p → s.modes.house ≠ .closing →
    let m := arg p 16 1
    let acc := arg p 17 1
    let view := arg p 18 1 == 1
    let mask := arg p 20 4
    fields [⟨16, 1, m < 39⟩, ⟨17, 1, acc < 4⟩, ⟨18, 1, arg p 18 1 < 2 && !(view && 2 ≤ acc)⟩, ⟨20, 4, mask != 0⟩] p = .ok () →
    (s.clk.gatedSide0 = false ∨ m = 33 ∨ acc = 0 ∨ mask % 65536 = 0) →
    (m ≠ 32 ∨ (acc = 3 ∧ view = false) ∨ (s.delayVolumes.any fun v => mask.testBit v) = false) →
    (m ≠ 38 ∨ fuseAllows s.pkg.debugFuse acc view = true) →
    ∃ t, exec (.rightsSet h p) s = .next t ∧ t.answered 0x0901 h St.ok [] ∧
      (∀ v < 32, mask.testBit v = true → t.access m v = acc ∧ t.cipherView m v = view) ∧
      (∀ v < 32, mask.testBit v = false → t.access m v = s.access m v ∧ t.cipherView m v = s.cipherView m v) ∧
      (∀ x, x ≠ m → t.rights x = s.rights x) ∧ t.mem = s.mem) ∧
  (s.takes 0x0903 .ordinary h p → s.modes.house ≠ .closing → fields [⟨16, 1, arg p 16 1 < 32⟩] p = .ok () →
    ∃ t, exec (.rekey h p) s = .next t ∧ t.accepted 0x0903 h ∧ (∃ id ∈ (t.vol (arg p 16 1)).slips, id.seq = h.seq ∧ id.ch = h.ch) ∧
      ((s.vol (arg p 16 1)).state = 0 → (t.vol (arg p 16 1)).state = 1 ∧ (t.vol (arg p 16 1)).watermark = 0 ∧
        arg p 16 1 ∈ t.crypto.rekeyOrder) ∧
      ((s.vol (arg p 16 1)).state ≠ 0 → (t.vol (arg p 16 1)).state = (s.vol (arg p 16 1)).state)) ∧
  (s.takes 0x0906 .fencing h p → (s.modes.house = .intake ∨ s.modes.house = .bindery) →
    let target := arg p 16 1
    let code := arg p 17 1
    let key := arg p 32 32
    fields [⟨16, 1, target < 2⟩,
      ⟨17, 1, if target = 1 then 1 ≤ code && code ≤ 2 && s.pkg.debugFuse.toNat ≤ code else code = 0⟩,
      ⟨32, 32, if target = 0 then key != 0 else key = 0⟩] p = .ok () →
    (target = 1 → ∃ t, exec (.keyFuseSet h p) s = .next t ∧ t.answered 0x0906 h St.ok [] ∧
      t.pkg.debugFuse = BitVec.ofNat 2 code ∧ t.pkg.streamKey = s.pkg.streamKey) ∧
    (target = 0 → s.pkg.streamKey = none → ∃ t, exec (.keyFuseSet h p) s = .next t ∧ t.answered 0x0906 h St.ok [] ∧
      t.pkg.streamKey = some (BitVec.ofNat 256 key)) ∧
    (target = 0 → s.pkg.streamKey ≠ none → ∃ t, exec (.keyFuseSet h p) s = .next t ∧ t.answered 0x0906 h St.writeOnce [] ∧
      s.sameButSlips t)) ∧
  (s.up = true → s.crypto.rngOk = true → ∃ t, exec .rngFail s = .next t ∧ t.crypto.rngOk = false ∧ t.crypto.rngFail = true ∧
    t.told .alarm 0x0904 0) ∧
  (s.takes 0x0905 .passable h p → s.modes.house ≠ .closing → fields [⟨20, 4, arg p 20 4 < 2 ^ 23⟩] p = .ok () →
    s.mayRead (actsAs h.ch.val) (arg p 20 4 / 2 ^ 18) = true → s.sideGated (arg p 20 4 / 2 ^ 18) = false →
    s.pageRetired (arg p 20 4) = false →
    ∃ t r, exec (.ledgerRead h p) s = .next t ∧ t.answered 0x0905 h St.ok r ∧ r.length = 576 ∧
      r.take 64 = nodeBytes (t.ledger (nodeOver 0 (arg p 20 4))) ∧ t.mem.side = s.mem.side)

/-! ## Lanes and marks -/

/-- R112, R115 to R117, R128 to R130, R132, R135: what a receiver finds on a lane within the width is kept in the port's own
counters and bits: sync gained with its starting disparity, sync lost, a group that decodes at the other disparity, one that
does not decode or that the port does not take, which goes on as K30.7, Q columns, re-centring of a slot port's buffers, and a
tracker at its limit; an elastic slip sets every lane's fill to 32 and raises an event. An open item ends poisoned and the rest of it is
discarded; where none is open no other port and nothing else changes. R121 to R126, R132, R198: a mark
with a bad CRC, or whose copy on another lane has one (log entry 89), is counted and changes nothing else but what an idle checker
counts; a good frame mark of the port's own step counts towards its training, another
is a mark error; a good slot mark gives its slot number, and in Service the credits its fields have grown by; a skip set drops
or adds one column of a trunk where the fill has left 28 to 36, and is three invalid symbols on each lane of a slot port. -/
def Obligations.LaneErrorsAndSkips : Prop :=
  (∀ (s : State) (p : Port) (k : Fin 4), s.wf = true → s.listens p.val = true → s.inWidth p.val k.val = true →
   let l := (s.port p.val).lane
   (∀ positive, ∃ t, exec (.laneSyncAcquired p ⟨k, positive⟩) s = .next t ∧ s.onlyPort t p.val ∧
     (t.port p.val).lane = { l with inSync := setBit l.inSync k.val true, rxPositive := setBit l.rxPositive k.val positive }) ∧
   (getBit l.inSync k.val = true → (s.port p.val).neg.window = false → ∃ t, exec (.laneSyncLost p k) s = .next t ∧
     (t.port p.val).lane.inSync = setBit l.inSync k.val false ∧ (t.port p.val).lane.syncLoss = min 255 (l.syncLoss + 1) ∧
     (t.port p.val).lane.badThisSlot = (l.badThisSlot || !expectsMarks (s.port p.val).cfg) ∧
     (t.port p.val).lane.itemOpen = false ∧
     (l.itemOpen = true → (t.port p.val).lane.discardRun = true ∧ min 65535 (l.discIn + 1) ≤ (t.port p.val).lane.discIn) ∧
     (l.itemOpen = false → s.onlyPort t p.val)) ∧
   (isTrunk p.val = false → ∃ t, exec (.receiveBufferRecentre p k) s = .next t ∧
     (t.port p.val).lane = { l with discIn := min 65535 (l.discIn + 1) } ∧ s.onlyPort t p.val)) ∧
  (∀ (s : State) (p : Port) (k : Fin 4) (x : BadSymbol), s.wf = true → s.hearsPins p.val = true → s.inWidth p.val k.val = true →
   let l := (s.port p.val).lane
   (∀ g positive, x = .group g positive → ∀ y, decodeGroup g.toNat positive = .wrongDisparity y →
     s.refusesSym p.val k.val y = false → ∃ t, exec (.invalidSymbol p k x) s = .next t ∧
     (t.port p.val).lane.disparity = l.disparity.modify k.val (fun n => min 65535 (n + 1)) ∧
     (t.port p.val).lane.codeViol = l.codeViol ∧
     (t.port p.val).lane.rxPositive = setBit l.rxPositive k.val (groupDisparity g.toNat positive)) ∧
   (x = .misplacedComma ∨ (∃ g positive, x = .group g positive ∧ (decodeGroup g.toNat positive = .violation ∨
       ∃ y, s.refusesSym p.val k.val y = true ∧
         (decodeGroup g.toNat positive = .good y ∨ decodeGroup g.toNat positive = .wrongDisparity y))) →
     ∃ t, exec (.invalidSymbol p k x) s = .next t ∧
       (t.port p.val).lane.codeViol = l.codeViol.modify k.val (fun n => min 65535 (n + 1)) ∧
       (t.port p.val).lane.disparity = l.disparity ∧
       (s.native p.val = true → (t.port p.val).lane.itemOpen = false) ∧
       (s.native p.val = true → l.itemOpen = false → s.onlyPort t p.val) ∧
       (s.native p.val = false → (s.portMode p.val = .service ∨ s.portMode p.val = .holdover) → s.takesIngress p.val = true →
         (s.port p.val).egress.liBuf.length < 2048 →
         (t.port p.val).egress.liBuf = (s.port p.val).egress.liBuf ++ [k307] ∧ s.onlyPort t p.val))) ∧
  (∀ (s : State) (p : Port), s.wf = true → s.listens p.val = true →
   let l := (s.port p.val).lane
   (s.nearEnd p.val = false → (s.port p.val).cfg.setting = 3 → ∃ t, exec (.qColumnReceived p) s = .next t ∧
     (t.port p.val).lane = { l with discIn := min 65535 (l.discIn + 1) } ∧ s.onlyPort t p.val) ∧
   (∀ (j : Fin 2) (high : Bool), isTrunk p.val = false → s.inWidth p.val j.val = true →
     ∃ t, exec (.lanePhaseLimit p j high) s = .next t ∧
     (t.port p.val).lane.track = l.track.set j.val (if high then 16 else -16) ∧ (t.port p.val).lane.limitTold = true ∧
     (t.port p.val).lane.limitHits = l.limitHits.modify j.val (fun n => min 255 (n + 1)) ∧
     (l.limitTold = false → t.told .warning 0x0504 p.val)) ∧
   (isTrunk p.val = true → ∃ t, exec (.elasticSlip p) s = .next t ∧ (t.port p.val).lane.fill = [32, 32, 32, 32] ∧
     (t.port p.val).lane.slips = min 255 (l.slips + 1) ∧ (t.port p.val).lane.itemOpen = false ∧
     t.told .warning 0x0505 p.val)) ∧
  (∀ (s : State) (p : Port) (sym : List Byte) (copies : List (List Byte)) (aligned : Bool) (phase : Int) (fill : List Nat),
     s.wf = true → s.hearsPins p.val = true →
   let l := (s.port p.val).lane
   let n := (s.port p.val).neg
   let good := crcGood 5 sym = true ∧ codesGood (leAt sym 3 1) = true ∧
     ∀ c ∈ copies.take (lanesOf n.cur.width - 1), crcGood 5 c = true
   (foreign (s.port p.val).cfg = false → ¬good →
     ∃ t, exec (.frameMarkReceived p (sym :: copies) aligned phase) s = .next t ∧
       (t.port p.val).lane = { l with crcFail := min 65535 (l.crcFail + 1), prbsErr := (t.port p.val).lane.prbsErr } ∧
       (s.portMode p.val ≠ .bindery → (t.port p.val).lane.prbsErr = l.prbsErr) ∧
       (t.port p.val).neg = n ∧ s.onlyPort t p.val) ∧
   (foreign (s.port p.val).cfg = false → good →
     ∃ t, exec (.frameMarkReceived p (sym :: copies) aligned phase) s = .next t ∧
       (leAt sym 3 1 % 16 = n.cur.rate → leAt sym 3 1 / 16 % 4 = n.cur.width →
         (t.port p.val).neg = { n with markSeen := n.markSeen || (aligned && s.allSync p.val) } ∧
         (t.port p.val).lane.markErr = l.markErr ∧
         (s.native p.val = true → Sparse.look t.frame.trunkPhase (p.val - 128) = some phase)) ∧
       (leAt sym 3 1 % 16 ≠ n.cur.rate ∨ leAt sym 3 1 / 16 % 4 ≠ n.cur.width →
         (t.port p.val).neg = n ∧ (t.port p.val).lane = { l with markErr := min 255 (l.markErr + 1) } ∧ s.onlyPort t p.val)) ∧
   (expectsMarks (s.port p.val).cfg = true →
     let w := s.markWidth p.val
     (crcGood (3 + 4 * w) sym = false ∨ 250 ≤ leAt sym 0 1 → ∃ t, exec (.slotMarkReceived p sym) s = .next t ∧
       (t.port p.val).lane = { l with crcFail := min 65535 (l.crcFail + 1), badThisSlot := true,
                                      prbsErr := (t.port p.val).lane.prbsErr } ∧
       (t.port p.val).credit = (s.port p.val).credit ∧ s.onlyPort t p.val) ∧
     (crcGood (3 + 4 * w) sym = true → leAt sym 0 1 < 250 → ∃ t, exec (.slotMarkReceived p sym) s = .next t ∧
       (t.port p.val).lane.lastSlotNo = some (leAt sym 0 1) ∧ (t.port p.val).lane.lastMark = some (markFields w sym) ∧
       (t.port p.val).lane.markThisSlot = true ∧
       (∀ m, l.lastSlotNo = some m → (t.port p.val).lane.seqErr =
         if leAt sym 0 1 = (m + 1) % 250 then l.seqErr else min 255 (l.seqErr + 1)) ∧
       (∀ prev, s.portMode p.val = .service → pacedByCredit (s.port p.val).cfg = true → l.lastMark = some prev →
         (s.port p.val).credit.fresh = false → l.marksLost ≤ 3 →
         (t.port p.val).credit.grant = (List.range 32).map fun i => nth (s.port p.val).credit.grant i +
           (nth (markFields w sym) i + 2 ^ w - nth prev i) % 2 ^ w) ∧
       (s.portMode p.val ≠ .service → (t.port p.val).credit = (s.port p.val).credit) ∧ s.onlyPort t p.val)) ∧
   (isTrunk p.val = true → ∃ t, exec (.skipSetReceived p fill) s = .next t ∧ s.onlyPort t p.val ∧
     (36 < nth fill 0 → (t.port p.val).lane.fill = fill.map (· - 1) ∧ (t.port p.val).lane.deletes = min 4095 (l.deletes + 1)) ∧
     (nth fill 0 < 28 → (t.port p.val).lane.fill = fill.map (· + 1) ∧ (t.port p.val).lane.inserts = min 4095 (l.inserts + 1)) ∧
     (28 ≤ nth fill 0 → nth fill 0 ≤ 36 → (t.port p.val).lane = { l with fill := fill })) ∧
   (isTrunk p.val = false → ∃ t, exec (.skipSetReceived p fill) s = .next t ∧
     ∀ k < lanesOf n.cur.width, k < l.codeViol.length →
       nth (t.port p.val).lane.codeViol k = min 65535 (nth l.codeViol k + 3)))

/-- R52, R128: four slots without a good mark send a port in Service to Holdover at the next boundary, 16 good ones back, and
250 without any to Bring-up. An item that starts on a native trunk is open, in Closing it is discarded; its end closes it, and
none of what crosses to an engine stays open; its poison closes it too. What was open when an item starts is closed as poisoned.
R138, R139, R151: a checker that locks is marked locked, one that loses lock keeps that fact, and counts
what it found outside bring-up; an injection of the kind set is counted, and the single one clears its request. -/
def Obligations.MarksItemsAndCheckers : Prop :=
  (∀ (s : State) (p : Port) (n : Nat), s.wf = true → s.listens p.val = true →
   let l := (s.port p.val).lane
   let runs := s.native p.val = true ∧ (s.portMode p.val = .service ∨ s.portMode p.val = .holdover)
   (s.portMode p.val = .service → 4 ≤ l.marksLost →
     exec (.portMarksLost p) s = .next { s with modes.autos := s.modes.autos ++ [(.port p, .holdover)] }) ∧
   (s.portMode p.val = .holdover → 16 ≤ l.goodMarks →
     exec (.portMarksRestored p) s = .next { s with modes.autos := s.modes.autos ++ [(.port p, .service)] }) ∧
   (s.portMode p.val = .holdover → 250 ≤ l.noMarkSlots →
     exec (.portMarksAbsent p) s = .next { s with modes.autos := s.modes.autos ++ [(.port p, .bringUp)] }) ∧
   (runs → ∃ t, exec (.itemStartReceived p) s = .next t ∧
       (t.port p.val).lane.itemOpen = true ∧ (t.port p.val).lane.discardRun = false ∧
       (l.itemOpen = false → (t.port p.val).lane = { l with itemOpen := true, discardRun := false } ∧ s.onlyPort t p.val)) ∧
   (s.native p.val = true → s.portMode p.val = .closing → ∃ t, exec (.itemStartReceived p) s = .next t ∧
     (t.port p.val).lane.itemOpen = false ∧ (t.port p.val).lane.discardRun = true ∧
     (l.itemOpen = false →
       (t.port p.val).lane = { l with discardRun := true, discIn := min 65535 (l.discIn + 1) } ∧ s.onlyPort t p.val)) ∧
   (runs ∨ (s.native p.val = true ∧ s.portMode p.val = .closing) →
     (∃ t, exec (.itemEndReceived p n) s = .next t ∧
       (t.port p.val).lane.itemOpen = false ∧ (t.port p.val).lane.discardRun = false ∧
       (l.itemOpen = true → n % 32 = 0 → (∀ x ∈ t.xbar, x.port = p.val → x.isOpen = false) ∧
         (∀ x ∈ t.queues, x.2.prodPort = some p.val → x.2.prodOpen = false) ∧
         (t.port p.val).lane = { l with itemOpen := false, discardRun := false } ∧
         t = { s with ports := t.ports, xbar := t.xbar, queues := t.queues })) ∧
     ∃ t, exec (.itemPoisonReceived p) s = .next t ∧
       (t.port p.val).lane.itemOpen = false ∧ (t.port p.val).lane.discardRun = false ∧
       (l.itemOpen = false → (t.port p.val).lane = { l with discardRun := false } ∧ s.onlyPort t p.val))) ∧
  (∀ (s : State) (p : Port) (k : Fin 4) (errors : Nat), s.wf = true →
   s.listens p.val = true → s.inWidth p.val k.val = true →
   let l := (s.port p.val).lane
   (s.checkerOn p.val k.val = true → ∃ t, exec (.prbsCheckerLock p k) s = .next t ∧
     (t.port p.val).lane = { l with chkLock := setBit l.chkLock k.val true } ∧ s.onlyPort t p.val) ∧
   (s.checkerOn p.val k.val = true → getBit l.chkLock k.val = true → ∃ t, exec (.prbsLockLost p k errors) s = .next t ∧
     (t.port p.val).lane.chkLock = setBit l.chkLock k.val false ∧
     (t.port p.val).lane.lockLost = setBit l.lockLost k.val true ∧
     (s.portMode p.val = .bringUp → (t.port p.val).lane.prbsErr = l.prbsErr ∧
       (t.port p.val).neg.checkBad = setBit (s.port p.val).neg.checkBad k.val true) ∧
     (s.portMode p.val ≠ .bringUp →
       (t.port p.val).lane.prbsErr = l.prbsErr.modify k.val fun n => min 0xFFFFFFFF (n + errors)) ∧ s.onlyPort t p.val) ∧
   (modeIn (s.portMode p.val) [.bindery, .service, .holdover] = true →
     ctrlRate (s.testCtrl p.val k.val) ≠ 0 → ctrlKind (s.testCtrl p.val k.val) ≠ 0 →
     ∃ t, exec (.errorInjection p k) s = .next t ∧
       (t.port p.val).lane.injCount = l.injCount.modify k.val (fun n => min 0xFFFFFF (n + 1)) ∧
       (t.port p.val).lane.testCtrl = l.testCtrl ∧ (s.nearEnd p.val = false → s.onlyPort t p.val)) ∧
   (modeIn (s.portMode p.val) [.bindery, .service, .holdover] = true →
     ctrlOnce (s.testCtrl p.val k.val) = true → ctrlKind (s.testCtrl p.val k.val) ≠ 0 →
     ∃ t, exec (.injOnce p k) s = .next t ∧
       (t.port p.val).lane.injCount = l.injCount.modify k.val (fun n => min 0xFFFFFF (n + 1)) ∧
       (t.port p.val).lane.testCtrl = l.testCtrl.modify k.val (fun c => setBit c 31 false) ∧
       (s.nearEnd p.val = false → s.onlyPort t p.val)))

/-! ## Bring-up -/

/-- R127, R144 to R148, R152 to R154: a good set of each kind has its effect on the negotiation: capabilities fix the target, a
propose of the next step is accepted for the eighth boundary, an accept of one of the frames proposed fixes the switch, two
confirms confirm the step, a fail
counts and reverts, a refusal is counted; a set with a bad CRC is counted and does nothing else. -/
def Obligations.NegotiationSets : Prop := ∀ (s : State) (p : Port) (sym : List Byte), s.wf = true →
  let n := (s.port p.val).neg
  (s.hears p sym 1 → (n.state = 1 ∧ n.window = false) ∨ n.state = 3 →
    ∃ t, exec (.negCapabilitiesReceived p sym) s = .next t ∧ (t.port p.val).neg.partnerValid = true ∧
      (t.port p.val).neg.partnerRates = BitVec.ofNat 9 (leAt sym 1 2) ∧
      (t.port p.val).neg.partnerWidths = BitVec.ofNat 3 (leAt sym 3 1) ∧
      (t.port p.val).neg.partnerFailed = BitVec.ofNat 9 (leAt sym 7 2) ∧
      (t.port p.val).neg.ownRates = (s.ownMasks p.val).1 ∧ (t.port p.val).neg.ownWidths = (s.ownMasks p.val).2 ∧
      (t.port p.val).neg.target = ((ladder (t.port p.val).neg).getLast?).getD step0 ∧ s.onlyPort t p.val) ∧
  (s.hears p sym 2 → isTrunk p.val = true → (s.port p.val).cfg.role ≠ 0 → n.propose = none → n.won = false → n.state = 3 →
    failing n = false → nextStep n n.cur = some (setStep sym) →
    ∃ t, exec (.negProposeReceived p sym) s = .next t ∧ (t.port p.val).neg.state = 4 ∧ (t.port p.val).neg.leader = false ∧
      (t.port p.val).neg.switchAt = some (setStep sym, 8) ∧
      (t.port p.val).neg.answer = some (setStep sym, setFrame sym) ∧ s.onlyPort t p.val) ∧
  (∀ first last, s.hears p sym 3 → n.propose = some (setStep sym, first, last) →
    (setFrame sym - first).toNat ≤ (last - first).toNat →
    ∃ t, exec (.negAcceptReceived p sym) s = .next t ∧ (t.port p.val).neg.state = 4 ∧ (t.port p.val).neg.propose = none ∧
      (t.port p.val).neg.switchAt = some (setStep sym, framesTo (setFrame sym) (s.frame.number.truncate 16)) ∧
      s.onlyPort t p.val) ∧
  (s.hears p sym 4 → expectsResult n sym = true → n.ownResult = some true →
    ∃ t, exec (.negConfirmReceived p sym) s = .next t ∧ (t.port p.val).neg.confirmed = some n.cur ∧
      (t.port p.val).neg.confirmedN = min 255 (n.confirmedN + 1) ∧
      (t.port p.val).neg.state = (if n.cur = n.target then 5 else 3) ∧ s.onlyPort t p.val) ∧
  (s.hears p sym 5 → 1 ≤ n.state → n.state ≤ 5 → setStep sym = n.cur → failing n = false → n.cur ≠ step0 →
    failedBefore n = false →
    ∃ t, exec (.negFailReceived p sym) s = .next t ∧ (t.port p.val).neg.failedN = min 255 (n.failedN + 1) ∧
      (t.port p.val).neg.revert = some (prevStep n n.cur) ∧ failedBefore (t.port p.val).neg = true ∧ s.onlyPort t p.val) ∧
  (∀ f, s.hears p sym 6 → n.propose = some (setStep sym, f) →
    ∃ t, exec (.negRefuseReceived p sym) s = .next t ∧ (t.port p.val).neg.refusals = min 255 (n.refusals + 1) ∧
      (t.port p.val).neg.refusedRun = n.refusedRun + 1 ∧ s.onlyPort t p.val) ∧
  (s.hearsPins p.val = true → foreign (s.port p.val).cfg = false → crcGood 13 sym = false →
    ∀ c ∈ [Instr.negCapabilitiesReceived p sym, .negProposeReceived p sym, .negAcceptReceived p sym, .negConfirmReceived p sym,
      .negFailReceived p sym, .negRefuseReceived p sym],
    ∃ t, exec c s = .next t ∧ (t.port p.val).neg = n ∧
      (t.port p.val).lane.crcFail = min 65535 ((s.port p.val).lane.crcFail + 1) ∧ s.onlyPort t p.val)

/-- R129, R150 to R153, R156, R163: training within 8 UI marks the port trained, with the positions it chose on a slot port; the
PRBS window opens at the boundary of the slot that follows the last ready, its checkers searching anew, and closes with this end's
result; each timeout and loss ends as its rule says. -/
def Obligations.BringUpSteps :
    Prop := ∀ (s : State) (p : Port) (ui0 ui1 : Int) (f0 f1 : Fin 64) (page : BitVec 16) (pass : Bool), s.wf = true →
    s.bringsUp p.val = true →
  let n := (s.port p.val).neg
  let c := (s.port p.val).cfg
  (s.mayTrain p.val = true → s.skewFits p.val ui0 ui1 = true →
    ∃ t, exec (.portTrained p ui0 ui1 f0 f1) s = .next t ∧ (t.port p.val).neg.trained = true ∧
    (isTrunk p.val = false → (t.port p.val).lane.trainedFine = [f0.val, f1.val] ∧
      (t.port p.val).lane.trainedUi = (if unmarked c then [c.fixedSkew, c.fixedSkew] else [ui0, ui1]) ∧
      (t.port p.val).lane.track = [0, 0]) ∧ s.onlyPort t p.val) ∧
  (n.windowDue = true → mayOpen n = true →
    ∃ t, exec (.prbsWindowStart p) s = .next t ∧ (t.port p.val).neg = { n with
      state := 2, window := true, windowDue := false, windowSent := 0, checked := [0, 0, 0, 0], checkBad := 0 } ∧
      (t.port p.val).lane.chkLock = 0 ∧ s.onlyPort t p.val) ∧
  (s.windowOver p.val = true → failing n = false → pass = true → n.checkBad = 0 → n.partnerResult ≠ some true →
    ∃ t, exec (.prbsWindowEnd p pass) s = .next t ∧
    (t.port p.val).neg.window = false ∧ (t.port p.val).neg.ownResult = some true ∧ (t.port p.val).lane.chkLock = 0 ∧
    s.onlyPort t p.val) ∧
  (s.windowOver p.val = true → failing n = false → pass = false ∨ n.checkBad ≠ 0 → n.cur ≠ step0 → failedBefore n = false →
    ∃ t, exec (.prbsWindowEnd p pass) s = .next t ∧
    (t.port p.val).neg.window = false ∧ (t.port p.val).neg.failedN = min 255 (n.failedN + 1) ∧
    (t.port p.val).neg.revert = some (prevStep n n.cur) ∧ s.onlyPort t p.val) ∧
  (n.state = 1 → n.trained = false → n.cur ≠ step0 → 16000 ≤ n.onStep → failing n = false →
    ∃ t, exec (.trainingTimeout p) s = .next t ∧ (t.port p.val).neg.timeoutsN = min 255 (n.timeoutsN + 1) ∧
      (t.port p.val).neg.failedN = min 255 (n.failedN + 1)) ∧
  (s.awaitsLock p.val = true ∨ awaitsResult n = true → 1000 ≤ n.waited → failing n = false →
    ∃ t, exec (.confirmTimeout p) s = .next t ∧ (t.port p.val).neg.failedN = min 255 (n.failedN + 1)) ∧
  (n.state = 3 → failing n = false → (n.propose ≠ none ∧ (4000 ≤ n.waited ∨ 16 ≤ n.refusedRun)) ∨
      (n.propose = none ∧ n.leader = false ∧ 8000 ≤ n.waited) →
    ∃ t, exec (.negTimeout p) s = .next t ∧ (t.port p.val).neg.state = 5 ∧ (t.port p.val).neg.settled = true ∧
      (t.port p.val).neg.timeoutsN = min 255 (n.timeoutsN + 1) ∧ t.told .warning 0x0503 p.val) ∧
  ((n.state = 3 ∨ n.state = 4) → 500 ≤ n.outSync → ∃ t, exec (.confirmedStepSyncLoss p) s = .next t ∧
    (t.port p.val).neg = { n with restart := true, propose := none, switchAt := none, answer := none } ∧ s.onlyPort t p.val) ∧
  ((n.state = 1 ∧ n.cur = step0 ∧ ¬(n.trained = true ∧ n.partnerValid = true)) ∨ (n.state = 6 ∧ n.trained = false) ∨
      (n.state = 7 ∧ n.settled = false) → 2000000 ≤ n.inBringUp → n.noPartnerTold = false →
    ∃ t, exec (.portNoPartner p) s = .next t ∧ (t.port p.val).neg = { n with noPartnerTold := true } ∧
      t.told .warning 0x0502 p.val) ∧
  (n.backoff = 1 → ∃ t, exec (.collisionBackoffExpiry p) s = .next t ∧ (t.port p.val).neg = { n with backoff := 0 } ∧
    s.onlyPort t p.val) ∧
  (n.state = 7 → foreign c = true → s.allSync p.val = true → c.setting = 3 ∨ fullDuplex page = true →
    ∃ t, exec (.foreignLinkUp ⟨p, page⟩) s = .next t ∧ (t.port p.val).neg = { n with settled := true } ∧
    (t.port p.val).lane.foreignUp = true ∧ (c.setting ≠ 3 → (t.port p.val).lane.partnerPage = some page) ∧ s.onlyPort t p.val)

/-- R131, R149, R164, R296, R302, R397: a trunk whose recovered reference is lost holds its frequency and TRUNK_REF_LOST is
raised; clocks that have settled lock their loop, or start a port's transmitters unless a trip idled them; PORT_SET takes its
references at once and its other settings for the next entry to Bring-up. -/
def Obligations.PortSettings : Prop := ∀ (s : State) (t0 : Trunk) (loop : Fin 6) (p : Port) (h : SlipHdr) (q : List Byte),
    s.wf = true →
  (∀ i : Trunk, s.awake = true → (s.port (128 + i.val)).cfg.refSrc = 2 → (s.port (128 + i.val)).cfg.refTrunk = t0.val →
    (s.port (128 + i.val)).lane.refHeld = false →
    ∃ t, exec (.trunkRefLost t0) s = .next t ∧ (t.port (128 + i.val)).lane.refHeld = true ∧
      t.told .warning 0x0506 (128 + i.val)) ∧
  (s.up = true → exec (.loopRelocked loop none) s =
    .next { s with clk.loopLock := setBit s.clk.loopLock loop.val true }) ∧
  (s.awake = true → s.portMode p.val ≠ .intake → Domain.port p ∉ s.modes.closed → ∃ t, exec (.loopRelocked loop (some p)) s = .next t ∧
    (t.port p.val).lane = { (s.port p.val).lane with txIdle := (s.port p.val).lane.tripIdle } ∧ s.onlyPort t p.val) ∧
  (s.takes 0x0501 .ordinary h q →
    let port := arg q 16 2
    let trunk := isTrunk port
    let set := arg q 18 1
    let skew := toInt 8 (arg q 25 1)
    let refSrc := arg q 26 1
    modeIn (s.portMode port) [.intake, .bringUp, .service, .holdover, .bindery] = true →
    fields [⟨16, 2, port < 144⟩, ⟨18, 1, if trunk then set ≤ 3 else set ≤ 1⟩, ⟨19, 1, arg q 19 1 ≤ topRate port⟩,
      ⟨20, 1, arg q 20 1 ≤ topWidth port⟩, ⟨21, 1, if trunk then arg q 21 1 ≤ 2 else arg q 21 1 = 0⟩,
      ⟨22, 1, arg q 22 1 ≤ topRate port⟩, ⟨23, 1, arg q 23 1 ≤ topWidth port⟩, ⟨24, 1, arg q 24 1 < 4⟩,
      ⟨25, 1, -8 ≤ skew && skew ≤ 8⟩, ⟨26, 1, if trunk then refSrc ≤ 2 else refSrc = 0⟩, ⟨27, 1, arg q 27 1 < 16⟩,
      ⟨28, 1, arg q 28 1 < 2⟩, ⟨29, 1, arg q 29 1 < 4⟩] q = .ok () →
    (set ≠ 1 ∨ (fixedOk s port (arg q 22 1) 0 (arg q 19 1) (arg q 20 1) = true ∧
      fixedOk s port 0 (arg q 23 1) (arg q 19 1) (arg q 20 1) = true ∧
      (trunk = false ∨ (arg q 24 1).testBit 1 = true ∨ arg q 23 1 = 0))) →
    (trunk = false ∨ refCycle s (port - 128) refSrc (arg q 27 1) = false) →
    ∃ t c, exec (.portSet h q) s = .next t ∧ t.answered 0x0501 h St.ok [] ∧
      (t.port port).cfg = { (s.port port).cfg with refSrc := refSrc, refTrunk := arg q 27 1 } ∧
      (t.port port).cfgNext = (if c = (s.port port).cfgNext.getD (s.port port).cfg then (s.port port).cfgNext else some c) ∧
      c.setting = set ∧ c.maxRate = arg q 19 1 ∧ c.maxWidth = arg q 20 1 ∧ c.role = arg q 21 1 ∧ c.fixedRate = arg q 22 1 ∧
      c.fixedWidth = arg q 23 1 ∧ c.fixedSkew = skew ∧ c.refSrc = refSrc ∧ c.refTrunk = arg q 27 1 ∧
      c.remoteFault = arg q 29 1 ∧ (arg q 28 1 = 1 → (t.port port).neg.rateCap = 0xF ∧ (t.port port).neg.widthCap = 0 ∧
        (t.port port).neg.failedOnce = 0) ∧
      ∀ x, x ≠ port → t.port x = s.port x)

/-! ## Flows and queues -/

/-- R194, R195, R197: a header whose flow is valid and gives its port and tag is placed: its items and words count, its units are
charged, and it waits in the crossbar for its engine with its class, behind all that wait; one that no flow takes is a miss, and
one whose context cannot be read an error, both counted at the port's engine and told once a frame. No queue changes. A port, or
an edition's bay, whose mode gives no items places none. -/
def Obligations.FlowLookupPlaces : Prop := ∀ (s : State) (p : Port) (hdr : Line) (found : List Found),
  s.wf = true → s.up = true → s.standsFirst p.val hdr = true →
  let k := hdrFlow hdr
  let f := s.flow k
  let e := engineOf p.val
  let i := 2 * queueEngine f.egQueue + bitOf f.ordinary
  (s.producesItems p.val = false → exec (.flowLookup p hdr found) s = .next s) ∧
  (s.producesItems p.val = true → found.any foundBad = false → f.valid = true → f.inPort = p.val → f.inTag = hdrTag hdr →
    ∃ t, exec (.flowLookup p hdr found) s = .next t ∧ (t.flow k).itemsIn = f.itemsIn + 1 ∧
      (t.flow k).wordsIn = f.wordsIn + BitVec.ofNat 64 (hdrLen hdr) ∧
      t.xbar = s.xbar ++ [{ port := p.val, queue := f.egQueue, hdr := setOrd f.ordinary hdr, index := i,
                             isOpen := (s.arrivalAt p.val hdr).1, poisoned := (s.arrivalAt p.val hdr).2 }] ∧
      (t.port p.val).credit.charged = addAt (s.port p.val).credit.charged i (unitsOf (hdrLen hdr)) ∧
      t.queues = s.queues ∧ (∀ j, j ≠ k → t.flow j = s.flow j) ∧ ∀ r, r ≠ p.val → t.port r = s.port r) ∧
  (s.producesItems p.val = true → found.any foundBad = false → f.valid = false ∨ f.inPort ≠ p.val ∨ f.inTag ≠ hdrTag hdr →
    ∃ t, exec (.flowLookup p hdr found) s = .next t ∧ (t.engine e).miss = min 65535 ((s.engine e).miss + 1) ∧
      (t.engine e).toldMiss = true ∧ ((s.engine e).toldMiss = false → t.told .warning 0x0703 e) ∧
      t.queues = s.queues ∧ t.flows = s.flows ∧ t.xbar = s.xbar) ∧
  (s.producesItems p.val = true → found.any foundBad = true →
    ∃ t, exec (.flowLookup p hdr found) s = .next t ∧ (t.engine e).contextErr = min 65535 ((s.engine e).contextErr + 1) ∧
      (t.engine e).toldContext = true ∧ ((s.engine e).toldContext = false → t.told .alarm 0x0701 e) ∧
      t.queues = s.queues ∧ t.xbar = s.xbar)

/-- R27, R172 to R178, R182: the header that waits first for its queue leaves the crossbar, once; where its item fits the enabled
queue it is stored at the write pointer and the queue takes it in; one
that does not fit is dropped and leaves a marker; a further word is stored, an item that has all its words is complete, and one
that ends poisoned is marked as an abort where it has been opened, and dropped whole where it has not. -/
def Obligations.ItemsAdmitted : Prop := ∀ (s : State) (q : Queue) (x : XbarItem) (w : Line), s.wf = true →
  let d := s.queue q.val
  let hdr := x.hdr
  let f := s.flow (hdrFlow hdr)
  let n := hdrLen hdr
  let e := queueEngine q.val
  let fed := s.consumers f.egPort
  let same := d.wptrSh = d.wptr ∧ d.rptrSh = d.rptr ∧ d.parityBad = false
  (s.waitingFor q.val = none → exec (.itemHeaderTaken q w .none) s = .next s) ∧
  (s.waitingFor q.val = some x → d.busy = false → s.stepDone 4 = true → f.valid = false ∨ (f.delayEn = false ∧ f.paired = false) → d.enable = true → same →
    isMalformed hdr = false → isD fed = false → n ≤ d.cap - 1 →
    (d.occupied + n ≤ d.cap - 1 →
      ∃ t, exec (.itemHeaderTaken q hdr .none) s = .next t ∧ t.xbar = s.xbar.erase x ∧
        (t.queue q.val).word d.wptr.toNat = hdr ∧ (t.queue q.val).prodPort = some x.port ∧
        (t.queue q.val).prodOpen = x.isOpen ∧ (t.queue q.val).prodPoison = x.poisoned ∧
        (t.queue q.val).wptr = d.ptr (d.wptr.toNat + 1) ∧ (t.queue q.val).wptrSh = d.ptr (d.wptr.toNat + 1) ∧
        (t.queue q.val).prodMid = true ∧ (t.queue q.val).prodHdr = hdr ∧ (t.queue q.val).prodTaken = 1 ∧
        (t.queue q.val).items = d.items + 1 ∧ (t.queue q.val).rptr = d.rptr ∧
        ∀ r, r ≠ q.val → t.queue r = s.queue r) ∧
    (d.cap - 1 < d.occupied + n → isH fed = false →
      ∃ t, exec (.itemHeaderTaken q hdr .none) s = .next t ∧ t.xbar = s.xbar.erase x ∧ (t.queue q.val).dropping = true ∧
        (t.queue q.val).tailMarker = true ∧ (t.queue q.val).prodMid = false ∧ (t.queue q.val).rptr = d.rptr ∧
        (t.engine e).dropItems = min 65535 ((s.engine e).dropItems + 1) ∧
        (d.tailMarker = false → (t.queue q.val).wptr = d.ptr (d.wptr.toNat + 1) ∧
          (t.queue q.val).word d.wptr.toNat = (s.lossNow q.val hdr 0x01).line) ∧
        ∀ r, r ≠ q.val → t.queue r = s.queue r)) ∧
  (d.dropping = false → d.arriving = none → d.discarding = false → d.prodMid = true →
    (same → d.prodTaken < hdrLen d.prodHdr →
      ∃ t, exec (.itemWordWrite q w .none) s = .next t ∧ (t.queue q.val).word d.wptr.toNat = w ∧
        (t.queue q.val).wptr = d.ptr (d.wptr.toNat + 1) ∧ (t.queue q.val).prodTaken = d.prodTaken + 1 ∧
        (t.queue q.val).rptr = d.rptr ∧ ∀ r, r ≠ q.val → t.queue r = s.queue r) ∧
    (d.prodTaken = hdrLen d.prodHdr → d.prodPoison = false →
      ∃ t, exec (.itemComplete q) s = .next t ∧
        t.queue q.val = { d with prodMid := false, prodPort := none, prodOpen := false, prodPoison := false } ∧
        t = { s with queues := t.queues } ∧ ∀ r, r ≠ q.val → t.queue r = s.queue r) ∧
    (same → d.opened = true →
      ∃ t, exec (.itemPoisonedEnd q) s = .next t ∧ (t.queue q.val).prodMid = false ∧ (t.queue q.val).abortPending = true ∧
        (t.queue q.val).abortCause.getLsbD 2 = true ∧ t = { s with queues := t.queues } ∧
        ∀ r, r ≠ q.val → t.queue r = s.queue r) ∧
    (same → d.opened = false →
      ∃ t, exec (.itemPoisonedEnd q) s = .next t ∧ (t.queue q.val).prodMid = false ∧ (t.queue q.val).tailMarker = true ∧
        (t.queue q.val).items = d.items - 1 ∧ (t.engine e).dropItems = min 65535 ((s.engine e).dropItems + 1) ∧
        ∀ r, r ≠ q.val → t.queue r = s.queue r))

/-- R179 to R184: the pop that the calendar allows returns the word at the read pointer and advances it, or the abort word that
is due; a header of more than a word opens its item; a pop that is not allowed returns nothing and takes nothing. A flush whose
producer has ended writes its marker and its slips complete with what was flushed. -/
def Obligations.ItemsPopped : Prop := ∀ (s : State) (q : Queue) (p : Nat), s.wf = true →
  let d := s.queue q.val
  let same := d.wptrSh = d.wptr ∧ d.rptrSh = d.rptr ∧ d.parityBad = false
  (s.portOfQueue q.val = some p →
    (s.popGranted p q.val = true → d.abortNext = false → same →
      ∃ t, exec (.queuePop q .clean .none) s = .next t ∧ (t.queue q.val).popped = some (d.word d.rptr.toNat) ∧
        (t.queue q.val).rptr = d.ptr (d.rptr.toNat + 1) ∧ (t.queue q.val).wptr = d.wptr ∧
        (d.consMid = false → (t.queue q.val).consMid = decide (1 < hdrLen (d.word d.rptr.toNat))) ∧
        (d.consMid = true → (t.queue q.val).consMid = decide (d.consTaken + 1 < hdrLen d.consHdr)) ∧
        (∀ r, r ≠ q.val → t.queue r = s.queue r) ∧ ∀ r, r ≠ p → (t.port r).egress = (s.port r).egress) ∧
    (s.popGranted p q.val = true → d.abortNext = true → same →
      ∃ t w, exec (.queuePop q .clean .none) s = .next t ∧ (t.queue q.val).popped = some w ∧ hdrKind w = 2 ∧
        hdrFlow w = hdrFlow d.consHdr ∧ (t.queue q.val).abortPending = false ∧ (t.queue q.val).consMid = false ∧
        (t.queue q.val).rptr = d.rptr ∧ (t.queue q.val).wptr = d.wptr) ∧
    (s.popGranted p q.val = false →
      ∃ t, exec (.queuePop q .clean .none) s = .next t ∧ t.queue q.val = { d with popped := none } ∧
        t = { s with queues := t.queues })) ∧
  (d.flush = true → d.discarding = false → same →
    ∃ t, exec (.flushMarkerWrite q) s = .next t ∧ (t.queue q.val).flush = false ∧
      ((d.flushItems ≠ 0 ∨ d.flushWords ≠ 0) → (t.queue q.val).word d.wptr.toNat = (d.flushLoss q.val).line ∧
        (t.queue q.val).tailMarker = true ∧ (t.queue q.val).wptr = d.ptr (d.wptr.toNat + 1)) ∧
      (d.flushItems = 0 → d.flushWords = 0 → (t.queue q.val).wptr = d.wptr) ∧
      (∀ r, r ≠ q.val → t.queue r = s.queue r) ∧
      ∀ id ∈ d.flushSlips, s.ringGone id = false → id.ch.val < s.slips.chans.length → id.noReply = false →
        t.completed id St.ok (if d.flushItems = 0 ∧ d.flushWords = 0 then leBytes 8 0
          else leBytes 4 d.flushItems ++ leBytes 4 d.flushWords))

/-- R209: the head of a delay line leaves at its release time, read whole, to its pair's merge or to its queue; copies of a
pointer that differ reset the line. R211, R212: the merge passes on the item that is next, discards one it has passed, waits
for the other member on one that is ahead, and when both are ahead, or the wait is over, declares the gap; a pair quiet for
8,000 frames takes its number anew. -/
def Obligations.DelayAndMerge : Prop := ∀ (s : State) (fl : Flow), s.wf = true →
  let k := fl.val
  let f := s.flow k
  let lo := s.mergeOf k
  let m := s.flow lo
  let hi := m.twin
  (∀ it rest, f.dl = it :: rest → s.releasable f it = true → f.dlWptrSh = f.dlWptr → f.dlRptrSh = f.dlRptr →
    (f.paired = true → (dlReads f it.words.length f.dlRptr.toNat [] s).1.all id = true →
      ∃ t, exec (.delayLineRelease fl [] .none) s = .next t ∧ (t.flow k).dl = rest ∧
        (t.flow k).dlRptr = dlMove f.dlRptr it.words.length f ∧
        (t.flow k).heads = f.heads ++ [{ it with release := s.frame.time }]) ∧
    (f.paired = false →
      ∃ t, exec (.delayLineRelease fl [] .none) s = .next t ∧ (t.flow k).dl = rest ∧
        (t.flow k).dlRptr = dlMove f.dlRptr it.words.length f ∧ ∀ j, j ≠ k → t.flow j = s.flow j)) ∧
  (∀ it rest flip, f.dl = it :: rest → s.releasable f it = true → flip ≠ 0 → f.dlRptrSh = f.dlRptr → f.dlWptrSh = f.dlWptr →
    ∃ t, exec (.delayLineRelease fl [] (.readPtr flip)) s = .next t ∧ t.told .alarm 0x0702 k ∧ (t.flow k).dl.length = 1 ∧
      (t.flow k).dlRptr = 0 ∧ (t.flow k).dlWptr = 1) ∧
  (f.paired = true → f.twin ≠ k → hi = k ∨ lo = k →
    (∀ j o it, (j = lo ∧ o = hi) ∨ (j = hi ∧ o = lo) → s.judged j = some it → s.judged o = none →
      (it.marker = false → hdrKind (it.words.headD 0) ≠ 1 → it.poisoned = false → m.mergeSet = true →
        (it.seq = m.mergeNext → (s.queue m.egQueue).prodMid = false → (s.queue m.egQueue).discarding = false →
          (s.queue m.egQueue).flush = false →
          ∃ t, exec (.mergeStep fl) s = .next t ∧ (t.flow lo).mergeNext = (m.mergeNext + 1) % 65536 ∧
            (t.flow lo).waiting = false ∧ (t.flow j).heads = (s.flow j).heads.drop 1) ∧
        (it.seq ≠ m.mergeNext → 1 ≤ seqDist m.mergeNext it.seq → seqDist m.mergeNext it.seq ≤ 32768 → it.complete = true →
          ∃ t, exec (.mergeStep fl) s = .next t ∧ (t.flow j).duplicates = (s.flow j).duplicates + 1 ∧
            (t.flow j).heads = (s.flow j).heads.drop 1 ∧ (t.flow lo).mergeNext = m.mergeNext ∧ t.queues = s.queues) ∧
        (it.seq ≠ m.mergeNext → 32768 < seqDist m.mergeNext it.seq → m.waiting = false →
          ∃ t, exec (.mergeStep fl) s = .next t ∧ (t.flow lo).waiting = true ∧ (t.flow lo).waitStart = w32 it.release ∧
            (t.flow j).heads = (s.flow j).heads ∧ (t.flow lo).mergeNext = m.mergeNext ∧ t.queues = s.queues)) ∧
      (s.waitOver lo = true →
        ∃ t, exec (.mergeGapTimeout fl) s = .next t ∧ (t.flow lo).mergeNext = it.seq ∧ (t.flow lo).waiting = false ∧
          (t.flow lo).gaps = m.gaps + 1 ∧ (t.flow lo).mergeCause = 0 ∧
          (t.engine (queueEngine m.egQueue)).gaps = min 255 ((s.engine (queueEngine m.egQueue)).gaps + 1))) ∧
    (∀ a b, s.judged lo = some a → s.judged hi = some b → m.mergeSet = true →
      (∀ it ∈ [a, b], it.marker = false ∧ hdrKind (it.words.headD 0) ≠ 1 ∧ it.poisoned = false ∧ it.seq ≠ m.mergeNext ∧
        32768 < seqDist m.mergeNext it.seq) →
      ∃ t, exec (.mergeStep fl) s = .next t ∧ (t.flow lo).gaps = m.gaps + 1 ∧ (t.flow lo).waiting = false ∧
        (t.flow lo).mergeNext = (if seqDist a.seq m.mergeNext ≤ seqDist b.seq m.mergeNext then a.seq else b.seq)) ∧
    (8000 ≤ m.quiet →
      ∃ t, exec (.mergeAutoResync fl) s = .next t ∧ t.flow lo = { m with mergeSet := false, waiting := false } ∧
        (∀ j, j ≠ lo → t.flow j = s.flow j) ∧ t = mirror s { s with flows := t.flows }))

/-- R166, R184, R191, R390: QUEUE_SET that keeps the rules enables the queue empty with its settings, or writes the threshold of
one in service, or takes it out; QUEUE_FLUSH empties an enabled queue and completes with the counts of what it flushed once the
marker is written; one of a disabled queue completes at once with zeros. -/
def Obligations.QueueSlips : Prop := ∀ (s : State) (h : SlipHdr) (p : List Byte), s.wf = true →
  let q := arg p 16 2
  let d := s.queue q
  (s.modes.house ≠ .closing → s.takes 0x0601 .ordinary h p →
    let flags := arg p 18 1
    let code := arg p 19 1
    let t := arg p 20 2
    let base := arg p 22 3
    fields [⟨16, 2, q < 16384⟩, ⟨18, 1, flags < 4⟩, ⟨19, 1, code ≤ 12⟩, ⟨20, 2, t ≤ 320⟩, ⟨22, 3, base < 2 ^ 20⟩] p = .ok () →
    t ≤ queueCap code - 1 → 16 * base + queueCap code ≤ 8192 * s.spaceGroups (queueEngine q) →
    (flags.testBit 0 = true → getBit s.clk.gatedQe (queueEngine q) = false → d.enable = false →
      (∀ r ∈ s.enabledRuns (queueEngine q) q, r.1 + r.2 ≤ 16 * base ∨ 16 * base + queueCap code ≤ r.1) →
      ∃ u, exec (.queueSet h p) s = .next u ∧ u.answered 0x0601 h St.ok [] ∧
        u.queue q = { QueueSt.dflt with
          enable := true, ordinary := flags.testBit 1, sizeCode := BitVec.ofNat 4 code, threshold := BitVec.ofNat 9 t,
          base := BitVec.ofNat 20 base, dropping := d.dropping, arriving := d.arriving, prodPort := d.prodPort,
          prodOpen := d.prodOpen, prodPoison := d.prodPoison, prodHdr := d.prodHdr, prodTaken := d.prodTaken } ∧
        ∀ r, r ≠ q → u.queue r = s.queue r) ∧
    (flags.testBit 0 = true → getBit s.clk.gatedQe (queueEngine q) = false → d.enable = true → d.sizeCode.toNat = code →
      d.base.toNat = base → d.ordinary = flags.testBit 1 →
      (∀ r ∈ s.enabledRuns (queueEngine q) q, r.1 + r.2 ≤ 16 * base ∨ 16 * base + queueCap code ≤ r.1) →
      ∃ u, exec (.queueSet h p) s = .next u ∧ u.answered 0x0601 h St.ok [] ∧
        u.queue q = { d with threshold := BitVec.ofNat 9 t } ∧ ∀ r, r ≠ q → u.queue r = s.queue r) ∧
    (flags.testBit 0 = false → d.enable = true → d.sizeCode.toNat = code → d.base.toNat = base →
      d.ordinary = flags.testBit 1 → d.occupied = 0 → d.prodMid = false → d.discarding = false → d.flush = false →
      s.queueNamed q = false →
      ∃ u, exec (.queueSet h p) s = .next u ∧ u.answered 0x0601 h St.ok [] ∧ (u.queue q).enable = false ∧
        ∀ r, r ≠ q → u.queue r = s.queue r) ∧
    (flags.testBit 0 = false → d.enable = true → d.occupied ≠ 0 →
      ∃ u, exec (.queueSet h p) s = .next u ∧ u.answered 0x0601 h St.queueBusy [] ∧ s.sameButSlips u)) ∧
  (s.takes 0x0603 .ordinary h p → fields [⟨16, 2, q < 16384⟩] p = .ok () → s.ringGone (slipId s 0x0603 h .ordinary) = false →
    let same := d.wptrSh = d.wptr ∧ d.rptrSh = d.rptr ∧ d.parityBad = false
    (d.enable = false →
      ∃ u, exec (.queueFlush h p) s = .next u ∧ u.answered 0x0603 h St.accepted [] ∧
        u.completed (slipId s 0x0603 h .ordinary) St.ok (leBytes 8 0) ∧ u.queues = s.queues) ∧
    (d.enable = true → same → d.prodMid = false → d.discarding = false →
      ∃ u, ∃ l : Loss, exec (.queueFlush h p) s = .next u ∧ u.answered 0x0603 h St.accepted [] ∧
        u.completed (slipId s 0x0603 h .ordinary) St.ok (leBytes 4 l.items ++ leBytes 4 l.words) ∧
        (u.queue q).rptr = d.ptr d.wptr.toNat ∧ (u.queue q).flush = false ∧ (u.queue q).enable = true ∧
        (d.unopened = [] → d.flushItems = 0 → d.flushWords = 0 → (u.queue q).wptr = d.wptr) ∧
        ∀ r, r ≠ q → u.queue r = s.queue r) ∧
    (d.enable = true → same → d.prodMid = true ∨ d.discarding = true →
      ∃ u, exec (.queueFlush h p) s = .next u ∧ u.accepted 0x0603 h ∧ (u.queue q).rptr = d.ptr d.wptr.toNat ∧
        (u.queue q).flush = true ∧ (u.queue q).discarding = true ∧
        (∃ id ∈ (u.queue q).flushSlips, id.seq = h.seq ∧ id.ch = h.ch) ∧ ∀ r, r ≠ q → u.queue r = s.queue r))

/-- R193, R196, R197, R210, R390: FLOW_SET with valid set writes the settings of a free flow whose ports, tag, queue, class and delay
line keep the table's rules, and clears its pairing; with valid clear it takes the flow out; on a flow in use it is FLOW_BUSY.
PAIR_SET joins two protected flows of one queue, splits a pair or sets it to take its number anew; FLOW_COUNT_CLEAR clears the
counters of the flows it lists. -/
def Obligations.FlowSlips : Prop := ∀ (s : State) (h : SlipHdr) (p : List Byte), s.wf = true → s.modes.house ≠ .closing →
  (s.takes 0x0701 .ordinary h p →
    let k := arg p 16 2
    let flags := arg p 20 1
    let inP := arg p 21 1
    let egP := arg p 23 1
    let q := arg p 24 2
    let delay := arg p 28 4
    let base := arg p 36 4
    let pages := arg p 40 4
    fields [⟨16, 2, true⟩, ⟨20, 1, flags < 8⟩, ⟨21, 1, inP < 144⟩, ⟨22, 1, true⟩, ⟨23, 1, egP < 144⟩, ⟨24, 2, q < 16384⟩,
      ⟨26, 2, arg p 26 2 == 0⟩, ⟨28, 4, delay ≤ 256000000⟩, ⟨32, 2, true⟩, ⟨36, 4, base < 2 ^ 23⟩,
      ⟨40, 4, pages ≤ 1048576 && (!flags.testBit 2 || 1 ≤ pages)⟩] p = .ok () →
    (flags.testBit 0 = true → (s.flow k).valid = false → s.ingressTag inP = some (arg p 22 1) → queueEngine q = engineOf egP →
      (s.queue q).enable = true →
      (∃ c ∈ (if flags.testBit 1 then (s.port egP).egress.ord else (s.port egP).egress.prot), c.queue = q) →
      (flags.testBit 1 = false → s.protectedPort inP = true ∧ s.protectedPort egP = true) →
      (flags.testBit 2 = true → delay ≠ 0 ∧ s.delayFits inP delay base pages = true ∧ ∀ v ∈ volumesOf base pages,
        s.sideGated v = false ∧ s.access 32 v = 3 ∧ s.cipherView 32 v = false) → (flags.testBit 2 = false → delay = 0) →
      ∃ t, exec (.flowSet h p) s = .next t ∧ t.answered 0x0701 h St.ok [] ∧
        t.flow k = { s.flow k with
          valid := true, ordinary := flags.testBit 1, delayEn := flags.testBit 2, paired := false, twin := 0, inPort := inP,
          inTag := arg p 22 1, egPort := egP, egQueue := q, delay := delay, mergeWait := arg p 32 2, dlBase := base,
          dlPages := pages } ∧
        (∀ j, j ≠ k → t.flow j = s.flow j) ∧ t.queues = s.queues ∧ t.ports = s.ports) ∧
    (flags.testBit 0 = true → (s.flow k).valid = true → (flags.testBit 2 = true → ∀ v ∈ volumesOf base pages,
        s.sideGated v = false) →
      ∃ t, exec (.flowSet h p) s = .next t ∧ t.answered 0x0701 h St.flowBusy [] ∧ s.sameButSlips t) ∧
    (flags.testBit 0 = false → (s.flow k).paired = false →
      ∃ t, exec (.flowSet h p) s = .next t ∧ t.answered 0x0701 h St.ok [] ∧ (t.flow k).valid = false ∧
        (t.flow k).paired = false ∧ ∀ j, j ≠ k → t.flow j = s.flow j)) ∧
  (s.takes 0x0703 .ordinary h p →
    let a := arg p 16 2
    let b := arg p 18 2
    let act := arg p 20 1
    let x := s.flow a
    let y := s.flow b
    fields [⟨16, 2, true⟩, ⟨18, 2, true⟩, ⟨20, 1, act < 3⟩] p = .ok () →
    (act = 0 → x.valid = true → y.valid = true → x.ordinary = false → y.ordinary = false → x.egQueue = y.egQueue →
      x.egPort = y.egPort → x.inPort ≠ y.inPort → x.paired = false → y.paired = false →
      ∃ t, exec (.pairSet h p) s = .next t ∧ t.answered 0x0703 h St.ok [] ∧ (t.flow a).paired = true ∧ (t.flow a).twin = b ∧
        (t.flow b).paired = true ∧ (t.flow b).twin = a ∧ (t.flow (min a b)).mergeSet = false ∧
        ∀ j, j ≠ a → j ≠ b → t.flow j = s.flow j) ∧
    (act ≠ 0 → x.paired = true → x.twin = b → a ≠ b →
      (act = 1 → y.twin = a → ∃ t, exec (.pairSet h p) s = .next t ∧ t.answered 0x0703 h St.ok [] ∧
        (t.flow a).paired = false ∧ (t.flow b).paired = false ∧ (t.flow (min a b)).mergeSet = false ∧
        ∀ j, j ≠ a → j ≠ b → t.flow j = s.flow j) ∧
      (act = 2 → ∃ t, exec (.pairSet h p) s = .next t ∧ t.answered 0x0703 h St.ok [] ∧
        t.flow (min a b) = { s.flow (min a b) with mergeSet := false, waiting := false } ∧
        ∀ j, j ≠ min a b → t.flow j = s.flow j))) ∧
  (s.takes 0x0704 .ordinary h p →
    let n := arg p 16 2
    let ks := (List.range n).map fun i => arg p (20 + 2 * i) 2
    fieldsTo [⟨16, 2, 1 ≤ n && n ≤ 64⟩] 20 p = .ok () → counted p 16 n 1 64 20 2 = .ok () → zeroFrom (20 + 2 * n) p = .ok () →
    ∃ t, exec (.flowCountClear h p) s = .next t ∧ t.answered 0x0704 h St.ok [] ∧
      (∀ k ∈ ks, t.flow k = { s.flow k with itemsIn := 0, wordsIn := 0, duplicates := 0, gaps := 0 }) ∧
      ∀ k, k ∉ ks → t.flow k = s.flow k)

/-- R199, R202, R391: EGRESS_SET gathers a calendar in its channel's pending set; the slip that ends the set is checked whole: a
good calendar waits for step 4, a bad one is answered with the rule it breaks, and either way the pending set is gone while the
calendar in force stays. CREDIT_SET stores a port's allowance of a class, or its default; in Service the allowance changes. -/
def Obligations.CalendarAndCredit : Prop := ∀ (s : State) (h : SlipHdr) (p : List Byte), s.wf = true →
  s.modes.house ≠ .closing →
  let port := arg p 16 2
  (s.takes 0x0705 .ordinary h p →
    let np := arg p 19 1
    let no := arg p 20 2
    let ch := h.ch.val
    let e := (s.port port).egress
    let prot := Sparse.get [] e.pendProt ch ++ (List.range np).map fun i => calEntryAt p (24 + 4 * i)
    let ord := Sparse.get [] e.pendOrd ch ++ (List.range no).map fun i => calEntryAt p (24 + 4 * (np + i))
    fieldsTo [⟨16, 2, port < 144⟩, ⟨18, 1, arg p 18 1 < 2⟩, ⟨19, 1, np ≤ 64⟩, ⟨20, 2, no ≤ 1024⟩, ⟨22, 2, arg p 22 2 == 0⟩] 24 p =
      .ok () → 24 + 4 * (np + no) ≤ 16 + p.length → entriesOk 24 4 (np + no) (calEntryBad p) = .ok () →
    zeroFrom (24 + 4 * (np + no)) p = .ok () → ((Sparse.look e.pendProt ch).isSome = true → np = 0) →
    ord.length ≤ 1024 → Sparse.rises e.pendProt = true → Sparse.rises e.pendOrd = true →
    (arg p 18 1 = 1 →
      ∃ t, exec (.egressSet h p) s = .next t ∧ t.answered 0x0705 h St.ok [] ∧
        Sparse.get [] (t.port port).egress.pendProt ch = prot ∧ Sparse.get [] (t.port port).egress.pendOrd ch = ord ∧
        t.fab.changes = s.fab.changes ∧ ∀ r, r ≠ port → t.port r = s.port r) ∧
    (arg p 18 1 = 0 → s.calendarFault port prot ord = none →
      ∃ t c, exec (.egressSet h p) s = .next t ∧ t.answered 0x0705 h St.ok [] ∧ t.fab.changes = s.fab.changes ++ [c] ∧
        c.change = .calendar port prot ord ∧ c.ch = h.ch ∧ c.seq = h.seq ∧
        Sparse.look (t.port port).egress.pendProt ch = none ∧ Sparse.look (t.port port).egress.pendOrd ch = none ∧
        (t.port port).egress.prot = e.prot ∧ (t.port port).egress.ord = e.ord) ∧
    (∀ st, arg p 18 1 = 0 → s.calendarFault port prot ord = some st → st ≠ St.lengthExcess →
      ∃ t, exec (.egressSet h p) s = .next t ∧ t.answered 0x0705 h st [] ∧ t.fab.changes = s.fab.changes ∧
        Sparse.look (t.port port).egress.pendProt ch = none ∧ (t.port port).egress.prot = e.prot ∧
        (t.port port).egress.ord = e.ord)) ∧
  (s.takes 0x0707 .ordinary h p →
    let cls := arg p 18 1
    let a := arg p 19 1
    let dflt := decide (arg p 20 1 = 1)
    let c := (s.port port).credit
    let w := creditWidth (s.port port).neg.cur.rate (s.port port).neg.cur.width
    fields [⟨16, 2, port < 144⟩, ⟨18, 1, cls < 2⟩, ⟨19, 1, if dflt then a == 0 else 1 ≤ a && a ≤ 127⟩, ⟨20, 1, arg p 20 1 < 2⟩] p =
      .ok () →
    (s.portMode port ≠ .service →
      ∃ t, exec (.creditSet h p) s = .next t ∧ t.answered 0x0707 h St.ok [] ∧
        (t.port port).credit = (if cls = 0 then { c with setProt := if dflt then none else some a }
          else { c with setOrd := if dflt then none else some a })) ∧
    (s.portMode port = .service → dflt = true ∨ a ≤ 2 ^ w - 1 →
      ∃ t, exec (.creditSet h p) s = .next t ∧ t.answered 0x0707 h St.ok [] ∧
        (if cls = 0 then (t.port port).credit.allowProt else (t.port port).credit.allowOrd) =
          (if dflt then defaultAllowance w else a) ∧
        (if cls = 0 then (t.port port).credit.allowOrd = c.allowOrd else (t.port port).credit.allowProt = c.allowProt) ∧
        ∀ r, r ≠ port → t.port r = s.port r) ∧
    (s.portMode port = .service → dflt = false → 2 ^ w - 1 < a →
      ∃ t, exec (.creditSet h p) s = .next t ∧ t.answered 0x0707 h St.badParam [] ∧ s.sameButSlips t))

/-! ## Boundaries, readiness and Closing -/

/-- R31 to R33: the frame boundary after slot 249 opens slot 0 of the next frame, numbered one on, or the boundary that opens frame
0 does; a slot boundary within the frame opens the next slot; each counts 500 core cycles. -/
def Obligations.BoundariesCount : Prop := ∀ s : State,
  (∀ i : FrameIn, s.framesRun = true → s.frame.slot = 249 ∨ s.cfg.frame0Due = true → s.frame.pendNumber = none →
    ∃ t, exec (.frameBoundary i) s = .next t ∧ t.frame.slot = 0 ∧
      t.frame.number = (if s.cfg.frame0Due then 0 else s.frame.number + 1) ∧ t.frame.frames = s.frame.frames + 1 ∧
      t.frame.time = s.frame.time + 500 ∧ t.cfg.frame0Due = false) ∧
  (∀ i : SlotIn, s.framesRun = true → s.frame.slot.toNat < 249 → s.cfg.frame0Due = false →
    ∃ t, exec (.slotBoundary i) s = .next t ∧ t.frame.slot = s.frame.slot + 1 ∧ t.frame.number = s.frame.number ∧
      t.frame.time = s.frame.time + 500 ∧ t.frame.frames = s.frame.frames)

/-- R51, R52: an edition's readiness makes its bay ready in Bring-up; a bay that is not ready after 8,000 frames in Bring-up
raises BAY_NOT_READY, once. R63, R442: a Closing whose drain and tests have ended completes: its slip ends OK, a port goes to
electrical idle, a bay loses its rail and its clock, the house takes its link and FRAME_OUT down. -/
def Obligations.ReadinessAndClosing : Prop := ∀ (s : State) (b : Bay) (p : Port) (c : ClosingSt), s.wf = true →
  (s.bayMode b.val = .bringUp → (∀ n ∈ s.boundIn b.val, s.canBeReady n = true) →
    ∃ t, exec (.editionReady b) s = .next t ∧ t.bayReady b.val = true ∧
      t = { s with modes.ready := t.modes.ready, fab.editions := t.fab.editions } ∧
      (∀ j : Bay, j ≠ b → getBit t.modes.ready j.val = getBit s.modes.ready j.val) ∧
      ∀ n e, s.edition n = some e →
        t.edition n = some (if n ∈ s.boundIn b.val then { e with ready := true } else e)) ∧
  (s.bayMode b.val = .bringUp → s.bayReady b.val = false → 8000 ≤ Sparse.get 0 s.modes.bringUpFrames b.val →
    getBit s.modes.notReadyTold b.val = false →
    ∃ t, exec (.bayNotReady b) s = .next t ∧ t.told .warning 0x0403 b.val ∧ getBit t.modes.notReadyTold b.val = true ∧
      t.bayMode b.val = .bringUp) ∧
  (s.awake = true → s.modes.closing.find? (fun x => x.dom == .port p) = some c →
    c.drained = true ∨ s.portDrained p.val = true → s.modes.closed.contains (.port p) = false →
    ∃ t, exec (.closingDrainEnd (.port p)) s = .next t ∧ t.modes.closed = s.modes.closed ++ [.port p] ∧
      (t.port p.val).lane.txIdle = true ∧ (∀ q, q ≠ p.val → t.port q = s.port q) ∧
      ∀ id, c.id = some id → s.ringGone id = false → id.ch.val < s.slips.chans.length → id.noReply = false →
        t.completed id St.ok []) ∧
  (s.awake = true → s.modes.closing.find? (fun x => x.dom == .bay b) = some c → c.drained = true → c.dom = .bay b →
    c.test = 0 ∨ c.tested.contains b.val = true → s.testWaits (.bay b) = false → s.modes.closed.contains (.bay b) = false →
    ∃ t, exec (.closingDrainEnd (.bay b)) s = .next t ∧ t.modes.closed = s.modes.closed ++ [.bay b] ∧
      getBit t.pwr.offBay b.val = true ∧ getBit t.clk.gatedBay b.val = true ∧
      ∀ id, c.id = some id → s.ringGone id = false → id.ch.val < s.slips.chans.length → id.noReply = false →
        t.completed id St.ok []) ∧
  (s.awake = true → s.modes.closing.find? (fun x => x.dom == .house) = some c → c.dom = .house →
    c.drained = true ∨ s.othersDrained = true → c.test = 0 ∨ (List.range 32).all (fun i => c.tested.contains i) = true → s.modes.closed.contains .house = false →
    ∃ t, exec (.closingDrainEnd .house) s = .next t ∧ t.modes.closed = s.modes.closed ++ [.house] ∧ t.pkg.pcieUp = false ∧
      t.pkg.frameOut = false ∧
      ∀ id, c.id = some id → s.ringGone id = false → id.ch.val < s.slips.chans.length → id.noReply = false →
        t.completed id St.ok []) ∧
  (s.awake = true → s.modes.closing.find? (fun x => x.dom == .port p) = none →
    ∃ t, exec (.closingDrainEnd (.port p)) s = .next t ∧ t = s)

/-! ## Registers -/

/-- R344 to R355: an access to no register is an error of cause 1; a write that changes a guarded field without the master's
arm one of cause 2; a reading room's write whose fuse forbids it one of cause 7. A gated block reads 0 and takes no write. The
key arms the block for its master, a wrong one lapses the arm with cause 3, the third in a frame locks the block out, and a
locked block answers cause 4. What is written to the scratch register reads back. R342, R351, R355: DESK_SHELF_ID takes its
first write and answers a second with cause 5; DESK_TIME_LO reads the low half of the time and holds the high half for its
master; a zero-length read answers 0 and accesses nothing; a bad PCI Express request is an error of cause 6. -/
def Obligations.RegisterAccesses : Prop :=
  (∀ (s : State) (m : Master) (off : BitVec 22) (v : Word), s.wf = true →
   s.reaches m = true → s.clk.stoppedDevice = false →
   (m = .readingRoom → s.pkg.debugFuse ≠ 2 →
     ∃ t, exec (.registerWrite m off v) s = .next t ∧ s.erred t m off.toNat 7 ∧ s.sameButAccess t) ∧
   (blockAt off.toNat = none →
     (∃ t, exec (.registerRead m off) s = .next t ∧ s.erred t m off.toNat 1 ∧ s.sameButAccess t) ∧
     (s.mayAccess m → ∃ t, exec (.registerWrite m off v) s = .next t ∧ s.erred t m off.toNat 1 ∧ s.sameButAccess t)) ∧
   (∀ b o, blockAt off.toNat = some (b, o) → b.hasReg o = false → b.unlockAt ≠ some o →
     (∃ t, exec (.registerRead m off) s = .next t ∧ s.erred t m off.toNat 1 ∧ s.sameButAccess t) ∧
     (s.mayAccess m → ∃ t, exec (.registerWrite m off v) s = .next t ∧ s.erred t m off.toNat 1 ∧ s.sameButAccess t)) ∧
   (∀ b o, blockAt off.toNat = some (b, o) → b.hasReg o = true → s.blockGated b o = true →
     (∃ t, exec (.registerRead m off) s = .next t ∧ t.gave m 0 false ∧
       t = { s with regs.readData := t.regs.readData, regs.readErr := t.regs.readErr }) ∧
     (s.mayAccess m → ∃ t, exec (.registerWrite m off v) s = .next t ∧ t.gave m 0 false ∧
       t = { s with regs.readData := t.regs.readData, regs.readErr := t.regs.readErr })) ∧
   (∀ b o, blockAt off.toNat = some (b, o) → b.hasReg o = true → b.unlockAt ≠ some o → s.blockGated b o = false →
     s.guarded b o v = true → s.armed m b = false → s.mayAccess m →
     ∃ t, exec (.registerWrite m off v) s = .next t ∧ s.erred t m off.toNat 2 ∧ s.sameButAccess t) ∧
   (∀ b o, blockAt off.toNat = some (b, o) → b.unlockAt = some o → s.blockGated b o = false → s.mayAccess m →
     (s.lockedOut b = true →
       ∃ t, exec (.unlockWrite m off v) s = .next t ∧ s.erred t m off.toNat 4 ∧ t.regs.arms = s.regs.arms) ∧
     (s.lockedOut b = false → v = 0x0000B00C →
       ∃ t, exec (.unlockWrite m off v) s = .next t ∧ t.gave m 0 false ∧ t.armed m b = true ∧
         t = { s with regs := t.regs } ∧ ∀ n c, c ≠ b.num ∨ n ≠ m →
           (t.regs.arms.any fun a => a.master == n && a.block == c && 0 < a.left) =
             (s.regs.arms.any fun a => a.master == n && a.block == c && 0 < a.left)) ∧
     (s.lockedOut b = false → v ≠ 0x0000B00C →
       ∃ t, exec (.unlockWrite m off v) s = .next t ∧ s.erred t m off.toNat 3 ∧ t.armed m b = false ∧
         t.lockedOut b = decide (2 ≤ Sparse.get 0 s.regs.wrongKeys b.num))) ∧
   (off = 0x000010 → s.mayAccess m →
     (∃ t, exec (.registerWrite m off v) s = .next t ∧ t.gave m 0 false ∧ t.regs.scratch = v) ∧
     ∃ t, exec (.registerRead m off) s = .next t ∧ t.gave m s.regs.scratch false ∧ t.regs.scratch = s.regs.scratch) ∧
   (∀ block, ∃ t, exec (.unlockArmLapse m block) s = .next t ∧
     (∀ a, a ∈ t.regs.arms ↔ a ∈ s.regs.arms ∧ ¬(a.master = m ∧ a.block = block ∧ a.left = 0))) ∧
   (∀ block, Sparse.get 0 s.regs.lockout block = 0 →
     ∃ t, exec (.lockoutEnd block) s = .next t ∧ Sparse.look t.regs.lockout block = none ∧ t = { s with regs.lockout := t.regs.lockout })) ∧
  (∀ (s : State) (m : Master) (off : BitVec 22) (v : Word) (w : Bool) (n : Nat), s.wf = true →
   (s.mayAccess m → s.regs.shelfIdSet = false →
     ∃ t, exec (.deskShelfIdWrite m v) s = .next t ∧ t.gave m 0 false ∧ t.regs.shelfId = v ∧ t.regs.shelfIdSet = true) ∧
   (s.mayAccess m → s.regs.shelfIdSet = true →
     ∃ t, exec (.deskShelfIdWrite m v) s = .next t ∧ s.erred t m 0x0C 5 ∧ t.regs.shelfId = s.regs.shelfId) ∧
   (s.reaches m = true → s.clk.stoppedDevice = false →
     ∃ t, exec (.deskTimeLoRead m n) s = .next t ∧ t.gave m (w32 (s.frame.time + n)) false ∧
       Sparse.get 0 t.regs.shadow (Master.code m) = w32 ((s.frame.time + n) / 2 ^ 32) ∧
       t = { s with regs.shadow := t.regs.shadow, regs.readData := t.regs.readData, regs.readErr := t.regs.readErr }) ∧
   (s.reaches .pcie = true → s.clk.stoppedDevice = false →
     (∃ t, exec (.pcieZeroLengthRead off) s = .next t ∧ t.gave .pcie 0 false ∧
       t = { s with regs.readData := t.regs.readData, regs.readErr := t.regs.readErr }) ∧
     ∃ t, exec (.pcieBadRequest off w) s = .next t ∧ s.erred t .pcie off.toNat 6 ∧ s.sameButAccess t))

/-- R307, R352, R445: a write of a gating request is taken as it changes nothing or with the master's arm, which it uses up: the
requests are as written, and a block whose request is cleared runs again at once unless its rail is off. A request whose
conditions hold takes effect, and the block's clock is held; the endpoint that is not gated brings its link up. -/
def Obligations.GateRequests : Prop := ∀ (s : State) (m : Master) (v : Word), s.mayAccess m → s.wf = true →
  (∀ k : Fin 2, (s.guarded .clk (0x100 + 4 * k.val) v = true → s.armed m .clk = true) →
    ∃ t, exec (.bayGateRequest m k v) s = .next t ∧ t.gave m 0 false ∧
      ∀ b : Bay, getBit t.clk.gateReqBay b.val =
          (if b.val / 16 = k.val then getBit v (b.val % 16) else getBit s.clk.gateReqBay b.val) ∧
        getBit t.clk.gatedBay b.val =
          (getBit s.clk.gatedBay b.val && (getBit t.clk.gateReqBay b.val || getBit s.pwr.offBay b.val))) ∧
  (∀ k : Fin 9, (s.guarded .clk (0x110 + 4 * k.val) v = true → s.armed m .clk = true) →
    ∃ t, exec (.portGateRequest m k v) s = .next t ∧ t.gave m 0 false ∧
      ∀ p : Port, getBit t.clk.gateReqPort p.val =
          (if p.val / 16 = k.val then getBit v (p.val % 16) else getBit s.clk.gateReqPort p.val) ∧
        getBit t.clk.gatedPort p.val =
          (getBit s.clk.gatedPort p.val && (getBit t.clk.gateReqPort p.val || getBit s.pwr.offLg (laneGroup p.val)))) ∧
  ((s.guarded .clk 0x140 v = true → s.armed m .clk = true) →
    ∃ t, exec (.qeGateRequest m v) s = .next t ∧ t.gave m 0 false ∧
      ∀ e : Fin 16, getBit t.clk.gateReqQe e.val = getBit v e.val ∧
        getBit t.clk.gatedQe e.val = (getBit s.clk.gatedQe e.val && getBit v e.val)) ∧
  ((s.guarded .clk 0x144 v = true → s.armed m .clk = true) →
    ∀ c ∈ [Instr.side0GateRequest m v, Instr.pcieGateRequest m v],
    ∃ t, exec c s = .next t ∧ t.gave m 0 false ∧ t.clk.gateReqSide0 = getBit v 0 ∧ t.clk.gateReqPcie = getBit v 1 ∧
      t.clk.gatedSide0 = (s.clk.gatedSide0 && getBit v 0) ∧ t.clk.gatedPcie = (s.clk.gatedPcie && getBit v 1) ∧
      (s.guarded .clk 0x144 v = true → t.armed m .clk = false)) ∧
  (∀ g : GateBlock, s.gateAsked g = true → s.gateReady g = true →
    ∃ t, exec (.gateTakesEffect g) s = .next t ∧
      (match g with
        | .bay b => getBit t.clk.gatedBay b.val = true ∧ t = { s with clk.gatedBay := t.clk.gatedBay }
        | .port p => getBit t.clk.gatedPort p.val = true ∧ t = { s with clk.gatedPort := t.clk.gatedPort }
        | .engine e => getBit t.clk.gatedQe e.val = true ∧ t = { s with clk.gatedQe := t.clk.gatedQe }
        | .side0 => t.clk.gatedSide0 = true ∧ ∀ e ∈ t.crypto.cache, nodeVol e.1 < 16 → nlevel e.1 = 3 → e.2 = false
        | .pcie => t.clk.gatedPcie = true ∧ t.pkg.pcieUp = false)) ∧
  (s.clk.cold = false → s.clk.gatedPcie = false → Domain.house ∉ s.modes.closed → s.clk.onFallback 3 = false →
    exec .pcieLinkUp s = .next { s with pkg.pcieUp := true })

/-- R43, R289, R315, R352, R402, R403, R411 and the register tables: writes that a block takes set its fields: FRAME_OUT's control,
the boundary temperature, the shelf-reader's control and actions, a port's loopback and lane tests, a queue's flush, the
latches' clears and the drain's consumer index. -/
def Obligations.BlockWrites : Prop := ∀ (s : State) (m : Master) (v : Word), s.mayAccess m → s.wf = true →
  (∃ t, exec (.frameOutCtrlWrite m v) s = .next t ∧ t.gave m 0 false ∧ t.frame.outEn = getBit v 0 ∧
    t.frame.outOffsetNext.toNat = field v.toNat 13 4 ∧ t.frame.outWidthNext.toNat = field v.toNat 3 2 ∧
    t.frame.outOffset = s.frame.outOffset ∧ t.frame.outWidth = s.frame.outWidth ∧
    t.pkg.frameOut = (s.pkg.frameOut && getBit v 0)) ∧
  (-640 ≤ toInt 12 v.toNat → toInt 12 v.toNat ≤ 2000 →
    ∃ t, exec (.thermBoundaryWrite m v) s = .next t ∧ t.gave m 0 false ∧ t.thm.boundary = v.truncate 12 ∧
      t.thm.boundaryStale = false ∧ t.thm.timer = 0) ∧
  (toInt 12 v.toNat < -640 ∨ 2000 < toInt 12 v.toNat →
    ∃ t, exec (.thermBoundaryWrite m v) s = .next t ∧ t.thm.boundary = s.thm.boundary ∧ t.told .warning 0x0208 0) ∧
  ((getBit v 0 = s.shelf.sweepEn ∨ s.armed m .shelf = true) →
    (∃ t, exec (.shelfCtrlWrite m v false) s = .next t ∧ t.gave m 0 false ∧ t.shelf.sweepEn = getBit v 0 ∧
      t.shelf.actionLo = s.shelf.actionLo) ∧
    ∃ t, exec (.shelfCtrlWrite m v true) s = .next t ∧ t.shelf.sweepEn = getBit v 0 ∧ t.shelf.actionLo = 0x55555555 ∧
      t.shelf.actionHi = 0x55555555 ∧ t.regs.superseded.contains Block.shelf.num = true ∧ t.told .alarm 0x0305 0) ∧
  (∀ hi, s.armed m .shelf = true →
    ∃ t, exec (.shelfActionWrite m hi v) s = .next t ∧ t.gave m 0 false ∧ t.shelf.sweepEn = s.shelf.sweepEn ∧
      ∀ k < 16, field (if hi then t.shelf.actionHi else t.shelf.actionLo).toNat (2 * k + 1) (2 * k) =
        (if field v.toNat (2 * k + 1) (2 * k) = 3
          then field (if hi then s.shelf.actionHi else s.shelf.actionLo).toNat (2 * k + 1) (2 * k)
          else field v.toNat (2 * k + 1) (2 * k))) ∧
  (∀ p : Port, getBit s.clk.gatedPort p.val = false →
    (∃ t, exec (.portLoopWrite m p v) s = .next t ∧ t.gave m 0 false ∧ (t.port p.val).lane.loopback.toNat =
        (if field v.toNat 2 0 < 4 then field v.toNat 2 0 else (s.port p.val).lane.loopback.toNat) ∧
      ∀ q, q ≠ p.val → t.port q = s.port q) ∧
    (∀ k : Fin 4, hasLane p.val k.val = true → s.armed m (.port p.val) = true → (s.port p.val).lane.testCtrl.length = 4 →
      ∃ t c, exec (.laneTestCtrlWrite m p k v) s = .next t ∧ t.gave m 0 false ∧
        (t.port p.val).lane.testCtrl[k.val]? = some c ∧ (field v.toNat 3 0 ≤ 5 → field c.toNat 3 0 = field v.toNat 3 0) ∧
        (5 < field v.toNat 3 0 → field c.toNat 3 0 = field ((s.port p.val).lane.testCtrl.getD k.val 0).toNat 3 0) ∧
        field c.toNat 9 8 = field v.toNat 9 8 ∧ field c.toNat 27 20 = field v.toNat 27 20 ∧
        field c.toNat 19 16 = field v.toNat 19 16 ∧ ∀ q, q ≠ p.val → t.port q = s.port q)) ∧
  (∀ q : Queue, getBit s.clk.gatedQe (queueEngine q.val) = false →
    ((s.queue q.val).enable = false → ∃ t, exec (.qdFlushWrite m q) s = .next t ∧ t.gave m 0 false ∧ t.queues = s.queues) ∧
    ((s.queue q.val).enable = true → (s.queue q.val).parityBad = false → (s.queue q.val).wptrSh = (s.queue q.val).wptr →
      (s.queue q.val).rptrSh = (s.queue q.val).rptr →
      ∃ t, exec (.qdFlushWrite m q) s = .next t ∧ t.gave m 0 false ∧
        (t.queue q.val).rptr = (s.queue q.val).ptr (s.queue q.val).wptr.toNat ∧
        (t.queue q.val).flush = ((s.queue q.val).discarding || (s.queue q.val).prodMid) ∧
        ∀ r, r ≠ q.val → t.queue r = s.queue r)) ∧
  ((s.guarded .log 0x08 v = true → s.armed m .log = true) →
    ∃ t, exec (.logNmLatchClear m v) s = .next t ∧ t.gave m 0 false ∧
      ∀ k < 4, t.latchedCode (nth nmCodes k) =
        (s.latchedCode (nth nmCodes k) && !(getBit v k && !s.nmActive (nth nmCodes k)))) ∧
  (∀ f : Fin 11, ∃ t, exec (.logAlarmClear m f v) s = .next t ∧ t.gave m 0 false ∧
    ∀ i < 32, codeClass (256 * (f.val + 1) + i) = some .alarm →
      t.latchedCode (256 * (f.val + 1) + i) = (s.latchedCode (256 * (f.val + 1) + i) && !getBit v i)) ∧
  (let d := s.log.drain
    let i := v.toNat % 2 ^ 15 % (2 * d.size)
    d.active = true → (d.prod + 2 * d.size - i) % (2 * d.size) ≤ d.size →
    ∃ t, exec (.logDrainConsWrite m v) s = .next t ∧ t.gave m 0 false ∧ t.log.drain = { d with cons := i } ∧
      t.log.ring = s.log.ring)

/-! ## Slip channels -/

/-- R358, R359, R362, R363: enabling a ring starts its indices and its series again, or waits for the drain to end; disabling it
starts the drain, which ends when its started slips have replied and discards the rest; an index write within the span is
taken, one outside it is dropped with SLIP_INDEX_BAD; a slot that cannot be read stops the ring with an alarm. -/
def Obligations.HostRings : Prop := ∀ (s : State) (m : Master) (n : Fin 4) (irq : Bool) (v : Word) (kind : Byte),
  s.wf = true → s.mayAccess m →
  let r := s.ring n.val
  (r.enable = false → s.armed m .slip = true →
    ∃ t, exec (.slipRingEnable m n irq) s = .next t ∧ t.gave m 0 false ∧ (t.ring n.val).enable = true ∧
      (t.ring n.val).irqEn = irq ∧ (t.ring n.val).gen = r.gen + 1 ∧ t.armed m .slip = false ∧
      (r.draining = false → (t.ring n.val).prod = 0 ∧ (t.ring n.val).cons = 0 ∧ (t.ring n.val).rprod = 0 ∧
        (t.ring n.val).rcons = 0 ∧ (t.ring n.val).dmaFault = false ∧ (t.chan n.val).lastSeq = none ∧
        (t.chan n.val).written = []) ∧
      (r.draining = true → (t.ring n.val).heldEnable = true ∧ (t.ring n.val).prod = r.prod ∧
        (t.ring n.val).cons = r.cons ∧ (t.chan n.val).lastSeq = (s.chan n.val).lastSeq) ∧
      ∀ j, j ≠ n.val → t.ring j = s.ring j) ∧
  (r.enable = true → s.armed m .slip = true →
    ∃ t, exec (.slipRingDisable m n irq) s = .next t ∧ t.gave m 0 false ∧
      t.ring n.val = { r with enable := false, draining := true, heldEnable := false, irqEn := irq } ∧
      ∀ j, j ≠ n.val → t.ring j = s.ring j) ∧
  (r.draining = true → (s.chan n.val).waiting = [] →
    ∃ t, exec (.ringDrainComplete n) s = .next t ∧ (t.ring n.val).draining = false ∧ (t.ring n.val).enable = r.enable ∧
      (r.heldEnable = false → (t.ring n.val).prod = r.prod ∧ (t.ring n.val).cons = r.prod) ∧
      (r.heldEnable = true → (t.ring n.val).prod = 0 ∧ (t.ring n.val).cons = 0 ∧ (t.chan n.val).lastSeq = none) ∧
      t = { s with slips.rings := t.slips.rings, slips.chans := t.slips.chans }) ∧
  (((v.truncate 9 - r.cons).toNat ≤ 256 →
      ∃ t, exec (.slipProdWrite m n v) s = .next t ∧ t.gave m 0 false ∧ t.ring n.val = { r with prod := v.truncate 9 }) ∧
    (256 < (v.truncate 9 - r.cons).toNat →
      ∃ t, exec (.slipProdWrite m n v) s = .next t ∧ t.ring n.val = r ∧ t.told .warning 0x0B06 n.val)) ∧
  (((r.rprod - v.truncate 9).toNat ≤ 256 →
      ∃ t, exec (.slipRconsWrite m n v) s = .next t ∧ t.gave m 0 false ∧ t.ring n.val = { r with rcons := v.truncate 9 }) ∧
    (256 < (r.rprod - v.truncate 9).toNat →
      ∃ t, exec (.slipRconsWrite m n v) s = .next t ∧ t.ring n.val = r ∧ t.told .warning 0x0B06 n.val)) ∧
  (s.clk.cold = false → s.pkg.pcieUp = true → r.enable = true → r.draining = false → r.dmaFault = false → r.cons ≠ r.prod →
    ∃ t, exec (.slipDmaFault n kind) s = .next t ∧ t.ring n.val = { r with dmaFault := true } ∧ t.told .alarm 0x0B0C n.val)

/-- R360, R364, R365, R370: the first waiting reply of a channel is written when there is room for it: into the reply ring, whose
producer index advances by its slots, into the sideband's list, or as an item into the in-band flow's queue. -/
def Obligations.RepliesWritten : Prop := ∀ (s : State) (ch : Channel) (w : Reply) (rest : List Reply), s.wf = true →
  s.awake = true → s.desk.doubleFail = false → s.desk.takeover = false → (s.chan ch.val).waiting = w :: rest →
  (ch.val < 4 → s.pkg.pcieUp = true → (s.ring ch.val).enable = true ∨ (s.ring ch.val).draining = true →
    slotsFor w.result ≤ replyRoom (s.ring ch.val) →
    ∃ t, exec (.replyWrite ch) s = .next t ∧ (t.chan ch.val).waiting = rest ∧
      (t.ring ch.val).rprod = (s.ring ch.val).rprod + BitVec.ofNat 9 (slotsFor w.result) ∧
      (∃ b, (t.chan ch.val).written = (s.chan ch.val).written ++ [b] ∧ b.length = 64 * slotsFor w.result ∧
        leAt b 8 2 = w.status.toNat ∧ leAt b 6 2 = w.id.seq.toNat ∧ leAt b 0 2 = w.id.op.toNat) ∧
      ∀ j : Channel, j ≠ ch → t.chan j.val = s.chan j.val) ∧
  (ch.val < 4 → replyRoom (s.ring ch.val) < slotsFor w.result → exec (.replyWrite ch) s = .next s) ∧
  (ch.val = 4 → (s.chan 4).written.length < 16 →
    ∃ t, exec (.replyWrite ch) s = .next t ∧ (t.chan 4).waiting = rest ∧
      (t.chan 4).written = (s.chan 4).written ++ [replyBytes w false] ∧ t.slips.rings = s.slips.rings) ∧
  (ch.val = 5 → (s.queue s.slips.qOut.toNat).busy = false →
    (s.queue s.slips.qOut.toNat).wptrSh = (s.queue s.slips.qOut.toNat).wptr →
    (s.queue s.slips.qOut.toNat).rptrSh = (s.queue s.slips.qOut.toNat).rptr →
    (s.queue s.slips.qOut.toNat).parityBad = false →
    ∃ t, exec (.replyWrite ch) s = .next t ∧ (t.chan 5).waiting = rest ∧
      ∀ q, q ≠ s.slips.qOut.toNat → t.queue q = s.queue q)

/-- R343, R364, R368: the sideband's transfers: a register write and read; bytes into the slip buffer; a submit, which queues the
slip that stands there; the reading and the release of the first reply; the status; codes it does not know and a device that
does not answer are not acknowledged; after 8,000 idle frames its series starts again. -/
def Obligations.SidebandTransfers : Prop := ∀ (s : State) (l : List Byte) (n : Nat) (code : Byte), s.wf = true →
  let answers (t : State) (ack : Bool) (data : List Byte) := t.slips.sbAck = ack ∧ t.slips.sbData = data
  (s.i2cAnswers = false → ∀ c ∈ [Instr.sidebandRegWrite l, .sidebandRegRead l n, .sidebandSlipWrite l, .sidebandSubmit,
      .sidebandReplyRead l, .sidebandStatus, .sidebandRelease, .sidebandBadCommand code],
    exec c s = .next { s with slips.sbAck := false, slips.sbData := [] }) ∧
  (s.i2cAnswers = true →
    (l.length = 7 → sbOffset l = 0x10 →
      ∃ t, exec (.sidebandRegWrite l) s = .next t ∧ answers t true [] ∧ t.regs.scratch = w32 (leAt l 3 4) ∧ t.gave .i2c 0 false) ∧
    (l.length = 7 → sbOffset l < 2 ^ 22 → blockAt (sbOffset l) = none →
      ∃ t, exec (.sidebandRegWrite l) s = .next t ∧ answers t false [] ∧ s.erred t .i2c (sbOffset l) 1) ∧
    (l.length = 3 → sbOffset l = 0x10 →
      ∃ t, exec (.sidebandRegRead l n) s = .next t ∧ answers t true (leBytes 4 s.regs.scratch.toNat)) ∧
    (l.length = 3 + leAt l 2 1 → 1 ≤ leAt l 2 1 → leAt l 2 1 ≤ 32 → leAt l 0 2 + leAt l 2 1 ≤ 4096 →
      Sparse.rises s.slips.sbBuffer = true →
      ∃ t, exec (.sidebandSlipWrite l) s = .next t ∧ answers t true [] ∧
        (∀ i < leAt l 2 1, Sparse.get 0 t.slips.sbBuffer (leAt l 0 2 + i) = l.getD (3 + i) 0) ∧
        ∀ a, a < leAt l 0 2 ∨ leAt l 0 2 + leAt l 2 1 ≤ a →
          Sparse.get 0 t.slips.sbBuffer a = Sparse.get 0 s.slips.sbBuffer a) ∧
    (s.slips.sbQueue.length < 16 → s.clk.cold = false →
      ∃ t, exec .sidebandSubmit s = .next t ∧ answers t true [] ∧ t.slips.sbQueue = s.slips.sbQueue ++ [s.sbSlip] ∧
        t.slips.sbBuffer = s.slips.sbBuffer) ∧
    (16 ≤ s.slips.sbQueue.length ∨ s.clk.cold = true →
      exec .sidebandSubmit s = .next { s with slips.sbAck := false, slips.sbData := [] }) ∧
    (∀ r rest, (s.chan 4).written = r :: rest →
      (l.length = 3 → 1 ≤ leAt l 2 1 → leAt l 2 1 ≤ 32 →
        exec (.sidebandReplyRead l) s =
          .next { s with slips.sbAck := true, slips.sbData := slice r (leAt l 0 2) (leAt l 2 1) }) ∧
      ∃ t, exec .sidebandRelease s = .next t ∧ answers t true [] ∧ (t.chan 4).written = rest ∧
        (t.chan 4).waiting = (s.chan 4).waiting) ∧
    (s.slips.sbQueue.length ≤ 16 → (s.chan 4).written.length ≤ 16 →
      ∃ t d, exec .sidebandStatus s = .next t ∧ answers t true d ∧ d.length = 4 ∧ leAt d 0 1 = s.slips.sbQueue.length ∧
        leAt d 1 1 = (s.chan 4).written.length) ∧
    (code.toNat < 0xE1 ∨ 0xE7 < code.toNat →
      exec (.sidebandBadCommand code) s = .next { s with slips.sbAck := false, slips.sbData := [] })) ∧
  (s.i2cAnswers = true → s.clk.cold = false → 8000 ≤ s.slips.sbQuiet → s.slips.sbQueue = [] → (s.chan 4).waiting = [] →
    (s.chan 4).written = [] →
    ∃ t, exec .sidebandSubmit s = .next t ∧ t.slips.sbQueue = [s.sbSlip] ∧ t.chan 4 = { s.chan 4 with lastSeq := none } ∧
      t.slips.sbQuiet = 0) ∧
  (s.up = true → 8000 ≤ s.slips.sbQuiet → s.slips.sbQueue = [] → (s.chan 4).waiting = [] → (s.chan 4).written = [] →
    ∃ t, exec .sidebandSeriesReset s = .next t ∧ t.chan 4 = { s.chan 4 with lastSeq := none })

/-- R365, R366, R377, R378: the desk takes a whole in-band item and queues the slip in it; an opcode that the reference does not
list is answered UNKNOWN_OPCODE; INBAND_SET names the flows of the channel or closes it; a pair whose cores disagree hands
over to a ready standby, and without one the desk has failed twice; a reloaded standby is ready. -/
def Obligations.InBandAndPairs : Prop := ∀ (s : State) (h : SlipHdr) (p : List Byte) (op : BitVec 16), s.wf = true →
  (let q := s.slips.qIn.toNat
    let d := s.queue q
    let n := hdrLen (d.word d.rptr.toNat)
    let bytes := (List.range (n - 1)).flatMap fun i => leBytes 32 (d.word (d.rptr.toNat + 1 + i)).toNat
    s.slips.inEnabled = true → s.deskStarts 5 = true → s.slips.inQueue.length < 64 → d.enable = true → d.sizeCode.toNat ≤ 12 →
    d.consMid = false → d.prodMid = false → d.abortPending = false → d.wptrSh = d.wptr → d.rptrSh = d.rptr →
    d.parityBad = false → hdrKind (d.word d.rptr.toNat) = 0 → 1 ≤ leAt bytes 3 1 → leAt bytes 3 1 ≤ 64 → n = 2 * leAt bytes 3 1 + 1 → n ≤ d.occupied →
    ∃ t, exec (.inbandItem [] .none) s = .next t ∧ t.slips.inQueue = s.slips.inQueue ++ [bytes] ∧
      (t.queue q).rptr = d.ptr (d.rptr.toNat + n) ∧ (t.queue q).wptr = d.wptr ∧ (t.queue q).consMid = false ∧
      ∀ r, r ≠ q → t.queue r = s.queue r) ∧
  (s.takes op .ordinary h p → opcodeKnown op.toNat = false →
    ∃ t, exec (.slipUnknownOpcode op h p) s = .next t ∧ t.answered op h St.unknownOpcode [] ∧ s.sameButSlips t) ∧
  (s.takes 0x0B10 .fencing h p →
    let fIn := arg p 16 2
    let fOut := arg p 18 2
    (arg p 20 1 = 1 → fields [⟨16, 2, true⟩, ⟨18, 2, true⟩, ⟨20, 1, true⟩] p = .ok () →
      ∃ t, exec (.inbandSet h p) s = .next t ∧ t.answered 0x0B10 h St.ok [] ∧ t.slips.inEnabled = false ∧
        t.slips.inQueue = []) ∧
    (arg p 20 1 = 0 → fields [⟨16, 2, true⟩, ⟨18, 2, true⟩, ⟨20, 1, true⟩] p = .ok () → (s.flow fIn).valid = true →
      (s.flow fOut).valid = true → (s.queue (s.flow fIn).egQueue).enable = true →
      (s.queue (s.flow fOut).egQueue).enable = true → s.portOfQueue (s.flow fIn).egQueue = none →
      ∃ t, exec (.inbandSet h p) s = .next t ∧ t.answered 0x0B10 h St.ok [] ∧ t.slips.inEnabled = true ∧
        t.slips.fIn.toNat = fIn ∧ t.slips.fOut.toNat = fOut)) ∧
  (s.awake = true → s.desk.doubleFail = false →
    (s.desk.standbyReady = true →
      ∃ t, exec .lockstepMismatch s = .next t ∧ t.desk.standbyReady = false ∧ t.desk.takeover = true ∧
        t.desk.switchovers = min 65535 (s.desk.switchovers + 1) ∧ t.desk.doubleFail = false ∧ t.told .alarm 0x0B02 0) ∧
    (s.desk.standbyReady = false →
      ∃ t, exec .lockstepMismatch s = .next t ∧ t.desk.doubleFail = true ∧ t.frame.frozen = true ∧
        t.told .nonMaskable 0x0B01 0)) ∧
  (s.up = true → s.desk.reloading = true → s.desk.doubleFail = false →
    exec .standbyReloadComplete s = .next { s with desk.reloading := false, desk.standbyReady := true })

/-! ## The day book -/

/-- R407 to R411, R413: the event logger takes the oldest event raised: left out by the filter, it writes nothing; from a source
whose latest entry still counts, it joins that entry; in a full book it is lost and marked; above three quarters the lower
classes are shed; else its entry is the newest. The drain copies the oldest entry and it leaves the book. A period's end keeps
its counts and starts the next. -/
def Obligations.DayBookTurns : Prop := ∀ (s : State) (e : Event) (r : List Event),
  (s.up = true → s.clk.stoppedDevice = false → s.clk.cold = false → s.log.cold = [] → s.log.coldLost = none →
    s.log.raised = e :: r →
    (s.filtered e = true → exec (.daybookEntryWrite .clean .none) s = .next { s with log.raised := r }) ∧
    (s.filtered e = false → latestOf s.log.ring e.code e.subject = none → ¬(12288 < s.bookFill ∧ e.cls.code < 2) →
      s.bookFill < 16383 →
      ∃ t, exec (.daybookEntryWrite .clean .none) s = .next t ∧ t.log.raised = r ∧
        t.log.ring = s.log.ring ++ [Entry.ofEvent e] ∧ t.log.wptr = s.log.wptr + 1 ∧ t.log.lost = s.log.lost) ∧
    (s.filtered e = false → latestOf s.log.ring e.code e.subject = none → 12288 < s.bookFill → e.cls.code < 2 →
      ∃ t, exec (.daybookEntryWrite .clean .none) s = .next t ∧ t.log.raised = r ∧ t.log.ring = s.log.ring ∧
        (e.cls = .trace → t.log.shedTrace = min 65535 (s.log.shedTrace + 1)) ∧
        (e.cls = .info → t.log.shedInfo = min 65535 (s.log.shedInfo + 1))) ∧
    (s.filtered e = false → latestOf s.log.ring e.code e.subject = none → 2 ≤ e.cls.code → 16383 ≤ s.bookFill →
      ∃ t, exec (.daybookEntryWrite .clean .none) s = .next t ∧ t.log.lost = min 65535 (s.log.lost + 1) ∧
        (s.log.tailLacuna = true → t.log.ring.length = s.log.ring.length) ∧
        (s.log.tailLacuna = false → t.log.ring.length = s.log.ring.length + 1) ∧
        t.log.ring.getLast?.map (·.lacuna) = some true) ∧
    (∀ i x, s.filtered e = false → latestOf s.log.ring e.code e.subject = some i → s.log.ring[i]? = some x →
      x.cls = BitVec.ofNat 3 e.cls.code → x.count < 65535 →
      ∃ t, exec (.daybookEntryWrite .clean .none) s = .next t ∧ t.log.raised = r ∧
        t.log.ring = s.log.ring.set i { x with
          lastFrame := e.frame, lastSlot := e.slot, count := x.count + 1, detail := e.detail } ∧
        t.log.coalesced = min 4294967295 (s.log.coalesced + 1))) ∧
  (∀ x rest, s.drainsNow = true → s.log.ring = x :: rest →
    ∃ t, exec (.daybookDrainCopy .clean .none) s = .next t ∧ t.log.ring = rest ∧ t.log.rptr = s.log.rptr + 1 ∧
      t.log.drain.prod = (s.log.drain.prod + 1) % (2 * s.log.drain.size) ∧ t.log.drain.cons = s.log.drain.cons ∧
      t.log.drained = x.bytes (s.log.drain.prod / s.log.drain.size % 2 == 0) :: s.log.drained) ∧
  (s.framesRun = true → s.log.periodLeft = 0 →
    ∃ t, exec .summaryPeriodEnd s = .next t ∧ t.log.summary = s.log.current ∧ t.log.current = Summary.zero ∧
      t.log.summaryFrame = s.frame.number ∧ t.log.periodLeft = s.log.periodNext)

/-- R402, R403, R408, R411, R412, R413: EVENT_ACK clears the latches of the classes and the code it names, but a non-maskable one
whose condition holds; DAYBOOK_READ takes the oldest entries while the drain is off; DAYBOOK_DRAIN_SET starts the drain ring or
stops it, which a host ring may do for itself alone; EVENT_FILTER_SET sets what is recorded and the period. -/
def Obligations.DayBookSlips : Prop := ∀ (s : State) (h : SlipHdr) (p : List Byte),
  (s.takes 0x0B01 .ordinary h p → 1 ≤ arg p 16 1 → arg p 16 1 < 4 → arg p 18 2 = 0 →
    fields [⟨16, 1, true⟩, ⟨18, 2, true⟩] p = .ok () →
    ∃ t, exec (.eventAck h p) s = .next t ∧
      (∀ l, l ∈ t.log.latched ↔ l ∈ s.log.latched ∧
        ¬((codeClass l.1.toNat = some .alarm ∧ (arg p 16 1).testBit 0 = true) ∨
          (codeClass l.1.toNat = some .nonMaskable ∧ (arg p 16 1).testBit 1 = true ∧ s.nmActive l.1.toNat = false))) ∧
      t.answered 0x0B01 h St.ok (leBytes 2 (s.log.latched.length - t.log.latched.length))) ∧
  (s.takes 0x0B02 .ordinary h p → fields [⟨16, 2, 1 ≤ arg p 16 2 && arg p 16 2 ≤ 126⟩] p = .ok () →
    (s.log.drain.active = false →
      ∃ t, exec (.daybookRead h p []) s = .next t ∧ t.log.ring = s.log.ring.drop (arg p 16 2) ∧
        t.answered 0x0B02 h St.ok (leBytes 2 (min (arg p 16 2) s.log.ring.length) ++ leBytes 14 0 ++
          (s.log.ring.take (arg p 16 2)).flatMap fun e => e.bytes false)) ∧
    (s.log.drain.active = true →
      ∃ t, exec (.daybookRead h p []) s = .next t ∧ t.answered 0x0B02 h St.modeConflict [] ∧ s.sameButSlips t)) ∧
  (s.takes 0x0B03 .ordinary h p →
    let act := arg p 16 1
    let ch := arg p 17 1
    let n := arg p 28 2
    fields [⟨16, 1, act < 2⟩, ⟨17, 1, ch < 4⟩, ⟨20, 8, act == 0 || (arg p 20 8 % 4096 == 0 && arg p 20 8 < 2 ^ 44)⟩,
      ⟨28, 2, act == 0 || (2 ^ Nat.log2 n == n && 64 ≤ n && n ≤ 16384)⟩] p = .ok () →
    (4 ≤ h.ch.val ∨ h.ch.val = ch →
      ∃ t, exec (.daybookDrainSet h p) s = .next t ∧ t.answered 0x0B03 h St.ok [] ∧
        (act = 0 → t.log.drain = { s.log.drain with active := false }) ∧
        (act = 1 → t.log.drain.active = true ∧ t.log.drain.size = n ∧ t.log.drain.addr = arg p 20 8 ∧
          t.log.drain.prod = 0 ∧ t.log.drain.cons = 0)) ∧
    (h.ch.val < 4 → h.ch.val ≠ ch →
      ∃ t, exec (.daybookDrainSet h p) s = .next t ∧ t.answered 0x0B03 h St.rights [] ∧ t.log.drain = s.log.drain)) ∧
  (s.takes 0x0B04 .ordinary h p →
    fields [⟨16, 1, arg p 16 1 < 4⟩, ⟨17, 2, 1 ≤ arg p 17 2 && arg p 17 2 ≤ 8000⟩] p = .ok () →
    ∃ t, exec (.eventFilterSet h p) s = .next t ∧ t.answered 0x0B04 h St.ok [] ∧ t.log.traceEn = (arg p 16 1).testBit 0 ∧
      t.log.infoEn = (arg p 16 1).testBit 1 ∧ t.log.periodNext = arg p 17 2 ∧ t.log.periodLeft = s.log.periodLeft)

/-! ## Streams, the chain and start-up -/

/-- R265 to R267, R273 to R276: a start follows BOOT_SRC: it waits for the chain, waits for a host, or heads the chain. A good
start block gives a follower the next position and goes on; one past the seventh, a broken block, an end without the part, or
a silence is a failure of the start with its cause. A good block of the device's part is staged, one of another passes on. A
part whose tag fails, fails with cause 0x07; what a part's content is stays open (log entry 6), so the last check is told both
ways. R267, R270 to R272: the part that has passed takes effect with its order, its serial number and its image, and the
staging area is free; step A completes when every loop is locked and both sources are good, and frame 0 comes next; the
rendezvous is met, or its time runs out with STARTUP_RENDEZVOUS. -/
def Obligations.StartsAndSteps : Prop :=
  (∀ s : State,
   let fails (t : State) (cause : Nat) := t.cfg.firstCause.toNat = cause ∧ t.cfg.fallbacks = min 255 (s.cfg.fallbacks + 1)
   (s.awake = true → s.cfg.phase = 0 → s.modes.house = .intake → s.crypto.rngOk = true →
     ∃ t, exec .streamLoadStart s = .next t ∧ t.cfg.startDone = true ∧ t.cfg.streamInEffect = false ∧
       (s.pkg.bootSrc = 1 → t.cfg.phase = 1 ∧ t.cfg.staged = [] ∧ t.cfg.position = s.cfg.position) ∧
       (s.pkg.bootSrc = 2 → t.cfg.phase = 3 ∧ t.cfg.staged = []) ∧
       (s.pkg.bootSrc = 0 ∨ s.pkg.bootSrc = 3 → t.cfg.position = some 0) ∧
       (s.pkg.bootSrc = 3 → t.told .warning 0x030A 0)) ∧
   (s.chainHears = true →
     (∀ (pos : Byte) crc, crc = BitVec.ofNat 32 (crc32 (chainBody 1 pos.toNat 0 [])) →
       s.cfg.position = none → s.cfg.phase = 1 →
       (pos.toNat < 7 → ∃ t p, exec (.chainStartBlockReceived pos crc) s = .next t ∧ t.cfg.position = some p ∧
         p.toNat = pos.toNat + 1 ∧ t.cfg.startSeen = true ∧ t.cfg.forwarded =
           (if s.cfg.again then s.cfg.forwarded else chainSymbols 1 (pos.toNat + 1) 0 [] :: s.cfg.forwarded)) ∧
       (7 ≤ pos.toNat → ∃ t, exec (.chainStartBlockReceived pos crc) s = .next t ∧ t.cfg.tooLong = true ∧
         t.cfg.firstCause = 0x0E ∧ t.cfg.phase = 3 ∧ t.told .alarm 0x0302 0)) ∧
     (∀ (p : BitVec 3) (pos : Byte) (seq : BitVec 24) (payload : List Byte) crc (sym : List Byte), s.cfg.position = some p →
       let block := chainReceived 2 pos.toNat seq.toNat payload crc
       let good := crc = BitVec.ofNat 32 (crc32 (chainBody 2 pos.toNat seq.toNat payload)) ∧ seq.toNat = s.cfg.chainNext ∧
         payload.length ≤ 1024
       (payload.length < 65536 → p.toNat = pos.toNat → s.cfg.phase = 1 → s.cfg.chainFailed = false →
         (good → ∃ t, exec (.chainDataBlockReceived pos seq payload crc) s = .next t ∧ t.cfg.staged = s.cfg.staged ++ payload ∧
             t.cfg.stagedBytes = s.cfg.staged.length + payload.length ∧ t.cfg.chainNext = s.cfg.chainNext + 1) ∧
         (¬good → ∃ t, exec (.chainDataBlockReceived pos seq payload crc) s = .next t ∧ fails t 0x0C ∧ t.cfg.chainFailed = true)) ∧
       (p.toNat ≠ pos.toNat → s.cfg.again = false →
         ∃ t, exec (.chainDataBlockReceived pos seq payload crc) s = .next t ∧ t.cfg.forwarded = block :: s.cfg.forwarded ∧
           t.cfg.staged = s.cfg.staged) ∧
       ((chainBlock sym).type = 4 → ∃ t, exec (.chainEndBlockReceived sym) s = .next t ∧ t.cfg.outActive = false ∧
         (s.cfg.again = false → t.cfg.forwarded = sym :: s.cfg.forwarded) ∧
         (s.cfg.phase = 1 → s.cfg.chainGot = false → fails t 0x02) ∧
         (s.cfg.chainGot = true → t.cfg.phase = s.cfg.phase)) ∧
       (s.cfg.phase = 1 → s.partWhole = false → ∃ t, exec .chainBlockTimeout s = .next t ∧ fails t 0x0D)) ∧
     (s.cfg.position = none → s.cfg.phase = 1 → ∃ t, exec .chainStartTimeout s = .next t ∧ fails t 0x0B)) ∧
   (s.awake = true → s.cfg.phase = 1 ∨ s.cfg.phase = 2 → s.partWhole = true →
     s.partFault s.cfg.staged (s.cfg.phase == 2) = none →
     (∃ t, exec (.partTrailerCheck false .clean) s = .next t ∧ (s.cfg.phase = 1 → fails t 0x07) ∧
       (s.cfg.phase = 2 → t.cfg.reserveCause = 0x07 ∧ t.cfg.phase = 3 ∧ t.told .alarm 0x0302 0)) ∧
     (∃ t, exec (.partTrailerCheck true .clean) s = .next t ∧
       (s.contentBad = false → t.cfg.stageState = 3 ∧ t.cfg.phase = 4 ∧
         t.cfg.stagedFrom = (if s.cfg.phase = 2 then 4 else if s.pkg.bootSrc = 1 then 2 else 1)) ∧
       (s.contentBad = true → s.cfg.phase = 1 → fails t 0x08) ∧
       (s.contentBad = true → s.cfg.phase = 2 → t.cfg.reserveCause = 0x08)))) ∧
  (∀ s : State, s.awake = true →
   (s.cfg.phase = 4 → s.modes.house = .intake → s.allApplied = true →
     ∃ t, exec .streamApplyComplete s = .next t ∧ t.cfg.streamInEffect = true ∧ t.cfg.phase = 5 ∧
       t.cfg.stepsDone = 0 ∧ t.cfg.staged = [] ∧ t.cfg.stageState = 0 ∧ t.cfg.serial = w32 (leAt s.cfg.staged 36 4) ∧
       t.cfg.order = BitVec.ofNat 16 (leAt s.cfg.staged 12 2) ∧ t.cfg.rdvTimeout = leAt s.cfg.staged 14 2 ∧
       t.cfg.image = BitVec.ofNat 3 s.cfg.stagedFrom ∧ (s.cfg.stagedFrom = 4 → t.told .alarm 0x0301 0)) ∧
   (s.cfg.streamInEffect = true → s.modes.house = .intake → s.cfg.stepsDone = 0 → s.clk.loopLock = 0x3F → s.clk.qualA = true →
     s.clk.qualB = true →
     ∃ t, exec .startupStepAComplete s = .next t ∧ t.cfg.stepsDone = 1 ∧ t.frame.running = true ∧
       (s.frame.running = false → t.cfg.frame0Due = true ∧ t.frame.active = s.frame.sel) ∧
       (s.frame.running = true → t.cfg.frame0Due = s.cfg.frame0Due ∧ t.frame = s.frame)) ∧
   (s.cfg.rdvWait = true →
     exec .rendezvousMet s = .next { s with
       cfg.rdvWait := false, cfg.stepTaken := none, cfg.stepsDone := s.cfg.stepsDone + 1 }) ∧
   (s.cfg.rdvWait = true → s.cfg.rdvTimeout ≠ 0 → s.cfg.rdvTimeout ≤ s.cfg.rdvFrames →
     ∃ t, exec .rendezvousTimeout s = .next t ∧ t.cfg.rdvTimedOut = true ∧ t.cfg.rdvWait = false ∧
       t.cfg.stepsDone = s.cfg.stepsDone + 1 ∧ t.told .alarm 0x0303 0) ∧
   (s.cfg.rdvWait = true → s.cfg.rdvTimeout = 0 ∨ s.cfg.rdvFrames < s.cfg.rdvTimeout → exec .rendezvousTimeout s = .next s))

/-- R257, R263, R279, R387: STREAM_STAGE begins to stage from the host, the flash or the reserve image, and ends with the bytes
staged; STREAM_AUTH ends with what the checks of the staged part find; STREAM_APPLY gives an authenticated part to the loader, in
house Intake; FLASH_ERASE erases whole sectors, FLASH_WRITE writes erased bytes and no others; ARCHIVE_ADD waits for the loader
with an authenticated part. -/
def Obligations.StreamSlips : Prop := ∀ (s : State) (h : SlipHdr) (p l : List Byte), s.wf = true →
  modeIn s.modes.house streamModes = true →
  (s.takes 0x0301 .ordinary h p → s.loaderBusy = false →
    (arg p 16 1 = 0 → 2 ≤ s.access (actsAs h.ch.val) 31 →
      fields [⟨16, 1, true⟩, ⟨17, 1, arg p 17 1 = 0⟩, ⟨20, 4, arg p 20 4 = 0⟩,
        ⟨24, 4, 64 ≤ arg p 24 4 && arg p 24 4 % 64 == 0 && arg p 24 4 ≤ 0x20000000⟩, ⟨28, 8, arg p 28 8 % 64 = 0⟩] p = .ok () →
      ∃ t, exec (.streamStage h p (some l)) s = .next t ∧ t.accepted 0x0301 h ∧ t.cfg.staged = [] ∧ t.cfg.stageState = 1 ∧
        ∃ id, CfgWork.stage id 0 (some l) 0 0 (arg p 24 4) 0x400000 ∈ t.cfg.work ∧ id.seq = h.seq ∧ id.ch = h.ch) ∧
    (arg p 16 1 = 1 → fields [⟨16, 1, true⟩, ⟨17, 1, arg p 17 1 < 8⟩, ⟨20, 4, arg p 20 4 = 0⟩, ⟨24, 4, arg p 24 4 = 0⟩,
        ⟨28, 8, arg p 28 8 = 0⟩] p = .ok () →
      ∃ t, exec (.streamStage h p none) s = .next t ∧ t.accepted 0x0301 h ∧ t.cfg.staged = [] ∧ t.cfg.stageState = 1 ∧
        ∃ id, CfgWork.stage id 1 none (arg p 17 1) 0 0 0x400000 ∈ t.cfg.work ∧ id.seq = h.seq ∧ id.ch = h.ch)) ∧
  (s.takes 0x0301 .ordinary h p → s.loaderBusy = true → arg p 16 1 = 1 →
    fields [⟨16, 1, true⟩, ⟨17, 1, arg p 17 1 < 8⟩, ⟨20, 4, arg p 20 4 = 0⟩, ⟨24, 4, arg p 24 4 = 0⟩,
      ⟨28, 8, arg p 28 8 = 0⟩] p = .ok () →
    ∃ t, exec (.streamStage h p none) s = .next t ∧ t.answered 0x0301 h St.streamBusy [] ∧ s.sameButSlips t) ∧
  (s.takes 0x0302 .ordinary h p → fields [] p = .ok () →
    ∃ t, exec (.streamAuth h p) s = .next t ∧ t.accepted 0x0302 h ∧
      ∃ id, t.cfg.work = s.cfg.work ++ [.auth id] ∧ id.seq = h.seq ∧ id.ch = h.ch) ∧
  (s.takes 0x0303 .fencing h p → fields [] p = .ok () → s.modes.house = .intake →
    (s.cfg.stageState = 2 →
      ∃ t, exec (.streamApply h p) s = .next t ∧ t.accepted 0x0303 h ∧ t.cfg.stageState = 3 ∧ t.cfg.phase = 4 ∧
        t.cfg.streamInEffect = false ∧ t.cfg.staged = s.cfg.staged) ∧
    (s.cfg.stageState ≠ 2 → s.cfg.stageState ≠ 3 →
      ∃ t, exec (.streamApply h p) s = .next t ∧ t.answered 0x0303 h St.streamFail [] ∧ t.cfg.hostCause = 0x06 ∧
        t.cfg.phase = s.cfg.phase)) ∧
  (s.takes 0x0304 .ordinary h p → h.ch.val < 4 → s.modes.house = .bindery →
    fields [⟨16, 4, arg p 16 4 % 256 == 0 && (hostRegion (arg p 16 4)).isSome⟩,
      ⟨20, 4, arg p 20 4 % 256 == 0 && 1 ≤ arg p 20 4 / 256 && arg p 20 4 / 256 ≤ 16384 && flashSpan (arg p 16 4) (arg p 20 4)⟩,
      ⟨24, 8, true⟩] p = .ok () →
    ∃ t, exec (.flashWrite h p (some l)) s = .next t ∧ t.accepted 0x0304 h ∧ t.cfg.flash = s.cfg.flash ∧
      ∃ id, t.cfg.work = s.cfg.work ++ [.flashWrite id (arg p 16 4) (slice l 0 (arg p 20 4))] ∧ id.seq = h.seq) ∧
  (s.takes 0x0305 .ordinary h p → s.modes.house = .bindery →
    fields [⟨16, 4, arg p 16 4 % 65536 == 0 && (hostRegion (arg p 16 4)).isSome⟩,
      ⟨20, 4, decide (0 < arg p 20 4) && arg p 20 4 % 65536 == 0 && flashSpan (arg p 16 4) (arg p 20 4)⟩] p = .ok () →
    ∃ t, exec (.flashErase h p) s = .next t ∧ t.accepted 0x0305 h ∧ t.cfg.flash = s.cfg.flash ∧
      ∃ id, t.cfg.work = s.cfg.work ++ [.flashErase id (arg p 16 4) (arg p 20 4)] ∧ id.seq = h.seq) ∧
  (s.takes 0x0307 .ordinary h p → fields [⟨16, 1, arg p 16 1 < 32⟩] p = .ok () →
    modeIn (s.bayMode (arg p 16 1)) streamModes = true →
    (s.cfg.stageState = 2 →
      ∃ t, exec (.archiveAdd h p) s = .next t ∧ t.accepted 0x0307 h ∧ t.cfg.archive = s.cfg.archive ∧
        ∃ id b, t.cfg.work = s.cfg.work ++ [.archiveAdd id b] ∧ b.val = arg p 16 1 ∧ id.seq = h.seq) ∧
    (s.cfg.stageState = 3 →
      ∃ t, exec (.archiveAdd h p) s = .next t ∧ t.answered 0x0307 h St.streamBusy [] ∧ s.sameButSlips t))

/-- R257, R263, R264, R387: the ends of the loader's work for slips: what was staged, what a part's checks found, an erased span
and a written one, and the editions added to the archive. -/
def Obligations.StreamWorkEnds : Prop := ∀ (s : State) (id : SlipId) (rest : List CfgWork), s.wf = true → s.awake = true →
  s.ringGone id = false → id.ch.val < s.slips.chans.length → id.noReply = false →
  (∀ l len moved, s.cfg.work = .stage id 0 (some l) 0 0 len moved :: rest → len ≤ moved →
    (len ≤ s.stagingRoom → s.cfg.stageLost = false →
      ∃ t, exec (.streamStageDone .clean) s = .next t ∧ t.cfg.staged = slice l 0 len ∧ t.cfg.stagedBytes = len ∧
        t.cfg.stagedFrom = 3 ∧ t.cfg.work = rest ∧ t.completed id St.ok (leBytes 4 len)) ∧
    (s.stagingRoom < len →
      ∃ t, exec (.streamStageDone .clean) s = .next t ∧ t.cfg.staged = s.cfg.staged ∧
        t.completed id St.streamTooLong (leBytes 4 s.cfg.stagedBytes))) ∧
  (s.cfg.work = .auth id :: rest →
    (s.cfg.staged.length < 128 → ∀ tagOk, ∃ t, exec (.streamAuthDone tagOk) s = .next t ∧ t.completed id St.streamFail [] ∧
      t.cfg.hostCause = 0x06 ∧ t.cfg.work = rest) ∧
    (128 ≤ s.cfg.staged.length → s.partFault s.cfg.staged false = none →
      (∃ t, exec (.streamAuthDone false) s = .next t ∧ t.completed id St.streamFail [] ∧ t.cfg.hostCause = 0x07 ∧
        t.cfg.stageState = s.cfg.stageState) ∧
      ∃ t, exec (.streamAuthDone true) s = .next t ∧
        (State.contentBad { s with cfg.work := rest } = false →
          t.completed id St.ok [] ∧ t.cfg.stageState = (if s.cfg.stageState = 3 then 3 else 2)) ∧
        (State.contentBad { s with cfg.work := rest } = true →
          t.completed id St.streamContent [] ∧ t.cfg.stageState = s.cfg.stageState))) ∧
  (∀ a l, s.cfg.work = .flashWrite id a l :: rest →
    ((∀ c ∈ s.cfg.flash, c.1 < a ∨ a + l.length ≤ c.1) →
      ∃ t, exec .flashWriteDone s = .next t ∧ t.completed id St.ok [] ∧ t.cfg.work = rest ∧
        flashBytes t.cfg.flash a l.length = l ∧
        ∀ x, x < a ∨ a + l.length ≤ x → flashByte t.cfg.flash x = flashByte s.cfg.flash x) ∧
    ((∃ c ∈ s.cfg.flash, a ≤ c.1 ∧ c.1 < a + l.length) →
      ∃ t, exec .flashWriteDone s = .next t ∧ t.completed id St.flashNotErased [] ∧ t.cfg.flash = s.cfg.flash)) ∧
  (∀ a len, s.cfg.work = .flashErase id a len :: rest →
    ∃ t, exec .flashEraseDone s = .next t ∧ t.completed id St.ok [] ∧ t.cfg.work = rest ∧
      (∀ x, a ≤ x → x < a + len → flashByte t.cfg.flash x = 0xFF) ∧
      ∀ x, x < a ∨ a + len ≤ x → flashByte t.cfg.flash x = flashByte s.cfg.flash x) ∧
  (∀ b, s.cfg.work = .archiveAdd id b :: rest →
    (s.cfg.stageState ≠ 2 → ∃ t, exec .archiveAddDone s = .next t ∧ t.completed id St.streamFail [] ∧
      t.cfg.archive = s.cfg.archive) ∧
    (s.cfg.stageState = 2 → ∃ t, exec .archiveAddDone s = .next t ∧ t.cfg.work = rest ∧
      (s.stagedBay b.val = none → t.completed id St.ok (leBytes 2 0) ∧ t.cfg.archive = s.cfg.archive) ∧
      ∀ c, s.stagedBay b.val = some c → s.archiveUsed + c.stored ≤ s.archiveRoom →
        (∀ x ∈ c.folios, (Sparse.look t.cfg.archive x.1).isSome = true) ∧
        ∀ k, ((Sparse.look s.cfg.archive k).isSome = true ∨ ∀ x ∈ c.folios, x.1 ≠ k) →
          Sparse.look t.cfg.archive k = Sparse.look s.cfg.archive k))

/-! ## The shelf-reader and stocktake -/

/-- R280, R283 to R290: any one bit of a configuration frame in error is found as that bit, any two as uncorrectable; the sweep reads
one frame more: a clean one changes nothing else, one with a single bit in error is counted as essential, with SHELF_ESSENTIAL, or as nonessential, an uncorrectable one counted with an alarm; a correction of an
active folio waits until its folio turns out, and writes the frame. A fault of its own settings stops the sweep with an alarm; a late sweep and a
stalled one are told. -/
def Obligations.ShelfReading : Prop := ∀ (s : State) (data : BitVec 1024) (check : BitVec 12), s.wf = true →
  let strike := check ++ data
  ((∀ i : Fin 1036, decodeFrame (BitVec.ofNat 1036 (2 ^ i.val)) = .single i) ∧
    ∀ i j : Fin 1036, i ≠ j → decodeFrame (BitVec.ofNat 1036 (2 ^ i.val) ^^^ BitVec.ofNat 1036 (2 ^ j.val)) = .uncorrectable) ∧
  (∀ pos, s.sweepRuns = true → s.sweepAt = some pos → s.shelf.pending.length < 16 → s.shelf.readThisFrame < 7812 →
    let fk := pos / 640
    let frame := pos % 640
    let subject := keyBay fk * 38 + s.phys (keyBay fk) (keyPos fk)
    let bad := (s.folio fk).inError frame ^^^ strike
    (bad = 0 →
      ∃ t, exec (.shelfFrameRead data check .none) s = .next t ∧ t.shelf.readThisFrame = s.shelf.readThisFrame + 1 ∧
        t.shelf.pending = s.shelf.pending ∧ t.shelf.essential = s.shelf.essential ∧
        t.shelf.nonessential = s.shelf.nonessential ∧ t.shelf.uncorrectable = s.shelf.uncorrectable ∧
        (t.shelf.position = pos + 1 ∨ t.shelf.position = 0) ∧ t.shelf.positionSh = t.shelf.position ∧
        (strike = 0 → t = { s with shelf := t.shelf })) ∧
    (∀ bit : Fin 1036, decodeFrame bad = .single bit →
      ∃ t, exec (.shelfFrameRead data check .none) s = .next t ∧ t.shelf.readThisFrame = s.shelf.readThisFrame + 1 ∧
        (s.essential fk frame bit.val = true →
          t.shelf.essential = min 65535 (s.shelf.essential + 1) ∧ t.shelf.nonessential = s.shelf.nonessential ∧
          t.told .warning 0x0307 subject) ∧
        (s.essential fk frame bit.val = false →
          t.shelf.nonessential = min 65535 (s.shelf.nonessential + 1) ∧ t.shelf.essential = s.shelf.essential ∧
          (s.folioActive fk = true → t.shelf.pending = s.shelf.pending ++
            [{ folioKey := fk, frame := frame, bit := bit.val, left := bad ^^^ BitVec.ofNat 1036 (2 ^ bit.val), ready := false }]) ∧
          (s.folioActive fk = false → t.shelf.pending = s.shelf.pending))) ∧
    (decodeFrame bad = .uncorrectable →
      ∃ t, exec (.shelfFrameRead data check .none) s = .next t ∧
        t.shelf.uncorrectable = min 65535 (s.shelf.uncorrectable + 1) ∧ t.told .alarm 0x0304 subject)) ∧
  (s.sweepRuns = true →
    ∃ t, exec (.shelfFrameRead data check .parity) s = .next t ∧ t.shelf.stopped = true ∧ t.shelf.sweepEn = true ∧
      t.shelf.position = 0 ∧ t.shelf.pending = [] ∧ t.shelf.selfFaults = min 255 (s.shelf.selfFaults + 1) ∧
      t.told .alarm 0x0305 0) ∧
  (s.awake = true → ∀ c, s.shelf.pending.find? (fun x => x.ready || !s.folioActive x.folioKey) = some c →
    ∃ t, exec .shelfCorrectionWrite s = .next t ∧ t.shelf.pending = s.shelf.pending.erase c ∧
      t.folio c.folioKey = (s.folio c.folioKey).setInError c.frame c.left ∧
      (∀ k, k ≠ c.folioKey → t.folio k = s.folio k) ∧
      t = { s with shelf.pending := t.shelf.pending, shelf.fullAllFrame := false, fab.folios := t.fab.folios }) ∧
  (800 ≤ s.shelf.sweepFrames → s.shelf.lateTold = false →
    ∃ t, exec .sweepLate s = .next t ∧ t.told .warning 0x0308 0 ∧ t.shelf = { s.shelf with lateTold := true }) ∧
  (4 ≤ s.shelf.stallRun →
    ∃ t, exec .shelfStall s = .next t ∧ t.told .alarm 0x0306 0 ∧ t.shelf.position = 0 ∧ t.shelf.pending = [] ∧
      t.shelf.stalls = min 255 (s.shelf.stalls + 1) ∧ t.shelf.sweepEn = s.shelf.sweepEn ∧
      t.shelf.actionLo = s.shelf.actionLo)

/-- R331 to R336: a block that passes moves the carrel's test on, the first failure reruns it, a pass of the rerun is a transient,
and a failure of the rerun stops the test with STOCK_FAIL; a test that is due starts if the conditions hold, and is refused if
they do not; a test that ends answers its slip and frees its controller; the repair record is written whole or not at all. -/
def Obligations.StocktakeRuns : Prop := ∀ (s : State) (b : Bay) (c : Pos) (id : SlipId) (chains : List (BitVec 64)), s.wf = true →
  let k := ckey b.val c.val
  let x := s.slice k
  let subject := b.val * 38 + s.phys b.val c.val
  (s.rotasRun b.val = true → (s.carrel k).slicing = true → x.blockStart + 128 ≤ x.pattern + x.left →
    (signatureMet (x.blockStart / 128) chains = true →
      ∃ t, exec (.stockBlockCompare b c chains) s = .next t ∧ (t.slice k).blockStart = (x.blockStart + 128) % 16384 ∧
        (t.slice k).rerun = false ∧ (t.slice k).stopped = x.stopped ∧
        (x.rerun = false → t.stock.failures = s.stock.failures ∧ t.stock.inbox = s.stock.inbox) ∧
        (x.rerun = true → s.stock.inbox = [] → s.stock.deskCycles = 0 → s.stock.results.length < 256 →
          t.told .info 0x0A07 subject ∧ t.stock.failures = s.stock.failures)) ∧
    (signatureMet (x.blockStart / 128) chains = false → x.rerun = false →
      ∃ t, exec (.stockBlockCompare b c chains) s = .next t ∧
        t.slice k = { x with rerun := true, pattern := x.blockStart, left := 0 } ∧
        t = { s with stock.carrels := t.stock.carrels }) ∧
    (signatureMet (x.blockStart / 128) chains = false → x.rerun = true →
      ∃ t, exec (.stockBlockCompare b c chains) s = .next t ∧ (t.slice k).stopped = true ∧ (t.slice k).rerun = false ∧
        (s.stock.inbox = [] → s.stock.deskCycles = 0 →
          t.stock.failures = min 65535 (s.stock.failures + 1) ∧ t.told .alarm 0x0A01 subject) ∧
        (Sparse.get 0 s.stock.policy b.val ≠ 0 →
          t.stock.pendRemaps = s.stock.pendRemaps ++ [(b.val, c.val, Sparse.get 0 s.stock.policy b.val == 2, none)]) ∧
        (Sparse.get 0 s.stock.policy b.val = 0 → t.stock.pendRemaps = s.stock.pendRemaps))) ∧
  (∀ u, s.awake = true → s.bayMode b.val = .bindery → s.test? b.val = some u → u.running = false →
    (s.stockConditions = true →
      ∃ t, exec (.stockTestStart b) s = .next t ∧ t.test? b.val = some { u with running := true } ∧
        t = { s with stock.tests := t.stock.tests, fab.tests := t.fab.tests, frame.freeCount := t.frame.freeCount } ∧
        (u.logic = true → ∀ ph < 38, (Sparse.look t.fab.tests (b.val * 38 + ph)).isSome = true) ∧
        (u.logic = false → t.fab.tests = s.fab.tests)) ∧
    (s.stockConditions = false → u.id = some id → s.ringGone id = false → id.ch.val < s.slips.chans.length → id.noReply = false →
      ∃ t, exec (.stockTestStart b) s = .next t ∧ t.test? b.val = none ∧ t.told .warning 0x0A05 b.val ∧
        t.completed id St.stockConditions [])) ∧
  (∀ u blocks banks, u.stop ≠ some .conditions → (u.stop = none → u.paused = false) → s.bayMode b.val = .bindery → s.test? b.val = some u → u.running = true → u.id = some id → s.ringGone id = false →
    id.ch.val < s.slips.chans.length → id.noReply = false →
    (∃ t r, exec (.stockTestEnd b .done ⟨blocks, banks⟩ []) s = .next t ∧ t.test? b.val = none ∧ t.completed id St.ok r ∧ r.length = 8 ∧
      leAt r 0 2 = (if u.logic then 128 else 0) ∧ leAt r 6 2 = 0 ∧ t.stock.results = s.stock.results ∧
      t.stock.failures = s.stock.failures) ∧
    ∀ (ph : Fin 38) (block : Nat), u.repair = 0 → s.stock.inbox = [] → s.stock.deskCycles = 0 →
      ∃ t r, exec (.stockTestEnd b .done ⟨blocks, banks⟩ [.logic ph block none]) s = .next t ∧ t.test? b.val = none ∧
        t.completed id St.ok r ∧ leAt r 6 2 = 1 ∧ t.stock.failures = min 65535 (s.stock.failures + 1) ∧
        t.told .alarm 0x0A01 (b.val * 38 + ph.val)) ∧
  (∀ l, s.awake = true → s.stock.recordWrite = some l →
    (64 + 16 * l.length ≤ 0x800000 →
      ∃ t, exec .repairRecordWriteDone s = .next t ∧ t.stock.record = l ∧ t.stock.recordWrite = none ∧
        (t.stock.recordSeq : Int) = max (copySeq s.cfg.flash 0) (copySeq s.cfg.flash 1) + 1 ∧
        ((∀ e ∈ l, e.length = 16) → ∀ a, a < 0x60000000 ∨ 0x61000000 ≤ a →
          flashByte t.cfg.flash a = flashByte s.cfg.flash a)) ∧
    (0x800000 < 64 + 16 * l.length →
      ∃ t, exec .repairRecordWriteDone s = .next t ∧ t.stock.record = s.stock.record ∧ t.cfg.flash = s.cfg.flash ∧
        t.told .warning 0x0A06 0))

/-- R329, R332, R334, R335, R394: STOCK_DECLARE takes a testable bay into the in-service test or out of it; STOCK_RUN asks for a
whole-bay test; STOCK_REPAIR takes a free spare, row or column into use; STOCK_RESULT takes the oldest results. -/
def Obligations.StockSlips : Prop := ∀ (s : State) (h : SlipHdr) (p : List Byte), s.wf = true →
  let b := arg p 16 1
  (s.takes 0x0A01 .ordinary h p → modeIn (s.bayMode b) [.service, .bindery] = true →
    fields [⟨16, 1, b < 32⟩, ⟨17, 1, arg p 17 1 < 2⟩,
      ⟨18, 1, if arg p 17 1 = 1 then arg p 18 1 < 3 else arg p 18 1 = 0⟩] p = .ok () →
    (arg p 17 1 = 0 →
      ∃ t, exec (.stockDeclare h p) s = .next t ∧ t.answered 0x0A01 h St.ok [] ∧ t.isDeclared b = false) ∧
    (arg p 17 1 = 1 → s.testable b = true →
      ∃ t, exec (.stockDeclare h p) s = .next t ∧ t.answered 0x0A01 h St.ok [] ∧ t.isDeclared b = true ∧
        Sparse.get 0 t.stock.policy b = arg p 18 1 ∧ ∀ c < 36, (t.slice (ckey b c)).stopped = false) ∧
    (arg p 17 1 = 1 → s.testable b = false →
      ∃ t, exec (.stockDeclare h p) s = .next t ∧ t.answered 0x0A01 h St.stockNoWindow [] ∧ s.sameButSlips t)) ∧
  (s.takes 0x0A02 .ordinary h p → modeIn (s.bayMode b) [.bindery] = true →
    fields [⟨16, 1, b < 32⟩, ⟨17, 1, arg p 17 1 < 8 && arg p 17 1 % 4 != 0 && (arg p 17 1 < 4 || (arg p 17 1).testBit 1)⟩,
      ⟨18, 1, arg p 18 1 < 3⟩, ⟨20, 2, 1 ≤ arg p 20 2⟩] p = .ok () → getBit s.clk.gatedBay b = false →
    (s.stockBusy (b / 8) = false →
      ∃ t u, exec (.stockRun h p) s = .next t ∧ t.accepted 0x0A02 h ∧ t.test? b = some u ∧ u.logic = (arg p 17 1).testBit 0 ∧
        u.banks = (arg p 17 1).testBit 1 ∧ u.poolBanks = (arg p 17 1).testBit 2 ∧ u.repair = arg p 18 1 ∧
        u.budget = arg p 20 2 ∧ u.running = false ∧ u.id.map (·.seq) = some h.seq) ∧
    (s.stockBusy (b / 8) = true →
      ∃ t, exec (.stockRun h p) s = .next t ∧ t.answered 0x0A02 h St.stockBusy [] ∧ s.sameButSlips t)) ∧
  (s.takes 0x0A03 .ordinary h p → modeIn (s.bayMode b) [.bindery] = true → arg p 18 1 = 0 →
    (arg p 17 1 = 0 → fields [⟨16, 1, b < 32⟩, ⟨17, 1, true⟩, ⟨18, 1, true⟩, ⟨20, 1, arg p 20 1 < 36⟩,
        ⟨21, 1, 36 ≤ arg p 21 1 && arg p 21 1 < 38⟩] p = .ok () → s.spareFree b (arg p 21 1) = true →
      ∃ t, exec (.stockRepair h p) s = .next t ∧ t.answered 0x0A03 h St.ok [] ∧ t.phys b (arg p 20 1) = arg p 21 1 ∧
        t.slice (ckey b (arg p 20 1)) = .dflt) ∧
    (arg p 17 1 = 1 → fields [⟨16, 1, b < 32⟩, ⟨17, 1, true⟩, ⟨18, 1, true⟩, ⟨20, 2, arg p 20 2 < 152⟩,
        ⟨22, 1, arg p 22 1 < 2⟩, ⟨23, 1, true⟩] p = .ok () →
      (s.rowsUsed (b * 152 + arg p 20 2)).contains (arg p 22 1) = false →
      ∃ t, exec (.stockRepair h p) s = .next t ∧ t.answered 0x0A03 h St.ok [] ∧
        t.stock.rows = s.stock.rows ++ [(b * 152 + arg p 20 2, arg p 22 1, arg p 23 1)]) ∧
    (arg p 17 1 = 2 → fields [⟨16, 1, b < 32⟩, ⟨17, 1, true⟩, ⟨18, 1, true⟩, ⟨20, 2, arg p 20 2 < 152⟩,
        ⟨22, 2, arg p 22 2 < 2304⟩] p = .ok () → s.colUsed (b * 152 + arg p 20 2) = false →
      ∃ t, exec (.stockRepair h p) s = .next t ∧ t.answered 0x0A03 h St.ok [] ∧
        t.stock.columns = s.stock.columns ++ [(b * 152 + arg p 20 2, arg p 22 2)])) ∧
  (s.takes 0x0A04 .ordinary h p → modeIn s.modes.house [.service, .bindery, .closing] = true →
    fields [⟨16, 1, 1 ≤ arg p 16 1 && arg p 16 1 ≤ 128⟩] p = .ok () →
    ∃ t, exec (.stockResult h p) s = .next t ∧ t.stock.results = s.stock.results.drop (arg p 16 1) ∧
      t.answered 0x0A04 h St.ok (leBytes 2 (min (arg p 16 1) s.stock.results.length) ++ leBytes 14 0 ++
        (s.stock.results.take (arg p 16 1)).flatMap fun e => leBytes 16 e.toNat))

/-! ## Power and the thermal model -/

/-- R311, R312, R314, R317, R321, R323, R324: a rail out of range, the supply out of range for eight slots, a boundary temperature not
written in time and a slope past the warning are told; a node whose band has been due for 64 frames and a sensor that the
checks show broken wait for step 5; a rail that is back in range completes its slips, and its clock follows. -/
def Obligations.PowerEvents : Prop := ∀ (s : State) (n : Node) (ph : Fin 97) (ty : Fin 6) (index : Nat), s.wf = true →
  s.awake = true →
  (∃ t, exec (.railFault ty index) s = .next t ∧ t.told .alarm 0x0204 (ty.val * 256 + index) ∧
    getBit t.pwr.railOut ty.val = true ∧ t.stock.spoiled = BitVec.allOnes 32 ∧
    ∀ k : Fin 6, k ≠ ty → getBit t.pwr.railOut k.val = getBit s.pwr.railOut k.val) ∧
  (s.pwr.vinRun = 8 → s.pwr.vinTold = false →
    ∃ t, exec .vinFault s = .next t ∧ t.told .alarm 0x0205 0 ∧ t.pwr = { s.pwr with vinTold := true }) ∧
  (s.thm.timer = 16000 → s.thm.boundaryStale = false →
    ∃ t, exec .boundaryStale s = .next t ∧ t.told .warning 0x0207 0 ∧ t.thm.boundaryStale = true ∧
      t.thm.boundary = s.thm.boundary ∧ t.thm.nodes = s.thm.nodes) ∧
  ((s.node n.val).warn = false → 64 ≤ (s.node n.val).warnHi →
    ∃ t, exec (.slopeWarn n) s = .next t ∧ t.told .warning 0x0206 n.val ∧ t.node n.val = { s.node n.val with warn := true } ∧
      ∀ j, j ≠ n.val → t.node j = s.node j) ∧
  ((s.node n.val).warn = true → 64 ≤ (s.node n.val).warnLo →
    ∃ t, exec (.slopeWarn n) s = .next t ∧ t.told .warning 0x0206 n.val ∧ t.node n.val = { s.node n.val with warn := false } ∧
      ∀ j, j ≠ n.val → t.node j = s.node j) ∧
  (s.thm.bandPend.any (fun x => x.1 == n.val) = false → (s.node n.val).pinned = false →
    ((s.node n.val).band < 4 → 64 ≤ nth (s.node n.val).bandUp (s.node n.val).band →
      exec (.bandChange n) s = .next { s with
        thm.bandPend := s.thm.bandPend ++ [(n.val, (s.node n.val).band + 1)] }) ∧
    (0 < (s.node n.val).band → (s.node n.val).band ≤ 4 → 64 ≤ nth (s.node n.val).bandDown ((s.node n.val).band - 1) →
      nth (s.node n.val).bandUp (s.node n.val).band < 64 →
      exec (.bandChange n) s = .next { s with
        thm.bandPend := s.thm.bandPend ++ [(n.val, (s.node n.val).band - 1)] })) ∧
  (∀ kind : SensorKind, s.sensorKind ph.val = SensorKind.code kind → Sparse.get 0 s.pwr.fault ph.val = 0 →
    s.thm.faultPend.any (fun y => y.1 == ph.val) = false →
    ∃ t, exec (.sensorFault ph kind) s = .next t ∧ t = { s with thm.faultPend := t.thm.faultPend } ∧
      (kind ≠ .sisterMismatch → t.thm.faultPend = s.thm.faultPend ++ [(ph.val, SensorKind.code kind)]) ∧
      (∀ m, kind = .sisterMismatch → sister ph.val = some m → (ph.val, 3) ∈ t.thm.faultPend)) ∧
  (∀ (lg : Bool) (i : Fin 32) (id : SlipId), (lg, i.val, id) ∈ s.pwr.restoring → s.ringGone id = false →
    id.ch.val < s.slips.chans.length → id.noReply = false →
    ∃ t, exec (.railRestored lg i) s = .next t ∧ t.completed id St.ok [] ∧ (lg, i.val) ∈ t.pwr.ungate ∧
      (∀ r ∈ t.pwr.restoring, ¬(r.1 = lg ∧ r.2.1 = i.val)) ∧
      (lg = false → t.railOff false i.val = false) ∧ (lg = true → i.val < 8 → t.railOff true i.val = false))

/-- R310, R312, R318, R325, R386: THERMAL_SET changes the parameters it masks at step 5; THERMAL_RELEASE releases a pinned node
whose sensors have passed 1,024 frames and refuses one whose have not; POWER_SET asks for a bay's voltage; POWER_GATE removes
the rail of a block whose clock is held, and restores one that is off. -/
def Obligations.ThermalSlips : Prop := ∀ (s : State) (h : SlipHdr) (p : List Byte), s.wf = true →
  (s.takes 0x0201 .ordinary h p →
    let mask := arg p 16 1
    let old := s.thm.paramNext.getD s.thm.param
    let knee := if mask.testBit 2 then arg p 19 1 else old.knee
    fields [⟨16, 1, mask < 64⟩, ⟨17, 1, masked (mask.testBit 0) (arg p 17 1) 25 100⟩,
      ⟨18, 1, masked (mask.testBit 1) (arg p 18 1) 1 100⟩, ⟨19, 1, masked (mask.testBit 2) (arg p 19 1) 10 200⟩,
      ⟨20, 1, masked (mask.testBit 3) (arg p 20 1) 5 knee⟩, ⟨21, 1, masked (mask.testBit 4) (arg p 21 1) 0 192⟩,
      ⟨22, 3, masked (mask.testBit 5) (arg p 22 3) 0 0xFFFFF⟩] p = .ok () →
    ∃ t q, exec (.thermalSet h p) s = .next t ∧ t.answered 0x0201 h St.ok [] ∧ t.thm.paramNext = some q ∧
      t.thm.param = s.thm.param ∧ q.knee = knee ∧ q.worst = (if mask.testBit 0 then arg p 17 1 else old.worst) ∧
      q.k = (if mask.testBit 1 then arg p 18 1 else old.k) ∧ q.warn = (if mask.testBit 3 then arg p 20 1 else old.warn) ∧
      q.thetaMax = (if mask.testBit 4 then arg p 21 1 else old.thetaMax) ∧
      (mask.testBit 5 = false → q.presets = old.presets)) ∧
  (s.takes 0x0202 .ordinary h p →
    let n := arg p 16 1
    fields [⟨16, 1, n < 48⟩] p = .ok () →
    ((s.node n).pinned = false →
      ∃ t, exec (.thermalRelease h p) s = .next t ∧ t.answered 0x0202 h St.ok [] ∧ s.sameButSlips t) ∧
    ((s.node n).pinned = true → (∀ k ∈ feedingPhases n, 1024 ≤ Sparse.get 0 s.pwr.passed k) →
      ∃ t, exec (.thermalRelease h p) s = .next t ∧ t.answered 0x0202 h St.ok [] ∧
        t.node n = { s.node n with release := true } ∧ ∀ j, j ≠ n → t.node j = s.node j) ∧
    ((s.node n).pinned = true → (∃ k ∈ feedingPhases n, Sparse.get 0 s.pwr.passed k < 1024) →
      ∃ t, exec (.thermalRelease h p) s = .next t ∧ t.answered 0x0202 h St.notQualified [] ∧ s.sameButSlips t)) ∧
  (s.takes 0x0204 .ordinary h p →
    fields [⟨16, 1, arg p 16 1 < 32⟩, ⟨17, 1, max 65 (s.bay (arg p 16 1)).vmin ≤ arg p 17 1 && arg p 17 1 ≤ 80⟩] p = .ok () →
    ∃ t, exec (.powerSet h p) s = .next t ∧ t.answered 0x0204 h St.ok [] ∧
      t.pwr.pendVset = s.pwr.pendVset ++ [(arg p 16 1, arg p 17 1)] ∧ t.bay (arg p 16 1) = s.bay (arg p 16 1)) ∧
  (s.takes 0x0205 .ordinary h p →
    let lg := decide (arg p 16 1 = 1)
    let i := arg p 17 1
    fields [⟨16, 1, arg p 16 1 < 2⟩, ⟨17, 1, i < (if lg then 8 else 32)⟩, ⟨18, 1, arg p 18 1 < 2⟩] p = .ok () →
    s.ringGone (slipId s 0x0205 h .ordinary) = false →
    (arg p 18 1 = 0 → s.railOff lg i = false → s.clockGated lg i = true →
      ∃ t, exec (.powerGate h p) s = .next t ∧ t.answered 0x0205 h St.accepted [] ∧
        t.completed (slipId s 0x0205 h .ordinary) St.ok [] ∧ t.railOff lg i = true) ∧
    (arg p 18 1 = 0 → s.railOff lg i = false → s.clockGated lg i = false →
      ∃ t, exec (.powerGate h p) s = .next t ∧ t.answered 0x0205 h St.modeConflict [] ∧ s.sameButSlips t) ∧
    (arg p 18 1 = 1 → s.railOff lg i = true →
      ∃ t, exec (.powerGate h p) s = .next t ∧ t.accepted 0x0205 h ∧ t.railOff lg i = true ∧
        ∃ id, t.pwr.restoring = s.pwr.restoring ++ [(lg, i, id)] ∧ id.seq = h.seq ∧ id.ch = h.ch))

/-! ## The reading-room port -/

/-- R438: each instruction of the TAP is the one in force once it is loaded, with its capture; EXTEST and a preload set the
boundary cells, and HIGHZ, CLAMP, BYPASS, IDCODE and a reset leave them. R439, R440: RR_REG without its go bit makes no
access; with it, a read of a register that stands captures its value without error, and an access of no register captures an
error. RR_MEM with its go bit reads a 64-bit word of the memory layer where the fuse allows it and the word may be read, and
captures an error with data 0 where the fuse does not. -/
def Obligations.ReadingRoomPort : Prop :=
  (∀ (s : State) (cells pins : BitVec 20) (code : Byte),
   (∀ c ∈ [Instr.tapReset, .idcode], ∃ t, exec c s = .next t ∧ t.tap.instr = .idcode ∧
     t.tap.capture = 0x391440F3 ∧ t.tap.boundary = s.tap.boundary ∧ t = { s with tap := t.tap }) ∧
   (∃ t, exec (.extest cells) s = .next t ∧ t.tap.instr = .extest ∧ t.tap.boundary = cells ∧ t = { s with tap := t.tap } ∧
     t.alertLowPin = some (getBit cells 9) ∧ t.doneLowPin = some (getBit cells 7)) ∧
   (∃ t, exec (.samplePreload (some cells) pins) s = .next t ∧ t.tap.instr = .sample ∧ t.tap.boundary = cells ∧
     t.tap.capture = pins.zeroExtend 102 ∧ t.alertLowPin = some s.alert) ∧
   (∃ t, exec (.samplePreload none pins) s = .next t ∧ t.tap.boundary = s.tap.boundary ∧ t.tap.capture = pins.zeroExtend 102) ∧
   (∃ t, exec .highz s = .next t ∧ t.tap.instr = .highz ∧ t.tap.boundary = s.tap.boundary ∧ t.alertLowPin = none ∧
     t.doneLowPin = none ∧ t.frameOutPin = none) ∧
   (∃ t, exec .clamp s = .next t ∧ t.tap.instr = .clamp ∧ t.tap.boundary = s.tap.boundary ∧
     t.alertLowPin = some (getBit s.tap.boundary 9)) ∧
   ∃ t, exec (.bypass code) s = .next t ∧ t.tap.instr = .bypass ∧ t.tap.capture = 0 ∧ t.tap.boundary = s.tap.boundary ∧
     t.doneLowPin = some s.pkg.doneLow) ∧
  (∀ (s : State) (dr : BitVec 56) (md : BitVec 102) (n : Nat), s.wf = true →
   (getBit dr 55 = false → exec (.rrReg dr n) s = .next { s with tap.instr := .rrReg }) ∧
   (s.up = true → s.clk.stoppedDevice = false → getBit dr 55 = true →
     let off := field dr.toNat 53 34 * 4
     (off = 0x10 → getBit dr 54 = false →
       ∃ t, exec (.rrReg dr n) s = .next t ∧ field t.tap.regDr.toNat 31 0 = s.regs.scratch.toNat ∧
         getBit t.tap.regDr 54 = false ∧ getBit t.tap.regDr 55 = true ∧ t.tap.instr = .rrReg) ∧
     (off = 0x10 → getBit dr 54 = true → s.pkg.debugFuse = 2 →
       ∃ t, exec (.rrReg dr n) s = .next t ∧ t.regs.scratch = w32 (field dr.toNat 31 0) ∧ getBit t.tap.regDr 54 = false ∧
         getBit t.tap.regDr 55 = true) ∧
     (getBit dr 54 = true → s.pkg.debugFuse ≠ 2 →
       ∃ t, exec (.rrReg dr n) s = .next t ∧ getBit t.tap.regDr 54 = true ∧ getBit t.tap.regDr 55 = true ∧
         t.regs.scratch = s.regs.scratch ∧ t.regs.errCause = 7) ∧
     (blockAt off = none → getBit dr 54 = false →
       ∃ t, exec (.rrReg dr n) s = .next t ∧ getBit t.tap.regDr 54 = true ∧ field t.tap.regDr.toNat 31 0 = 0 ∧
         t.regs.errCause = 1)) ∧
   (getBit md 101 = false → exec (.rrMem md .clean []) s = .next { s with tap.instr := .rrMem }) ∧
   (s.up = true → s.clk.stoppedDevice = false → getBit md 101 = true → getBit md 99 = false → getBit md 100 = false →
     let a := field md.toNat 98 67 * 8
     (s.pkg.debugFuse ≠ 0 → a < layerSize → s.userReach 0 a 8 = true → s.poolReach 0 a 8 = true → s.served 0x37 false = true →
       s.physRetired (s.layerPhys a / 65536) = false →
       ∃ t, exec (.rrMem md .clean []) s = .next t ∧ field t.tap.memDr.toNat 63 0 = ofLe (s.layerRead a 8) ∧
         getBit t.tap.memDr 99 = false ∧ getBit t.tap.memDr 100 = true ∧ t.mem.layer = s.mem.layer) ∧
     (s.pkg.debugFuse = 0 →
       ∃ t, exec (.rrMem md .clean []) s = .next t ∧ field t.tap.memDr.toNat 63 0 = 0 ∧ getBit t.tap.memDr 99 = true ∧
         getBit t.tap.memDr 100 = true ∧ t.mem = s.mem)))

/-! ## Queries -/

/-- R58, R384, R385 to R397: a query without operands answers with the registers its table names, in their order, and changes
nothing but the record of slips. -/
def Obligations.RegisterQueries : Prop := ∀ (s : State) (h : SlipHdr) (p : List Byte), fields [] p = .ok () →
  (s.takes 0x0105 .passable h p → s.modes.house ≠ .closing → s.tells (.clockQuery h p) 0x0105 h 48 fun r =>
    wordsFrom r 0 (([0x000, 0x004, 0x008].map (s.blockReg .clk)) ++ (List.range 9).map s.monCount)) ∧
  (s.takes 0x0203 .passable h p → s.tells (.thermalQuery h p) 0x0203 h 416 fun r =>
    wordsFrom r 0 ([0x000, 0x004, 0x008, 0x00C, 0x010].map (s.blockReg .thm)) ∧ wordsFrom r 20 [0, 0, 0] ∧
    wordsFrom r 32 ((List.range 48).map fun i => s.blockReg .thm (0x100 + 4 * i)) ∧
    wordsFrom r 224 ((List.range 48).map fun i => s.blockReg .thm (0x200 + 4 * i))) ∧
  (s.takes 0x0206 .passable h p → s.tells (.powerQuery h p) 0x0206 h 528 fun r =>
    wordsFrom r 0 ([0x000, 0x004].map (s.blockReg .pwr)) ∧
    wordsFrom r 8 ((List.range 96).map fun n => s.blockReg .pwr (0x100 + 4 * n)) ∧
    wordsFrom r 392 ((List.range 32).map fun b => s.blockReg .pwr (0x300 + 4 * b)) ∧
    wordsFrom r 520 ([0x400, 0x404].map (s.blockReg .pwr))) ∧
  (s.takes 0x0306 .passable h p → modeIn s.modes.house [.intake, .service, .holdover, .bindery] = true →
    s.tells (.streamQuery h p) 0x0306 h 144 fun r =>
      wordsFrom r 0 [s.cfgStatus, s.cfgFail, s.cfgStage, 0] ∧ slice r 16 128 = slice s.cfg.staged 0 128) ∧
  (s.takes 0x0904 .passable h p → s.modes.house ≠ .closing → s.tells (.rekeyQuery h p) 0x0904 h 272 fun r =>
    wordsFrom r 0 [s.rekeyPending, s.cryptoStatus, 0, 0] ∧
    ∀ v, v < 32 → wordsFrom r (16 + 8 * v) [s.volState v, s.volGen v]) ∧
  (s.takes 0x0A05 .passable h p → modeIn s.modes.house [.service, .bindery, .closing] = true →
    s.tells (.stockQuery h p) 0x0A05 h 56 fun r =>
      wordsFrom r 0 ([0x00, 0x04, 0x08, 0x10, 0x14, 0x18, 0x1C, 0x20, 0x24, 0x28, 0x2C, 0x30, 0x34, 0x38].map (s.blockReg .stk))) ∧
  (s.takes 0x0B05 .passable h p → s.tells (.eventQuery h p) 0x0B05 h 256 fun r =>
    wordsFrom r 0 ((List.range 64).map fun i => (s.begun 0x0B05 h p).blockReg .log (4 * i)))

/-- R387 to R393: a query of a table answers with the entries it names, from the first, and changes nothing but the record of
slips. An edition that does not exist is named by its field. -/
def Obligations.TableQueries : Prop := ∀ (s : State) (h : SlipHdr) (p : List Byte),
  (s.takes 0x0402 .passable h p → modeIn (s.bayMode (arg p 16 1)) [.bringUp, .service, .bindery] = true →
    let b := arg p 16 1
    let first := arg p 17 1
    let n := arg p 18 1
    fields [⟨16, 1, b < 32⟩, ⟨17, 1, first < 36⟩, ⟨18, 1, 1 ≤ n && n ≤ 36 && first + n ≤ 36⟩, ⟨19, 1, arg p 19 1 < 2⟩] p = .ok () →
    s.tells (.rotaQuery h p) 0x0402 h (68 * n) fun r => ∀ i, i < n →
      slice r (68 * i) 68 = recordBytes b (first + i)
        (if arg p 19 1 = 1 then s.rotaPending h.ch.val (ckey b (first + i)) else (s.carrel (ckey b (first + i))).rota)) ∧
  (s.takes 0x0407 .passable h p →
    let n := arg p 16 2
    (s.edition n = none → fields [⟨16, 2, false⟩] p = .error (bad 16) →
      ∃ t, exec (.editionQuery h p) s = .next t ∧ t.answered 0x0407 h St.badParam [] ∧ s.sameButSlips t) ∧
    (∀ e, s.edition n = some e → fields [⟨16, 2, n < 1024⟩] p = .ok () →
      s.tells (.editionQuery h p) 0x0407 h (16 + 4 * e.members.length + 8 * (s.editionPorts n).length) fun r =>
        leAt r 0 1 = s.editionState n e % 256 ∧ leAt r 1 1 = e.tag % 256 ∧ leAt r 2 1 = bitOf e.protectedCapable ∧
        leAt r 3 1 = e.members.length % 256 ∧ leAt r 4 2 = (s.editionPorts n).length % 65536)) ∧
  (s.takes 0x0409 .passable h p → modeIn (s.bayMode (arg p 16 1)) [.bringUp, .service, .bindery] = true →
    fields [⟨16, 1, arg p 16 1 < 32⟩] p = .ok () →
    s.tells (.channelQuery h p) 0x0409 h 1184 fun r =>
      wordsFrom r 0 ((List.range 8).map fun n => s.channelSetReg (arg p 16 1) n)) ∧
  (s.takes 0x0502 .passable h p → modeIn (s.portMode (arg p 16 2)) [.intake, .bringUp, .service, .holdover, .bindery] = true →
    fields [⟨16, 2, arg p 16 2 < 144⟩] p = .ok () →
    s.tells (.portQuery h p) 0x0502 h 60 fun r =>
      wordsFrom r 0 ([0x000, 0x004, 0x008, 0x00C, 0x010, 0x014, 0x100, 0x120, 0x130, 0x140, 0x144, 0x150, 0x154, 0x160,
        0x164].map (s.portReg (arg p 16 2)))) ∧
  (s.takes 0x0602 .passable h p →
    let q := arg p 16 2
    let n := arg p 18 1
    fields [⟨16, 2, q < 16384⟩, ⟨18, 1, 1 ≤ n && n ≤ 64 && q + n ≤ 16384⟩] p = .ok () →
    s.tells (.queueQuery h p) 0x0602 h (32 * n) fun r => ∀ i, i < n → wordsFrom r (32 * i) (s.qdRegs (q + i))) ∧
  (s.takes 0x0604 .passable h p → fields [⟨16, 1, arg p 16 1 < 16⟩] p = .ok () →
    let e := arg p 16 1
    let runs := freeRuns (8192 * s.spaceGroups e) (s.enabledRuns e 16384)
    s.tells (.queueSpaceQuery h p) 0x0604 h (16 + 8 * min 500 runs.length) fun r =>
      leAt r 0 2 = s.spaceGroups e % 65536 ∧ leAt r 2 2 = min 500 runs.length ∧
      leAt r 4 1 = bitOf (decide (500 < runs.length)) ∧
      ∀ i, i < min 500 runs.length → ∀ x, runs[i]? = some x → wordsFrom r (16 + 8 * i) [x.1, x.2]) ∧
  (s.takes 0x0702 .passable h p →
    let f := arg p 16 2
    let n := arg p 18 1
    fields [⟨16, 2, true⟩, ⟨18, 1, 1 ≤ n && n ≤ 8 && f + n ≤ 65536⟩] p = .ok () →
    s.tells (.flowQuery h p) 0x0702 h (256 * n) fun r => ∀ i, i < n → slice r (256 * i) 256 = contextBytes (s.flow (f + i))) ∧
  (s.takes 0x0706 .passable h p → fields [⟨16, 2, arg p 16 2 < 144⟩, ⟨18, 2, arg p 18 2 < 1088⟩] p = .ok () →
    let e := (s.port (arg p 16 2)).egress
    let shown := min 500 (e.prot.length + e.ord.length - arg p 18 2)
    s.tells (.egressQuery h p) 0x0706 h (16 + 8 * shown) fun r =>
      leAt r 0 1 = e.prot.length % 256 ∧ leAt r 2 2 = e.ord.length % 65536 ∧ leAt r 4 2 = shown ∧
      (∀ i c, i < shown → e.prot[arg p 18 2 + i]? = some c →
        slice r (16 + 8 * i) 4 = calEntryBytes c ∧ leAt r (20 + 8 * i) 4 = 0) ∧
      (∀ i j c, i < shown → arg p 18 2 + i = e.prot.length + j → e.ord[j]? = some c →
        slice r (16 + 8 * i) 4 = calEntryBytes c ∧ leAt r (20 + 8 * i) 4 = ofInt 32 c.deficit % 2 ^ 32)) ∧
  (s.takes 0x0807 .passable h p → fields [⟨16, 2, arg p 16 2 < 1024⟩] p = .ok () →
    let shown := min 1000 (s.mem.retired.length - arg p 16 2)
    s.tells (.retireQuery h p) 0x0807 h (16 + 4 * shown) fun r =>
      leAt r 0 2 = s.mem.retired.length % 65536 ∧ leAt r 2 2 = shown ∧
      ∀ i x, i < shown → s.mem.retired[arg p 16 2 + i]? = some x → wordsFrom r (16 + 4 * i) [x.word]) ∧
  (s.takes 0x0902 .passable h p → s.modes.house ≠ .closing →
    let m := arg p 16 1
    let n := arg p 17 1
    fields [⟨16, 1, m < 39⟩, ⟨17, 1, 1 ≤ n && n ≤ 39 && m + n ≤ 39⟩] p = .ok () →
    s.tells (.rightsQuery h p) 0x0902 h (12 * n) fun r => ∀ i, i < n →
      wordsFrom r (12 * i) [(s.rights (m + i)).accLo.toNat, (s.rights (m + i)).accHi.toNat, (s.rights (m + i)).view.toNat])

/-- R163, R397: LANE_TEST_SET writes the control of every lane in its mask, each field unless its value is reserved, sets the
loopback unless it is left, and clears the counts asked for; LANE_TEST_QUERY answers with what the lanes hold. Both ask for a
port in Bindery. -/
def Obligations.LaneTests : Prop := ∀ (s : State) (h : SlipHdr) (p : List Byte),
  let port := arg p 16 2
  (s.takes 0x0D01 .ordinary h p → s.wf = true → s.portMode port = .bindery →
    (s.port port).lane.testCtrl.length = 4 → (s.port port).lane.prbsErr.length = 4 → (s.port port).lane.injCount.length = 4 →
    let mask := arg p 18 1
    let lb := arg p 19 1
    let v := arg p 20 4
    let l := (s.port port).lane
    fields [⟨16, 2, port < 144⟩, ⟨18, 1, mask < (if isTrunk port then 16 else 4)⟩, ⟨19, 1, lb ≤ 3 || lb == 255⟩,
      ⟨20, 4, true⟩, ⟨24, 1, arg p 24 1 < 2⟩] p = .ok () →
    ∃ t, exec (.laneTestSet h p) s = .next t ∧ t.answered 0x0D01 h St.ok [] ∧
      s.sameButSlips { t with ports := s.ports } ∧ (∀ q, q ≠ port → t.port q = s.port q) ∧
      t.port port = { s.port port with lane := (t.port port).lane, tx := (t.port port).tx } ∧
      (t.port port).lane.loopback.toNat = (if lb = 255 then l.loopback.toNat else lb) ∧
      (∀ k, k < 4 → mask.testBit k = false →
        nth (t.port port).lane.prbsErr k = nth l.prbsErr k ∧ (t.port port).lane.testCtrl.getD k 0 = l.testCtrl.getD k 0) ∧
      (∀ k, k < 4 → mask.testBit k = true →
        let c := ((t.port port).lane.testCtrl.getD k 0).toNat
        let old := (l.testCtrl.getD k 0).toNat
        field c 3 0 = (if field v 3 0 ≤ 5 then field v 3 0 else field old 3 0) ∧
        field c 7 4 = (if field v 7 4 ≤ 5 then field v 7 4 else field old 7 4) ∧
        field c 9 8 = field v 9 8 ∧ field c 19 16 = field v 19 16 ∧ field c 27 20 = field v 27 20 ∧
        field c 30 28 = (if field v 30 28 ≤ 4 then field v 30 28 else field old 30 28) ∧
        (v.testBit 31 = true → c.testBit 31 = true) ∧
        (arg p 24 1 = 1 → nth (t.port port).lane.prbsErr k = 0 ∧ nth (t.port port).lane.injCount k = 0 ∧
          getBit (t.port port).lane.lockLost k = false) ∧
        (arg p 24 1 = 0 → nth (t.port port).lane.prbsErr k = nth l.prbsErr k))) ∧
  (s.takes 0x0D02 .passable h p → s.portMode port = .bindery → fields [⟨16, 2, port < 144⟩] p = .ok () →
    s.tells (.laneTestQuery h p) 0x0D02 h 56 fun r =>
      (∀ k, k < 4 → wordsFrom r (12 * k)
        [s.portReg port (0x220 + 4 * k), s.portReg port (0x230 + 4 * k), s.portReg port (0x110 + 4 * k)]) ∧
      wordsFrom r 48 [s.portReg port 0x200, s.portReg port 0x120]) ∧
  (s.takes 0x0D01 .ordinary h p → port < 144 → s.portMode port ≠ .bindery →
    ∃ t, exec (.laneTestSet h p) s = .next t ∧ t.answered 0x0D01 h St.modeConflict [] ∧ s.sameButSlips t) ∧
  (s.takes 0x0D02 .passable h p → port < 144 → s.portMode port ≠ .bindery →
    ∃ t, exec (.laneTestQuery h p) s = .next t ∧ t.answered 0x0D02 h St.modeConflict [] ∧ s.sameButSlips t)
end

