-- ==== Sys2Proof/Laws/Form.lean ====
section
/-! SUPPORT. The form that every step keeps: what the operations on tables, channels and queues do to it, and what it says of
each table. -/

namespace Sys2Proof.Machine
open Sys2Proof

/-! ## Tables -/

theorem Sparse.risesFrom_mono {α : Type} (m : Sparse α) (a b : Nat) (hab : a ≤ b) (h : Sparse.risesFrom b m = true) :
    Sparse.risesFrom a m = true := by
  cases m with
  | nil => rfl
  | cons x r =>
    simp only [Sparse.risesFrom, Bool.and_eq_true, decide_eq_true_eq] at h ⊢
    exact ⟨Nat.le_trans hab h.1, h.2⟩

theorem Sparse.risesFrom_del {α : Type} (m : Sparse α) (k lo : Nat) (h : Sparse.risesFrom lo m = true) :
    Sparse.risesFrom lo (Sparse.del m k) = true := by
  induction m generalizing lo with
  | nil => rfl
  | cons x r ih =>
    simp only [Sparse.risesFrom, Bool.and_eq_true, decide_eq_true_eq] at h
    unfold Sparse.del
    split
    · exact Sparse.risesFrom_mono _ _ _ (by omega) h.2
    · simp only [Sparse.risesFrom, Bool.and_eq_true, decide_eq_true_eq]
      exact ⟨h.1, ih _ h.2⟩

theorem Sparse.risesFrom_ins {α : Type} (m : Sparse α) (k lo : Nat) (v : α) (hk : lo ≤ k) (h : Sparse.risesFrom lo m = true) :
    Sparse.risesFrom lo (Sparse.ins m k v) = true := by
  induction m generalizing lo with
  | nil => simp [Sparse.ins, Sparse.risesFrom, hk]
  | cons x r ih =>
    simp only [Sparse.risesFrom, Bool.and_eq_true, decide_eq_true_eq] at h
    unfold Sparse.ins
    split
    · simp only [Sparse.risesFrom, Bool.and_eq_true, decide_eq_true_eq]
      exact ⟨hk, by omega, h.2⟩
    · split
      · subst_vars
        simp only [Sparse.risesFrom, Bool.and_eq_true, decide_eq_true_eq]
        exact ⟨h.1, h.2⟩
      · simp only [Sparse.risesFrom, Bool.and_eq_true, decide_eq_true_eq]
        exact ⟨h.1, ih _ (by omega) h.2⟩

theorem Sparse.risesFrom_filter {α : Type} (m : Sparse α) (p : Nat × α → Bool) (lo : Nat) (h : Sparse.risesFrom lo m = true) :
    Sparse.risesFrom lo (m.filter p) = true := by
  induction m generalizing lo with
  | nil => rfl
  | cons x r ih =>
    simp only [Sparse.risesFrom, Bool.and_eq_true, decide_eq_true_eq] at h
    simp only [List.filter_cons]
    split
    · simp only [Sparse.risesFrom, Bool.and_eq_true, decide_eq_true_eq]
      exact ⟨h.1, ih _ h.2⟩
    · exact Sparse.risesFrom_mono _ _ _ (by omega) (ih _ h.2)

theorem Sparse.risesFrom_map {α β : Type} (m : Sparse α) (f : Nat × α → Nat × β) (hf : ∀ x, (f x).1 = x.1) (lo : Nat)
    (h : Sparse.risesFrom lo m = true) : Sparse.risesFrom lo (m.map f) = true := by
  induction m generalizing lo with
  | nil => rfl
  | cons x r ih =>
    simp only [Sparse.risesFrom, Bool.and_eq_true, decide_eq_true_eq] at h
    show Sparse.risesFrom lo (((f x).1, (f x).2) :: r.map f) = true
    simp only [Sparse.risesFrom, Bool.and_eq_true, decide_eq_true_eq, hf]
    exact ⟨h.1, ih _ h.2⟩

@[simp] theorem Sparse.rises_nil {α : Type} : Sparse.rises ([] : Sparse α) = true := rfl
@[simp] theorem Sparse.rises_one {α : Type} (k : Nat) (v : α) : Sparse.rises [(k, v)] = true := by
  simp [Sparse.rises, Sparse.risesFrom]
@[simp] theorem Sparse.rises_del {α : Type} (m : Sparse α) (k : Nat) (h : Sparse.rises m = true) :
    Sparse.rises (Sparse.del m k) = true := Sparse.risesFrom_del m k 0 h
@[simp] theorem Sparse.rises_ins {α : Type} (m : Sparse α) (k : Nat) (v : α) (h : Sparse.rises m = true) :
    Sparse.rises (Sparse.ins m k v) = true := Sparse.risesFrom_ins m k 0 v (Nat.zero_le _) h
@[simp] theorem Sparse.rises_put {α : Type} [DecidableEq α] (d : α) (m : Sparse α) (k : Nat) (v : α)
    (h : Sparse.rises m = true) : Sparse.rises (Sparse.put d m k v) = true := by
  unfold Sparse.put; split
  · exact Sparse.rises_del m k h
  · exact Sparse.rises_ins m k v h
@[simp] theorem Sparse.rises_filter {α : Type} (m : Sparse α) (p : Nat × α → Bool) (h : Sparse.rises m = true) :
    Sparse.rises (m.filter p) = true := Sparse.risesFrom_filter m p 0 h
@[simp] theorem Sparse.rises_map {α β : Type} (m : Sparse α) (f : Nat × α → Nat × β) (hf : ∀ x, (f x).1 = x.1)
    (h : Sparse.rises m = true) : Sparse.rises (m.map f) = true := Sparse.risesFrom_map m f hf 0 h

/-- A fold that keeps a table's form. -/
@[simp] theorem Sparse.rises_foldl {α β : Type} (l : List β) (f : Sparse α → β → Sparse α) (m : Sparse α)
    (hf : ∀ m b, Sparse.rises m = true → Sparse.rises (f m b) = true) (h : Sparse.rises m = true) :
    Sparse.rises (l.foldl f m) = true := by
  induction l generalizing m with
  | nil => exact h
  | cons b l ih => exact ih _ (hf _ _ h)

/-! ## Reading a table back -/

theorem Sparse.look_ins {α : Type} (m : Sparse α) (k j : Nat) (v : α) :
    Sparse.look (Sparse.ins m k v) j = if j = k then some v else Sparse.look m j := by
  induction m with
  | nil => simp [Sparse.ins, Sparse.look, eq_comm]
  | cons x r ih =>
    unfold Sparse.ins
    split
    · simp [Sparse.look, eq_comm]
    · split
      · subst_vars; simp only [Sparse.look]; split
        · simp_all
        · rw [if_neg (by omega)]
      · simp only [Sparse.look, ih]; split
        · rw [if_neg (by omega)]
        · rfl

theorem Sparse.look_below {α : Type} (m : Sparse α) (lo k : Nat) (h : Sparse.risesFrom lo m = true) (hk : k < lo) :
    Sparse.look m k = none := by
  induction m generalizing lo with
  | nil => rfl
  | cons x r ih =>
    simp only [Sparse.risesFrom, Bool.and_eq_true, decide_eq_true_eq] at h
    simp only [Sparse.look]
    split
    · omega
    · exact ih _ h.2 (by omega)

theorem Sparse.look_del {α : Type} (m : Sparse α) (k j : Nat) (h : Sparse.rises m = true) :
    Sparse.look (Sparse.del m k) j = if j = k then none else Sparse.look m j := by
  have gen : ∀ lo, Sparse.risesFrom lo m = true → Sparse.look (Sparse.del m k) j = if j = k then none else Sparse.look m j := by
    induction m with
    | nil => intro _ _; simp [Sparse.del, Sparse.look]
    | cons x r ih =>
      intro lo h
      simp only [Sparse.risesFrom, Bool.and_eq_true, decide_eq_true_eq] at h
      have ih := ih (by exact Sparse.risesFrom_mono _ _ _ (Nat.zero_le _) h.2) _ h.2
      unfold Sparse.del
      split
      · rename_i hx
        simp only [Sparse.look]
        split
        · subst_vars; exact Sparse.look_below _ _ _ h.2 (by omega)
        · split
          · omega
          · rfl
      · simp only [Sparse.look, ih]; split <;> simp_all
  exact gen 0 h

theorem Sparse.get_put {α : Type} [DecidableEq α] (d : α) (m : Sparse α) (k j : Nat) (v : α) (h : Sparse.rises m = true) :
    Sparse.get d (Sparse.put d m k v) j = if j = k then v else Sparse.get d m j := by
  unfold Sparse.get Sparse.put
  split
  · rw [Sparse.look_del m k j h]; split <;> simp_all
  · rw [Sparse.look_ins]; split <;> rfl

/-! ## Stores -/

@[simp] theorem cellsPut_rises (m : List Host.Cell) (a : Nat) (l : List Byte) (h : Sparse.rises m = true) :
    Sparse.rises (cellsPut m a l) = true := by
  induction l generalizing m a with
  | nil => exact h
  | cons b r ih => exact ih _ _ (Sparse.rises_ins m a b h)
@[simp] theorem cellsDrop_rises (m : List Host.Cell) (a n : Nat) (h : Sparse.rises m = true) :
    Sparse.rises (cellsDrop m a n) = true := Sparse.rises_filter m _ h
@[simp] theorem flashPut_rises (m : List Host.Cell) (a : Nat) (l : List Byte) (h : Sparse.rises m = true) :
    Sparse.rises (flashPut m a l) = true := cellsPut_rises m a l h

/-- A byte written is read back, and no other byte changes. -/
theorem cellsPut_look (m : List Host.Cell) (a : Nat) (l : List Byte) (j : Nat) :
    Sparse.look (cellsPut m a l) j = if a ≤ j ∧ j < a + l.length then l[j - a]? else Sparse.look m j := by
  induction l generalizing m a with
  | nil => simp [cellsPut]
  | cons b r ih =>
    simp only [cellsPut, ih, Sparse.look_ins, List.length_cons]
    by_cases h1 : j = a
    · subst h1; simp
    · by_cases h2 : a + 1 ≤ j ∧ j < a + 1 + r.length
      · rw [if_pos h2, if_pos (by omega)]
        have : j - a = (j - (a + 1)) + 1 := by omega
        rw [this, List.getElem?_cons_succ]
      · rw [if_neg h2, if_neg h1, if_neg (by omega)]

/-! ## The words of the queues -/

/-- The words of every queue rise. -/
def QueueSt.allRise (m : Sparse QueueSt) : Bool := m.all fun x => Sparse.rises x.2.words

theorem QueueSt.allRise_get (m : Sparse QueueSt) (q : Nat) (h : QueueSt.allRise m = true) :
    Sparse.rises (Sparse.get .dflt m q).words = true := by
  induction m with
  | nil => rfl
  | cons x r ih =>
    simp only [QueueSt.allRise, List.all_cons, Bool.and_eq_true] at h
    simp only [Sparse.get, Sparse.look]
    split
    · exact h.1
    · exact ih h.2

theorem QueueSt.allRise_del (m : Sparse QueueSt) (q : Nat) (h : QueueSt.allRise m = true) :
    QueueSt.allRise (Sparse.del m q) = true := by
  induction m with
  | nil => rfl
  | cons x r ih =>
    simp only [QueueSt.allRise, List.all_cons, Bool.and_eq_true] at h
    unfold Sparse.del; split
    · exact h.2
    · simp only [QueueSt.allRise, List.all_cons, Bool.and_eq_true]; exact ⟨h.1, ih h.2⟩

@[simp] theorem QueueSt.allRise_put (m : Sparse QueueSt) (q : Nat) (v : QueueSt) (hv : Sparse.rises v.words = true)
    (h : QueueSt.allRise m = true) : QueueSt.allRise (Sparse.put .dflt m q v) = true := by
  unfold Sparse.put; split
  · exact QueueSt.allRise_del m q h
  · clear * - hv h
    induction m with
    | nil => simp [Sparse.ins, QueueSt.allRise, hv]
    | cons x r ih =>
      simp only [QueueSt.allRise, List.all_cons, Bool.and_eq_true] at h
      unfold Sparse.ins; split
      · simp only [QueueSt.allRise, List.all_cons, Bool.and_eq_true]; exact ⟨hv, h.1, h.2⟩
      · split
        · simp only [QueueSt.allRise, List.all_cons, Bool.and_eq_true]; exact ⟨hv, h.2⟩
        · simp only [QueueSt.allRise, List.all_cons, Bool.and_eq_true]; exact ⟨h.1, ih h.2⟩

@[simp] theorem QueueSt.allRise_nil : QueueSt.allRise [] = true := rfl

/-! ## The form of State, table by table -/

/-- What State.wf says, part by part. -/
structure Formed (s : State) : Prop where
  mem_layer : Sparse.rises s.mem.layer = true
  mem_zeros : s.mem.noZeros = true
  mem_side : Sparse.rises s.mem.side = true
  cfg_flash : Sparse.rises s.cfg.flash = true
  slips_chans : s.slips.chans.length = 6
  slips_rings : s.slips.rings.length = 4
  clk_goodRun : s.clk.goodRun.length = 9
  clk_loopRef : s.clk.loopRef.length = 6
  clk_consumer : s.clk.consumer.length = 6
  ports : Sparse.rises s.ports = true
  queues : Sparse.rises s.queues = true
  engines : Sparse.rises s.engines = true
  flows : Sparse.rises s.flows = true
  fab_bays : Sparse.rises s.fab.bays = true
  fab_carrels : Sparse.rises s.fab.carrels = true
  fab_folios : Sparse.rises s.fab.folios = true
  fab_editions : Sparse.rises s.fab.editions = true
  fab_binds : Sparse.rises s.fab.binds = true
  fab_banks : Sparse.rises s.fab.banks = true
  modes_bays : Sparse.rises s.modes.bays = true
  modes_ports : Sparse.rises s.modes.ports = true
  crypto_nodes : Sparse.rises s.crypto.nodes = true
  crypto_vols : Sparse.rises s.crypto.vols = true
  crypto_rights : Sparse.rises s.crypto.rights = true
  thm_nodes : Sparse.rises s.thm.nodes = true
  thm_before : Sparse.rises s.thm.before = true
  stock_carrels : Sparse.rises s.stock.carrels = true
  stock_tests : Sparse.rises s.stock.tests = true
  stock_policy : Sparse.rises s.stock.policy = true
  clk_switches : Sparse.rises s.clk.switches = true
  regs_readData : Sparse.rises s.regs.readData = true
  regs_readErr : Sparse.rises s.regs.readErr = true
  regs_shadow : Sparse.rises s.regs.shadow = true
  regs_wrongKeys : Sparse.rises s.regs.wrongKeys = true
  regs_lockout : Sparse.rises s.regs.lockout = true
  words : QueueSt.allRise s.queues = true

theorem State.formed (s : State) (h : s.wf = true) : Formed s := by
  simp only [State.wf, Memory.wf, SlipSt.wf, ClkSt.wf, State.tablesRise, Bool.and_eq_true, beq_iff_eq] at h
  constructor <;> simp only [QueueSt.allRise, h]

theorem Formed.wf {s : State} (h : Formed s) : s.wf = true := by
  have hw : (s.queues.all fun x => Sparse.rises x.2.words) = true := h.words
  cases h
  simp only [State.wf, Memory.wf, SlipSt.wf, ClkSt.wf, State.tablesRise, Bool.and_eq_true, beq_iff_eq, *]
  trivial

theorem State.wf_iff (s : State) : s.wf = true ↔ Formed s := ⟨s.formed, Formed.wf⟩

@[simp] theorem State.wf_mem_layer (s : State) (h : s.wf = true) : Sparse.rises s.mem.layer = true := (s.formed h).mem_layer
@[simp] theorem State.wf_mem_zeros (s : State) (h : s.wf = true) : s.mem.noZeros = true := (s.formed h).mem_zeros
@[simp] theorem State.wf_mem_side (s : State) (h : s.wf = true) : Sparse.rises s.mem.side = true := (s.formed h).mem_side
@[simp] theorem State.wf_cfg_flash (s : State) (h : s.wf = true) : Sparse.rises s.cfg.flash = true := (s.formed h).cfg_flash
@[simp] theorem State.wf_slips_chans (s : State) (h : s.wf = true) : s.slips.chans.length = 6 := (s.formed h).slips_chans
@[simp] theorem State.wf_slips_rings (s : State) (h : s.wf = true) : s.slips.rings.length = 4 := (s.formed h).slips_rings
@[simp] theorem State.wf_clk_goodRun (s : State) (h : s.wf = true) : s.clk.goodRun.length = 9 := (s.formed h).clk_goodRun
@[simp] theorem State.wf_clk_loopRef (s : State) (h : s.wf = true) : s.clk.loopRef.length = 6 := (s.formed h).clk_loopRef
@[simp] theorem State.wf_clk_consumer (s : State) (h : s.wf = true) : s.clk.consumer.length = 6 := (s.formed h).clk_consumer
@[simp] theorem State.wf_ports (s : State) (h : s.wf = true) : Sparse.rises s.ports = true := (s.formed h).ports
@[simp] theorem State.wf_queues (s : State) (h : s.wf = true) : Sparse.rises s.queues = true := (s.formed h).queues
@[simp] theorem State.wf_engines (s : State) (h : s.wf = true) : Sparse.rises s.engines = true := (s.formed h).engines
@[simp] theorem State.wf_flows (s : State) (h : s.wf = true) : Sparse.rises s.flows = true := (s.formed h).flows
@[simp] theorem State.wf_fab_bays (s : State) (h : s.wf = true) : Sparse.rises s.fab.bays = true := (s.formed h).fab_bays
@[simp] theorem State.wf_fab_carrels (s : State) (h : s.wf = true) : Sparse.rises s.fab.carrels = true := (s.formed h).fab_carrels
@[simp] theorem State.wf_fab_folios (s : State) (h : s.wf = true) : Sparse.rises s.fab.folios = true := (s.formed h).fab_folios
@[simp] theorem State.wf_fab_editions (s : State) (h : s.wf = true) : Sparse.rises s.fab.editions = true := (s.formed h).fab_editions
@[simp] theorem State.wf_fab_binds (s : State) (h : s.wf = true) : Sparse.rises s.fab.binds = true := (s.formed h).fab_binds
@[simp] theorem State.wf_fab_banks (s : State) (h : s.wf = true) : Sparse.rises s.fab.banks = true := (s.formed h).fab_banks
@[simp] theorem State.wf_modes_bays (s : State) (h : s.wf = true) : Sparse.rises s.modes.bays = true := (s.formed h).modes_bays
@[simp] theorem State.wf_modes_ports (s : State) (h : s.wf = true) : Sparse.rises s.modes.ports = true := (s.formed h).modes_ports
@[simp] theorem State.wf_crypto_nodes (s : State) (h : s.wf = true) : Sparse.rises s.crypto.nodes = true := (s.formed h).crypto_nodes
@[simp] theorem State.wf_crypto_vols (s : State) (h : s.wf = true) : Sparse.rises s.crypto.vols = true := (s.formed h).crypto_vols
@[simp] theorem State.wf_crypto_rights (s : State) (h : s.wf = true) : Sparse.rises s.crypto.rights = true := (s.formed h).crypto_rights
@[simp] theorem State.wf_thm_nodes (s : State) (h : s.wf = true) : Sparse.rises s.thm.nodes = true := (s.formed h).thm_nodes
@[simp] theorem State.wf_thm_before (s : State) (h : s.wf = true) : Sparse.rises s.thm.before = true := (s.formed h).thm_before
@[simp] theorem State.wf_stock_carrels (s : State) (h : s.wf = true) : Sparse.rises s.stock.carrels = true := (s.formed h).stock_carrels
@[simp] theorem State.wf_stock_tests (s : State) (h : s.wf = true) : Sparse.rises s.stock.tests = true := (s.formed h).stock_tests
@[simp] theorem State.wf_stock_policy (s : State) (h : s.wf = true) : Sparse.rises s.stock.policy = true := (s.formed h).stock_policy
@[simp] theorem State.wf_clk_switches (s : State) (h : s.wf = true) : Sparse.rises s.clk.switches = true := (s.formed h).clk_switches
@[simp] theorem State.wf_regs_readData (s : State) (h : s.wf = true) : Sparse.rises s.regs.readData = true := (s.formed h).regs_readData
@[simp] theorem State.wf_regs_readErr (s : State) (h : s.wf = true) : Sparse.rises s.regs.readErr = true := (s.formed h).regs_readErr
@[simp] theorem State.wf_regs_shadow (s : State) (h : s.wf = true) : Sparse.rises s.regs.shadow = true := (s.formed h).regs_shadow
@[simp] theorem State.wf_regs_wrongKeys (s : State) (h : s.wf = true) : Sparse.rises s.regs.wrongKeys = true := (s.formed h).regs_wrongKeys
@[simp] theorem State.wf_regs_lockout (s : State) (h : s.wf = true) : Sparse.rises s.regs.lockout = true := (s.formed h).regs_lockout
@[simp] theorem State.wf_words (s : State) (h : s.wf = true) : QueueSt.allRise s.queues = true := (s.formed h).words

/-- The words of one queue rise. -/
theorem State.wf_queue (s : State) (h : s.wf = true) (q : Nat) : Sparse.rises (s.queue q).words = true :=
  QueueSt.allRise_get s.queues q (State.wf_words s h)

end Sys2Proof.Machine
end

