-- ==== Sys2Proof/Laws/Mirror.lean ====
section
/-! SUPPORT. What a write of the memory layer and the mirror of the pool's banks can do, said once: they change the layer's bytes
alone, keep its canonical form, and a mirror of what did not change does nothing. -/

namespace Sys2Proof.Machine
open Sys2Proof

/-! ## One byte -/

/-- No entry of a cleared bank is 0. -/
def noZerosIn (z : List Nat) (m : List Host.Cell) : Prop := ∀ c ∈ m, ¬ (c.1 / 65536 ∈ z ∧ c.2 = 0)

theorem noZeros_iff (m : MemSt) : m.noZeros = true ↔ noZerosIn m.zeroed m.layer := by
  simp only [MemSt.noZeros, noZerosIn, List.all_eq_true, Bool.not_eq_true', Bool.and_eq_false_iff, beq_eq_false_iff_ne,
    List.contains_eq_mem, decide_eq_false_iff_not]
  exact forall₂_congr fun _ _ => (not_and_or).symm

theorem mem_ins {α : Type} (m : Sparse α) (k : Nat) (v : α) {x : Nat × α} (h : x ∈ Sparse.ins m k v) : x = (k, v) ∨ x ∈ m := by
  induction m with
  | nil => exact .inl (by simpa [Sparse.ins] using h)
  | cons y r ih =>
    unfold Sparse.ins at h
    split at h
    · simpa using h
    · split at h
      · rcases List.mem_cons.mp h with h | h
        · exact .inl h
        · exact .inr (List.mem_cons_of_mem _ h)
      · rcases List.mem_cons.mp h with h | h
        · exact .inr (h ▸ List.mem_cons_self ..)
        · rcases ih h with h | h
          · exact .inl h
          · exact .inr (List.mem_cons_of_mem _ h)

theorem mem_del {α : Type} (m : Sparse α) (k : Nat) {x : Nat × α} (h : x ∈ Sparse.del m k) : x ∈ m := by
  induction m with
  | nil => exact h
  | cons y r ih =>
    unfold Sparse.del at h
    split at h
    · exact List.mem_cons_of_mem _ h
    · rcases List.mem_cons.mp h with h | h
      · exact h ▸ List.mem_cons_self ..
      · exact List.mem_cons_of_mem _ (ih h)

@[simp] theorem layerCell_rises (z : List Nat) (m : List Host.Cell) (x : Nat) (b : Byte) (h : Sparse.rises m = true) :
    Sparse.rises (layerCell z m x b) = true := by
  unfold layerCell
  split <;> simp [h]

theorem layerCell_noZeros (z : List Nat) (m : List Host.Cell) (x : Nat) (b : Byte) (h : noZerosIn z m) :
    noZerosIn z (layerCell z m x b) := by
  unfold layerCell
  split
  · unfold Sparse.put
    split
    · exact fun c hc => h c (mem_del m x hc)
    · intro c hc
      rcases mem_ins m x b hc with rfl | hc
      · rintro ⟨-, hb⟩; contradiction
      · exact h c hc
  · rename_i hx
    intro c hc
    rcases mem_ins m x b hc with rfl | hc
    · rintro ⟨hm, -⟩; exact hx (by simpa using hm)
    · exact h c hc

/-! ## Writes of the layer -/

/-- t is s but for the layer's bytes, and they are in form where those of s are. -/
def onlyLayer (s t : State) : Prop :=
  t = { s with mem.layer := t.mem.layer } ∧
  (Sparse.rises s.mem.layer = true → s.mem.noZeros = true → Sparse.rises t.mem.layer = true ∧ t.mem.noZeros = true)

theorem onlyLayer_refl (s : State) : onlyLayer s s := ⟨rfl, fun h1 h2 => ⟨h1, h2⟩⟩

theorem onlyLayer_trans {a b c : State} (h1 : onlyLayer a b) (h2 : onlyLayer b c) : onlyLayer a c := by
  refine ⟨?_, fun x y => ?_⟩
  · rw [h2.1, h1.1]
  · have := h1.2 x y
    exact h2.2 this.1 this.2

theorem onlyLayer_foldl {α : Type} (l : List α) (f : State → α → State) (s : State) (h : ∀ s a, onlyLayer s (f s a)) :
    onlyLayer s (l.foldl f s) := by
  induction l generalizing s with
  | nil => exact onlyLayer_refl s
  | cons a l ih => exact onlyLayer_trans (h s a) (ih _)

theorem layerWrite_onlyLayer (a : Nat) (l : List Byte) (s : State) : onlyLayer s (layerWrite a l s) := by
  induction l generalizing a s with
  | nil => exact onlyLayer_refl s
  | cons b r ih =>
    refine onlyLayer_trans ⟨rfl, fun h1 h2 => ⟨?_, ?_⟩⟩ (ih _ _)
    · exact layerCell_rises _ _ _ _ h1
    · exact (noZeros_iff _).mpr (layerCell_noZeros _ _ _ _ ((noZeros_iff _).mp h2))

theorem putLine_onlyLayer (banks : List Nat) (a : Nat) (l : List Byte) (s : State) : onlyLayer s (putLine banks a l s) := by
  unfold putLine
  split
  · exact layerWrite_onlyLayer _ _ _
  · exact onlyLayer_refl s

theorem putContext_onlyLayer (f : Nat) (l : List Byte) (s : State) : onlyLayer s (putContext f l s) :=
  onlyLayer_foldl _ _ _ fun _ _ => putLine_onlyLayer _ _ _ _

/-! ## The mirror -/

theorem mirrorQueues_onlyLayer (s t : State) : onlyLayer t (mirrorQueues s t) := by
  unfold mirrorQueues
  split
  · exact onlyLayer_refl t
  · exact onlyLayer_foldl _ _ _ fun _ _ => onlyLayer_foldl _ _ _ fun _ _ => putLine_onlyLayer _ _ _ _

theorem mirrorFlows_onlyLayer (s t : State) : onlyLayer t (mirrorFlows s t) := by
  unfold mirrorFlows
  split
  · exact onlyLayer_refl t
  · refine onlyLayer_foldl _ _ _ fun x k => ?_
    simp only
    split
    · exact onlyLayer_refl x
    · exact putContext_onlyLayer _ _ _

theorem mirrorBook_onlyLayer (s t : State) : onlyLayer t (mirrorBook s t) := by
  unfold mirrorBook
  split
  · exact onlyLayer_refl t
  · refine onlyLayer_foldl _ _ _ fun x i => ?_
    simp only
    split
    · split
      · exact onlyLayer_refl x
      · exact putLine_onlyLayer _ _ _ _
    · exact onlyLayer_refl x

/-- The mirror changes the layer's bytes alone, and keeps their form. -/
theorem mirror_onlyLayer (s t : State) : onlyLayer t (mirror s t) := by
  have h := onlyLayer_trans (onlyLayer_trans (mirrorQueues_onlyLayer s t) (mirrorFlows_onlyLayer s _)) (mirrorBook_onlyLayer s _)
  refine ⟨rfl, fun h1 h2 => ?_⟩
  have := h.2 h1 h2
  have hz : (mirrorBook s (mirrorFlows s (mirrorQueues s t))).mem.zeroed = t.mem.zeroed := by rw [h.1]
  refine ⟨this.1, ?_⟩
  rw [noZeros_iff] at this ⊢
  rw [hz] at this
  exact this.2

/-- Where queues, flows and the ring stand as they were, the mirror does nothing. -/
theorem mirror_same (s t : State) (hq : t.queues = s.queues) (hf : t.flows = s.flows) (hr : t.log.ring = s.log.ring)
    (hp : t.log.rptr = s.log.rptr) : mirror s t = t := by
  have h : mirrorBook s (mirrorFlows s (mirrorQueues s t)) = t := by
    simp [mirrorQueues, mirrorFlows, mirrorBook, hq, hf, hr, hp]
  unfold mirror
  rw [h]

/-- The form of State is kept. -/
theorem onlyLayer_wf {s t : State} (h : onlyLayer s t) (hs : s.wf = true) : t.wf = true := by
  have hf := s.formed hs
  have := h.2 hf.mem_layer hf.mem_zeros
  obtain ⟨h1, -⟩ := h
  rw [h1]
  refine Formed.wf { s.formed hs with mem_layer := this.1, mem_zeros := ?_ }
  have h2 : t.mem.zeroed = s.mem.zeroed := by rw [h1]
  rw [noZeros_iff] at this ⊢
  rw [h2] at this
  exact this.2

theorem mirror_wf (s t : State) (h : t.wf = true) : (mirror s t).wf = true := onlyLayer_wf (mirror_onlyLayer s t) h

/-! ## The mirror looks at neither the channels nor what the log latches -/

def withSlipsLog (a : SlipSt) (g : LogSt) (s : State) : State := { s with slips := a, log := g }

theorem foldl_comm {α β : Type} (l : List α) (f : β → α → β) (g : β → β) (x : β) (h : ∀ x a, f (g x) a = g (f x a)) :
    l.foldl f (g x) = g (l.foldl f x) := by
  induction l generalizing x with
  | nil => rfl
  | cons a l ih => simp only [List.foldl_cons, h, ih]

theorem layerWrite_with (a : Nat) (l : List Byte) (b : SlipSt) (g : LogSt) (s : State) :
    layerWrite a l (withSlipsLog b g s) = withSlipsLog b g (layerWrite a l s) := by
  induction l generalizing a s with
  | nil => rfl
  | cons x r ih => exact ih (a + 1) { s with mem.layer := layerCell s.mem.zeroed s.mem.layer (s.layerPhys a) x }

theorem putLine_with (banks : List Nat) (a : Nat) (l : List Byte) (b : SlipSt) (g : LogSt) (s : State) :
    putLine banks a l (withSlipsLog b g s) = withSlipsLog b g (putLine banks a l s) := by
  unfold putLine
  split
  · exact layerWrite_with _ _ _ _ _
  · rfl

theorem putContext_with (f : Nat) (l : List Byte) (b : SlipSt) (g : LogSt) (s : State) :
    putContext f l (withSlipsLog b g s) = withSlipsLog b g (putContext f l s) :=
  foldl_comm _ _ _ _ fun _ _ => putLine_with _ _ _ _ _ _

theorem mirrorQueues_with (s t : State) (b : SlipSt) (g : LogSt) :
    mirrorQueues s (withSlipsLog b g t) = withSlipsLog b g (mirrorQueues s t) := by
  unfold mirrorQueues
  by_cases h : t.queues = s.queues
  · simp [withSlipsLog, h]
  · have h' : ¬ (withSlipsLog b g t).queues = s.queues := h
    rw [if_neg h, if_neg h']
    exact foldl_comm t.queues _ _ t fun _ _ => foldl_comm _ _ _ _ fun _ _ => putLine_with _ _ _ _ _ _

theorem mirrorFlows_with (s t : State) (b : SlipSt) (g : LogSt) :
    mirrorFlows s (withSlipsLog b g t) = withSlipsLog b g (mirrorFlows s t) := by
  unfold mirrorFlows
  by_cases h : t.flows = s.flows
  · simp [withSlipsLog, h]
  · have h' : ¬ (withSlipsLog b g t).flows = s.flows := h
    rw [if_neg h, if_neg h']
    have e : (withSlipsLog b g t).flows = t.flows := rfl
    have e2 : ∀ k, (withSlipsLog b g t).flow k = t.flow k := fun _ => rfl
    simp only [e, e2]
    refine foldl_comm _ _ (withSlipsLog b g) t fun x k => ?_
    generalize contextBytes (t.flow k) = l
    generalize contextBytes (s.flow k) = m
    by_cases hl : l = m
    · simp only [hl, if_true]
    · simp only [hl, if_false]
      exact putContext_with _ _ _ _ _

theorem mirrorBook_with (s t : State) (b : SlipSt) (g : LogSt) (hr : g.ring = t.log.ring) (hp : g.rptr = t.log.rptr) :
    mirrorBook s (withSlipsLog b g t) = withSlipsLog b g (mirrorBook s t) := by
  have e1 : (withSlipsLog b g t).log.ring = t.log.ring := hr
  have e2 : (withSlipsLog b g t).log.rptr = t.log.rptr := hp
  unfold mirrorBook
  rw [e1, e2]
  split
  · rfl
  · refine foldl_comm (List.range t.log.ring.length) _ _ t fun x i => ?_
    generalize (t.log.rptr.toNat + i) % bookSize = y
    dsimp only
    generalize s.log.entryAt y = o
    cases t.log.ring[i]? with
    | none => rfl
    | some e =>
      by_cases h : o = some e
      · simp only [h, if_true]
      · simp only [h, if_false]
        exact putLine_with _ _ _ _ _ _

/-- A change of the channels, and of the log but for its ring, may come before the mirror or after it. -/
theorem mirror_with (s t : State) (b : SlipSt) (g : LogSt) (hr : g.ring = t.log.ring) (hp : g.rptr = t.log.rptr) :
    mirror s { t with slips := b, log := g } = { mirror s t with slips := b, log := g } := by
  have hq : (mirrorFlows s (mirrorQueues s t)).log = t.log := by
    rw [(onlyLayer_trans (mirrorQueues_onlyLayer s t) (mirrorFlows_onlyLayer s _)).1]
  have h : mirrorBook s (mirrorFlows s (mirrorQueues s (withSlipsLog b g t))) =
      withSlipsLog b g (mirrorBook s (mirrorFlows s (mirrorQueues s t))) := by
    rw [mirrorQueues_with, mirrorFlows_with, mirrorBook_with _ _ _ _ (by rw [hq]; exact hr) (by rw [hq]; exact hp)]
  show mirror s (withSlipsLog b g t) = _
  unfold mirror
  rw [h]
  rfl

/-! ## What the mirror leaves -/

@[simp] theorem mirror_pkg (s t : State) : (mirror s t).pkg = t.pkg := rfl
@[simp] theorem mirror_clk (s t : State) : (mirror s t).clk = t.clk := rfl
@[simp] theorem mirror_frame (s t : State) : (mirror s t).frame = t.frame := rfl
@[simp] theorem mirror_modes (s t : State) : (mirror s t).modes = t.modes := rfl
@[simp] theorem mirror_fab (s t : State) : (mirror s t).fab = t.fab := rfl
@[simp] theorem mirror_ports (s t : State) : (mirror s t).ports = t.ports := rfl
@[simp] theorem mirror_xbar (s t : State) : (mirror s t).xbar = t.xbar := rfl
@[simp] theorem mirror_queues (s t : State) : (mirror s t).queues = t.queues := rfl
@[simp] theorem mirror_engines (s t : State) : (mirror s t).engines = t.engines := rfl
@[simp] theorem mirror_flows (s t : State) : (mirror s t).flows = t.flows := rfl
@[simp] theorem mirror_crypto (s t : State) : (mirror s t).crypto = t.crypto := rfl
@[simp] theorem mirror_cfg (s t : State) : (mirror s t).cfg = t.cfg := rfl
@[simp] theorem mirror_shelf (s t : State) : (mirror s t).shelf = t.shelf := rfl
@[simp] theorem mirror_stock (s t : State) : (mirror s t).stock = t.stock := rfl
@[simp] theorem mirror_pwr (s t : State) : (mirror s t).pwr = t.pwr := rfl
@[simp] theorem mirror_thm (s t : State) : (mirror s t).thm = t.thm := rfl
@[simp] theorem mirror_regs (s t : State) : (mirror s t).regs = t.regs := rfl
@[simp] theorem mirror_desk (s t : State) : (mirror s t).desk = t.desk := rfl
@[simp] theorem mirror_slips (s t : State) : (mirror s t).slips = t.slips := rfl
@[simp] theorem mirror_log (s t : State) : (mirror s t).log = t.log := rfl
@[simp] theorem mirror_tap (s t : State) : (mirror s t).tap = t.tap := rfl
@[simp] theorem mirror_pending (s t : State) : (mirror s t).pending = t.pending := rfl
@[simp] theorem mirror_mem_zeroed (s t : State) : (mirror s t).mem.zeroed = t.mem.zeroed := rfl
@[simp] theorem mirror_mem_side (s t : State) : (mirror s t).mem.side = t.mem.side := rfl
@[simp] theorem mirror_mem_ce (s t : State) : (mirror s t).mem.ce = t.mem.ce := rfl
@[simp] theorem mirror_mem_ue (s t : State) : (mirror s t).mem.ue = t.mem.ue := rfl
@[simp] theorem mirror_mem_ceLog (s t : State) : (mirror s t).mem.ceLog = t.mem.ceLog := rfl
@[simp] theorem mirror_mem_ueLog (s t : State) : (mirror s t).mem.ueLog = t.mem.ueLog := rfl
@[simp] theorem mirror_mem_ceInfo (s t : State) : (mirror s t).mem.ceInfo = t.mem.ceInfo := rfl
@[simp] theorem mirror_mem_ueInfo (s t : State) : (mirror s t).mem.ueInfo = t.mem.ueInfo := rfl
@[simp] theorem mirror_mem_readWait (s t : State) : (mirror s t).mem.readWait = t.mem.readWait := rfl
@[simp] theorem mirror_mem_retired (s t : State) : (mirror s t).mem.retired = t.mem.retired := rfl
@[simp] theorem mirror_mem_retireHits (s t : State) : (mirror s t).mem.retireHits = t.mem.retireHits := rfl
@[simp] theorem mirror_mem_toldRetired (s t : State) : (mirror s t).mem.toldRetired = t.mem.toldRetired := rfl
@[simp] theorem mirror_mem_sideCe (s t : State) : (mirror s t).mem.sideCe = t.mem.sideCe := rfl
@[simp] theorem mirror_mem_sideUe (s t : State) : (mirror s t).mem.sideUe = t.mem.sideUe := rfl
@[simp] theorem mirror_mem_sideCeLog (s t : State) : (mirror s t).mem.sideCeLog = t.mem.sideCeLog := rfl
@[simp] theorem mirror_mem_sideCeInfo (s t : State) : (mirror s t).mem.sideCeInfo = t.mem.sideCeInfo := rfl
@[simp] theorem mirror_mem_sideUeLog (s t : State) : (mirror s t).mem.sideUeLog = t.mem.sideUeLog := rfl
@[simp] theorem mirror_mem_sideUeInfo (s t : State) : (mirror s t).mem.sideUeInfo = t.mem.sideUeInfo := rfl
@[simp] theorem mirror_mem_refresh (s t : State) : (mirror s t).mem.refresh = t.mem.refresh := rfl
@[simp] theorem mirror_mem_refreshes (s t : State) : (mirror s t).mem.refreshes = t.mem.refreshes := rfl
@[simp] theorem mirror_mem_work (s t : State) : (mirror s t).mem.work = t.mem.work := rfl
@[simp] theorem mirror_mem_lastData (s t : State) : (mirror s t).mem.lastData = t.mem.lastData := rfl
@[simp] theorem mirror_mem_lastError (s t : State) : (mirror s t).mem.lastError = t.mem.lastError := rfl

end Sys2Proof.Machine
end

