-- ==== Sys2Proof/Laws/Slips.lean ====
section
/-! SUPPORT. What a slip's start, reply and commit can do, said once: they touch the channels, the event log and the count
of free values, and nothing else. -/

namespace Sys2Proof.Machine
open Sys2Proof

/-! ## Raising an event -/

/-- An event that does not latch changes the log alone. -/
theorem raise_log (c : EvClass) (code : BitVec 16) (sub : Nat) (d : List (Nat × Nat)) (s : State) (hc : c.latches = false) :
    raise c code sub d s = { s with log := (raise c code sub d s).log } := by
  simp [raise, latch, hc]

@[simp] theorem msix_log (v : Nat) (s : State) : (msix v s).log = s.log := by unfold msix; split <;> rfl

theorem msix_eq (v : Nat) (s : State) : msix v s = { s with slips.msix := (msix v s).slips.msix } := by
  unfold msix; split <;> rfl

/-- The ring stands as it was, and its read pointer. -/
def LogSt.sameRing (a b : LogSt) : Prop := a.ring = b.ring ∧ a.rptr = b.rptr

theorem latch_ring (c : EvClass) (code : BitVec 16) (sub : Nat) (s : State) :
    (latch c code sub s).log.sameRing s.log := by
  unfold latch LogSt.sameRing
  split
  · simp only
    split
    · rw [msix_log]; exact ⟨rfl, rfl⟩
    · exact ⟨rfl, rfl⟩
  · exact ⟨rfl, rfl⟩

/-- An event leaves the ring alone: it enters the day book at the boundary. -/
theorem raise_ring (c : EvClass) (code : BitVec 16) (sub : Nat) (d : List (Nat × Nat)) (s : State) :
    (raise c code sub d s).log.sameRing s.log := latch_ring _ _ _ _

@[simp] theorem latch_raised (c : EvClass) (code : BitVec 16) (sub : Nat) (s : State) :
    (latch c code sub s).log.raised = s.log.raised := by
  unfold latch
  split
  · simp only
    split
    · rw [msix_log]
    · rfl
  · rfl

theorem latch_eq (c : EvClass) (code : BitVec 16) (sub : Nat) (s : State) :
    latch c code sub s =
      { s with log := (latch c code sub s).log, desk.alarmIrq := (latch c code sub s).desk.alarmIrq,
               desk.nmIrq := (latch c code sub s).desk.nmIrq, slips.msix := (latch c code sub s).slips.msix } := by
  unfold latch
  split
  · simp only
    split
    · rw [msix_eq]
    · rfl
  · rfl

/-- Whatever its class, an event changes the log, the desk's interrupts and MSI-X alone. -/
theorem raise_eq (c : EvClass) (code : BitVec 16) (sub : Nat) (d : List (Nat × Nat)) (s : State) :
    s.sameButEvents (raise c code sub d s) := by
  unfold State.sameButEvents raise
  simp only
  conv_lhs => rw [latch_eq]

theorem raise_raised (c : EvClass) (code : BitVec 16) (sub : Nat) (d : List (Nat × Nat)) (s : State) :
    (raise c code sub d s).log.raised =
      s.log.raised ++ [Event.mk c code sub (BitVec.ofNat 96 (pack d)) s.frame.number s.frame.slot] := by
  unfold raise
  simp only [latch_raised]

theorem raise_told (c : EvClass) (code : BitVec 16) (sub : Nat) (d : List (Nat × Nat)) (s : State) :
    (raise c code sub d s).told c code sub := by
  simp [State.told, raise_raised]

theorem mem_sortBy {α : Type} (le : α → α → Bool) (l : List α) (x : α) : x ∈ sortBy le l ↔ x ∈ l := by
  have ins : ∀ (y : α) (m : List α), x ∈ insSorted le y m ↔ x = y ∨ x ∈ m := by
    intro y m
    induction m with
    | nil => simp [insSorted]
    | cons z r ih =>
      unfold insSorted
      split
      · simp [ih]; tauto
      · simp
  induction l with
  | nil => simp [sortBy]
  | cons y r ih =>
    have : sortBy le (y :: r) = insSorted le y (sortBy le r) := rfl
    simp [this, ins, ih]

/-- Sorting a command's events changes the log alone, and keeps the same events. -/
theorem inOneCycle_log (f : State → State) (s : State) : inOneCycle f s = { f s with log := (inOneCycle f s).log } := rfl

theorem inOneCycle_raised (f : State → State) (s : State) (e : Event) :
    e ∈ (inOneCycle f s).log.raised ↔ e ∈ (f s).log.raised := by
  have h : (inOneCycle f s).log.raised =
    (f s).log.raised.take s.log.raised.length ++ sortBy Event.before ((f s).log.raised.drop s.log.raised.length) := rfl
  rw [h, List.mem_append, mem_sortBy, ← List.mem_append, List.take_append_drop]

theorem inOneCycle_told (f : State → State) (s : State) (c : EvClass) (code : BitVec 16) (sub : Nat) :
    (inOneCycle f s).told c code sub ↔ (f s).told c code sub := by
  simp [State.told, inOneCycle_raised]

/-- A command that raises nothing leaves what it was. -/
theorem inOneCycle_same (f : State → State) (s : State) (h : (f s).log.raised = s.log.raised) : inOneCycle f s = f s := by
  unfold inOneCycle
  simp only [h, List.take_length, List.drop_length, sortBy, List.foldr_nil, List.append_nil]
  rw [← h]

/-- Where queues, flow table and day book stand as they were, a command's next state is what it did, its events sorted. -/
theorem run_same (f : State → State) (s : State) (hq : (f s).queues = s.queues) (hf : (f s).flows = s.flows)
    (hr : (f s).log.sameRing s.log) : run f s = .next (inOneCycle f s) :=
  congrArg Host.Outcome.next (mirror_same s (inOneCycle f s) hq hf hr.1 hr.2)

/-- And where it raises nothing, it is what the command did. -/
theorem run_quiet (f : State → State) (s : State) (hq : (f s).queues = s.queues) (hf : (f s).flows = s.flows)
    (hl : (f s).log = s.log) : run f s = .next (f s) := by
  rw [run_same f s hq hf ⟨congrArg LogSt.ring hl, congrArg LogSt.rptr hl⟩, inOneCycle_same f s (congrArg LogSt.raised hl)]

/-! ## Channels -/

theorem modChan_length (s : State) (ch : Nat) (f : ChanSt → ChanSt) :
    (s.modChan ch f).slips.chans.length = s.slips.chans.length := by
  simp [State.modChan]

theorem modChan_chan (s : State) (ch : Nat) (f : ChanSt → ChanSt) (h : ch < s.slips.chans.length) :
    (s.modChan ch f).chan ch = f (s.chan ch) := by
  simp [State.modChan, State.chan, List.getD, h]

/-- Starting a slip touches the channels and the count of free values. -/
theorem startSlip_eq (op : BitVec 16) (h : SlipHdr) (p : List Byte) (s : State) :
    startSlip op h p s =
      { s with slips := (startSlip op h p s).slips, frame.freeCount := s.frame.freeCount + 1 } := by
  unfold startSlip
  simp only [State.modChan, State.useFree, State.modRing]
  split
  · rfl
  · split <;> rfl

theorem startSlip_length (op : BitVec 16) (h : SlipHdr) (p : List Byte) (s : State) :
    (startSlip op h p s).slips.chans.length = s.slips.chans.length := by
  unfold startSlip
  simp only [State.modChan, State.useFree, State.modRing]
  split
  · simp
  · split <;> simp

/-- Noting its number touches the channel and the log. -/
theorem noteSeq_eq (gap : Bool) (h : SlipHdr) (s : State) :
    noteSeq gap h s = { s with slips := (noteSeq gap h s).slips, log := (noteSeq gap h s).log } := by
  unfold noteSeq
  simp only
  split
  · unfold warn
    conv_lhs => rw [raise_log _ _ _ _ _ rfl]
    rw [raise_log _ _ _ _ _ rfl]
    rfl
  · rfl

theorem noteSeq_length (gap : Bool) (h : SlipHdr) (s : State) :
    (noteSeq gap h s).slips.chans.length = s.slips.chans.length := by
  unfold noteSeq
  simp only
  split
  · unfold warn
    rw [raise_log _ _ _ _ _ rfl]
    simp [State.modChan]
  · simp [State.modChan]

theorem begun_eq (s : State) (op : BitVec 16) (h : SlipHdr) (p : List Byte) :
    s.begun op h p = { s with slips := (s.begun op h p).slips, log := (s.begun op h p).log,
                              frame.freeCount := s.frame.freeCount + 1 } := by
  refine (noteSeq_eq _ _ _).trans ?_
  show _ = { s with slips := (noteSeq (s.gapIn h) h (startSlip op h p s)).slips,
                    log := (noteSeq (s.gapIn h) h (startSlip op h p s)).log, frame.freeCount := s.frame.freeCount + 1 }
  generalize (noteSeq (s.gapIn h) h (startSlip op h p s)).slips = A
  generalize (noteSeq (s.gapIn h) h (startSlip op h p s)).log = B
  rw [startSlip_eq]

theorem begun_ring (s : State) (op : BitVec 16) (h : SlipHdr) (p : List Byte) : (s.begun op h p).log.sameRing s.log := by
  have h1 : (startSlip op h p s).log = s.log := by rw [startSlip_eq]
  unfold State.begun noteSeq
  simp only
  split
  · unfold warn
    rw [← h1]
    exact raise_ring _ _ _ _ _
  · exact ⟨congrArg LogSt.ring h1, congrArg LogSt.rptr h1⟩

theorem begun_length (s : State) (op : BitVec 16) (h : SlipHdr) (p : List Byte) :
    (s.begun op h p).slips.chans.length = s.slips.chans.length := by
  rw [State.begun, noteSeq_length, startSlip_length]

theorem inOneCycle_ring (f : State → State) (s : State) : (inOneCycle f s).log.sameRing (f s).log := ⟨rfl, rfl⟩

/-- A slip's next state, where its effect is a change of the channels and of what the log latches upon some state. -/
theorem slip_mirror {op : BitVec 16} {c : OrdClass} {h : SlipHdr} {p : List Byte} {body : SlipId → State → SlipOut} {s u : State}
    {a : SlipSt} {g : LogSt} (hr : runSlip op c h p body s = { u with slips := a, log := g }) (hg : g.sameRing u.log) :
    slip op c h p body s = .next { mirror s u with slips := a, log := (inOneCycle (runSlip op c h p body) s).log } := by
  have e : inOneCycle (runSlip op c h p body) s = { u with slips := a, log := (inOneCycle (runSlip op c h p body) s).log } := by
    conv_lhs => rw [inOneCycle_log, hr]
  have hl := inOneCycle_ring (runSlip op c h p body) s
  unfold slip run
  rw [e, mirror_with]
  · rw [hl.1, hr]; exact hg.1
  · rw [hl.2, hr]; exact hg.2

theorem queueReply_eq (r : Reply) (s : State) : queueReply r s = { s with slips := (queueReply r s).slips } := by
  unfold queueReply; split <;> rfl

theorem raise_reply (c : EvClass) (code : BitVec 16) (sub : Nat) (d : List (Nat × Nat)) (r : Reply) (s : State)
    (hc : c.latches = false) :
    raise c code sub d (queueReply r s) =
      { s with slips := (raise c code sub d (queueReply r s)).slips, log := (raise c code sub d (queueReply r s)).log } ∧
    (raise c code sub d (queueReply r s)).log.sameRing s.log := by
  have hq := queueReply_eq r s
  refine ⟨?_, ?_⟩
  · refine (raise_log c code sub d _ hc).trans ?_
    refine (congrArg (fun x : State => { x with log := (raise c code sub d (queueReply r s)).log }) hq).trans ?_
    rw [congrArg State.slips (raise_log c code sub d (queueReply r s) hc)]
  · have hl := congrArg State.log hq
    have := raise_ring c code sub d (queueReply r s)
    rw [hl] at this
    exact this

/-- Committing a slip that posts nothing touches the channels and the log. -/
theorem commit_eq (id : SlipId) (o : SlipOk) (hp : o.post = none) :
    commitSlip id o = { o.state with slips := (commitSlip id o).slips, log := (commitSlip id o).log } ∧
      (commitSlip id o).log.sameRing o.state.log := by
  have hB := raise_reply .trace 0x0B0B id.ch.val (headerDetail (replyOf id o.status 0 (if o.post = none then o.result else [])))
    (replyOf id o.status 0 (if o.post = none then o.result else []))
    { o.state with slips.lastCh := BitVec.ofNat 3 id.ch.val, slips.lastSeq := id.seq } rfl
  unfold commitSlip
  dsimp only
  generalize raise EvClass.trace 0x0B0B _ _ _ = B at hB ⊢
  split
  · simp only [hp]
    refine ⟨?_, hB.2⟩
    exact congrArg (fun x : State => x.modChan id.ch.val fun k => { k with open_ := k.open_ ++ [id] }) hB.1
  · exact hB

/-- A slip that is taken and whose body commits: its next state is the body's, but for the channels, the log and the pool's bytes
that follow what it changed. -/
theorem slip_ok {op : BitVec 16} {c : OrdClass} {h : SlipHdr} {p : List Byte} {body : SlipId → State → SlipOut} {s : State}
    {o : SlipOk} (ht : s.takes op c h p) (hb : body (slipId s op h c) (s.begun op h p) = .ok o) (hp : o.post = none)
    (hl : o.state.slips.chans.length = s.slips.chans.length) :
    ∃ t, slip op c h p body s = .next t ∧ t.answered op h o.status o.result ∧
      (o.status = St.accepted → o.result = [] → t.accepted op h) ∧
      t = { mirror s o.state with slips := t.slips, log := t.log } := by
  obtain ⟨h1, h2, h3, h4⟩ := ht
  have hrun : runSlip op c h p body s = commitSlip (slipId s op h c) o := by
    unfold runSlip
    simp only [h1, h2, if_true]
    have : noteSeq (s.gapIn h) h (startSlip op h p s) = s.begun op h p := rfl
    rw [this, hb]
  have hc := commit_eq (slipId s op h c) o hp
  refine ⟨_, slip_mirror (hrun.trans hc.1) hc.2, ?_⟩
  have hw : ∀ st, (slipId s op h c).writes st = true := by intro st; simp [SlipId.writes, slipId, h3]
  have hch : (slipId s op h c).ch = h.ch := rfl
  have hl' : h.ch.val < o.state.slips.chans.length := by omega
  simp only [State.answered, State.accepted, State.chan]
  simp only [commitSlip, hp, queueReply, replyOf, hw, hch, if_true, raise, latch, EvClass.latches]
  by_cases ha : o.status = St.accepted
  · simp [ha, State.modChan, List.getD, hl', slipId]
    exact fun hr => .inr hr
  · have hb' : (o.status == St.accepted) = false := by simp [ha]
    simp [ha, hb', State.modChan, List.getD, hl', slipId]

/-- So where the body leaves the queues, the flow table and the day book as they were. -/
theorem slip_ok_same {op : BitVec 16} {c : OrdClass} {h : SlipHdr} {p : List Byte} {body : SlipId → State → SlipOut} {s : State}
    {o : SlipOk} (ht : s.takes op c h p) (hb : body (slipId s op h c) (s.begun op h p) = .ok o) (hp : o.post = none)
    (hl : o.state.slips.chans.length = s.slips.chans.length) (hq : o.state.queues = s.queues) (hf : o.state.flows = s.flows)
    (hr : o.state.log.sameRing s.log) :
    ∃ t, slip op c h p body s = .next t ∧ t.answered op h o.status o.result ∧
      (o.status = St.accepted → o.result = [] → t.accepted op h) ∧ t = { o.state with slips := t.slips, log := t.log } := by
  have := slip_ok ht hb hp hl
  rwa [mirror_same s o.state hq hf hr.1 hr.2] at this

/-- A slip that is taken and whose checks fail: the reply tells why, and nothing but what the check discards is changed. -/
theorem slip_error {op : BitVec 16} {c : OrdClass} {h : SlipHdr} {p : List Byte} {body : SlipId → State → SlipOut}
    {s : State} {e : SlipErr} (ht : s.takes op c h p) (hb : body (slipId s op h c) (s.begun op h p) = .error e)
    (hd : e.discard = id) (hs : e.status ≠ St.lengthExcess) :
    ∃ t, slip op c h p body s = .next t ∧ t.answered op h e.status e.result ∧ s.sameButSlips t := by
  obtain ⟨h1, h2, h3, h4⟩ := ht
  have hs' : (e.status == St.lengthExcess) = false := by simp [hs]
  have hw : ∀ st, (slipId s op h c).writes st = true := by intro st; simp [SlipId.writes, slipId, h3]
  have hrun : runSlip op c h p body s =
      (s.begun op h p).modChan h.ch.val fun k =>
        { k with waiting := k.waiting ++ [replyOf (slipId s op h c) e.status e.detail e.result] } := by
    unfold runSlip
    simp only [h1, h2, if_true]
    have : noteSeq (s.gapIn h) h (startSlip op h p s) = s.begun op h p := rfl
    rw [this, hb]
    simp only [hd, hs', id, queueReply]
    have : (replyOf (slipId s op h c) e.status e.detail e.result).id = slipId s op h c := rfl
    simp only [replyOf, hw, if_true]
    rfl
  have hl : h.ch.val < (s.begun op h p).slips.chans.length := by rw [begun_length]; exact h4
  have hk : runSlip op c h p body s = { s with
      slips := (runSlip op c h p body s).slips, log := (runSlip op c h p body s).log, frame.freeCount := s.frame.freeCount + 1 } := by
    rw [hrun]
    simp only [State.modChan]
    conv_lhs => rw [begun_eq]
  have hg : (runSlip op c h p body s).log.sameRing s.log := by
    rw [hrun]
    exact begun_ring s op h p
  have hm : mirror s (inOneCycle (runSlip op c h p body) s) = inOneCycle (runSlip op c h p body) s := by
    refine mirror_same _ _ ?_ ?_ hg.1 hg.2
    · show (runSlip op c h p body s).queues = _; rw [hk]
    · show (runSlip op c h p body s).flows = _; rw [hk]
  refine ⟨_, congrArg Host.Outcome.next hm, ?_⟩
  constructor
  · rw [inOneCycle_log, hrun]
    simp only [State.answered, State.chan]
    simp [State.modChan, List.getD, hl, replyOf, slipId]
  · unfold State.sameButSlips
    rw [inOneCycle_log, hk]

/-! ## Completion events -/

theorem queueReply_length (r : Reply) (s : State) : (queueReply r s).slips.chans.length = s.slips.chans.length := by
  unfold queueReply; split <;> simp [State.modChan]

/-- A completion event touches the channels and, where its ring is gone, the log. -/
theorem complete_eq (id : SlipId) (st : BitVec 16) (d : Nat) (l : List Byte) (s : State) :
    complete id st d l s = { s with slips := (complete id st d l s).slips, log := (complete id st d l s).log } := by
  unfold complete
  simp only
  split
  · split
    · unfold info
      conv_lhs => rw [raise_log _ _ _ _ _ rfl]
      rw [raise_log _ _ _ _ _ rfl]
      rfl
    · rfl
  · conv_lhs => rw [queueReply_eq]
    rw [queueReply_eq]
    rfl

theorem complete_length (id : SlipId) (st : BitVec 16) (d : Nat) (l : List Byte) (s : State) :
    (complete id st d l s).slips.chans.length = s.slips.chans.length := by
  unfold complete
  simp only
  split
  · split
    · unfold info
      rw [raise_log _ _ _ _ _ rfl]
      simp [State.modChan]
    · simp [State.modChan]
  · rw [queueReply_length]
    simp [State.modChan]

theorem complete_ring (id : SlipId) (st : BitVec 16) (d : Nat) (l : List Byte) (s : State) :
    (complete id st d l s).log.sameRing s.log := by
  unfold complete
  simp only
  split
  · split
    · exact raise_ring _ _ _ _ _
    · exact ⟨rfl, rfl⟩
  · unfold queueReply
    split <;> exact ⟨rfl, rfl⟩

/-- The completion event waits on the slip's channel, unless the ring that took it is gone. -/
theorem complete_completed (id : SlipId) (st : BitVec 16) (d : Nat) (l : List Byte) (s : State)
    (hg : s.ringGone id = false) (hw : id.writes st = true) (hl : id.ch.val < s.slips.chans.length) :
    (complete id st d l s).completed id st l := by
  have hr : ∀ f, (s.modChan id.ch.val f).ringGone id = false := fun f => hg
  unfold complete
  simp only [hr, queueReply, completionOf, hw, if_true]
  simp only [State.completed, State.chan]
  simp [State.modChan, List.getD, hl]

/-- What a channel still has to write stays behind a later change of any channel's entry that only adds to it. -/
theorem modChan_waiting (s : State) (ch k : Nat) (f : ChanSt → ChanSt) (hf : ∀ x : ChanSt, ∀ r ∈ x.waiting, r ∈ (f x).waiting)
    {r : Reply} (hr : r ∈ (s.chan k).waiting) : r ∈ ((s.modChan ch f).chan k).waiting := by
  simp only [State.modChan, State.chan, List.getD, List.getElem?_modify] at *
  cases hk : s.slips.chans[k]? with
  | none => rw [hk] at hr; simpa [hk] using hr
  | some x =>
    rw [hk] at hr
    by_cases hc : ch = k
    · subst hc; simpa [hk] using hf x r (by simpa using hr)
    · simpa [hk, hc] using hr

theorem complete_waiting (id : SlipId) (st : BitVec 16) (d : Nat) (l : List Byte) (s : State) (k : Nat) {r : Reply}
    (hr : r ∈ (s.chan k).waiting) : r ∈ ((complete id st d l s).chan k).waiting := by
  have h1 : r ∈ ((s.modChan id.ch.val fun k => { k with open_ := k.open_.erase id }).chan k).waiting :=
    modChan_waiting _ _ _ (fun k => { k with open_ := k.open_.erase id }) (fun _ _ hr => hr) hr
  unfold complete
  simp only
  split
  · split
    · unfold info
      rw [raise_log _ _ _ _ _ rfl]
      exact h1
    · exact h1
  · unfold queueReply
    split
    · exact modChan_waiting _ _ _ (fun k => { k with waiting := k.waiting ++ [completionOf id st d l] })
        (fun _ _ hr => List.mem_append_left _ hr) h1
    · exact h1

/-- An L slip whose work has already ended answers ACCEPTED and posts its completion behind it (R374). -/
theorem slip_post {op : BitVec 16} {c : OrdClass} {h : SlipHdr} {p : List Byte} {body : SlipId → State → SlipOut} {s : State}
    {o : SlipOk} {st : BitVec 16} (ht : s.takes op c h p) (hb : body (slipId s op h c) (s.begun op h p) = .ok o)
    (hp : o.post = some st) (ha : o.status = St.accepted) (hl : o.state.slips.chans.length = s.slips.chans.length)
    (hg : o.state.ringGone (slipId s op h c) = false) :
    ∃ t, slip op c h p body s = .next t ∧ t.answered op h St.accepted [] ∧ t.completed (slipId s op h c) st o.result ∧
      t = { mirror s o.state with slips := t.slips, log := t.log } := by
  obtain ⟨h1, h2, h3, h4⟩ := ht
  have hrun : runSlip op c h p body s = commitSlip (slipId s op h c) o := by
    unfold runSlip
    simp only [h1, h2, if_true]
    have : noteSeq (s.gapIn h) h (startSlip op h p s) = s.begun op h p := rfl
    rw [this, hb]
  have hw : ∀ st, (slipId s op h c).writes st = true := by intro st; simp [SlipId.writes, slipId, h3]
  have hch : (slipId s op h c).ch = h.ch := rfl
  have hl' : h.ch.val < o.state.slips.chans.length := by omega
  let X : State := raise .trace 0x0B0B h.ch.val (headerDetail (replyOf (slipId s op h c) St.accepted 0 []))
    ({ o.state with slips.lastCh := BitVec.ofNat 3 h.ch.val, slips.lastSeq := h.seq }.modChan h.ch.val fun k =>
      { k with waiting := k.waiting ++ [replyOf (slipId s op h c) St.accepted 0 []] })
  have hX : X = { o.state with slips := X.slips, log := X.log } := by
    simp only [X]
    rw [raise_log _ _ _ _ _ rfl]
    rfl
  have hXs : X.slips = (({ o.state with slips.lastCh := BitVec.ofNat 3 h.ch.val, slips.lastSeq := h.seq } : State).modChan h.ch.val fun k =>
      { k with waiting := k.waiting ++ [replyOf (slipId s op h c) St.accepted 0 []] }).slips := by
    simp only [X]
    rw [raise_log _ _ _ _ _ rfl]
  have hc : commitSlip (slipId s op h c) o = complete (slipId s op h c) st 0 o.result X := by
    unfold commitSlip
    have hw' : (replyOf (slipId s op h c) St.accepted 0 []).id.writes St.accepted = true := hw _
    simp only [hp, ha, beq_self_eq_true, if_true, queueReply]
    simp [replyOf, hw, X]
    rfl
  have hXl : X.slips.chans.length = o.state.slips.chans.length := by rw [hXs]; simp [State.modChan]
  have hXg : X.log.sameRing o.state.log := raise_ring _ _ _ _ _
  have he : runSlip op c h p body s =
      { o.state with slips := (complete (slipId s op h c) st 0 o.result X).slips,
                     log := (complete (slipId s op h c) st 0 o.result X).log } := by
    rw [hrun, hc]
    exact (complete_eq _ _ _ _ X).trans (congrArg (fun x : State =>
      { x with slips := (complete (slipId s op h c) st 0 o.result X).slips,
               log := (complete (slipId s op h c) st 0 o.result X).log }) hX)
  have hg' : (complete (slipId s op h c) st 0 o.result X).log.sameRing o.state.log :=
    ⟨(complete_ring _ _ _ _ _).1.trans hXg.1, (complete_ring _ _ _ _ _).2.trans hXg.2⟩
  refine ⟨_, slip_mirror he hg', ?_, ?_, rfl⟩
  · refine ⟨replyOf (slipId s op h c) St.accepted 0 [], ?_, rfl, rfl, rfl, rfl, rfl, rfl, rfl⟩
    refine complete_waiting _ _ _ _ X _ ?_
    unfold State.chan
    rw [hXs]
    simp [State.modChan, List.getD, hl']
  · refine complete_completed _ _ _ _ X ?_ (hw _) (by rw [hXl]; exact hl')
    rw [← hg]
    simp only [State.ringGone, State.ring, hXs]
    rfl

end Sys2Proof.Machine
end

