-- ==== Sys2Proof/Laws/State.lean ====
section
/-! SUPPORT. What each update of State leaves: one lemma for every field, and what is read back from a table written. -/

namespace Sys2Proof.Machine
open Sys2Proof

set_option Elab.async false

/-! ### setPort -/

@[simp] theorem State.setPort_pkg (s : State) (p : Nat) (v : PortSt) : (s.setPort p v).pkg = s.pkg := rfl
@[simp] theorem State.setPort_clk (s : State) (p : Nat) (v : PortSt) : (s.setPort p v).clk = s.clk := rfl
@[simp] theorem State.setPort_frame (s : State) (p : Nat) (v : PortSt) : (s.setPort p v).frame = s.frame := rfl
@[simp] theorem State.setPort_modes (s : State) (p : Nat) (v : PortSt) : (s.setPort p v).modes = s.modes := rfl
@[simp] theorem State.setPort_fab (s : State) (p : Nat) (v : PortSt) : (s.setPort p v).fab = s.fab := rfl
@[simp] theorem State.setPort_xbar (s : State) (p : Nat) (v : PortSt) : (s.setPort p v).xbar = s.xbar := rfl
@[simp] theorem State.setPort_queues (s : State) (p : Nat) (v : PortSt) : (s.setPort p v).queues = s.queues := rfl
@[simp] theorem State.setPort_engines (s : State) (p : Nat) (v : PortSt) : (s.setPort p v).engines = s.engines := rfl
@[simp] theorem State.setPort_flows (s : State) (p : Nat) (v : PortSt) : (s.setPort p v).flows = s.flows := rfl
@[simp] theorem State.setPort_mem (s : State) (p : Nat) (v : PortSt) : (s.setPort p v).mem = s.mem := rfl
@[simp] theorem State.setPort_crypto (s : State) (p : Nat) (v : PortSt) : (s.setPort p v).crypto = s.crypto := rfl
@[simp] theorem State.setPort_cfg (s : State) (p : Nat) (v : PortSt) : (s.setPort p v).cfg = s.cfg := rfl
@[simp] theorem State.setPort_shelf (s : State) (p : Nat) (v : PortSt) : (s.setPort p v).shelf = s.shelf := rfl
@[simp] theorem State.setPort_stock (s : State) (p : Nat) (v : PortSt) : (s.setPort p v).stock = s.stock := rfl
@[simp] theorem State.setPort_pwr (s : State) (p : Nat) (v : PortSt) : (s.setPort p v).pwr = s.pwr := rfl
@[simp] theorem State.setPort_thm (s : State) (p : Nat) (v : PortSt) : (s.setPort p v).thm = s.thm := rfl
@[simp] theorem State.setPort_regs (s : State) (p : Nat) (v : PortSt) : (s.setPort p v).regs = s.regs := rfl
@[simp] theorem State.setPort_desk (s : State) (p : Nat) (v : PortSt) : (s.setPort p v).desk = s.desk := rfl
@[simp] theorem State.setPort_slips (s : State) (p : Nat) (v : PortSt) : (s.setPort p v).slips = s.slips := rfl
@[simp] theorem State.setPort_log (s : State) (p : Nat) (v : PortSt) : (s.setPort p v).log = s.log := rfl
@[simp] theorem State.setPort_tap (s : State) (p : Nat) (v : PortSt) : (s.setPort p v).tap = s.tap := rfl
@[simp] theorem State.setPort_pending (s : State) (p : Nat) (v : PortSt) : (s.setPort p v).pending = s.pending := rfl

/-! ### modPort -/

@[simp] theorem State.modPort_pkg (s : State) (p : Nat) (f : PortSt → PortSt) : (s.modPort p f).pkg = s.pkg := rfl
@[simp] theorem State.modPort_clk (s : State) (p : Nat) (f : PortSt → PortSt) : (s.modPort p f).clk = s.clk := rfl
@[simp] theorem State.modPort_frame (s : State) (p : Nat) (f : PortSt → PortSt) : (s.modPort p f).frame = s.frame := rfl
@[simp] theorem State.modPort_modes (s : State) (p : Nat) (f : PortSt → PortSt) : (s.modPort p f).modes = s.modes := rfl
@[simp] theorem State.modPort_fab (s : State) (p : Nat) (f : PortSt → PortSt) : (s.modPort p f).fab = s.fab := rfl
@[simp] theorem State.modPort_xbar (s : State) (p : Nat) (f : PortSt → PortSt) : (s.modPort p f).xbar = s.xbar := rfl
@[simp] theorem State.modPort_queues (s : State) (p : Nat) (f : PortSt → PortSt) : (s.modPort p f).queues = s.queues := rfl
@[simp] theorem State.modPort_engines (s : State) (p : Nat) (f : PortSt → PortSt) : (s.modPort p f).engines = s.engines := rfl
@[simp] theorem State.modPort_flows (s : State) (p : Nat) (f : PortSt → PortSt) : (s.modPort p f).flows = s.flows := rfl
@[simp] theorem State.modPort_mem (s : State) (p : Nat) (f : PortSt → PortSt) : (s.modPort p f).mem = s.mem := rfl
@[simp] theorem State.modPort_crypto (s : State) (p : Nat) (f : PortSt → PortSt) : (s.modPort p f).crypto = s.crypto := rfl
@[simp] theorem State.modPort_cfg (s : State) (p : Nat) (f : PortSt → PortSt) : (s.modPort p f).cfg = s.cfg := rfl
@[simp] theorem State.modPort_shelf (s : State) (p : Nat) (f : PortSt → PortSt) : (s.modPort p f).shelf = s.shelf := rfl
@[simp] theorem State.modPort_stock (s : State) (p : Nat) (f : PortSt → PortSt) : (s.modPort p f).stock = s.stock := rfl
@[simp] theorem State.modPort_pwr (s : State) (p : Nat) (f : PortSt → PortSt) : (s.modPort p f).pwr = s.pwr := rfl
@[simp] theorem State.modPort_thm (s : State) (p : Nat) (f : PortSt → PortSt) : (s.modPort p f).thm = s.thm := rfl
@[simp] theorem State.modPort_regs (s : State) (p : Nat) (f : PortSt → PortSt) : (s.modPort p f).regs = s.regs := rfl
@[simp] theorem State.modPort_desk (s : State) (p : Nat) (f : PortSt → PortSt) : (s.modPort p f).desk = s.desk := rfl
@[simp] theorem State.modPort_slips (s : State) (p : Nat) (f : PortSt → PortSt) : (s.modPort p f).slips = s.slips := rfl
@[simp] theorem State.modPort_log (s : State) (p : Nat) (f : PortSt → PortSt) : (s.modPort p f).log = s.log := rfl
@[simp] theorem State.modPort_tap (s : State) (p : Nat) (f : PortSt → PortSt) : (s.modPort p f).tap = s.tap := rfl
@[simp] theorem State.modPort_pending (s : State) (p : Nat) (f : PortSt → PortSt) : (s.modPort p f).pending = s.pending := rfl

/-! ### modNeg -/

@[simp] theorem State.modNeg_pkg (s : State) (p : Nat) (f : NegSt → NegSt) : (s.modNeg p f).pkg = s.pkg := rfl
@[simp] theorem State.modNeg_clk (s : State) (p : Nat) (f : NegSt → NegSt) : (s.modNeg p f).clk = s.clk := rfl
@[simp] theorem State.modNeg_frame (s : State) (p : Nat) (f : NegSt → NegSt) : (s.modNeg p f).frame = s.frame := rfl
@[simp] theorem State.modNeg_modes (s : State) (p : Nat) (f : NegSt → NegSt) : (s.modNeg p f).modes = s.modes := rfl
@[simp] theorem State.modNeg_fab (s : State) (p : Nat) (f : NegSt → NegSt) : (s.modNeg p f).fab = s.fab := rfl
@[simp] theorem State.modNeg_xbar (s : State) (p : Nat) (f : NegSt → NegSt) : (s.modNeg p f).xbar = s.xbar := rfl
@[simp] theorem State.modNeg_queues (s : State) (p : Nat) (f : NegSt → NegSt) : (s.modNeg p f).queues = s.queues := rfl
@[simp] theorem State.modNeg_engines (s : State) (p : Nat) (f : NegSt → NegSt) : (s.modNeg p f).engines = s.engines := rfl
@[simp] theorem State.modNeg_flows (s : State) (p : Nat) (f : NegSt → NegSt) : (s.modNeg p f).flows = s.flows := rfl
@[simp] theorem State.modNeg_mem (s : State) (p : Nat) (f : NegSt → NegSt) : (s.modNeg p f).mem = s.mem := rfl
@[simp] theorem State.modNeg_crypto (s : State) (p : Nat) (f : NegSt → NegSt) : (s.modNeg p f).crypto = s.crypto := rfl
@[simp] theorem State.modNeg_cfg (s : State) (p : Nat) (f : NegSt → NegSt) : (s.modNeg p f).cfg = s.cfg := rfl
@[simp] theorem State.modNeg_shelf (s : State) (p : Nat) (f : NegSt → NegSt) : (s.modNeg p f).shelf = s.shelf := rfl
@[simp] theorem State.modNeg_stock (s : State) (p : Nat) (f : NegSt → NegSt) : (s.modNeg p f).stock = s.stock := rfl
@[simp] theorem State.modNeg_pwr (s : State) (p : Nat) (f : NegSt → NegSt) : (s.modNeg p f).pwr = s.pwr := rfl
@[simp] theorem State.modNeg_thm (s : State) (p : Nat) (f : NegSt → NegSt) : (s.modNeg p f).thm = s.thm := rfl
@[simp] theorem State.modNeg_regs (s : State) (p : Nat) (f : NegSt → NegSt) : (s.modNeg p f).regs = s.regs := rfl
@[simp] theorem State.modNeg_desk (s : State) (p : Nat) (f : NegSt → NegSt) : (s.modNeg p f).desk = s.desk := rfl
@[simp] theorem State.modNeg_slips (s : State) (p : Nat) (f : NegSt → NegSt) : (s.modNeg p f).slips = s.slips := rfl
@[simp] theorem State.modNeg_log (s : State) (p : Nat) (f : NegSt → NegSt) : (s.modNeg p f).log = s.log := rfl
@[simp] theorem State.modNeg_tap (s : State) (p : Nat) (f : NegSt → NegSt) : (s.modNeg p f).tap = s.tap := rfl
@[simp] theorem State.modNeg_pending (s : State) (p : Nat) (f : NegSt → NegSt) : (s.modNeg p f).pending = s.pending := rfl

/-! ### modLane -/

@[simp] theorem State.modLane_pkg (s : State) (p : Nat) (f : LaneSt → LaneSt) : (s.modLane p f).pkg = s.pkg := rfl
@[simp] theorem State.modLane_clk (s : State) (p : Nat) (f : LaneSt → LaneSt) : (s.modLane p f).clk = s.clk := rfl
@[simp] theorem State.modLane_frame (s : State) (p : Nat) (f : LaneSt → LaneSt) : (s.modLane p f).frame = s.frame := rfl
@[simp] theorem State.modLane_modes (s : State) (p : Nat) (f : LaneSt → LaneSt) : (s.modLane p f).modes = s.modes := rfl
@[simp] theorem State.modLane_fab (s : State) (p : Nat) (f : LaneSt → LaneSt) : (s.modLane p f).fab = s.fab := rfl
@[simp] theorem State.modLane_xbar (s : State) (p : Nat) (f : LaneSt → LaneSt) : (s.modLane p f).xbar = s.xbar := rfl
@[simp] theorem State.modLane_queues (s : State) (p : Nat) (f : LaneSt → LaneSt) : (s.modLane p f).queues = s.queues := rfl
@[simp] theorem State.modLane_engines (s : State) (p : Nat) (f : LaneSt → LaneSt) : (s.modLane p f).engines = s.engines := rfl
@[simp] theorem State.modLane_flows (s : State) (p : Nat) (f : LaneSt → LaneSt) : (s.modLane p f).flows = s.flows := rfl
@[simp] theorem State.modLane_mem (s : State) (p : Nat) (f : LaneSt → LaneSt) : (s.modLane p f).mem = s.mem := rfl
@[simp] theorem State.modLane_crypto (s : State) (p : Nat) (f : LaneSt → LaneSt) : (s.modLane p f).crypto = s.crypto := rfl
@[simp] theorem State.modLane_cfg (s : State) (p : Nat) (f : LaneSt → LaneSt) : (s.modLane p f).cfg = s.cfg := rfl
@[simp] theorem State.modLane_shelf (s : State) (p : Nat) (f : LaneSt → LaneSt) : (s.modLane p f).shelf = s.shelf := rfl
@[simp] theorem State.modLane_stock (s : State) (p : Nat) (f : LaneSt → LaneSt) : (s.modLane p f).stock = s.stock := rfl
@[simp] theorem State.modLane_pwr (s : State) (p : Nat) (f : LaneSt → LaneSt) : (s.modLane p f).pwr = s.pwr := rfl
@[simp] theorem State.modLane_thm (s : State) (p : Nat) (f : LaneSt → LaneSt) : (s.modLane p f).thm = s.thm := rfl
@[simp] theorem State.modLane_regs (s : State) (p : Nat) (f : LaneSt → LaneSt) : (s.modLane p f).regs = s.regs := rfl
@[simp] theorem State.modLane_desk (s : State) (p : Nat) (f : LaneSt → LaneSt) : (s.modLane p f).desk = s.desk := rfl
@[simp] theorem State.modLane_slips (s : State) (p : Nat) (f : LaneSt → LaneSt) : (s.modLane p f).slips = s.slips := rfl
@[simp] theorem State.modLane_log (s : State) (p : Nat) (f : LaneSt → LaneSt) : (s.modLane p f).log = s.log := rfl
@[simp] theorem State.modLane_tap (s : State) (p : Nat) (f : LaneSt → LaneSt) : (s.modLane p f).tap = s.tap := rfl
@[simp] theorem State.modLane_pending (s : State) (p : Nat) (f : LaneSt → LaneSt) : (s.modLane p f).pending = s.pending := rfl

/-! ### modTx -/

@[simp] theorem State.modTx_pkg (s : State) (p : Nat) (f : TxSt → TxSt) : (s.modTx p f).pkg = s.pkg := rfl
@[simp] theorem State.modTx_clk (s : State) (p : Nat) (f : TxSt → TxSt) : (s.modTx p f).clk = s.clk := rfl
@[simp] theorem State.modTx_frame (s : State) (p : Nat) (f : TxSt → TxSt) : (s.modTx p f).frame = s.frame := rfl
@[simp] theorem State.modTx_modes (s : State) (p : Nat) (f : TxSt → TxSt) : (s.modTx p f).modes = s.modes := rfl
@[simp] theorem State.modTx_fab (s : State) (p : Nat) (f : TxSt → TxSt) : (s.modTx p f).fab = s.fab := rfl
@[simp] theorem State.modTx_xbar (s : State) (p : Nat) (f : TxSt → TxSt) : (s.modTx p f).xbar = s.xbar := rfl
@[simp] theorem State.modTx_queues (s : State) (p : Nat) (f : TxSt → TxSt) : (s.modTx p f).queues = s.queues := rfl
@[simp] theorem State.modTx_engines (s : State) (p : Nat) (f : TxSt → TxSt) : (s.modTx p f).engines = s.engines := rfl
@[simp] theorem State.modTx_flows (s : State) (p : Nat) (f : TxSt → TxSt) : (s.modTx p f).flows = s.flows := rfl
@[simp] theorem State.modTx_mem (s : State) (p : Nat) (f : TxSt → TxSt) : (s.modTx p f).mem = s.mem := rfl
@[simp] theorem State.modTx_crypto (s : State) (p : Nat) (f : TxSt → TxSt) : (s.modTx p f).crypto = s.crypto := rfl
@[simp] theorem State.modTx_cfg (s : State) (p : Nat) (f : TxSt → TxSt) : (s.modTx p f).cfg = s.cfg := rfl
@[simp] theorem State.modTx_shelf (s : State) (p : Nat) (f : TxSt → TxSt) : (s.modTx p f).shelf = s.shelf := rfl
@[simp] theorem State.modTx_stock (s : State) (p : Nat) (f : TxSt → TxSt) : (s.modTx p f).stock = s.stock := rfl
@[simp] theorem State.modTx_pwr (s : State) (p : Nat) (f : TxSt → TxSt) : (s.modTx p f).pwr = s.pwr := rfl
@[simp] theorem State.modTx_thm (s : State) (p : Nat) (f : TxSt → TxSt) : (s.modTx p f).thm = s.thm := rfl
@[simp] theorem State.modTx_regs (s : State) (p : Nat) (f : TxSt → TxSt) : (s.modTx p f).regs = s.regs := rfl
@[simp] theorem State.modTx_desk (s : State) (p : Nat) (f : TxSt → TxSt) : (s.modTx p f).desk = s.desk := rfl
@[simp] theorem State.modTx_slips (s : State) (p : Nat) (f : TxSt → TxSt) : (s.modTx p f).slips = s.slips := rfl
@[simp] theorem State.modTx_log (s : State) (p : Nat) (f : TxSt → TxSt) : (s.modTx p f).log = s.log := rfl
@[simp] theorem State.modTx_tap (s : State) (p : Nat) (f : TxSt → TxSt) : (s.modTx p f).tap = s.tap := rfl
@[simp] theorem State.modTx_pending (s : State) (p : Nat) (f : TxSt → TxSt) : (s.modTx p f).pending = s.pending := rfl

/-! ### modCredit -/

@[simp] theorem State.modCredit_pkg (s : State) (p : Nat) (f : CreditSt → CreditSt) : (s.modCredit p f).pkg = s.pkg := rfl
@[simp] theorem State.modCredit_clk (s : State) (p : Nat) (f : CreditSt → CreditSt) : (s.modCredit p f).clk = s.clk := rfl
@[simp] theorem State.modCredit_frame (s : State) (p : Nat) (f : CreditSt → CreditSt) : (s.modCredit p f).frame = s.frame := rfl
@[simp] theorem State.modCredit_modes (s : State) (p : Nat) (f : CreditSt → CreditSt) : (s.modCredit p f).modes = s.modes := rfl
@[simp] theorem State.modCredit_fab (s : State) (p : Nat) (f : CreditSt → CreditSt) : (s.modCredit p f).fab = s.fab := rfl
@[simp] theorem State.modCredit_xbar (s : State) (p : Nat) (f : CreditSt → CreditSt) : (s.modCredit p f).xbar = s.xbar := rfl
@[simp] theorem State.modCredit_queues (s : State) (p : Nat) (f : CreditSt → CreditSt) : (s.modCredit p f).queues = s.queues := rfl
@[simp] theorem State.modCredit_engines (s : State) (p : Nat) (f : CreditSt → CreditSt) : (s.modCredit p f).engines = s.engines := rfl
@[simp] theorem State.modCredit_flows (s : State) (p : Nat) (f : CreditSt → CreditSt) : (s.modCredit p f).flows = s.flows := rfl
@[simp] theorem State.modCredit_mem (s : State) (p : Nat) (f : CreditSt → CreditSt) : (s.modCredit p f).mem = s.mem := rfl
@[simp] theorem State.modCredit_crypto (s : State) (p : Nat) (f : CreditSt → CreditSt) : (s.modCredit p f).crypto = s.crypto := rfl
@[simp] theorem State.modCredit_cfg (s : State) (p : Nat) (f : CreditSt → CreditSt) : (s.modCredit p f).cfg = s.cfg := rfl
@[simp] theorem State.modCredit_shelf (s : State) (p : Nat) (f : CreditSt → CreditSt) : (s.modCredit p f).shelf = s.shelf := rfl
@[simp] theorem State.modCredit_stock (s : State) (p : Nat) (f : CreditSt → CreditSt) : (s.modCredit p f).stock = s.stock := rfl
@[simp] theorem State.modCredit_pwr (s : State) (p : Nat) (f : CreditSt → CreditSt) : (s.modCredit p f).pwr = s.pwr := rfl
@[simp] theorem State.modCredit_thm (s : State) (p : Nat) (f : CreditSt → CreditSt) : (s.modCredit p f).thm = s.thm := rfl
@[simp] theorem State.modCredit_regs (s : State) (p : Nat) (f : CreditSt → CreditSt) : (s.modCredit p f).regs = s.regs := rfl
@[simp] theorem State.modCredit_desk (s : State) (p : Nat) (f : CreditSt → CreditSt) : (s.modCredit p f).desk = s.desk := rfl
@[simp] theorem State.modCredit_slips (s : State) (p : Nat) (f : CreditSt → CreditSt) : (s.modCredit p f).slips = s.slips := rfl
@[simp] theorem State.modCredit_log (s : State) (p : Nat) (f : CreditSt → CreditSt) : (s.modCredit p f).log = s.log := rfl
@[simp] theorem State.modCredit_tap (s : State) (p : Nat) (f : CreditSt → CreditSt) : (s.modCredit p f).tap = s.tap := rfl
@[simp] theorem State.modCredit_pending (s : State) (p : Nat) (f : CreditSt → CreditSt) : (s.modCredit p f).pending = s.pending := rfl

/-! ### modEgress -/

@[simp] theorem State.modEgress_pkg (s : State) (p : Nat) (f : EgressSt → EgressSt) : (s.modEgress p f).pkg = s.pkg := rfl
@[simp] theorem State.modEgress_clk (s : State) (p : Nat) (f : EgressSt → EgressSt) : (s.modEgress p f).clk = s.clk := rfl
@[simp] theorem State.modEgress_frame (s : State) (p : Nat) (f : EgressSt → EgressSt) : (s.modEgress p f).frame = s.frame := rfl
@[simp] theorem State.modEgress_modes (s : State) (p : Nat) (f : EgressSt → EgressSt) : (s.modEgress p f).modes = s.modes := rfl
@[simp] theorem State.modEgress_fab (s : State) (p : Nat) (f : EgressSt → EgressSt) : (s.modEgress p f).fab = s.fab := rfl
@[simp] theorem State.modEgress_xbar (s : State) (p : Nat) (f : EgressSt → EgressSt) : (s.modEgress p f).xbar = s.xbar := rfl
@[simp] theorem State.modEgress_queues (s : State) (p : Nat) (f : EgressSt → EgressSt) : (s.modEgress p f).queues = s.queues := rfl
@[simp] theorem State.modEgress_engines (s : State) (p : Nat) (f : EgressSt → EgressSt) : (s.modEgress p f).engines = s.engines := rfl
@[simp] theorem State.modEgress_flows (s : State) (p : Nat) (f : EgressSt → EgressSt) : (s.modEgress p f).flows = s.flows := rfl
@[simp] theorem State.modEgress_mem (s : State) (p : Nat) (f : EgressSt → EgressSt) : (s.modEgress p f).mem = s.mem := rfl
@[simp] theorem State.modEgress_crypto (s : State) (p : Nat) (f : EgressSt → EgressSt) : (s.modEgress p f).crypto = s.crypto := rfl
@[simp] theorem State.modEgress_cfg (s : State) (p : Nat) (f : EgressSt → EgressSt) : (s.modEgress p f).cfg = s.cfg := rfl
@[simp] theorem State.modEgress_shelf (s : State) (p : Nat) (f : EgressSt → EgressSt) : (s.modEgress p f).shelf = s.shelf := rfl
@[simp] theorem State.modEgress_stock (s : State) (p : Nat) (f : EgressSt → EgressSt) : (s.modEgress p f).stock = s.stock := rfl
@[simp] theorem State.modEgress_pwr (s : State) (p : Nat) (f : EgressSt → EgressSt) : (s.modEgress p f).pwr = s.pwr := rfl
@[simp] theorem State.modEgress_thm (s : State) (p : Nat) (f : EgressSt → EgressSt) : (s.modEgress p f).thm = s.thm := rfl
@[simp] theorem State.modEgress_regs (s : State) (p : Nat) (f : EgressSt → EgressSt) : (s.modEgress p f).regs = s.regs := rfl
@[simp] theorem State.modEgress_desk (s : State) (p : Nat) (f : EgressSt → EgressSt) : (s.modEgress p f).desk = s.desk := rfl
@[simp] theorem State.modEgress_slips (s : State) (p : Nat) (f : EgressSt → EgressSt) : (s.modEgress p f).slips = s.slips := rfl
@[simp] theorem State.modEgress_log (s : State) (p : Nat) (f : EgressSt → EgressSt) : (s.modEgress p f).log = s.log := rfl
@[simp] theorem State.modEgress_tap (s : State) (p : Nat) (f : EgressSt → EgressSt) : (s.modEgress p f).tap = s.tap := rfl
@[simp] theorem State.modEgress_pending (s : State) (p : Nat) (f : EgressSt → EgressSt) : (s.modEgress p f).pending = s.pending := rfl

/-! ### setQueue -/

@[simp] theorem State.setQueue_pkg (s : State) (q : Nat) (v : QueueSt) : (s.setQueue q v).pkg = s.pkg := rfl
@[simp] theorem State.setQueue_clk (s : State) (q : Nat) (v : QueueSt) : (s.setQueue q v).clk = s.clk := rfl
@[simp] theorem State.setQueue_frame (s : State) (q : Nat) (v : QueueSt) : (s.setQueue q v).frame = s.frame := rfl
@[simp] theorem State.setQueue_modes (s : State) (q : Nat) (v : QueueSt) : (s.setQueue q v).modes = s.modes := rfl
@[simp] theorem State.setQueue_fab (s : State) (q : Nat) (v : QueueSt) : (s.setQueue q v).fab = s.fab := rfl
@[simp] theorem State.setQueue_ports (s : State) (q : Nat) (v : QueueSt) : (s.setQueue q v).ports = s.ports := rfl
@[simp] theorem State.setQueue_xbar (s : State) (q : Nat) (v : QueueSt) : (s.setQueue q v).xbar = s.xbar := rfl
@[simp] theorem State.setQueue_engines (s : State) (q : Nat) (v : QueueSt) : (s.setQueue q v).engines = s.engines := rfl
@[simp] theorem State.setQueue_flows (s : State) (q : Nat) (v : QueueSt) : (s.setQueue q v).flows = s.flows := rfl
@[simp] theorem State.setQueue_mem (s : State) (q : Nat) (v : QueueSt) : (s.setQueue q v).mem = s.mem := rfl
@[simp] theorem State.setQueue_crypto (s : State) (q : Nat) (v : QueueSt) : (s.setQueue q v).crypto = s.crypto := rfl
@[simp] theorem State.setQueue_cfg (s : State) (q : Nat) (v : QueueSt) : (s.setQueue q v).cfg = s.cfg := rfl
@[simp] theorem State.setQueue_shelf (s : State) (q : Nat) (v : QueueSt) : (s.setQueue q v).shelf = s.shelf := rfl
@[simp] theorem State.setQueue_stock (s : State) (q : Nat) (v : QueueSt) : (s.setQueue q v).stock = s.stock := rfl
@[simp] theorem State.setQueue_pwr (s : State) (q : Nat) (v : QueueSt) : (s.setQueue q v).pwr = s.pwr := rfl
@[simp] theorem State.setQueue_thm (s : State) (q : Nat) (v : QueueSt) : (s.setQueue q v).thm = s.thm := rfl
@[simp] theorem State.setQueue_regs (s : State) (q : Nat) (v : QueueSt) : (s.setQueue q v).regs = s.regs := rfl
@[simp] theorem State.setQueue_desk (s : State) (q : Nat) (v : QueueSt) : (s.setQueue q v).desk = s.desk := rfl
@[simp] theorem State.setQueue_slips (s : State) (q : Nat) (v : QueueSt) : (s.setQueue q v).slips = s.slips := rfl
@[simp] theorem State.setQueue_log (s : State) (q : Nat) (v : QueueSt) : (s.setQueue q v).log = s.log := rfl
@[simp] theorem State.setQueue_tap (s : State) (q : Nat) (v : QueueSt) : (s.setQueue q v).tap = s.tap := rfl
@[simp] theorem State.setQueue_pending (s : State) (q : Nat) (v : QueueSt) : (s.setQueue q v).pending = s.pending := rfl

/-! ### modQueue -/

@[simp] theorem State.modQueue_pkg (s : State) (q : Nat) (f : QueueSt → QueueSt) : (s.modQueue q f).pkg = s.pkg := rfl
@[simp] theorem State.modQueue_clk (s : State) (q : Nat) (f : QueueSt → QueueSt) : (s.modQueue q f).clk = s.clk := rfl
@[simp] theorem State.modQueue_frame (s : State) (q : Nat) (f : QueueSt → QueueSt) : (s.modQueue q f).frame = s.frame := rfl
@[simp] theorem State.modQueue_modes (s : State) (q : Nat) (f : QueueSt → QueueSt) : (s.modQueue q f).modes = s.modes := rfl
@[simp] theorem State.modQueue_fab (s : State) (q : Nat) (f : QueueSt → QueueSt) : (s.modQueue q f).fab = s.fab := rfl
@[simp] theorem State.modQueue_ports (s : State) (q : Nat) (f : QueueSt → QueueSt) : (s.modQueue q f).ports = s.ports := rfl
@[simp] theorem State.modQueue_xbar (s : State) (q : Nat) (f : QueueSt → QueueSt) : (s.modQueue q f).xbar = s.xbar := rfl
@[simp] theorem State.modQueue_engines (s : State) (q : Nat) (f : QueueSt → QueueSt) : (s.modQueue q f).engines = s.engines := rfl
@[simp] theorem State.modQueue_flows (s : State) (q : Nat) (f : QueueSt → QueueSt) : (s.modQueue q f).flows = s.flows := rfl
@[simp] theorem State.modQueue_mem (s : State) (q : Nat) (f : QueueSt → QueueSt) : (s.modQueue q f).mem = s.mem := rfl
@[simp] theorem State.modQueue_crypto (s : State) (q : Nat) (f : QueueSt → QueueSt) : (s.modQueue q f).crypto = s.crypto := rfl
@[simp] theorem State.modQueue_cfg (s : State) (q : Nat) (f : QueueSt → QueueSt) : (s.modQueue q f).cfg = s.cfg := rfl
@[simp] theorem State.modQueue_shelf (s : State) (q : Nat) (f : QueueSt → QueueSt) : (s.modQueue q f).shelf = s.shelf := rfl
@[simp] theorem State.modQueue_stock (s : State) (q : Nat) (f : QueueSt → QueueSt) : (s.modQueue q f).stock = s.stock := rfl
@[simp] theorem State.modQueue_pwr (s : State) (q : Nat) (f : QueueSt → QueueSt) : (s.modQueue q f).pwr = s.pwr := rfl
@[simp] theorem State.modQueue_thm (s : State) (q : Nat) (f : QueueSt → QueueSt) : (s.modQueue q f).thm = s.thm := rfl
@[simp] theorem State.modQueue_regs (s : State) (q : Nat) (f : QueueSt → QueueSt) : (s.modQueue q f).regs = s.regs := rfl
@[simp] theorem State.modQueue_desk (s : State) (q : Nat) (f : QueueSt → QueueSt) : (s.modQueue q f).desk = s.desk := rfl
@[simp] theorem State.modQueue_slips (s : State) (q : Nat) (f : QueueSt → QueueSt) : (s.modQueue q f).slips = s.slips := rfl
@[simp] theorem State.modQueue_log (s : State) (q : Nat) (f : QueueSt → QueueSt) : (s.modQueue q f).log = s.log := rfl
@[simp] theorem State.modQueue_tap (s : State) (q : Nat) (f : QueueSt → QueueSt) : (s.modQueue q f).tap = s.tap := rfl
@[simp] theorem State.modQueue_pending (s : State) (q : Nat) (f : QueueSt → QueueSt) : (s.modQueue q f).pending = s.pending := rfl

/-! ### modEngine -/

@[simp] theorem State.modEngine_pkg (s : State) (e : Nat) (f : EngineSt → EngineSt) : (s.modEngine e f).pkg = s.pkg := rfl
@[simp] theorem State.modEngine_clk (s : State) (e : Nat) (f : EngineSt → EngineSt) : (s.modEngine e f).clk = s.clk := rfl
@[simp] theorem State.modEngine_frame (s : State) (e : Nat) (f : EngineSt → EngineSt) : (s.modEngine e f).frame = s.frame := rfl
@[simp] theorem State.modEngine_modes (s : State) (e : Nat) (f : EngineSt → EngineSt) : (s.modEngine e f).modes = s.modes := rfl
@[simp] theorem State.modEngine_fab (s : State) (e : Nat) (f : EngineSt → EngineSt) : (s.modEngine e f).fab = s.fab := rfl
@[simp] theorem State.modEngine_ports (s : State) (e : Nat) (f : EngineSt → EngineSt) : (s.modEngine e f).ports = s.ports := rfl
@[simp] theorem State.modEngine_xbar (s : State) (e : Nat) (f : EngineSt → EngineSt) : (s.modEngine e f).xbar = s.xbar := rfl
@[simp] theorem State.modEngine_queues (s : State) (e : Nat) (f : EngineSt → EngineSt) : (s.modEngine e f).queues = s.queues := rfl
@[simp] theorem State.modEngine_flows (s : State) (e : Nat) (f : EngineSt → EngineSt) : (s.modEngine e f).flows = s.flows := rfl
@[simp] theorem State.modEngine_mem (s : State) (e : Nat) (f : EngineSt → EngineSt) : (s.modEngine e f).mem = s.mem := rfl
@[simp] theorem State.modEngine_crypto (s : State) (e : Nat) (f : EngineSt → EngineSt) : (s.modEngine e f).crypto = s.crypto := rfl
@[simp] theorem State.modEngine_cfg (s : State) (e : Nat) (f : EngineSt → EngineSt) : (s.modEngine e f).cfg = s.cfg := rfl
@[simp] theorem State.modEngine_shelf (s : State) (e : Nat) (f : EngineSt → EngineSt) : (s.modEngine e f).shelf = s.shelf := rfl
@[simp] theorem State.modEngine_stock (s : State) (e : Nat) (f : EngineSt → EngineSt) : (s.modEngine e f).stock = s.stock := rfl
@[simp] theorem State.modEngine_pwr (s : State) (e : Nat) (f : EngineSt → EngineSt) : (s.modEngine e f).pwr = s.pwr := rfl
@[simp] theorem State.modEngine_thm (s : State) (e : Nat) (f : EngineSt → EngineSt) : (s.modEngine e f).thm = s.thm := rfl
@[simp] theorem State.modEngine_regs (s : State) (e : Nat) (f : EngineSt → EngineSt) : (s.modEngine e f).regs = s.regs := rfl
@[simp] theorem State.modEngine_desk (s : State) (e : Nat) (f : EngineSt → EngineSt) : (s.modEngine e f).desk = s.desk := rfl
@[simp] theorem State.modEngine_slips (s : State) (e : Nat) (f : EngineSt → EngineSt) : (s.modEngine e f).slips = s.slips := rfl
@[simp] theorem State.modEngine_log (s : State) (e : Nat) (f : EngineSt → EngineSt) : (s.modEngine e f).log = s.log := rfl
@[simp] theorem State.modEngine_tap (s : State) (e : Nat) (f : EngineSt → EngineSt) : (s.modEngine e f).tap = s.tap := rfl
@[simp] theorem State.modEngine_pending (s : State) (e : Nat) (f : EngineSt → EngineSt) : (s.modEngine e f).pending = s.pending := rfl

/-! ### setFlow -/

@[simp] theorem State.setFlow_pkg (s : State) (k : Nat) (v : FlowSt) : (s.setFlow k v).pkg = s.pkg := rfl
@[simp] theorem State.setFlow_clk (s : State) (k : Nat) (v : FlowSt) : (s.setFlow k v).clk = s.clk := rfl
@[simp] theorem State.setFlow_frame (s : State) (k : Nat) (v : FlowSt) : (s.setFlow k v).frame = s.frame := rfl
@[simp] theorem State.setFlow_modes (s : State) (k : Nat) (v : FlowSt) : (s.setFlow k v).modes = s.modes := rfl
@[simp] theorem State.setFlow_fab (s : State) (k : Nat) (v : FlowSt) : (s.setFlow k v).fab = s.fab := rfl
@[simp] theorem State.setFlow_ports (s : State) (k : Nat) (v : FlowSt) : (s.setFlow k v).ports = s.ports := rfl
@[simp] theorem State.setFlow_xbar (s : State) (k : Nat) (v : FlowSt) : (s.setFlow k v).xbar = s.xbar := rfl
@[simp] theorem State.setFlow_queues (s : State) (k : Nat) (v : FlowSt) : (s.setFlow k v).queues = s.queues := rfl
@[simp] theorem State.setFlow_engines (s : State) (k : Nat) (v : FlowSt) : (s.setFlow k v).engines = s.engines := rfl
@[simp] theorem State.setFlow_mem (s : State) (k : Nat) (v : FlowSt) : (s.setFlow k v).mem = s.mem := rfl
@[simp] theorem State.setFlow_crypto (s : State) (k : Nat) (v : FlowSt) : (s.setFlow k v).crypto = s.crypto := rfl
@[simp] theorem State.setFlow_cfg (s : State) (k : Nat) (v : FlowSt) : (s.setFlow k v).cfg = s.cfg := rfl
@[simp] theorem State.setFlow_shelf (s : State) (k : Nat) (v : FlowSt) : (s.setFlow k v).shelf = s.shelf := rfl
@[simp] theorem State.setFlow_stock (s : State) (k : Nat) (v : FlowSt) : (s.setFlow k v).stock = s.stock := rfl
@[simp] theorem State.setFlow_pwr (s : State) (k : Nat) (v : FlowSt) : (s.setFlow k v).pwr = s.pwr := rfl
@[simp] theorem State.setFlow_thm (s : State) (k : Nat) (v : FlowSt) : (s.setFlow k v).thm = s.thm := rfl
@[simp] theorem State.setFlow_regs (s : State) (k : Nat) (v : FlowSt) : (s.setFlow k v).regs = s.regs := rfl
@[simp] theorem State.setFlow_desk (s : State) (k : Nat) (v : FlowSt) : (s.setFlow k v).desk = s.desk := rfl
@[simp] theorem State.setFlow_slips (s : State) (k : Nat) (v : FlowSt) : (s.setFlow k v).slips = s.slips := rfl
@[simp] theorem State.setFlow_log (s : State) (k : Nat) (v : FlowSt) : (s.setFlow k v).log = s.log := rfl
@[simp] theorem State.setFlow_tap (s : State) (k : Nat) (v : FlowSt) : (s.setFlow k v).tap = s.tap := rfl
@[simp] theorem State.setFlow_pending (s : State) (k : Nat) (v : FlowSt) : (s.setFlow k v).pending = s.pending := rfl

/-! ### modFlow -/

@[simp] theorem State.modFlow_pkg (s : State) (k : Nat) (f : FlowSt → FlowSt) : (s.modFlow k f).pkg = s.pkg := rfl
@[simp] theorem State.modFlow_clk (s : State) (k : Nat) (f : FlowSt → FlowSt) : (s.modFlow k f).clk = s.clk := rfl
@[simp] theorem State.modFlow_frame (s : State) (k : Nat) (f : FlowSt → FlowSt) : (s.modFlow k f).frame = s.frame := rfl
@[simp] theorem State.modFlow_modes (s : State) (k : Nat) (f : FlowSt → FlowSt) : (s.modFlow k f).modes = s.modes := rfl
@[simp] theorem State.modFlow_fab (s : State) (k : Nat) (f : FlowSt → FlowSt) : (s.modFlow k f).fab = s.fab := rfl
@[simp] theorem State.modFlow_ports (s : State) (k : Nat) (f : FlowSt → FlowSt) : (s.modFlow k f).ports = s.ports := rfl
@[simp] theorem State.modFlow_xbar (s : State) (k : Nat) (f : FlowSt → FlowSt) : (s.modFlow k f).xbar = s.xbar := rfl
@[simp] theorem State.modFlow_queues (s : State) (k : Nat) (f : FlowSt → FlowSt) : (s.modFlow k f).queues = s.queues := rfl
@[simp] theorem State.modFlow_engines (s : State) (k : Nat) (f : FlowSt → FlowSt) : (s.modFlow k f).engines = s.engines := rfl
@[simp] theorem State.modFlow_mem (s : State) (k : Nat) (f : FlowSt → FlowSt) : (s.modFlow k f).mem = s.mem := rfl
@[simp] theorem State.modFlow_crypto (s : State) (k : Nat) (f : FlowSt → FlowSt) : (s.modFlow k f).crypto = s.crypto := rfl
@[simp] theorem State.modFlow_cfg (s : State) (k : Nat) (f : FlowSt → FlowSt) : (s.modFlow k f).cfg = s.cfg := rfl
@[simp] theorem State.modFlow_shelf (s : State) (k : Nat) (f : FlowSt → FlowSt) : (s.modFlow k f).shelf = s.shelf := rfl
@[simp] theorem State.modFlow_stock (s : State) (k : Nat) (f : FlowSt → FlowSt) : (s.modFlow k f).stock = s.stock := rfl
@[simp] theorem State.modFlow_pwr (s : State) (k : Nat) (f : FlowSt → FlowSt) : (s.modFlow k f).pwr = s.pwr := rfl
@[simp] theorem State.modFlow_thm (s : State) (k : Nat) (f : FlowSt → FlowSt) : (s.modFlow k f).thm = s.thm := rfl
@[simp] theorem State.modFlow_regs (s : State) (k : Nat) (f : FlowSt → FlowSt) : (s.modFlow k f).regs = s.regs := rfl
@[simp] theorem State.modFlow_desk (s : State) (k : Nat) (f : FlowSt → FlowSt) : (s.modFlow k f).desk = s.desk := rfl
@[simp] theorem State.modFlow_slips (s : State) (k : Nat) (f : FlowSt → FlowSt) : (s.modFlow k f).slips = s.slips := rfl
@[simp] theorem State.modFlow_log (s : State) (k : Nat) (f : FlowSt → FlowSt) : (s.modFlow k f).log = s.log := rfl
@[simp] theorem State.modFlow_tap (s : State) (k : Nat) (f : FlowSt → FlowSt) : (s.modFlow k f).tap = s.tap := rfl
@[simp] theorem State.modFlow_pending (s : State) (k : Nat) (f : FlowSt → FlowSt) : (s.modFlow k f).pending = s.pending := rfl

/-! ### modBay -/

@[simp] theorem State.modBay_pkg (s : State) (b : Nat) (f : BaySt → BaySt) : (s.modBay b f).pkg = s.pkg := rfl
@[simp] theorem State.modBay_clk (s : State) (b : Nat) (f : BaySt → BaySt) : (s.modBay b f).clk = s.clk := rfl
@[simp] theorem State.modBay_frame (s : State) (b : Nat) (f : BaySt → BaySt) : (s.modBay b f).frame = s.frame := rfl
@[simp] theorem State.modBay_modes (s : State) (b : Nat) (f : BaySt → BaySt) : (s.modBay b f).modes = s.modes := rfl
@[simp] theorem State.modBay_ports (s : State) (b : Nat) (f : BaySt → BaySt) : (s.modBay b f).ports = s.ports := rfl
@[simp] theorem State.modBay_xbar (s : State) (b : Nat) (f : BaySt → BaySt) : (s.modBay b f).xbar = s.xbar := rfl
@[simp] theorem State.modBay_queues (s : State) (b : Nat) (f : BaySt → BaySt) : (s.modBay b f).queues = s.queues := rfl
@[simp] theorem State.modBay_engines (s : State) (b : Nat) (f : BaySt → BaySt) : (s.modBay b f).engines = s.engines := rfl
@[simp] theorem State.modBay_flows (s : State) (b : Nat) (f : BaySt → BaySt) : (s.modBay b f).flows = s.flows := rfl
@[simp] theorem State.modBay_mem (s : State) (b : Nat) (f : BaySt → BaySt) : (s.modBay b f).mem = s.mem := rfl
@[simp] theorem State.modBay_crypto (s : State) (b : Nat) (f : BaySt → BaySt) : (s.modBay b f).crypto = s.crypto := rfl
@[simp] theorem State.modBay_cfg (s : State) (b : Nat) (f : BaySt → BaySt) : (s.modBay b f).cfg = s.cfg := rfl
@[simp] theorem State.modBay_shelf (s : State) (b : Nat) (f : BaySt → BaySt) : (s.modBay b f).shelf = s.shelf := rfl
@[simp] theorem State.modBay_stock (s : State) (b : Nat) (f : BaySt → BaySt) : (s.modBay b f).stock = s.stock := rfl
@[simp] theorem State.modBay_pwr (s : State) (b : Nat) (f : BaySt → BaySt) : (s.modBay b f).pwr = s.pwr := rfl
@[simp] theorem State.modBay_thm (s : State) (b : Nat) (f : BaySt → BaySt) : (s.modBay b f).thm = s.thm := rfl
@[simp] theorem State.modBay_regs (s : State) (b : Nat) (f : BaySt → BaySt) : (s.modBay b f).regs = s.regs := rfl
@[simp] theorem State.modBay_desk (s : State) (b : Nat) (f : BaySt → BaySt) : (s.modBay b f).desk = s.desk := rfl
@[simp] theorem State.modBay_slips (s : State) (b : Nat) (f : BaySt → BaySt) : (s.modBay b f).slips = s.slips := rfl
@[simp] theorem State.modBay_log (s : State) (b : Nat) (f : BaySt → BaySt) : (s.modBay b f).log = s.log := rfl
@[simp] theorem State.modBay_tap (s : State) (b : Nat) (f : BaySt → BaySt) : (s.modBay b f).tap = s.tap := rfl
@[simp] theorem State.modBay_pending (s : State) (b : Nat) (f : BaySt → BaySt) : (s.modBay b f).pending = s.pending := rfl
@[simp] theorem State.modBay_fab_carrels (s : State) (b : Nat) (f : BaySt → BaySt) : (s.modBay b f).fab.carrels = s.fab.carrels := rfl
@[simp] theorem State.modBay_fab_folios (s : State) (b : Nat) (f : BaySt → BaySt) : (s.modBay b f).fab.folios = s.fab.folios := rfl
@[simp] theorem State.modBay_fab_tests (s : State) (b : Nat) (f : BaySt → BaySt) : (s.modBay b f).fab.tests = s.fab.tests := rfl
@[simp] theorem State.modBay_fab_chans (s : State) (b : Nat) (f : BaySt → BaySt) : (s.modBay b f).fab.chans = s.fab.chans := rfl
@[simp] theorem State.modBay_fab_editions (s : State) (b : Nat) (f : BaySt → BaySt) : (s.modBay b f).fab.editions = s.fab.editions := rfl
@[simp] theorem State.modBay_fab_binds (s : State) (b : Nat) (f : BaySt → BaySt) : (s.modBay b f).fab.binds = s.fab.binds := rfl
@[simp] theorem State.modBay_fab_banks (s : State) (b : Nat) (f : BaySt → BaySt) : (s.modBay b f).fab.banks = s.fab.banks := rfl
@[simp] theorem State.modBay_fab_pendRota (s : State) (b : Nat) (f : BaySt → BaySt) : (s.modBay b f).fab.pendRota = s.fab.pendRota := rfl
@[simp] theorem State.modBay_fab_changes (s : State) (b : Nat) (f : BaySt → BaySt) : (s.modBay b f).fab.changes = s.fab.changes := rfl
@[simp] theorem State.modBay_fab_due (s : State) (b : Nat) (f : BaySt → BaySt) : (s.modBay b f).fab.due = s.fab.due := rfl
@[simp] theorem State.modBay_fab_loads (s : State) (b : Nat) (f : BaySt → BaySt) : (s.modBay b f).fab.loads = s.fab.loads := rfl
@[simp] theorem State.modBay_fab_reqs (s : State) (b : Nat) (f : BaySt → BaySt) : (s.modBay b f).fab.reqs = s.fab.reqs := rfl
@[simp] theorem State.modBay_fab_nextReq (s : State) (b : Nat) (f : BaySt → BaySt) : (s.modBay b f).fab.nextReq = s.fab.nextReq := rfl
@[simp] theorem State.modBay_fab_loadsThisFrame (s : State) (b : Nat) (f : BaySt → BaySt) : (s.modBay b f).fab.loadsThisFrame = s.fab.loadsThisFrame := rfl
@[simp] theorem State.modBay_fab_switches (s : State) (b : Nat) (f : BaySt → BaySt) : (s.modBay b f).fab.switches = s.fab.switches := rfl
@[simp] theorem State.modBay_fab_remapped (s : State) (b : Nat) (f : BaySt → BaySt) : (s.modBay b f).fab.remapped = s.fab.remapped := rfl

/-! ### modCarrel -/

@[simp] theorem State.modCarrel_pkg (s : State) (k : Nat) (f : CarrelSt → CarrelSt) : (s.modCarrel k f).pkg = s.pkg := rfl
@[simp] theorem State.modCarrel_clk (s : State) (k : Nat) (f : CarrelSt → CarrelSt) : (s.modCarrel k f).clk = s.clk := rfl
@[simp] theorem State.modCarrel_frame (s : State) (k : Nat) (f : CarrelSt → CarrelSt) : (s.modCarrel k f).frame = s.frame := rfl
@[simp] theorem State.modCarrel_modes (s : State) (k : Nat) (f : CarrelSt → CarrelSt) : (s.modCarrel k f).modes = s.modes := rfl
@[simp] theorem State.modCarrel_ports (s : State) (k : Nat) (f : CarrelSt → CarrelSt) : (s.modCarrel k f).ports = s.ports := rfl
@[simp] theorem State.modCarrel_xbar (s : State) (k : Nat) (f : CarrelSt → CarrelSt) : (s.modCarrel k f).xbar = s.xbar := rfl
@[simp] theorem State.modCarrel_queues (s : State) (k : Nat) (f : CarrelSt → CarrelSt) : (s.modCarrel k f).queues = s.queues := rfl
@[simp] theorem State.modCarrel_engines (s : State) (k : Nat) (f : CarrelSt → CarrelSt) : (s.modCarrel k f).engines = s.engines := rfl
@[simp] theorem State.modCarrel_flows (s : State) (k : Nat) (f : CarrelSt → CarrelSt) : (s.modCarrel k f).flows = s.flows := rfl
@[simp] theorem State.modCarrel_mem (s : State) (k : Nat) (f : CarrelSt → CarrelSt) : (s.modCarrel k f).mem = s.mem := rfl
@[simp] theorem State.modCarrel_crypto (s : State) (k : Nat) (f : CarrelSt → CarrelSt) : (s.modCarrel k f).crypto = s.crypto := rfl
@[simp] theorem State.modCarrel_cfg (s : State) (k : Nat) (f : CarrelSt → CarrelSt) : (s.modCarrel k f).cfg = s.cfg := rfl
@[simp] theorem State.modCarrel_shelf (s : State) (k : Nat) (f : CarrelSt → CarrelSt) : (s.modCarrel k f).shelf = s.shelf := rfl
@[simp] theorem State.modCarrel_stock (s : State) (k : Nat) (f : CarrelSt → CarrelSt) : (s.modCarrel k f).stock = s.stock := rfl
@[simp] theorem State.modCarrel_pwr (s : State) (k : Nat) (f : CarrelSt → CarrelSt) : (s.modCarrel k f).pwr = s.pwr := rfl
@[simp] theorem State.modCarrel_thm (s : State) (k : Nat) (f : CarrelSt → CarrelSt) : (s.modCarrel k f).thm = s.thm := rfl
@[simp] theorem State.modCarrel_regs (s : State) (k : Nat) (f : CarrelSt → CarrelSt) : (s.modCarrel k f).regs = s.regs := rfl
@[simp] theorem State.modCarrel_desk (s : State) (k : Nat) (f : CarrelSt → CarrelSt) : (s.modCarrel k f).desk = s.desk := rfl
@[simp] theorem State.modCarrel_slips (s : State) (k : Nat) (f : CarrelSt → CarrelSt) : (s.modCarrel k f).slips = s.slips := rfl
@[simp] theorem State.modCarrel_log (s : State) (k : Nat) (f : CarrelSt → CarrelSt) : (s.modCarrel k f).log = s.log := rfl
@[simp] theorem State.modCarrel_tap (s : State) (k : Nat) (f : CarrelSt → CarrelSt) : (s.modCarrel k f).tap = s.tap := rfl
@[simp] theorem State.modCarrel_pending (s : State) (k : Nat) (f : CarrelSt → CarrelSt) : (s.modCarrel k f).pending = s.pending := rfl
@[simp] theorem State.modCarrel_fab_bays (s : State) (k : Nat) (f : CarrelSt → CarrelSt) : (s.modCarrel k f).fab.bays = s.fab.bays := rfl
@[simp] theorem State.modCarrel_fab_folios (s : State) (k : Nat) (f : CarrelSt → CarrelSt) : (s.modCarrel k f).fab.folios = s.fab.folios := rfl
@[simp] theorem State.modCarrel_fab_tests (s : State) (k : Nat) (f : CarrelSt → CarrelSt) : (s.modCarrel k f).fab.tests = s.fab.tests := rfl
@[simp] theorem State.modCarrel_fab_chans (s : State) (k : Nat) (f : CarrelSt → CarrelSt) : (s.modCarrel k f).fab.chans = s.fab.chans := rfl
@[simp] theorem State.modCarrel_fab_editions (s : State) (k : Nat) (f : CarrelSt → CarrelSt) : (s.modCarrel k f).fab.editions = s.fab.editions := rfl
@[simp] theorem State.modCarrel_fab_binds (s : State) (k : Nat) (f : CarrelSt → CarrelSt) : (s.modCarrel k f).fab.binds = s.fab.binds := rfl
@[simp] theorem State.modCarrel_fab_banks (s : State) (k : Nat) (f : CarrelSt → CarrelSt) : (s.modCarrel k f).fab.banks = s.fab.banks := rfl
@[simp] theorem State.modCarrel_fab_pendRota (s : State) (k : Nat) (f : CarrelSt → CarrelSt) : (s.modCarrel k f).fab.pendRota = s.fab.pendRota := rfl
@[simp] theorem State.modCarrel_fab_changes (s : State) (k : Nat) (f : CarrelSt → CarrelSt) : (s.modCarrel k f).fab.changes = s.fab.changes := rfl
@[simp] theorem State.modCarrel_fab_due (s : State) (k : Nat) (f : CarrelSt → CarrelSt) : (s.modCarrel k f).fab.due = s.fab.due := rfl
@[simp] theorem State.modCarrel_fab_loads (s : State) (k : Nat) (f : CarrelSt → CarrelSt) : (s.modCarrel k f).fab.loads = s.fab.loads := rfl
@[simp] theorem State.modCarrel_fab_reqs (s : State) (k : Nat) (f : CarrelSt → CarrelSt) : (s.modCarrel k f).fab.reqs = s.fab.reqs := rfl
@[simp] theorem State.modCarrel_fab_nextReq (s : State) (k : Nat) (f : CarrelSt → CarrelSt) : (s.modCarrel k f).fab.nextReq = s.fab.nextReq := rfl
@[simp] theorem State.modCarrel_fab_loadsThisFrame (s : State) (k : Nat) (f : CarrelSt → CarrelSt) : (s.modCarrel k f).fab.loadsThisFrame = s.fab.loadsThisFrame := rfl
@[simp] theorem State.modCarrel_fab_switches (s : State) (k : Nat) (f : CarrelSt → CarrelSt) : (s.modCarrel k f).fab.switches = s.fab.switches := rfl
@[simp] theorem State.modCarrel_fab_remapped (s : State) (k : Nat) (f : CarrelSt → CarrelSt) : (s.modCarrel k f).fab.remapped = s.fab.remapped := rfl

/-! ### modFolio -/

@[simp] theorem State.modFolio_pkg (s : State) (k : Nat) (f : FolioSt → FolioSt) : (s.modFolio k f).pkg = s.pkg := rfl
@[simp] theorem State.modFolio_clk (s : State) (k : Nat) (f : FolioSt → FolioSt) : (s.modFolio k f).clk = s.clk := rfl
@[simp] theorem State.modFolio_frame (s : State) (k : Nat) (f : FolioSt → FolioSt) : (s.modFolio k f).frame = s.frame := rfl
@[simp] theorem State.modFolio_modes (s : State) (k : Nat) (f : FolioSt → FolioSt) : (s.modFolio k f).modes = s.modes := rfl
@[simp] theorem State.modFolio_ports (s : State) (k : Nat) (f : FolioSt → FolioSt) : (s.modFolio k f).ports = s.ports := rfl
@[simp] theorem State.modFolio_xbar (s : State) (k : Nat) (f : FolioSt → FolioSt) : (s.modFolio k f).xbar = s.xbar := rfl
@[simp] theorem State.modFolio_queues (s : State) (k : Nat) (f : FolioSt → FolioSt) : (s.modFolio k f).queues = s.queues := rfl
@[simp] theorem State.modFolio_engines (s : State) (k : Nat) (f : FolioSt → FolioSt) : (s.modFolio k f).engines = s.engines := rfl
@[simp] theorem State.modFolio_flows (s : State) (k : Nat) (f : FolioSt → FolioSt) : (s.modFolio k f).flows = s.flows := rfl
@[simp] theorem State.modFolio_mem (s : State) (k : Nat) (f : FolioSt → FolioSt) : (s.modFolio k f).mem = s.mem := rfl
@[simp] theorem State.modFolio_crypto (s : State) (k : Nat) (f : FolioSt → FolioSt) : (s.modFolio k f).crypto = s.crypto := rfl
@[simp] theorem State.modFolio_cfg (s : State) (k : Nat) (f : FolioSt → FolioSt) : (s.modFolio k f).cfg = s.cfg := rfl
@[simp] theorem State.modFolio_shelf (s : State) (k : Nat) (f : FolioSt → FolioSt) : (s.modFolio k f).shelf = s.shelf := rfl
@[simp] theorem State.modFolio_stock (s : State) (k : Nat) (f : FolioSt → FolioSt) : (s.modFolio k f).stock = s.stock := rfl
@[simp] theorem State.modFolio_pwr (s : State) (k : Nat) (f : FolioSt → FolioSt) : (s.modFolio k f).pwr = s.pwr := rfl
@[simp] theorem State.modFolio_thm (s : State) (k : Nat) (f : FolioSt → FolioSt) : (s.modFolio k f).thm = s.thm := rfl
@[simp] theorem State.modFolio_regs (s : State) (k : Nat) (f : FolioSt → FolioSt) : (s.modFolio k f).regs = s.regs := rfl
@[simp] theorem State.modFolio_desk (s : State) (k : Nat) (f : FolioSt → FolioSt) : (s.modFolio k f).desk = s.desk := rfl
@[simp] theorem State.modFolio_slips (s : State) (k : Nat) (f : FolioSt → FolioSt) : (s.modFolio k f).slips = s.slips := rfl
@[simp] theorem State.modFolio_log (s : State) (k : Nat) (f : FolioSt → FolioSt) : (s.modFolio k f).log = s.log := rfl
@[simp] theorem State.modFolio_tap (s : State) (k : Nat) (f : FolioSt → FolioSt) : (s.modFolio k f).tap = s.tap := rfl
@[simp] theorem State.modFolio_pending (s : State) (k : Nat) (f : FolioSt → FolioSt) : (s.modFolio k f).pending = s.pending := rfl
@[simp] theorem State.modFolio_fab_bays (s : State) (k : Nat) (f : FolioSt → FolioSt) : (s.modFolio k f).fab.bays = s.fab.bays := rfl
@[simp] theorem State.modFolio_fab_carrels (s : State) (k : Nat) (f : FolioSt → FolioSt) : (s.modFolio k f).fab.carrels = s.fab.carrels := rfl
@[simp] theorem State.modFolio_fab_tests (s : State) (k : Nat) (f : FolioSt → FolioSt) : (s.modFolio k f).fab.tests = s.fab.tests := rfl
@[simp] theorem State.modFolio_fab_chans (s : State) (k : Nat) (f : FolioSt → FolioSt) : (s.modFolio k f).fab.chans = s.fab.chans := rfl
@[simp] theorem State.modFolio_fab_editions (s : State) (k : Nat) (f : FolioSt → FolioSt) : (s.modFolio k f).fab.editions = s.fab.editions := rfl
@[simp] theorem State.modFolio_fab_binds (s : State) (k : Nat) (f : FolioSt → FolioSt) : (s.modFolio k f).fab.binds = s.fab.binds := rfl
@[simp] theorem State.modFolio_fab_banks (s : State) (k : Nat) (f : FolioSt → FolioSt) : (s.modFolio k f).fab.banks = s.fab.banks := rfl
@[simp] theorem State.modFolio_fab_pendRota (s : State) (k : Nat) (f : FolioSt → FolioSt) : (s.modFolio k f).fab.pendRota = s.fab.pendRota := rfl
@[simp] theorem State.modFolio_fab_changes (s : State) (k : Nat) (f : FolioSt → FolioSt) : (s.modFolio k f).fab.changes = s.fab.changes := rfl
@[simp] theorem State.modFolio_fab_due (s : State) (k : Nat) (f : FolioSt → FolioSt) : (s.modFolio k f).fab.due = s.fab.due := rfl
@[simp] theorem State.modFolio_fab_loads (s : State) (k : Nat) (f : FolioSt → FolioSt) : (s.modFolio k f).fab.loads = s.fab.loads := rfl
@[simp] theorem State.modFolio_fab_reqs (s : State) (k : Nat) (f : FolioSt → FolioSt) : (s.modFolio k f).fab.reqs = s.fab.reqs := rfl
@[simp] theorem State.modFolio_fab_nextReq (s : State) (k : Nat) (f : FolioSt → FolioSt) : (s.modFolio k f).fab.nextReq = s.fab.nextReq := rfl
@[simp] theorem State.modFolio_fab_loadsThisFrame (s : State) (k : Nat) (f : FolioSt → FolioSt) : (s.modFolio k f).fab.loadsThisFrame = s.fab.loadsThisFrame := rfl
@[simp] theorem State.modFolio_fab_switches (s : State) (k : Nat) (f : FolioSt → FolioSt) : (s.modFolio k f).fab.switches = s.fab.switches := rfl
@[simp] theorem State.modFolio_fab_remapped (s : State) (k : Nat) (f : FolioSt → FolioSt) : (s.modFolio k f).fab.remapped = s.fab.remapped := rfl

/-! ### setBank -/

@[simp] theorem State.setBank_pkg (s : State) (i : Nat) (v : BankCfg) : (s.setBank i v).pkg = s.pkg := rfl
@[simp] theorem State.setBank_clk (s : State) (i : Nat) (v : BankCfg) : (s.setBank i v).clk = s.clk := rfl
@[simp] theorem State.setBank_frame (s : State) (i : Nat) (v : BankCfg) : (s.setBank i v).frame = s.frame := rfl
@[simp] theorem State.setBank_modes (s : State) (i : Nat) (v : BankCfg) : (s.setBank i v).modes = s.modes := rfl
@[simp] theorem State.setBank_ports (s : State) (i : Nat) (v : BankCfg) : (s.setBank i v).ports = s.ports := rfl
@[simp] theorem State.setBank_xbar (s : State) (i : Nat) (v : BankCfg) : (s.setBank i v).xbar = s.xbar := rfl
@[simp] theorem State.setBank_queues (s : State) (i : Nat) (v : BankCfg) : (s.setBank i v).queues = s.queues := rfl
@[simp] theorem State.setBank_engines (s : State) (i : Nat) (v : BankCfg) : (s.setBank i v).engines = s.engines := rfl
@[simp] theorem State.setBank_flows (s : State) (i : Nat) (v : BankCfg) : (s.setBank i v).flows = s.flows := rfl
@[simp] theorem State.setBank_mem (s : State) (i : Nat) (v : BankCfg) : (s.setBank i v).mem = s.mem := rfl
@[simp] theorem State.setBank_crypto (s : State) (i : Nat) (v : BankCfg) : (s.setBank i v).crypto = s.crypto := rfl
@[simp] theorem State.setBank_cfg (s : State) (i : Nat) (v : BankCfg) : (s.setBank i v).cfg = s.cfg := rfl
@[simp] theorem State.setBank_shelf (s : State) (i : Nat) (v : BankCfg) : (s.setBank i v).shelf = s.shelf := rfl
@[simp] theorem State.setBank_stock (s : State) (i : Nat) (v : BankCfg) : (s.setBank i v).stock = s.stock := rfl
@[simp] theorem State.setBank_pwr (s : State) (i : Nat) (v : BankCfg) : (s.setBank i v).pwr = s.pwr := rfl
@[simp] theorem State.setBank_thm (s : State) (i : Nat) (v : BankCfg) : (s.setBank i v).thm = s.thm := rfl
@[simp] theorem State.setBank_regs (s : State) (i : Nat) (v : BankCfg) : (s.setBank i v).regs = s.regs := rfl
@[simp] theorem State.setBank_desk (s : State) (i : Nat) (v : BankCfg) : (s.setBank i v).desk = s.desk := rfl
@[simp] theorem State.setBank_slips (s : State) (i : Nat) (v : BankCfg) : (s.setBank i v).slips = s.slips := rfl
@[simp] theorem State.setBank_log (s : State) (i : Nat) (v : BankCfg) : (s.setBank i v).log = s.log := rfl
@[simp] theorem State.setBank_tap (s : State) (i : Nat) (v : BankCfg) : (s.setBank i v).tap = s.tap := rfl
@[simp] theorem State.setBank_pending (s : State) (i : Nat) (v : BankCfg) : (s.setBank i v).pending = s.pending := rfl
@[simp] theorem State.setBank_fab_bays (s : State) (i : Nat) (v : BankCfg) : (s.setBank i v).fab.bays = s.fab.bays := rfl
@[simp] theorem State.setBank_fab_carrels (s : State) (i : Nat) (v : BankCfg) : (s.setBank i v).fab.carrels = s.fab.carrels := rfl
@[simp] theorem State.setBank_fab_folios (s : State) (i : Nat) (v : BankCfg) : (s.setBank i v).fab.folios = s.fab.folios := rfl
@[simp] theorem State.setBank_fab_tests (s : State) (i : Nat) (v : BankCfg) : (s.setBank i v).fab.tests = s.fab.tests := rfl
@[simp] theorem State.setBank_fab_chans (s : State) (i : Nat) (v : BankCfg) : (s.setBank i v).fab.chans = s.fab.chans := rfl
@[simp] theorem State.setBank_fab_editions (s : State) (i : Nat) (v : BankCfg) : (s.setBank i v).fab.editions = s.fab.editions := rfl
@[simp] theorem State.setBank_fab_binds (s : State) (i : Nat) (v : BankCfg) : (s.setBank i v).fab.binds = s.fab.binds := rfl
@[simp] theorem State.setBank_fab_pendRota (s : State) (i : Nat) (v : BankCfg) : (s.setBank i v).fab.pendRota = s.fab.pendRota := rfl
@[simp] theorem State.setBank_fab_changes (s : State) (i : Nat) (v : BankCfg) : (s.setBank i v).fab.changes = s.fab.changes := rfl
@[simp] theorem State.setBank_fab_due (s : State) (i : Nat) (v : BankCfg) : (s.setBank i v).fab.due = s.fab.due := rfl
@[simp] theorem State.setBank_fab_loads (s : State) (i : Nat) (v : BankCfg) : (s.setBank i v).fab.loads = s.fab.loads := rfl
@[simp] theorem State.setBank_fab_reqs (s : State) (i : Nat) (v : BankCfg) : (s.setBank i v).fab.reqs = s.fab.reqs := rfl
@[simp] theorem State.setBank_fab_nextReq (s : State) (i : Nat) (v : BankCfg) : (s.setBank i v).fab.nextReq = s.fab.nextReq := rfl
@[simp] theorem State.setBank_fab_loadsThisFrame (s : State) (i : Nat) (v : BankCfg) : (s.setBank i v).fab.loadsThisFrame = s.fab.loadsThisFrame := rfl
@[simp] theorem State.setBank_fab_switches (s : State) (i : Nat) (v : BankCfg) : (s.setBank i v).fab.switches = s.fab.switches := rfl
@[simp] theorem State.setBank_fab_remapped (s : State) (i : Nat) (v : BankCfg) : (s.setBank i v).fab.remapped = s.fab.remapped := rfl

/-! ### modNode -/

@[simp] theorem State.modNode_pkg (s : State) (n : Nat) (f : NodeSt → NodeSt) : (s.modNode n f).pkg = s.pkg := rfl
@[simp] theorem State.modNode_clk (s : State) (n : Nat) (f : NodeSt → NodeSt) : (s.modNode n f).clk = s.clk := rfl
@[simp] theorem State.modNode_frame (s : State) (n : Nat) (f : NodeSt → NodeSt) : (s.modNode n f).frame = s.frame := rfl
@[simp] theorem State.modNode_modes (s : State) (n : Nat) (f : NodeSt → NodeSt) : (s.modNode n f).modes = s.modes := rfl
@[simp] theorem State.modNode_fab (s : State) (n : Nat) (f : NodeSt → NodeSt) : (s.modNode n f).fab = s.fab := rfl
@[simp] theorem State.modNode_ports (s : State) (n : Nat) (f : NodeSt → NodeSt) : (s.modNode n f).ports = s.ports := rfl
@[simp] theorem State.modNode_xbar (s : State) (n : Nat) (f : NodeSt → NodeSt) : (s.modNode n f).xbar = s.xbar := rfl
@[simp] theorem State.modNode_queues (s : State) (n : Nat) (f : NodeSt → NodeSt) : (s.modNode n f).queues = s.queues := rfl
@[simp] theorem State.modNode_engines (s : State) (n : Nat) (f : NodeSt → NodeSt) : (s.modNode n f).engines = s.engines := rfl
@[simp] theorem State.modNode_flows (s : State) (n : Nat) (f : NodeSt → NodeSt) : (s.modNode n f).flows = s.flows := rfl
@[simp] theorem State.modNode_mem (s : State) (n : Nat) (f : NodeSt → NodeSt) : (s.modNode n f).mem = s.mem := rfl
@[simp] theorem State.modNode_crypto (s : State) (n : Nat) (f : NodeSt → NodeSt) : (s.modNode n f).crypto = s.crypto := rfl
@[simp] theorem State.modNode_cfg (s : State) (n : Nat) (f : NodeSt → NodeSt) : (s.modNode n f).cfg = s.cfg := rfl
@[simp] theorem State.modNode_shelf (s : State) (n : Nat) (f : NodeSt → NodeSt) : (s.modNode n f).shelf = s.shelf := rfl
@[simp] theorem State.modNode_stock (s : State) (n : Nat) (f : NodeSt → NodeSt) : (s.modNode n f).stock = s.stock := rfl
@[simp] theorem State.modNode_pwr (s : State) (n : Nat) (f : NodeSt → NodeSt) : (s.modNode n f).pwr = s.pwr := rfl
@[simp] theorem State.modNode_regs (s : State) (n : Nat) (f : NodeSt → NodeSt) : (s.modNode n f).regs = s.regs := rfl
@[simp] theorem State.modNode_desk (s : State) (n : Nat) (f : NodeSt → NodeSt) : (s.modNode n f).desk = s.desk := rfl
@[simp] theorem State.modNode_slips (s : State) (n : Nat) (f : NodeSt → NodeSt) : (s.modNode n f).slips = s.slips := rfl
@[simp] theorem State.modNode_log (s : State) (n : Nat) (f : NodeSt → NodeSt) : (s.modNode n f).log = s.log := rfl
@[simp] theorem State.modNode_tap (s : State) (n : Nat) (f : NodeSt → NodeSt) : (s.modNode n f).tap = s.tap := rfl
@[simp] theorem State.modNode_pending (s : State) (n : Nat) (f : NodeSt → NodeSt) : (s.modNode n f).pending = s.pending := rfl
@[simp] theorem State.modNode_thm_boundary (s : State) (n : Nat) (f : NodeSt → NodeSt) : (s.modNode n f).thm.boundary = s.thm.boundary := rfl
@[simp] theorem State.modNode_thm_boundaryStale (s : State) (n : Nat) (f : NodeSt → NodeSt) : (s.modNode n f).thm.boundaryStale = s.thm.boundaryStale := rfl
@[simp] theorem State.modNode_thm_timer (s : State) (n : Nat) (f : NodeSt → NodeSt) : (s.modNode n f).thm.timer = s.thm.timer := rfl
@[simp] theorem State.modNode_thm_param (s : State) (n : Nat) (f : NodeSt → NodeSt) : (s.modNode n f).thm.param = s.thm.param := rfl
@[simp] theorem State.modNode_thm_paramNext (s : State) (n : Nat) (f : NodeSt → NodeSt) : (s.modNode n f).thm.paramNext = s.thm.paramNext := rfl
@[simp] theorem State.modNode_thm_event (s : State) (n : Nat) (f : NodeSt → NodeSt) : (s.modNode n f).thm.event = s.thm.event := rfl
@[simp] theorem State.modNode_thm_updates (s : State) (n : Nat) (f : NodeSt → NodeSt) : (s.modNode n f).thm.updates = s.thm.updates := rfl
@[simp] theorem State.modNode_thm_bandPend (s : State) (n : Nat) (f : NodeSt → NodeSt) : (s.modNode n f).thm.bandPend = s.thm.bandPend := rfl
@[simp] theorem State.modNode_thm_faultPend (s : State) (n : Nat) (f : NodeSt → NodeSt) : (s.modNode n f).thm.faultPend = s.thm.faultPend := rfl
@[simp] theorem State.modNode_thm_before (s : State) (n : Nat) (f : NodeSt → NodeSt) : (s.modNode n f).thm.before = s.thm.before := rfl
@[simp] theorem State.modNode_thm_dtNs (s : State) (n : Nat) (f : NodeSt → NodeSt) : (s.modNode n f).thm.dtNs = s.thm.dtNs := rfl
@[simp] theorem State.modNode_thm_dtLost (s : State) (n : Nat) (f : NodeSt → NodeSt) : (s.modNode n f).thm.dtLost = s.thm.dtLost := rfl

/-! ### modVol -/

@[simp] theorem State.modVol_pkg (s : State) (v : Nat) (f : VolSt → VolSt) : (s.modVol v f).pkg = s.pkg := rfl
@[simp] theorem State.modVol_clk (s : State) (v : Nat) (f : VolSt → VolSt) : (s.modVol v f).clk = s.clk := rfl
@[simp] theorem State.modVol_frame (s : State) (v : Nat) (f : VolSt → VolSt) : (s.modVol v f).frame = s.frame := rfl
@[simp] theorem State.modVol_modes (s : State) (v : Nat) (f : VolSt → VolSt) : (s.modVol v f).modes = s.modes := rfl
@[simp] theorem State.modVol_fab (s : State) (v : Nat) (f : VolSt → VolSt) : (s.modVol v f).fab = s.fab := rfl
@[simp] theorem State.modVol_ports (s : State) (v : Nat) (f : VolSt → VolSt) : (s.modVol v f).ports = s.ports := rfl
@[simp] theorem State.modVol_xbar (s : State) (v : Nat) (f : VolSt → VolSt) : (s.modVol v f).xbar = s.xbar := rfl
@[simp] theorem State.modVol_queues (s : State) (v : Nat) (f : VolSt → VolSt) : (s.modVol v f).queues = s.queues := rfl
@[simp] theorem State.modVol_engines (s : State) (v : Nat) (f : VolSt → VolSt) : (s.modVol v f).engines = s.engines := rfl
@[simp] theorem State.modVol_flows (s : State) (v : Nat) (f : VolSt → VolSt) : (s.modVol v f).flows = s.flows := rfl
@[simp] theorem State.modVol_mem (s : State) (v : Nat) (f : VolSt → VolSt) : (s.modVol v f).mem = s.mem := rfl
@[simp] theorem State.modVol_cfg (s : State) (v : Nat) (f : VolSt → VolSt) : (s.modVol v f).cfg = s.cfg := rfl
@[simp] theorem State.modVol_shelf (s : State) (v : Nat) (f : VolSt → VolSt) : (s.modVol v f).shelf = s.shelf := rfl
@[simp] theorem State.modVol_stock (s : State) (v : Nat) (f : VolSt → VolSt) : (s.modVol v f).stock = s.stock := rfl
@[simp] theorem State.modVol_pwr (s : State) (v : Nat) (f : VolSt → VolSt) : (s.modVol v f).pwr = s.pwr := rfl
@[simp] theorem State.modVol_thm (s : State) (v : Nat) (f : VolSt → VolSt) : (s.modVol v f).thm = s.thm := rfl
@[simp] theorem State.modVol_regs (s : State) (v : Nat) (f : VolSt → VolSt) : (s.modVol v f).regs = s.regs := rfl
@[simp] theorem State.modVol_desk (s : State) (v : Nat) (f : VolSt → VolSt) : (s.modVol v f).desk = s.desk := rfl
@[simp] theorem State.modVol_slips (s : State) (v : Nat) (f : VolSt → VolSt) : (s.modVol v f).slips = s.slips := rfl
@[simp] theorem State.modVol_log (s : State) (v : Nat) (f : VolSt → VolSt) : (s.modVol v f).log = s.log := rfl
@[simp] theorem State.modVol_tap (s : State) (v : Nat) (f : VolSt → VolSt) : (s.modVol v f).tap = s.tap := rfl
@[simp] theorem State.modVol_pending (s : State) (v : Nat) (f : VolSt → VolSt) : (s.modVol v f).pending = s.pending := rfl
@[simp] theorem State.modVol_crypto_nodes (s : State) (v : Nat) (f : VolSt → VolSt) : (s.modVol v f).crypto.nodes = s.crypto.nodes := rfl
@[simp] theorem State.modVol_crypto_cache (s : State) (v : Nat) (f : VolSt → VolSt) : (s.modVol v f).crypto.cache = s.crypto.cache := rfl
@[simp] theorem State.modVol_crypto_rekeyOrder (s : State) (v : Nat) (f : VolSt → VolSt) : (s.modVol v f).crypto.rekeyOrder = s.crypto.rekeyOrder := rfl
@[simp] theorem State.modVol_crypto_held (s : State) (v : Nat) (f : VolSt → VolSt) : (s.modVol v f).crypto.held = s.crypto.held := rfl
@[simp] theorem State.modVol_crypto_keyCount (s : State) (v : Nat) (f : VolSt → VolSt) : (s.modVol v f).crypto.keyCount = s.crypto.keyCount := rfl
@[simp] theorem State.modVol_crypto_rngOk (s : State) (v : Nat) (f : VolSt → VolSt) : (s.modVol v f).crypto.rngOk = s.crypto.rngOk := rfl
@[simp] theorem State.modVol_crypto_rngFail (s : State) (v : Nat) (f : VolSt → VolSt) : (s.modVol v f).crypto.rngFail = s.crypto.rngFail := rfl
@[simp] theorem State.modVol_crypto_overflows (s : State) (v : Nat) (f : VolSt → VolSt) : (s.modVol v f).crypto.overflows = s.crypto.overflows := rfl
@[simp] theorem State.modVol_crypto_misses (s : State) (v : Nat) (f : VolSt → VolSt) : (s.modVol v f).crypto.misses = s.crypto.misses := rfl
@[simp] theorem State.modVol_crypto_writebacks (s : State) (v : Nat) (f : VolSt → VolSt) : (s.modVol v f).crypto.writebacks = s.crypto.writebacks := rfl
@[simp] theorem State.modVol_crypto_ledgerCe (s : State) (v : Nat) (f : VolSt → VolSt) : (s.modVol v f).crypto.ledgerCe = s.crypto.ledgerCe := rfl
@[simp] theorem State.modVol_crypto_poisoned (s : State) (v : Nat) (f : VolSt → VolSt) : (s.modVol v f).crypto.poisoned = s.crypto.poisoned := rfl
@[simp] theorem State.modVol_crypto_ledgerLog (s : State) (v : Nat) (f : VolSt → VolSt) : (s.modVol v f).crypto.ledgerLog = s.crypto.ledgerLog := rfl
@[simp] theorem State.modVol_crypto_authData (s : State) (v : Nat) (f : VolSt → VolSt) : (s.modVol v f).crypto.authData = s.crypto.authData := rfl
@[simp] theorem State.modVol_crypto_authLedger (s : State) (v : Nat) (f : VolSt → VolSt) : (s.modVol v f).crypto.authLedger = s.crypto.authLedger := rfl
@[simp] theorem State.modVol_crypto_macFailLog (s : State) (v : Nat) (f : VolSt → VolSt) : (s.modVol v f).crypto.macFailLog = s.crypto.macFailLog := rfl
@[simp] theorem State.modVol_crypto_denyMaster (s : State) (v : Nat) (f : VolSt → VolSt) : (s.modVol v f).crypto.denyMaster = s.crypto.denyMaster := rfl
@[simp] theorem State.modVol_crypto_denyVolume (s : State) (v : Nat) (f : VolSt → VolSt) : (s.modVol v f).crypto.denyVolume = s.crypto.denyVolume := rfl
@[simp] theorem State.modVol_crypto_denyCount (s : State) (v : Nat) (f : VolSt → VolSt) : (s.modVol v f).crypto.denyCount = s.crypto.denyCount := rfl
@[simp] theorem State.modVol_crypto_rights (s : State) (v : Nat) (f : VolSt → VolSt) : (s.modVol v f).crypto.rights = s.crypto.rights := rfl

/-! ### modLedger -/

@[simp] theorem State.modLedger_pkg (s : State) (k : Nat) (f : LedgerNode → LedgerNode) : (s.modLedger k f).pkg = s.pkg := rfl
@[simp] theorem State.modLedger_clk (s : State) (k : Nat) (f : LedgerNode → LedgerNode) : (s.modLedger k f).clk = s.clk := rfl
@[simp] theorem State.modLedger_frame (s : State) (k : Nat) (f : LedgerNode → LedgerNode) : (s.modLedger k f).frame = s.frame := rfl
@[simp] theorem State.modLedger_modes (s : State) (k : Nat) (f : LedgerNode → LedgerNode) : (s.modLedger k f).modes = s.modes := rfl
@[simp] theorem State.modLedger_fab (s : State) (k : Nat) (f : LedgerNode → LedgerNode) : (s.modLedger k f).fab = s.fab := rfl
@[simp] theorem State.modLedger_ports (s : State) (k : Nat) (f : LedgerNode → LedgerNode) : (s.modLedger k f).ports = s.ports := rfl
@[simp] theorem State.modLedger_xbar (s : State) (k : Nat) (f : LedgerNode → LedgerNode) : (s.modLedger k f).xbar = s.xbar := rfl
@[simp] theorem State.modLedger_queues (s : State) (k : Nat) (f : LedgerNode → LedgerNode) : (s.modLedger k f).queues = s.queues := rfl
@[simp] theorem State.modLedger_engines (s : State) (k : Nat) (f : LedgerNode → LedgerNode) : (s.modLedger k f).engines = s.engines := rfl
@[simp] theorem State.modLedger_flows (s : State) (k : Nat) (f : LedgerNode → LedgerNode) : (s.modLedger k f).flows = s.flows := rfl
@[simp] theorem State.modLedger_mem (s : State) (k : Nat) (f : LedgerNode → LedgerNode) : (s.modLedger k f).mem = s.mem := rfl
@[simp] theorem State.modLedger_cfg (s : State) (k : Nat) (f : LedgerNode → LedgerNode) : (s.modLedger k f).cfg = s.cfg := rfl
@[simp] theorem State.modLedger_shelf (s : State) (k : Nat) (f : LedgerNode → LedgerNode) : (s.modLedger k f).shelf = s.shelf := rfl
@[simp] theorem State.modLedger_stock (s : State) (k : Nat) (f : LedgerNode → LedgerNode) : (s.modLedger k f).stock = s.stock := rfl
@[simp] theorem State.modLedger_pwr (s : State) (k : Nat) (f : LedgerNode → LedgerNode) : (s.modLedger k f).pwr = s.pwr := rfl
@[simp] theorem State.modLedger_thm (s : State) (k : Nat) (f : LedgerNode → LedgerNode) : (s.modLedger k f).thm = s.thm := rfl
@[simp] theorem State.modLedger_regs (s : State) (k : Nat) (f : LedgerNode → LedgerNode) : (s.modLedger k f).regs = s.regs := rfl
@[simp] theorem State.modLedger_desk (s : State) (k : Nat) (f : LedgerNode → LedgerNode) : (s.modLedger k f).desk = s.desk := rfl
@[simp] theorem State.modLedger_slips (s : State) (k : Nat) (f : LedgerNode → LedgerNode) : (s.modLedger k f).slips = s.slips := rfl
@[simp] theorem State.modLedger_log (s : State) (k : Nat) (f : LedgerNode → LedgerNode) : (s.modLedger k f).log = s.log := rfl
@[simp] theorem State.modLedger_tap (s : State) (k : Nat) (f : LedgerNode → LedgerNode) : (s.modLedger k f).tap = s.tap := rfl
@[simp] theorem State.modLedger_pending (s : State) (k : Nat) (f : LedgerNode → LedgerNode) : (s.modLedger k f).pending = s.pending := rfl
@[simp] theorem State.modLedger_crypto_cache (s : State) (k : Nat) (f : LedgerNode → LedgerNode) : (s.modLedger k f).crypto.cache = s.crypto.cache := rfl
@[simp] theorem State.modLedger_crypto_vols (s : State) (k : Nat) (f : LedgerNode → LedgerNode) : (s.modLedger k f).crypto.vols = s.crypto.vols := rfl
@[simp] theorem State.modLedger_crypto_rekeyOrder (s : State) (k : Nat) (f : LedgerNode → LedgerNode) : (s.modLedger k f).crypto.rekeyOrder = s.crypto.rekeyOrder := rfl
@[simp] theorem State.modLedger_crypto_held (s : State) (k : Nat) (f : LedgerNode → LedgerNode) : (s.modLedger k f).crypto.held = s.crypto.held := rfl
@[simp] theorem State.modLedger_crypto_keyCount (s : State) (k : Nat) (f : LedgerNode → LedgerNode) : (s.modLedger k f).crypto.keyCount = s.crypto.keyCount := rfl
@[simp] theorem State.modLedger_crypto_rngOk (s : State) (k : Nat) (f : LedgerNode → LedgerNode) : (s.modLedger k f).crypto.rngOk = s.crypto.rngOk := rfl
@[simp] theorem State.modLedger_crypto_rngFail (s : State) (k : Nat) (f : LedgerNode → LedgerNode) : (s.modLedger k f).crypto.rngFail = s.crypto.rngFail := rfl
@[simp] theorem State.modLedger_crypto_overflows (s : State) (k : Nat) (f : LedgerNode → LedgerNode) : (s.modLedger k f).crypto.overflows = s.crypto.overflows := rfl
@[simp] theorem State.modLedger_crypto_misses (s : State) (k : Nat) (f : LedgerNode → LedgerNode) : (s.modLedger k f).crypto.misses = s.crypto.misses := rfl
@[simp] theorem State.modLedger_crypto_writebacks (s : State) (k : Nat) (f : LedgerNode → LedgerNode) : (s.modLedger k f).crypto.writebacks = s.crypto.writebacks := rfl
@[simp] theorem State.modLedger_crypto_ledgerCe (s : State) (k : Nat) (f : LedgerNode → LedgerNode) : (s.modLedger k f).crypto.ledgerCe = s.crypto.ledgerCe := rfl
@[simp] theorem State.modLedger_crypto_poisoned (s : State) (k : Nat) (f : LedgerNode → LedgerNode) : (s.modLedger k f).crypto.poisoned = s.crypto.poisoned := rfl
@[simp] theorem State.modLedger_crypto_ledgerLog (s : State) (k : Nat) (f : LedgerNode → LedgerNode) : (s.modLedger k f).crypto.ledgerLog = s.crypto.ledgerLog := rfl
@[simp] theorem State.modLedger_crypto_authData (s : State) (k : Nat) (f : LedgerNode → LedgerNode) : (s.modLedger k f).crypto.authData = s.crypto.authData := rfl
@[simp] theorem State.modLedger_crypto_authLedger (s : State) (k : Nat) (f : LedgerNode → LedgerNode) : (s.modLedger k f).crypto.authLedger = s.crypto.authLedger := rfl
@[simp] theorem State.modLedger_crypto_macFailLog (s : State) (k : Nat) (f : LedgerNode → LedgerNode) : (s.modLedger k f).crypto.macFailLog = s.crypto.macFailLog := rfl
@[simp] theorem State.modLedger_crypto_denyMaster (s : State) (k : Nat) (f : LedgerNode → LedgerNode) : (s.modLedger k f).crypto.denyMaster = s.crypto.denyMaster := rfl
@[simp] theorem State.modLedger_crypto_denyVolume (s : State) (k : Nat) (f : LedgerNode → LedgerNode) : (s.modLedger k f).crypto.denyVolume = s.crypto.denyVolume := rfl
@[simp] theorem State.modLedger_crypto_denyCount (s : State) (k : Nat) (f : LedgerNode → LedgerNode) : (s.modLedger k f).crypto.denyCount = s.crypto.denyCount := rfl
@[simp] theorem State.modLedger_crypto_rights (s : State) (k : Nat) (f : LedgerNode → LedgerNode) : (s.modLedger k f).crypto.rights = s.crypto.rights := rfl

/-! ### modSlice -/

@[simp] theorem State.modSlice_pkg (s : State) (k : Nat) (f : SliceSt → SliceSt) : (s.modSlice k f).pkg = s.pkg := rfl
@[simp] theorem State.modSlice_clk (s : State) (k : Nat) (f : SliceSt → SliceSt) : (s.modSlice k f).clk = s.clk := rfl
@[simp] theorem State.modSlice_frame (s : State) (k : Nat) (f : SliceSt → SliceSt) : (s.modSlice k f).frame = s.frame := rfl
@[simp] theorem State.modSlice_modes (s : State) (k : Nat) (f : SliceSt → SliceSt) : (s.modSlice k f).modes = s.modes := rfl
@[simp] theorem State.modSlice_fab (s : State) (k : Nat) (f : SliceSt → SliceSt) : (s.modSlice k f).fab = s.fab := rfl
@[simp] theorem State.modSlice_ports (s : State) (k : Nat) (f : SliceSt → SliceSt) : (s.modSlice k f).ports = s.ports := rfl
@[simp] theorem State.modSlice_xbar (s : State) (k : Nat) (f : SliceSt → SliceSt) : (s.modSlice k f).xbar = s.xbar := rfl
@[simp] theorem State.modSlice_queues (s : State) (k : Nat) (f : SliceSt → SliceSt) : (s.modSlice k f).queues = s.queues := rfl
@[simp] theorem State.modSlice_engines (s : State) (k : Nat) (f : SliceSt → SliceSt) : (s.modSlice k f).engines = s.engines := rfl
@[simp] theorem State.modSlice_flows (s : State) (k : Nat) (f : SliceSt → SliceSt) : (s.modSlice k f).flows = s.flows := rfl
@[simp] theorem State.modSlice_mem (s : State) (k : Nat) (f : SliceSt → SliceSt) : (s.modSlice k f).mem = s.mem := rfl
@[simp] theorem State.modSlice_crypto (s : State) (k : Nat) (f : SliceSt → SliceSt) : (s.modSlice k f).crypto = s.crypto := rfl
@[simp] theorem State.modSlice_cfg (s : State) (k : Nat) (f : SliceSt → SliceSt) : (s.modSlice k f).cfg = s.cfg := rfl
@[simp] theorem State.modSlice_shelf (s : State) (k : Nat) (f : SliceSt → SliceSt) : (s.modSlice k f).shelf = s.shelf := rfl
@[simp] theorem State.modSlice_pwr (s : State) (k : Nat) (f : SliceSt → SliceSt) : (s.modSlice k f).pwr = s.pwr := rfl
@[simp] theorem State.modSlice_thm (s : State) (k : Nat) (f : SliceSt → SliceSt) : (s.modSlice k f).thm = s.thm := rfl
@[simp] theorem State.modSlice_regs (s : State) (k : Nat) (f : SliceSt → SliceSt) : (s.modSlice k f).regs = s.regs := rfl
@[simp] theorem State.modSlice_desk (s : State) (k : Nat) (f : SliceSt → SliceSt) : (s.modSlice k f).desk = s.desk := rfl
@[simp] theorem State.modSlice_slips (s : State) (k : Nat) (f : SliceSt → SliceSt) : (s.modSlice k f).slips = s.slips := rfl
@[simp] theorem State.modSlice_log (s : State) (k : Nat) (f : SliceSt → SliceSt) : (s.modSlice k f).log = s.log := rfl
@[simp] theorem State.modSlice_tap (s : State) (k : Nat) (f : SliceSt → SliceSt) : (s.modSlice k f).tap = s.tap := rfl
@[simp] theorem State.modSlice_pending (s : State) (k : Nat) (f : SliceSt → SliceSt) : (s.modSlice k f).pending = s.pending := rfl
@[simp] theorem State.modSlice_stock_results (s : State) (k : Nat) (f : SliceSt → SliceSt) : (s.modSlice k f).stock.results = s.stock.results := rfl
@[simp] theorem State.modSlice_stock_inbox (s : State) (k : Nat) (f : SliceSt → SliceSt) : (s.modSlice k f).stock.inbox = s.stock.inbox := rfl
@[simp] theorem State.modSlice_stock_deskCycles (s : State) (k : Nat) (f : SliceSt → SliceSt) : (s.modSlice k f).stock.deskCycles = s.stock.deskCycles := rfl
@[simp] theorem State.modSlice_stock_declared (s : State) (k : Nat) (f : SliceSt → SliceSt) : (s.modSlice k f).stock.declared = s.stock.declared := rfl
@[simp] theorem State.modSlice_stock_policy (s : State) (k : Nat) (f : SliceSt → SliceSt) : (s.modSlice k f).stock.policy = s.stock.policy := rfl
@[simp] theorem State.modSlice_stock_noWindowTold (s : State) (k : Nat) (f : SliceSt → SliceSt) : (s.modSlice k f).stock.noWindowTold = s.stock.noWindowTold := rfl
@[simp] theorem State.modSlice_stock_lastRound (s : State) (k : Nat) (f : SliceSt → SliceSt) : (s.modSlice k f).stock.lastRound = s.stock.lastRound := rfl
@[simp] theorem State.modSlice_stock_roundFrames (s : State) (k : Nat) (f : SliceSt → SliceSt) : (s.modSlice k f).stock.roundFrames = s.stock.roundFrames := rfl
@[simp] theorem State.modSlice_stock_rounds (s : State) (k : Nat) (f : SliceSt → SliceSt) : (s.modSlice k f).stock.rounds = s.stock.rounds := rfl
@[simp] theorem State.modSlice_stock_slices (s : State) (k : Nat) (f : SliceSt → SliceSt) : (s.modSlice k f).stock.slices = s.stock.slices := rfl
@[simp] theorem State.modSlice_stock_discarded (s : State) (k : Nat) (f : SliceSt → SliceSt) : (s.modSlice k f).stock.discarded = s.stock.discarded := rfl
@[simp] theorem State.modSlice_stock_transient (s : State) (k : Nat) (f : SliceSt → SliceSt) : (s.modSlice k f).stock.transient = s.stock.transient := rfl
@[simp] theorem State.modSlice_stock_granted (s : State) (k : Nat) (f : SliceSt → SliceSt) : (s.modSlice k f).stock.granted = s.stock.granted := rfl
@[simp] theorem State.modSlice_stock_ran (s : State) (k : Nat) (f : SliceSt → SliceSt) : (s.modSlice k f).stock.ran = s.stock.ran := rfl
@[simp] theorem State.modSlice_stock_spoiled (s : State) (k : Nat) (f : SliceSt → SliceSt) : (s.modSlice k f).stock.spoiled = s.stock.spoiled := rfl
@[simp] theorem State.modSlice_stock_lastServed (s : State) (k : Nat) (f : SliceSt → SliceSt) : (s.modSlice k f).stock.lastServed = s.stock.lastServed := rfl
@[simp] theorem State.modSlice_stock_failLog (s : State) (k : Nat) (f : SliceSt → SliceSt) : (s.modSlice k f).stock.failLog = s.stock.failLog := rfl
@[simp] theorem State.modSlice_stock_failBit (s : State) (k : Nat) (f : SliceSt → SliceSt) : (s.modSlice k f).stock.failBit = s.stock.failBit := rfl
@[simp] theorem State.modSlice_stock_outcome (s : State) (k : Nat) (f : SliceSt → SliceSt) : (s.modSlice k f).stock.outcome = s.stock.outcome := rfl
@[simp] theorem State.modSlice_stock_failures (s : State) (k : Nat) (f : SliceSt → SliceSt) : (s.modSlice k f).stock.failures = s.stock.failures := rfl
@[simp] theorem State.modSlice_stock_condRails (s : State) (k : Nat) (f : SliceSt → SliceSt) : (s.modSlice k f).stock.condRails = s.stock.condRails := rfl
@[simp] theorem State.modSlice_stock_condVin (s : State) (k : Nat) (f : SliceSt → SliceSt) : (s.modSlice k f).stock.condVin = s.stock.condVin := rfl
@[simp] theorem State.modSlice_stock_condClock (s : State) (k : Nat) (f : SliceSt → SliceSt) : (s.modSlice k f).stock.condClock = s.stock.condClock := rfl
@[simp] theorem State.modSlice_stock_tests (s : State) (k : Nat) (f : SliceSt → SliceSt) : (s.modSlice k f).stock.tests = s.stock.tests := rfl
@[simp] theorem State.modSlice_stock_failedSpares (s : State) (k : Nat) (f : SliceSt → SliceSt) : (s.modSlice k f).stock.failedSpares = s.stock.failedSpares := rfl
@[simp] theorem State.modSlice_stock_rows (s : State) (k : Nat) (f : SliceSt → SliceSt) : (s.modSlice k f).stock.rows = s.stock.rows := rfl
@[simp] theorem State.modSlice_stock_columns (s : State) (k : Nat) (f : SliceSt → SliceSt) : (s.modSlice k f).stock.columns = s.stock.columns := rfl
@[simp] theorem State.modSlice_stock_pendRemaps (s : State) (k : Nat) (f : SliceSt → SliceSt) : (s.modSlice k f).stock.pendRemaps = s.stock.pendRemaps := rfl
@[simp] theorem State.modSlice_stock_record (s : State) (k : Nat) (f : SliceSt → SliceSt) : (s.modSlice k f).stock.record = s.stock.record := rfl
@[simp] theorem State.modSlice_stock_recordSeq (s : State) (k : Nat) (f : SliceSt → SliceSt) : (s.modSlice k f).stock.recordSeq = s.stock.recordSeq := rfl
@[simp] theorem State.modSlice_stock_recordWrite (s : State) (k : Nat) (f : SliceSt → SliceSt) : (s.modSlice k f).stock.recordWrite = s.stock.recordWrite := rfl

/-! ### modChan -/

@[simp] theorem State.modChan_pkg (s : State) (ch : Nat) (f : ChanSt → ChanSt) : (s.modChan ch f).pkg = s.pkg := rfl
@[simp] theorem State.modChan_clk (s : State) (ch : Nat) (f : ChanSt → ChanSt) : (s.modChan ch f).clk = s.clk := rfl
@[simp] theorem State.modChan_frame (s : State) (ch : Nat) (f : ChanSt → ChanSt) : (s.modChan ch f).frame = s.frame := rfl
@[simp] theorem State.modChan_modes (s : State) (ch : Nat) (f : ChanSt → ChanSt) : (s.modChan ch f).modes = s.modes := rfl
@[simp] theorem State.modChan_fab (s : State) (ch : Nat) (f : ChanSt → ChanSt) : (s.modChan ch f).fab = s.fab := rfl
@[simp] theorem State.modChan_ports (s : State) (ch : Nat) (f : ChanSt → ChanSt) : (s.modChan ch f).ports = s.ports := rfl
@[simp] theorem State.modChan_xbar (s : State) (ch : Nat) (f : ChanSt → ChanSt) : (s.modChan ch f).xbar = s.xbar := rfl
@[simp] theorem State.modChan_queues (s : State) (ch : Nat) (f : ChanSt → ChanSt) : (s.modChan ch f).queues = s.queues := rfl
@[simp] theorem State.modChan_engines (s : State) (ch : Nat) (f : ChanSt → ChanSt) : (s.modChan ch f).engines = s.engines := rfl
@[simp] theorem State.modChan_flows (s : State) (ch : Nat) (f : ChanSt → ChanSt) : (s.modChan ch f).flows = s.flows := rfl
@[simp] theorem State.modChan_mem (s : State) (ch : Nat) (f : ChanSt → ChanSt) : (s.modChan ch f).mem = s.mem := rfl
@[simp] theorem State.modChan_crypto (s : State) (ch : Nat) (f : ChanSt → ChanSt) : (s.modChan ch f).crypto = s.crypto := rfl
@[simp] theorem State.modChan_cfg (s : State) (ch : Nat) (f : ChanSt → ChanSt) : (s.modChan ch f).cfg = s.cfg := rfl
@[simp] theorem State.modChan_shelf (s : State) (ch : Nat) (f : ChanSt → ChanSt) : (s.modChan ch f).shelf = s.shelf := rfl
@[simp] theorem State.modChan_stock (s : State) (ch : Nat) (f : ChanSt → ChanSt) : (s.modChan ch f).stock = s.stock := rfl
@[simp] theorem State.modChan_pwr (s : State) (ch : Nat) (f : ChanSt → ChanSt) : (s.modChan ch f).pwr = s.pwr := rfl
@[simp] theorem State.modChan_thm (s : State) (ch : Nat) (f : ChanSt → ChanSt) : (s.modChan ch f).thm = s.thm := rfl
@[simp] theorem State.modChan_regs (s : State) (ch : Nat) (f : ChanSt → ChanSt) : (s.modChan ch f).regs = s.regs := rfl
@[simp] theorem State.modChan_desk (s : State) (ch : Nat) (f : ChanSt → ChanSt) : (s.modChan ch f).desk = s.desk := rfl
@[simp] theorem State.modChan_log (s : State) (ch : Nat) (f : ChanSt → ChanSt) : (s.modChan ch f).log = s.log := rfl
@[simp] theorem State.modChan_tap (s : State) (ch : Nat) (f : ChanSt → ChanSt) : (s.modChan ch f).tap = s.tap := rfl
@[simp] theorem State.modChan_pending (s : State) (ch : Nat) (f : ChanSt → ChanSt) : (s.modChan ch f).pending = s.pending := rfl
@[simp] theorem State.modChan_slips_rings (s : State) (ch : Nat) (f : ChanSt → ChanSt) : (s.modChan ch f).slips.rings = s.slips.rings := rfl
@[simp] theorem State.modChan_slips_sbBuffer (s : State) (ch : Nat) (f : ChanSt → ChanSt) : (s.modChan ch f).slips.sbBuffer = s.slips.sbBuffer := rfl
@[simp] theorem State.modChan_slips_sbQueue (s : State) (ch : Nat) (f : ChanSt → ChanSt) : (s.modChan ch f).slips.sbQueue = s.slips.sbQueue := rfl
@[simp] theorem State.modChan_slips_sbExecuted (s : State) (ch : Nat) (f : ChanSt → ChanSt) : (s.modChan ch f).slips.sbExecuted = s.slips.sbExecuted := rfl
@[simp] theorem State.modChan_slips_sbLengthExcess (s : State) (ch : Nat) (f : ChanSt → ChanSt) : (s.modChan ch f).slips.sbLengthExcess = s.slips.sbLengthExcess := rfl
@[simp] theorem State.modChan_slips_sbQuiet (s : State) (ch : Nat) (f : ChanSt → ChanSt) : (s.modChan ch f).slips.sbQuiet = s.slips.sbQuiet := rfl
@[simp] theorem State.modChan_slips_sbAck (s : State) (ch : Nat) (f : ChanSt → ChanSt) : (s.modChan ch f).slips.sbAck = s.slips.sbAck := rfl
@[simp] theorem State.modChan_slips_sbData (s : State) (ch : Nat) (f : ChanSt → ChanSt) : (s.modChan ch f).slips.sbData = s.slips.sbData := rfl
@[simp] theorem State.modChan_slips_inEnabled (s : State) (ch : Nat) (f : ChanSt → ChanSt) : (s.modChan ch f).slips.inEnabled = s.slips.inEnabled := rfl
@[simp] theorem State.modChan_slips_fIn (s : State) (ch : Nat) (f : ChanSt → ChanSt) : (s.modChan ch f).slips.fIn = s.slips.fIn := rfl
@[simp] theorem State.modChan_slips_fOut (s : State) (ch : Nat) (f : ChanSt → ChanSt) : (s.modChan ch f).slips.fOut = s.slips.fOut := rfl
@[simp] theorem State.modChan_slips_qIn (s : State) (ch : Nat) (f : ChanSt → ChanSt) : (s.modChan ch f).slips.qIn = s.slips.qIn := rfl
@[simp] theorem State.modChan_slips_qOut (s : State) (ch : Nat) (f : ChanSt → ChanSt) : (s.modChan ch f).slips.qOut = s.slips.qOut := rfl
@[simp] theorem State.modChan_slips_inQueue (s : State) (ch : Nat) (f : ChanSt → ChanSt) : (s.modChan ch f).slips.inQueue = s.slips.inQueue := rfl
@[simp] theorem State.modChan_slips_started (s : State) (ch : Nat) (f : ChanSt → ChanSt) : (s.modChan ch f).slips.started = s.slips.started := rfl
@[simp] theorem State.modChan_slips_sbStarted (s : State) (ch : Nat) (f : ChanSt → ChanSt) : (s.modChan ch f).slips.sbStarted = s.slips.sbStarted := rfl
@[simp] theorem State.modChan_slips_cycles (s : State) (ch : Nat) (f : ChanSt → ChanSt) : (s.modChan ch f).slips.cycles = s.slips.cycles := rfl
@[simp] theorem State.modChan_slips_served (s : State) (ch : Nat) (f : ChanSt → ChanSt) : (s.modChan ch f).slips.served = s.slips.served := rfl
@[simp] theorem State.modChan_slips_prevStarted (s : State) (ch : Nat) (f : ChanSt → ChanSt) : (s.modChan ch f).slips.prevStarted = s.slips.prevStarted := rfl
@[simp] theorem State.modChan_slips_prevSb (s : State) (ch : Nat) (f : ChanSt → ChanSt) : (s.modChan ch f).slips.prevSb = s.slips.prevSb := rfl
@[simp] theorem State.modChan_slips_prevCycles (s : State) (ch : Nat) (f : ChanSt → ChanSt) : (s.modChan ch f).slips.prevCycles = s.slips.prevCycles := rfl
@[simp] theorem State.modChan_slips_replayed (s : State) (ch : Nat) (f : ChanSt → ChanSt) : (s.modChan ch f).slips.replayed = s.slips.replayed := rfl
@[simp] theorem State.modChan_slips_reexecuted (s : State) (ch : Nat) (f : ChanSt → ChanSt) : (s.modChan ch f).slips.reexecuted = s.slips.reexecuted := rfl
@[simp] theorem State.modChan_slips_lastCh (s : State) (ch : Nat) (f : ChanSt → ChanSt) : (s.modChan ch f).slips.lastCh = s.slips.lastCh := rfl
@[simp] theorem State.modChan_slips_lastSeq (s : State) (ch : Nat) (f : ChanSt → ChanSt) : (s.modChan ch f).slips.lastSeq = s.slips.lastSeq := rfl
@[simp] theorem State.modChan_slips_msix (s : State) (ch : Nat) (f : ChanSt → ChanSt) : (s.modChan ch f).slips.msix = s.slips.msix := rfl

/-! ### modRing -/

@[simp] theorem State.modRing_pkg (s : State) (n : Nat) (f : RingSt → RingSt) : (s.modRing n f).pkg = s.pkg := rfl
@[simp] theorem State.modRing_clk (s : State) (n : Nat) (f : RingSt → RingSt) : (s.modRing n f).clk = s.clk := rfl
@[simp] theorem State.modRing_frame (s : State) (n : Nat) (f : RingSt → RingSt) : (s.modRing n f).frame = s.frame := rfl
@[simp] theorem State.modRing_modes (s : State) (n : Nat) (f : RingSt → RingSt) : (s.modRing n f).modes = s.modes := rfl
@[simp] theorem State.modRing_fab (s : State) (n : Nat) (f : RingSt → RingSt) : (s.modRing n f).fab = s.fab := rfl
@[simp] theorem State.modRing_ports (s : State) (n : Nat) (f : RingSt → RingSt) : (s.modRing n f).ports = s.ports := rfl
@[simp] theorem State.modRing_xbar (s : State) (n : Nat) (f : RingSt → RingSt) : (s.modRing n f).xbar = s.xbar := rfl
@[simp] theorem State.modRing_queues (s : State) (n : Nat) (f : RingSt → RingSt) : (s.modRing n f).queues = s.queues := rfl
@[simp] theorem State.modRing_engines (s : State) (n : Nat) (f : RingSt → RingSt) : (s.modRing n f).engines = s.engines := rfl
@[simp] theorem State.modRing_flows (s : State) (n : Nat) (f : RingSt → RingSt) : (s.modRing n f).flows = s.flows := rfl
@[simp] theorem State.modRing_mem (s : State) (n : Nat) (f : RingSt → RingSt) : (s.modRing n f).mem = s.mem := rfl
@[simp] theorem State.modRing_crypto (s : State) (n : Nat) (f : RingSt → RingSt) : (s.modRing n f).crypto = s.crypto := rfl
@[simp] theorem State.modRing_cfg (s : State) (n : Nat) (f : RingSt → RingSt) : (s.modRing n f).cfg = s.cfg := rfl
@[simp] theorem State.modRing_shelf (s : State) (n : Nat) (f : RingSt → RingSt) : (s.modRing n f).shelf = s.shelf := rfl
@[simp] theorem State.modRing_stock (s : State) (n : Nat) (f : RingSt → RingSt) : (s.modRing n f).stock = s.stock := rfl
@[simp] theorem State.modRing_pwr (s : State) (n : Nat) (f : RingSt → RingSt) : (s.modRing n f).pwr = s.pwr := rfl
@[simp] theorem State.modRing_thm (s : State) (n : Nat) (f : RingSt → RingSt) : (s.modRing n f).thm = s.thm := rfl
@[simp] theorem State.modRing_regs (s : State) (n : Nat) (f : RingSt → RingSt) : (s.modRing n f).regs = s.regs := rfl
@[simp] theorem State.modRing_desk (s : State) (n : Nat) (f : RingSt → RingSt) : (s.modRing n f).desk = s.desk := rfl
@[simp] theorem State.modRing_log (s : State) (n : Nat) (f : RingSt → RingSt) : (s.modRing n f).log = s.log := rfl
@[simp] theorem State.modRing_tap (s : State) (n : Nat) (f : RingSt → RingSt) : (s.modRing n f).tap = s.tap := rfl
@[simp] theorem State.modRing_pending (s : State) (n : Nat) (f : RingSt → RingSt) : (s.modRing n f).pending = s.pending := rfl
@[simp] theorem State.modRing_slips_chans (s : State) (n : Nat) (f : RingSt → RingSt) : (s.modRing n f).slips.chans = s.slips.chans := rfl
@[simp] theorem State.modRing_slips_sbBuffer (s : State) (n : Nat) (f : RingSt → RingSt) : (s.modRing n f).slips.sbBuffer = s.slips.sbBuffer := rfl
@[simp] theorem State.modRing_slips_sbQueue (s : State) (n : Nat) (f : RingSt → RingSt) : (s.modRing n f).slips.sbQueue = s.slips.sbQueue := rfl
@[simp] theorem State.modRing_slips_sbExecuted (s : State) (n : Nat) (f : RingSt → RingSt) : (s.modRing n f).slips.sbExecuted = s.slips.sbExecuted := rfl
@[simp] theorem State.modRing_slips_sbLengthExcess (s : State) (n : Nat) (f : RingSt → RingSt) : (s.modRing n f).slips.sbLengthExcess = s.slips.sbLengthExcess := rfl
@[simp] theorem State.modRing_slips_sbQuiet (s : State) (n : Nat) (f : RingSt → RingSt) : (s.modRing n f).slips.sbQuiet = s.slips.sbQuiet := rfl
@[simp] theorem State.modRing_slips_sbAck (s : State) (n : Nat) (f : RingSt → RingSt) : (s.modRing n f).slips.sbAck = s.slips.sbAck := rfl
@[simp] theorem State.modRing_slips_sbData (s : State) (n : Nat) (f : RingSt → RingSt) : (s.modRing n f).slips.sbData = s.slips.sbData := rfl
@[simp] theorem State.modRing_slips_inEnabled (s : State) (n : Nat) (f : RingSt → RingSt) : (s.modRing n f).slips.inEnabled = s.slips.inEnabled := rfl
@[simp] theorem State.modRing_slips_fIn (s : State) (n : Nat) (f : RingSt → RingSt) : (s.modRing n f).slips.fIn = s.slips.fIn := rfl
@[simp] theorem State.modRing_slips_fOut (s : State) (n : Nat) (f : RingSt → RingSt) : (s.modRing n f).slips.fOut = s.slips.fOut := rfl
@[simp] theorem State.modRing_slips_qIn (s : State) (n : Nat) (f : RingSt → RingSt) : (s.modRing n f).slips.qIn = s.slips.qIn := rfl
@[simp] theorem State.modRing_slips_qOut (s : State) (n : Nat) (f : RingSt → RingSt) : (s.modRing n f).slips.qOut = s.slips.qOut := rfl
@[simp] theorem State.modRing_slips_inQueue (s : State) (n : Nat) (f : RingSt → RingSt) : (s.modRing n f).slips.inQueue = s.slips.inQueue := rfl
@[simp] theorem State.modRing_slips_started (s : State) (n : Nat) (f : RingSt → RingSt) : (s.modRing n f).slips.started = s.slips.started := rfl
@[simp] theorem State.modRing_slips_sbStarted (s : State) (n : Nat) (f : RingSt → RingSt) : (s.modRing n f).slips.sbStarted = s.slips.sbStarted := rfl
@[simp] theorem State.modRing_slips_cycles (s : State) (n : Nat) (f : RingSt → RingSt) : (s.modRing n f).slips.cycles = s.slips.cycles := rfl
@[simp] theorem State.modRing_slips_served (s : State) (n : Nat) (f : RingSt → RingSt) : (s.modRing n f).slips.served = s.slips.served := rfl
@[simp] theorem State.modRing_slips_prevStarted (s : State) (n : Nat) (f : RingSt → RingSt) : (s.modRing n f).slips.prevStarted = s.slips.prevStarted := rfl
@[simp] theorem State.modRing_slips_prevSb (s : State) (n : Nat) (f : RingSt → RingSt) : (s.modRing n f).slips.prevSb = s.slips.prevSb := rfl
@[simp] theorem State.modRing_slips_prevCycles (s : State) (n : Nat) (f : RingSt → RingSt) : (s.modRing n f).slips.prevCycles = s.slips.prevCycles := rfl
@[simp] theorem State.modRing_slips_replayed (s : State) (n : Nat) (f : RingSt → RingSt) : (s.modRing n f).slips.replayed = s.slips.replayed := rfl
@[simp] theorem State.modRing_slips_reexecuted (s : State) (n : Nat) (f : RingSt → RingSt) : (s.modRing n f).slips.reexecuted = s.slips.reexecuted := rfl
@[simp] theorem State.modRing_slips_lastCh (s : State) (n : Nat) (f : RingSt → RingSt) : (s.modRing n f).slips.lastCh = s.slips.lastCh := rfl
@[simp] theorem State.modRing_slips_lastSeq (s : State) (n : Nat) (f : RingSt → RingSt) : (s.modRing n f).slips.lastSeq = s.slips.lastSeq := rfl
@[simp] theorem State.modRing_slips_msix (s : State) (n : Nat) (f : RingSt → RingSt) : (s.modRing n f).slips.msix = s.slips.msix := rfl

/-! ### useFree -/

@[simp] theorem State.useFree_pkg (s : State) : (s.useFree).pkg = s.pkg := rfl
@[simp] theorem State.useFree_clk (s : State) : (s.useFree).clk = s.clk := rfl
@[simp] theorem State.useFree_modes (s : State) : (s.useFree).modes = s.modes := rfl
@[simp] theorem State.useFree_fab (s : State) : (s.useFree).fab = s.fab := rfl
@[simp] theorem State.useFree_ports (s : State) : (s.useFree).ports = s.ports := rfl
@[simp] theorem State.useFree_xbar (s : State) : (s.useFree).xbar = s.xbar := rfl
@[simp] theorem State.useFree_queues (s : State) : (s.useFree).queues = s.queues := rfl
@[simp] theorem State.useFree_engines (s : State) : (s.useFree).engines = s.engines := rfl
@[simp] theorem State.useFree_flows (s : State) : (s.useFree).flows = s.flows := rfl
@[simp] theorem State.useFree_mem (s : State) : (s.useFree).mem = s.mem := rfl
@[simp] theorem State.useFree_crypto (s : State) : (s.useFree).crypto = s.crypto := rfl
@[simp] theorem State.useFree_cfg (s : State) : (s.useFree).cfg = s.cfg := rfl
@[simp] theorem State.useFree_shelf (s : State) : (s.useFree).shelf = s.shelf := rfl
@[simp] theorem State.useFree_stock (s : State) : (s.useFree).stock = s.stock := rfl
@[simp] theorem State.useFree_pwr (s : State) : (s.useFree).pwr = s.pwr := rfl
@[simp] theorem State.useFree_thm (s : State) : (s.useFree).thm = s.thm := rfl
@[simp] theorem State.useFree_regs (s : State) : (s.useFree).regs = s.regs := rfl
@[simp] theorem State.useFree_desk (s : State) : (s.useFree).desk = s.desk := rfl
@[simp] theorem State.useFree_slips (s : State) : (s.useFree).slips = s.slips := rfl
@[simp] theorem State.useFree_log (s : State) : (s.useFree).log = s.log := rfl
@[simp] theorem State.useFree_tap (s : State) : (s.useFree).tap = s.tap := rfl
@[simp] theorem State.useFree_pending (s : State) : (s.useFree).pending = s.pending := rfl
@[simp] theorem State.useFree_frame_number (s : State) : (s.useFree).frame.number = s.frame.number := rfl
@[simp] theorem State.useFree_frame_slot (s : State) : (s.useFree).frame.slot = s.frame.slot := rfl
@[simp] theorem State.useFree_frame_cycle (s : State) : (s.useFree).frame.cycle = s.frame.cycle := rfl
@[simp] theorem State.useFree_frame_running (s : State) : (s.useFree).frame.running = s.frame.running := rfl
@[simp] theorem State.useFree_frame_frames (s : State) : (s.useFree).frame.frames = s.frame.frames := rfl
@[simp] theorem State.useFree_frame_time (s : State) : (s.useFree).frame.time = s.frame.time := rfl
@[simp] theorem State.useFree_frame_sel (s : State) : (s.useFree).frame.sel = s.frame.sel := rfl
@[simp] theorem State.useFree_frame_active (s : State) : (s.useFree).frame.active = s.frame.active := rfl
@[simp] theorem State.useFree_frame_pendSel (s : State) : (s.useFree).frame.pendSel = s.frame.pendSel := rfl
@[simp] theorem State.useFree_frame_qualifying (s : State) : (s.useFree).frame.qualifying = s.frame.qualifying := rfl
@[simp] theorem State.useFree_frame_newQualified (s : State) : (s.useFree).frame.newQualified = s.frame.newQualified := rfl
@[simp] theorem State.useFree_frame_qualified (s : State) : (s.useFree).frame.qualified = s.frame.qualified := rfl
@[simp] theorem State.useFree_frame_lost (s : State) : (s.useFree).frame.lost = s.frame.lost := rfl
@[simp] theorem State.useFree_frame_locked (s : State) : (s.useFree).frame.locked = s.frame.locked := rfl
@[simp] theorem State.useFree_frame_unlocked (s : State) : (s.useFree).frame.unlocked = s.frame.unlocked := rfl
@[simp] theorem State.useFree_frame_phaseErr (s : State) : (s.useFree).frame.phaseErr = s.frame.phaseErr := rfl
@[simp] theorem State.useFree_frame_lockRun (s : State) : (s.useFree).frame.lockRun = s.frame.lockRun := rfl
@[simp] theorem State.useFree_frame_unlockRun (s : State) : (s.useFree).frame.unlockRun = s.frame.unlockRun := rfl
@[simp] theorem State.useFree_frame_misplaced (s : State) : (s.useFree).frame.misplaced = s.frame.misplaced := rfl
@[simp] theorem State.useFree_frame_edge (s : State) : (s.useFree).frame.edge = s.frame.edge := rfl
@[simp] theorem State.useFree_frame_phaseSeen (s : State) : (s.useFree).frame.phaseSeen = s.frame.phaseSeen := rfl
@[simp] theorem State.useFree_frame_lossRun (s : State) : (s.useFree).frame.lossRun = s.frame.lossRun := rfl
@[simp] theorem State.useFree_frame_goodRun (s : State) : (s.useFree).frame.goodRun = s.frame.goodRun := rfl
@[simp] theorem State.useFree_frame_candEdge (s : State) : (s.useFree).frame.candEdge = s.frame.candEdge := rfl
@[simp] theorem State.useFree_frame_candRun (s : State) : (s.useFree).frame.candRun = s.frame.candRun := rfl
@[simp] theorem State.useFree_frame_ctrlWord (s : State) : (s.useFree).frame.ctrlWord = s.frame.ctrlWord := rfl
@[simp] theorem State.useFree_frame_ctrlFreq (s : State) : (s.useFree).frame.ctrlFreq = s.frame.ctrlFreq := rfl
@[simp] theorem State.useFree_frame_ctrlHist (s : State) : (s.useFree).frame.ctrlHist = s.frame.ctrlHist := rfl
@[simp] theorem State.useFree_frame_frozen (s : State) : (s.useFree).frame.frozen = s.frame.frozen := rfl
@[simp] theorem State.useFree_frame_pendNumber (s : State) : (s.useFree).frame.pendNumber = s.frame.pendNumber := rfl
@[simp] theorem State.useFree_frame_outOffset (s : State) : (s.useFree).frame.outOffset = s.frame.outOffset := rfl
@[simp] theorem State.useFree_frame_outWidth (s : State) : (s.useFree).frame.outWidth = s.frame.outWidth := rfl
@[simp] theorem State.useFree_frame_outEn (s : State) : (s.useFree).frame.outEn = s.frame.outEn := rfl
@[simp] theorem State.useFree_frame_outOffsetNext (s : State) : (s.useFree).frame.outOffsetNext = s.frame.outOffsetNext := rfl
@[simp] theorem State.useFree_frame_outWidthNext (s : State) : (s.useFree).frame.outWidthNext = s.frame.outWidthNext := rfl
@[simp] theorem State.useFree_frame_overrunRun (s : State) : (s.useFree).frame.overrunRun = s.frame.overrunRun := rfl
@[simp] theorem State.useFree_frame_overrunTotal (s : State) : (s.useFree).frame.overrunTotal = s.frame.overrunTotal := rfl
@[simp] theorem State.useFree_frame_overrunTold (s : State) : (s.useFree).frame.overrunTold = s.frame.overrunTold := rfl
@[simp] theorem State.useFree_frame_trunkPhase (s : State) : (s.useFree).frame.trunkPhase = s.frame.trunkPhase := rfl

/-! ### setMode -/

@[simp] theorem State.setMode_pkg (s : State) (d : Domain) (m : Mode) : (s.setMode d m).pkg = s.pkg := by cases d <;> rfl
@[simp] theorem State.setMode_clk (s : State) (d : Domain) (m : Mode) : (s.setMode d m).clk = s.clk := by cases d <;> rfl
@[simp] theorem State.setMode_frame (s : State) (d : Domain) (m : Mode) : (s.setMode d m).frame = s.frame := by cases d <;> rfl
@[simp] theorem State.setMode_fab (s : State) (d : Domain) (m : Mode) : (s.setMode d m).fab = s.fab := by cases d <;> rfl
@[simp] theorem State.setMode_ports (s : State) (d : Domain) (m : Mode) : (s.setMode d m).ports = s.ports := by cases d <;> rfl
@[simp] theorem State.setMode_xbar (s : State) (d : Domain) (m : Mode) : (s.setMode d m).xbar = s.xbar := by cases d <;> rfl
@[simp] theorem State.setMode_queues (s : State) (d : Domain) (m : Mode) : (s.setMode d m).queues = s.queues := by cases d <;> rfl
@[simp] theorem State.setMode_engines (s : State) (d : Domain) (m : Mode) : (s.setMode d m).engines = s.engines := by cases d <;> rfl
@[simp] theorem State.setMode_flows (s : State) (d : Domain) (m : Mode) : (s.setMode d m).flows = s.flows := by cases d <;> rfl
@[simp] theorem State.setMode_mem (s : State) (d : Domain) (m : Mode) : (s.setMode d m).mem = s.mem := by cases d <;> rfl
@[simp] theorem State.setMode_crypto (s : State) (d : Domain) (m : Mode) : (s.setMode d m).crypto = s.crypto := by cases d <;> rfl
@[simp] theorem State.setMode_cfg (s : State) (d : Domain) (m : Mode) : (s.setMode d m).cfg = s.cfg := by cases d <;> rfl
@[simp] theorem State.setMode_shelf (s : State) (d : Domain) (m : Mode) : (s.setMode d m).shelf = s.shelf := by cases d <;> rfl
@[simp] theorem State.setMode_stock (s : State) (d : Domain) (m : Mode) : (s.setMode d m).stock = s.stock := by cases d <;> rfl
@[simp] theorem State.setMode_pwr (s : State) (d : Domain) (m : Mode) : (s.setMode d m).pwr = s.pwr := by cases d <;> rfl
@[simp] theorem State.setMode_thm (s : State) (d : Domain) (m : Mode) : (s.setMode d m).thm = s.thm := by cases d <;> rfl
@[simp] theorem State.setMode_regs (s : State) (d : Domain) (m : Mode) : (s.setMode d m).regs = s.regs := by cases d <;> rfl
@[simp] theorem State.setMode_desk (s : State) (d : Domain) (m : Mode) : (s.setMode d m).desk = s.desk := by cases d <;> rfl
@[simp] theorem State.setMode_slips (s : State) (d : Domain) (m : Mode) : (s.setMode d m).slips = s.slips := by cases d <;> rfl
@[simp] theorem State.setMode_log (s : State) (d : Domain) (m : Mode) : (s.setMode d m).log = s.log := by cases d <;> rfl
@[simp] theorem State.setMode_tap (s : State) (d : Domain) (m : Mode) : (s.setMode d m).tap = s.tap := by cases d <;> rfl
@[simp] theorem State.setMode_pending (s : State) (d : Domain) (m : Mode) : (s.setMode d m).pending = s.pending := by cases d <;> rfl
@[simp] theorem State.setMode_modes_pend (s : State) (d : Domain) (m : Mode) : (s.setMode d m).modes.pend = s.modes.pend := by cases d <;> rfl
@[simp] theorem State.setMode_modes_autos (s : State) (d : Domain) (m : Mode) : (s.setMode d m).modes.autos = s.modes.autos := by cases d <;> rfl
@[simp] theorem State.setMode_modes_closing (s : State) (d : Domain) (m : Mode) : (s.setMode d m).modes.closing = s.modes.closing := by cases d <;> rfl
@[simp] theorem State.setMode_modes_closed (s : State) (d : Domain) (m : Mode) : (s.setMode d m).modes.closed = s.modes.closed := by cases d <;> rfl
@[simp] theorem State.setMode_modes_bringUpFrames (s : State) (d : Domain) (m : Mode) : (s.setMode d m).modes.bringUpFrames = s.modes.bringUpFrames := by cases d <;> rfl
@[simp] theorem State.setMode_modes_notReadyTold (s : State) (d : Domain) (m : Mode) : (s.setMode d m).modes.notReadyTold = s.modes.notReadyTold := by cases d <;> rfl
@[simp] theorem State.setMode_modes_ready (s : State) (d : Domain) (m : Mode) : (s.setMode d m).modes.ready = s.modes.ready := by cases d <;> rfl

/-! ## What is read back

In a state whose tables rise, an entry written reads as written, and every other entry as before. -/

theorem State.setPort_port (s : State) (p : Nat) (v : PortSt) (j : Nat) (h : Sparse.rises s.ports = true) :
    (s.setPort p v).port j = if j = p then v else s.port j := by
  have e : (s.setPort p v).port j = Sparse.get (.dflt j) (Sparse.put (.dflt p) s.ports p v) j := rfl
  rw [e]
  unfold State.port Sparse.get Sparse.put
  split
  · rw [Sparse.look_del _ _ _ h]; split
    · subst_vars; rfl
    · rfl
  · rw [Sparse.look_ins]; split <;> rfl

theorem State.modPort_port (s : State) (p : Nat) (f : PortSt → PortSt) (j : Nat) (h : Sparse.rises s.ports = true) :
    (s.modPort p f).port j = if j = p then f (s.port p) else s.port j := State.setPort_port s p _ j h
theorem State.setQueue_queue (s : State) (q : Nat) (v : QueueSt) (j : Nat) (h : Sparse.rises s.queues = true) :
    (s.setQueue q v).queue j = if j = q then v else s.queue j := Sparse.get_put _ _ _ _ _ h
theorem State.modQueue_queue (s : State) (q : Nat) (f : QueueSt → QueueSt) (j : Nat) (h : Sparse.rises s.queues = true) :
    (s.modQueue q f).queue j = if j = q then f (s.queue q) else s.queue j := Sparse.get_put _ _ _ _ _ h
theorem State.modEngine_engine (s : State) (e : Nat) (f : EngineSt → EngineSt) (j : Nat) (h : Sparse.rises s.engines = true) :
    (s.modEngine e f).engine j = if j = e then f (s.engine e) else s.engine j := Sparse.get_put _ _ _ _ _ h
theorem State.setFlow_flow (s : State) (k : Nat) (v : FlowSt) (j : Nat) (h : Sparse.rises s.flows = true) :
    (s.setFlow k v).flow j = if j = k then v else s.flow j := Sparse.get_put _ _ _ _ _ h
theorem State.modFlow_flow (s : State) (k : Nat) (f : FlowSt → FlowSt) (j : Nat) (h : Sparse.rises s.flows = true) :
    (s.modFlow k f).flow j = if j = k then f (s.flow k) else s.flow j := Sparse.get_put _ _ _ _ _ h
theorem State.modBay_bay (s : State) (b : Nat) (f : BaySt → BaySt) (j : Nat) (h : Sparse.rises s.fab.bays = true) :
    (s.modBay b f).bay j = if j = b then f (s.bay b) else s.bay j := Sparse.get_put _ _ _ _ _ h
theorem State.modCarrel_carrel (s : State) (k : Nat) (f : CarrelSt → CarrelSt) (j : Nat) (h : Sparse.rises s.fab.carrels = true) :
    (s.modCarrel k f).carrel j = if j = k then f (s.carrel k) else s.carrel j := Sparse.get_put _ _ _ _ _ h
theorem State.modFolio_folio (s : State) (k : Nat) (f : FolioSt → FolioSt) (j : Nat) (h : Sparse.rises s.fab.folios = true) :
    (s.modFolio k f).folio j = if s.storeKey j = s.storeKey k then f (s.folio k) else s.folio j := Sparse.get_put _ _ _ _ _ h
theorem State.setBank_bank (s : State) (i : Nat) (v : BankCfg) (j : Nat) (h : Sparse.rises s.fab.banks = true) :
    (s.setBank i v).bank j = if j = i then v else s.bank j := Sparse.get_put _ _ _ _ _ h
theorem State.modNode_node (s : State) (n : Nat) (f : NodeSt → NodeSt) (j : Nat) (h : Sparse.rises s.thm.nodes = true) :
    (s.modNode n f).node j = if j = n then f (s.node n) else s.node j := Sparse.get_put _ _ _ _ _ h
theorem State.modVol_vol (s : State) (v : Nat) (f : VolSt → VolSt) (j : Nat) (h : Sparse.rises s.crypto.vols = true) :
    (s.modVol v f).vol j = if j = v then f (s.vol v) else s.vol j := Sparse.get_put _ _ _ _ _ h
theorem State.modLedger_ledger (s : State) (k : Nat) (f : LedgerNode → LedgerNode) (j : Nat) (h : Sparse.rises s.crypto.nodes = true) :
    (s.modLedger k f).ledger j = if j = k then f (s.ledger k) else s.ledger j := Sparse.get_put _ _ _ _ _ h
theorem State.modSlice_slice (s : State) (k : Nat) (f : SliceSt → SliceSt) (j : Nat) (h : Sparse.rises s.stock.carrels = true) :
    (s.modSlice k f).slice j = if j = k then f (s.slice k) else s.slice j := Sparse.get_put _ _ _ _ _ h

theorem State.setMode_bay (s : State) (b : Bay) (m : Mode) (j : Nat) (h : Sparse.rises s.modes.bays = true) :
    (s.setMode (.bay b) m).bayMode j = if j = b.val then m else s.bayMode j := Sparse.get_put _ _ _ _ _ h
theorem State.setMode_port (s : State) (p : Port) (m : Mode) (j : Nat) (h : Sparse.rises s.modes.ports = true) :
    (s.setMode (.port p) m).portMode j = if j = p.val then m else s.portMode j := Sparse.get_put _ _ _ _ _ h
theorem State.setMode_house (s : State) (m : Mode) : (s.setMode .house m).modes.house = m := rfl

end Sys2Proof.Machine
end

