-- ==== Sys2Proof/Machine/Package.lean ====
section
/-! DEFINITION. The package's lane balls and the lanes' equalisation: "Pins, package and electrical" (R419 to R421, R432 to
R434). -/

namespace Sys2Proof.Machine
open Sys2Proof

/-! ## Balls (R418 to R421) -/

/-- A ball: row and column, 1 to 71. -/
structure Ball where
  row : Nat
  col : Nat
deriving DecidableEq, Repr

/-- "Table: lane regions": the ball of lane group g at depth d (1 to 14) and position w (1 to 28). -/
def regionBall (g d w : Nat) : Ball :=
  let along := w + 28 * (g % 2)
  match g / 2 with
  | 0 => ⟨d, along⟩
  | 1 => ⟨along, 72 - d⟩
  | 2 => ⟨72 - d, 72 - along⟩
  | _ => ⟨72 - along, d⟩

/-- R420: the P or N ball of pair site n of lane group g. -/
def siteBall (g n : Nat) (neg : Bool) : Ball := regionBall g (n / 9 + 1) (3 * (n % 9) + if neg then 2 else 1)

/-- The transmit site of lane k of a port within its group; lane 2 of a slot port is its CK. -/
def txSite (p k : Nat) : Nat := if isTrunk p then 48 + 4 * ((p - 128) % 2) + k else 3 * (p % 16) + k

/-- The ball of a lane's transmitter or receiver. -/
def laneBall (p k : Nat) (rx neg : Bool) : Ball := siteBall (laneGroup p) (txSite p k + if rx then 56 else 0) neg

/-- R421: row 22 holds the 25 control pins from column 20 in the order of their table, row 20 the PCI Express lanes. -/
def controlBall (i : Nat) : Ball := ⟨22, 20 + i⟩
def pcieBall (k : Nat) (rx neg : Bool) : Ball := ⟨20, 20 + 2 * k + (if rx then 8 else 0) + if neg then 1 else 0⟩

/-! ## Equalisation (R432, R434) -/

/-- "Table: transmit equalisation by rate": de-emphasis and preshoot in tenths of a dB, by rate code. -/
def txEqualisation (rate : Nat) : Int × Int :=
  (([(0, 0), (0, 0), (-20, 0), (-35, 0), (-35, 0), (-60, 0), (-60, 0), (-60, 25), (-60, 35)] : List (Int × Int))[rate]?).getD (0, 0)

/-- What the lanes of a port apply: the equalisation of the rate of the step in use; CK has none. -/
def State.laneEqualisation (s : State) (p k : Nat) : Int × Int :=
  if !isTrunk p && k = 2 then (0, 0) else txEqualisation (s.port p).neg.cur.rate

/-- Where a receiver's adaptation starts: boost in dB, the five decision-feedback taps, and the gain at mid-range. -/
structure EqStart where
  boost : Nat
  taps : List Int
  gainMid : Bool
deriving DecidableEq, Repr

/-- R434: what preset p starts from. -/
def eqStart (preset : Nat) : EqStart := { boost := preset, taps := [0, 0, 0, 0, 0], gainMid := true }

/-- The start of adaptation at the step in use, once a preset has been taken (R149, R159). -/
def State.eqStart (s : State) (p : Nat) : Option EqStart := (s.port p).neg.preset.map Machine.eqStart

end Sys2Proof.Machine
end

