-- ==== Sys2Proof/WellFormed.lean ====
section
/-! DEFINITION. What the operands of a command must satisfy beyond their types: list lengths and ranges that the outside
world keeps. A meaning is total all the same; a well-formed command is one the spec speaks of. -/

namespace Sys2Proof

/-- A slip brings as many parameter bytes as its slots hold after the header (R366). -/
def SlipHdr.wf (h : SlipHdr) (p : List Byte) : Bool :=
  h.count.toNat = 0 || 64 < h.count.toNat || p.length + 16 == 64 * h.count.toNat

/-- A negotiation set carries 15 symbols after its first (R146). -/
def setWf (sym : List Byte) : Bool := sym.length == 15

/-- A sample holds every phase (R309), and what the lanes did names lanes that are there. -/
def SlotIn.wf (i : SlotIn) : Bool :=
  i.phases.length == 96 && i.moves.all (fun x => x.1 < 576) && i.errors.all (fun x => x.1 < 576)

/-- A block of a logic test, and a cell of a bank: its line and its stored bit (R327, R331). -/
def TestFault.wf : TestFault → Bool
  | .logic _ block _ => block < 128
  | .bank _ _ cells => cells.all fun c => c.1 < 2048 && c.2 < 288

/-- A design's last active cycles, as far back as a channel holds them (R82). -/
def TurnIn.wf (t : TurnIn) : Bool := t.lifts.length ≤ 5

/-- The lengths and ranges that a command's operands must have. -/
def Instr.wf : Instr → Bool
  | .monitorWindowEnd counts _ _ _ => counts.length == 9
  | .frameBoundary i => i.sample.wf && i.restores.all (fun x => x.1 < 1152)
  | .slotBoundary i => i.wf
  | .frameMarkReceived _ marks _ _ => marks != [] && marks.all fun l => l.length == 7
  | .turn _ _ t _ => t.wf
  | .carrelBankAccess _ _ _ _ _ _ found => found.length ≤ 4
  | .skipSetReceived _ fills => fills.length == 4
  | .negCapabilitiesReceived _ sym => setWf sym
  | .negProposeReceived _ sym => setWf sym
  | .negAcceptReceived _ sym => setWf sym
  | .negConfirmReceived _ sym => setWf sym
  | .negFailReceived _ sym => setWf sym
  | .negRefuseReceived _ sym => setWf sym
  | .memoryLayerWrite _ addr data _ => addr % 8 + data.length ≤ 8 && 0 < data.length
  | .sideStoreWrite _ addr data _ _ => addr.toNat % 64 + data.length ≤ 64 && 0 < data.length
  | .chainDataBlockReceived _ _ payload _ => payload.length ≤ 1024
  | .chainEndBlockReceived sym => sym.length ≤ 1035
  | .stockTestEnd _ _ _ faults => faults.all TestFault.wf
  | .unlockArmLapse _ block => block < 241
  | .lockoutEnd block => block < 241
  | .slipUnknownOpcode _ h p => h.wf p
  | .frameSource h p => h.wf p
  | .frameNumberSet h p => h.wf p
  | .clockSet h p => h.wf p
  | .clockRestore h p => h.wf p
  | .clockQuery h p => h.wf p
  | .thermalSet h p => h.wf p
  | .thermalRelease h p => h.wf p
  | .thermalQuery h p => h.wf p
  | .powerSet h p => h.wf p
  | .powerGate h p => h.wf p
  | .powerQuery h p => h.wf p
  | .streamStage h p _ => h.wf p
  | .streamAuth h p => h.wf p
  | .streamApply h p => h.wf p
  | .flashWrite h p _ => h.wf p
  | .flashErase h p => h.wf p
  | .streamQuery h p => h.wf p
  | .archiveAdd h p => h.wf p
  | .rotaSet h p => h.wf p
  | .rotaQuery h p => h.wf p
  | .folioLoad h p => h.wf p
  | .editionLoad h p => h.wf p
  | .editionBind h p => h.wf p
  | .editionSwitch h p => h.wf p
  | .editionQuery h p => h.wf p
  | .bankSet h p => h.wf p
  | .channelQuery h p => h.wf p
  | .editionRetire h p => h.wf p
  | .portSet h p => h.wf p
  | .portQuery h p => h.wf p
  | .queueSet h p => h.wf p
  | .queueQuery h p => h.wf p
  | .queueFlush h p => h.wf p
  | .queueSpaceQuery h p => h.wf p
  | .flowSet h p => h.wf p
  | .flowQuery h p => h.wf p
  | .pairSet h p => h.wf p
  | .flowCountClear h p => h.wf p
  | .egressSet h p => h.wf p
  | .egressQuery h p => h.wf p
  | .creditSet h p => h.wf p
  | .read h p _ => h.wf p
  | .write h p _ => h.wf p
  | .fill h p => h.wf p
  | .copy h p => h.wf p
  | .retire h p => h.wf p
  | .retireClear h p => h.wf p
  | .retireQuery h p => h.wf p
  | .rightsSet h p => h.wf p
  | .rightsQuery h p => h.wf p
  | .rekey h p => h.wf p
  | .rekeyQuery h p => h.wf p
  | .ledgerRead h p => h.wf p
  | .keyFuseSet h p => h.wf p
  | .stockDeclare h p => h.wf p
  | .stockRun h p => h.wf p
  | .stockRepair h p => h.wf p
  | .stockResult h p => h.wf p
  | .stockQuery h p => h.wf p
  | .eventAck h p => h.wf p
  | .daybookRead h p _ => h.wf p
  | .daybookDrainSet h p => h.wf p
  | .eventFilterSet h p => h.wf p
  | .eventQuery h p => h.wf p
  | .inbandSet h p => h.wf p
  | .modeSet h p _ => h.wf p
  | .modeQuery h p => h.wf p
  | .laneTestSet h p => h.wf p
  | .laneTestQuery h p => h.wf p
  | .vstbyRise | .vstbyLoss | .vin12Rise .. | .vin12Shutdown | .porstNAssert | .porstNRelease .. | .leaveReset
  | .clockStoppedDetect .. | .ioscSStopped | .glitchFreeSwitchDone .. | .switchForced .. | .overrideQualifyTimeout ..
  | .trunkRefLost .. | .changeAbandoned .. | .frameOutEdge .. | .frameInEdge .. | .frameSourceLoss
  | .frameSourceQualified | .frameSourceQualifyTimeout | .loopLocked | .frameUnlocked | .frameOverrun ..
  | .bayNotReady .. | .closingDrainEnd .. | .stockBlockCompare ..
  | .folioWriteComplete .. | .reloadRewriteStart .. | .archiveReadError .. | .lineAttachTake .. | .lineAttachSend ..
  | .itemAttachBeat .. | .egressTake .. | .liRelease .. | .loRelease .. | .ixRelease .. | .editionSwitchForced ..
  | .chainStartBlockReceived ..
  | .laneSyncAcquired .. | .laneSyncLost .. | .invalidSymbol .. | .slotMarkReceived .. | .qColumnReceived ..
  | .portTrained .. | .prbsWindowStart .. | .prbsWindowEnd .. | .trainingTimeout .. | .confirmTimeout ..
  | .negTimeout .. | .confirmedStepSyncLoss .. | .portNoPartner .. | .collisionBackoffExpiry .. | .foreignLinkUp ..
  | .portMarksLost .. | .portMarksRestored .. | .portMarksAbsent .. | .itemStartReceived .. | .itemEndReceived ..
  | .itemPoisonReceived .. | .elasticSlip .. | .receiveBufferRecentre .. | .lanePhaseLimit .. | .prbsCheckerLock ..
  | .prbsLockLost .. | .errorInjection .. | .injOnce .. | .flowLookup .. | .delayLineRelease .. | .mergeStep ..
  | .mergeGapTimeout .. | .mergeAutoResync .. | .itemHeaderTaken .. | .itemWordWrite .. | .itemComplete ..
  | .itemPoisonedEnd .. | .queuePop .. | .flushMarkerWrite .. | .qdFlushWrite .. | .memoryLayerRead ..
  | .sideStoreRead .. | .sideRefresh .. | .rngFail | .streamLoadStart | .partTrailerCheck .. | .streamApplyComplete
  | .chainStartTimeout | .chainBlockTimeout
  | .startupStepAComplete | .rendezvousMet | .rendezvousTimeout | .shelfFrameRead .. | .shelfCorrectionWrite
  | .sweepLate | .shelfStall | .stockTestStart .. | .repairRecordWriteDone | .boundaryStale | .thermBoundaryWrite ..
  | .slopeWarn .. | .bandChange .. | .sensorFault .. | .railFault .. | .vinFault | .railRestored ..
  | .gateTakesEffect .. | .pcieLinkUp | .bayGateRequest .. | .portGateRequest .. | .qeGateRequest ..
  | .side0GateRequest .. | .pcieGateRequest .. | .registerWrite .. | .unlockWrite .. | .deskShelfIdWrite ..
  | .deskTimeLoRead .. | .pcieZeroLengthRead .. | .pcieBadRequest .. | .logNmLatchClear .. | .logAlarmClear ..
  | .shelfCtrlWrite .. | .shelfActionWrite .. | .portLoopWrite .. | .laneTestCtrlWrite .. | .frameOutCtrlWrite ..
  | .slipRingEnable .. | .slipRingDisable .. | .ringDrainComplete .. | .slipProdWrite .. | .slipRconsWrite ..
  | .logDrainConsWrite .. | .replyWrite .. | .slipDmaFault .. | .sidebandRegWrite .. | .sidebandRegRead ..
  | .sidebandSlipWrite .. | .sidebandSubmit | .sidebandReplyRead .. | .sidebandStatus | .sidebandRelease
  | .sidebandBadCommand .. | .sidebandSeriesReset | .inbandItem .. | .lockstepMismatch | .standbyReloadComplete
  | .daybookEntryWrite .. | .daybookDrainCopy .. | .summaryPeriodEnd | .streamStageDone .. | .streamAuthDone ..
  | .flashWriteDone | .flashEraseDone | .archiveAddDone | .memoryFillDone .. | .memoryCopyDone .. | .tapReset
  | .extest .. | .idcode | .samplePreload .. | .highz | .clamp | .bypass .. | .rrReg .. | .rrMem .. | .ioscSRunsAgain
  | .editionReady .. | .registerRead .. | .lineAttachIngress .. | .egressUnderrun .. | .loopRelocked .. => true

end Sys2Proof
end

