-- ==== Sys2Proof/Tests/Slice0.lean ====
section
/-! SUPPORT. Tests: for every statement with hypotheses one theorem that meets them, clause by clause; ill-formed commands;
and single steps whose numbers the spec works out. -/

namespace Sys2Proof.Tests
open Sys2Proof Sys2Proof.Machine

set_option maxRecDepth 100000
set_option Elab.async false

/-! ## How a witness is shown

A statement is applied to a state and operands of its own; each of its hypotheses is proved by evaluation, so that all of them
are met together; what is left of the statement is that the command completes there. -/

/-- The command completes in this state. -/
def Completes (c : Instr) (s : State) : Prop := ∃ t, exec c s = .next t

def isOk (x : Except SlipErr Unit) : Bool := match x with | .ok _ => true | .error _ => false

theorem ok_of {x : Except SlipErr Unit} (h : isOk x = true) : x = .ok () := by
  cases x with
  | ok u => rfl
  | error e => cases h

theorem takes_of {s : State} {op : BitVec 16} {c : OrdClass} {h : SlipHdr} {p : List Byte}
    (t : (s.starts op h p c && isOk (headerCheck s h) && !wantsNoReply h && decide (h.ch.val < s.slips.chans.length)) = true) :
    s.takes op c h p := by
  simp only [Bool.and_eq_true, Bool.not_eq_true', decide_eq_true_eq] at t
  exact ⟨t.1.1.1, ok_of t.1.1.2, t.1.2, t.2⟩

theorem may {s : State} {m : Master} (h : (s.reaches m && !s.clk.stoppedDevice && (m != .readingRoom || s.pkg.debugFuse == 2)) = true) :
    s.mayAccess m := by
  simp only [Bool.and_eq_true, Bool.not_eq_true', Bool.or_eq_true, bne_iff_ne, beq_iff_eq] at h
  exact ⟨h.1.1, h.1.2, fun e => h.2.resolve_left (fun n => n e)⟩

theorem hears_of {s : State} {p : Port} {sym : List Byte} {type : Nat}
    (h : (s.bringsUp p.val && (s.port p.val).cfg.setting == 0 && crcGood 13 sym && codesGood (leAt sym 4 1) &&
      setType sym == type && leAt sym 9 1 % 2 == bitOf (isTrunk p.val)) = true) : s.hears p sym type := by
  simp only [Bool.and_eq_true, beq_iff_eq] at h
  exact ⟨h.1.1.1.1.1, h.1.1.1.1.2, h.1.1.1.2, h.1.1.2, h.1.2, h.2⟩

/-! ## States that the tests start from -/

/-- Out of reset, frames running, the house in Service, the host's link up. -/
def up : State :=
  { State.reset with pkg.inReset := false, pkg.pcieUp := true, frame.running := true, modes.house := .service }

/-- A slip of one slot on the sideband, its number 5. -/
def hdr : SlipHdr := { ch := 4, flags := 0, count := 1, tag := 7, seq := 5, reserved := 0 }

/-- The 48 parameter bytes of such a slip: fields at their slip bytes, the rest zero. -/
def par (l : List (Nat × Nat × Nat)) : List Byte :=
  l.foldl (fun p x => p.take (x.1 - 16) ++ leBytes x.2.1 x.2.2 ++ p.drop (x.1 - 16 + x.2.1)) (List.replicate 48 0)

/-- The same with k slots. -/
def hdrN (k : Nat) : SlipHdr := { hdr with count := BitVec.ofNat 8 k }
def parN (k : Nat) (l : List (Nat × Nat × Nat)) : List Byte :=
  l.foldl (fun p x => p.take (x.1 - 16) ++ leBytes x.2.1 x.2.2 ++ p.drop (x.1 - 16 + x.2.1)) (List.replicate (64 * k - 16) 0)
def sentN (k : Nat) (op : BitVec 16) (p : List Byte) (s : State) : State := { s with slips.sbQueue := [slipBytes op (hdrN k) p] }

/-- The slip lies in the sideband channel. -/
def sent (op : BitVec 16) (p : List Byte) (s : State) : State := { s with slips.sbQueue := [slipBytes op hdr p] }

/-- The identity of a slip of a host that asked for it earlier on the sideband. -/
def old : SlipId := { ch := 4, op := 0x0C01, tag := 3, seq := 2, noReply := false, gen := 0, flags := 0 }

theorem completes0 {c : Instr} {s t : State} (e : exec c s = .next t) : Completes c s := ⟨t, e⟩
theorem completes1 {c : Instr} {s : State} {P : State → Prop} (e : ∃ t, exec c s = .next t ∧ P t) : Completes c s :=
  ⟨e.choose, e.choose_spec.1⟩
theorem completes2 {α : Type} {c : Instr} {s : State} {P : State → α → Prop} (e : ∃ t a, exec c s = .next t ∧ P t a) :
    Completes c s := ⟨e.choose, e.choose_spec.choose_spec.1⟩
theorem completes3 {α β : Type} {c : Instr} {s : State} {P : State → α → β → Prop}
    (e : ∃ t a b, exec c s = .next t ∧ P t a b) : Completes c s := ⟨e.choose, e.choose_spec.choose_spec.choose_spec.1⟩

theorem completesIn {α : Type} {l : List α} {c : Instr} {s : State} {P : State → α → Prop}
    (e : ∃ t, ∃ a ∈ l, exec c s = .next t ∧ P t a) : Completes c s := ⟨e.choose, e.choose_spec.choose_spec.2.1⟩

theorem latestOf_none (l : List Entry) (code : BitVec 16) (subject : Nat) (h : ∀ e ∈ l, e.code ≠ code) :
    latestOf l code subject = none := by
  unfold latestOf
  rw [List.filter_eq_nil_iff.mpr]
  · rfl
  · intro i hi
    rw [List.mem_range] at hi
    rw [List.getElem?_eq_getElem hi]
    simp [h _ (List.getElem_mem hi)]

/-! ## States of the witnesses -/

def offStandby : State := { State.reset with pkg.vstby := false, pkg.rails := false }
def offRails : State := { State.reset with pkg.rails := false }
def offHeld : State := { State.reset with pkg.rails := false, pkg.porstLow := true }
def heldOn : State := { State.reset with pkg.porstLow := true }
def atReset (q : Bool) : State := { State.reset with clk.qualA := q, clk.qualB := q, clk.qualF := q }

/-- Every clock has counted well for n windows. -/
def counted (n : Nat) : State := { up with clk.goodRun := List.replicate 9 n }
def qualified : State := { up with clk.qualA := true, clk.qualB := true, clk.qualF := true, clk.qualS := true }
def onCold : State := { up with clk.cold := true }
def stoppedAll : State := { up with clk.stoppedDevice := true }
def switching : State := { up with clk.switches := [(3, { target := .ioscF, forced := false })] }
def overriding (b : Bool) : State :=
  { up with clk.changes := [.override b true 8000 (some old)], clk.refaEn := !b, clk.refbEn := b }
def srcIn : FrameSel := { FrameSel.reset with src := 1 }
/-- FRAME_IN is the source in use. -/
def onPin : State := { up with frame.active := srcIn, frame.sel := srcIn }
def driving : State := { up with frame.outEn := true, frame.outOffsetNext := 1023, frame.outWidthNext := 3 }
def running (n : Nat) (told : Bool) : State :=
  { up with frame.lockRun := n, frame.unlockRun := 8, frame.overrunRun := [0, 0, 0, 0, 0, 16],
            frame.overrunTold := List.replicate 6 told }
def losing : State := { onPin with frame.lossRun := 3, frame.goodRun := 64, frame.ctrlWord := -7 }
def waiting : State := { up with frame.qualifying := some (srcIn, old, 8000), frame.candRun := 64 }
def framePend : State := { up with frame.pendSel := some (srcIn, { old with ch := 5 }) }

/-- House, bay 31 and port 143 in this mode. -/
def inMode (m : Mode) : State := { up with modes.house := m, modes.bays := [(31, m)], modes.ports := [(143, m)] }
def rota2 : RotaSt := ⟨false, [w32 (99 * 65536 + 7), w32 (149 * 65536 + 0)]⟩
def store (n : Nat) : FolioSt := { FolioSt.dflt with state := .inRota, store := BitVec.ofNat 4096 n, missed := 254, config := 9 }
/-- Bay 31 runs, its carrel 35 in entry j of a rota of folios 7 and 0; two banks of its quad are the pool's. -/
def fab (m : Mode) (j : Nat) (idle : Bool) : State :=
  { up with
    fab.bays := [(31, { BaySt.dflt with running := true })], modes.bays := [(31, m)],
    fab.carrels := [(1151, { CarrelSt.dflt with rota := rota2, cur := j, idle := idle })],
    fab.folios := [(9704, store 10), (9711, store 17)], cfg.stepsDone := 5,
    fab.banks := [(4606, { BankCfg.dflt with pool := true, share := 1, user := 0x13 })] }
def fabStill : State := { fab .service 0 false with fab.bays := [] }
/-- A turn at which the design had driven two wires. -/
def tin : TurnIn := { live := 5, drove := 3, mesh := 1, lifts := [], ready := false }
def intact : StoreUpset := ⟨0, 0⟩
def upsets : StoreUpset := ⟨9, 1⟩

def item (prior : FolioState) (w : Bool) : LoadItem := { key := 9215, prior := prior, request := 4, waiting := w, keep := false }
def copy9 : FolioImage := { config := 258, init := 6, blocks := [], lost := false }
/-- Folio 7 of carrel 35 of bay 31 waits to be written. -/
def loading (st : FolioState) : State :=
  { up with fab.loads := [item .empty false, item .inRota true], fab.folios := [(9711, { store 17 with state := st })],
            cfg.archive := [(9215, copy9)], fab.reqs := [{ num := 4, kind := .folios, id := some old }] }

def port (st : Nat) (f : PortSt → PortSt) : PortSt := f { PortSt.dflt 143 with cfg.setting := st }
def bytes9 : List (Byte × Bool) := (List.range 9).map fun i => (BitVec.ofNat 8 i, i == 8)
/-- Line and item members of editions 1 and 2, both folio 7 of carrel 35 of bay 31. -/
def both : List Member := [⟨31, 35, 7, 1, 15⟩, ⟨31, 35, 7, 2, 15⟩]
def ed (tag st : Nat) : EditionSt :=
  { tag := tag, protectedCapable := false, members := both, channels := [], crossings := [], state := st, replaced := [],
    readyBy := 0, ready := false, copies := [] }
def bound (o : Option SwitchBind) : BindSt := { edition := 1, rate := 2, width := 0, line := 0, item := 1, old := o }
def swOld (n : Nat) : SwitchBind := { edition := 2, line := 0, item := 1, li := false, lo := true, ix := true, ex := false, frames := n }
/-- Port 143, foreign, bound to edition 1 whose folio is active. -/
def attached (m : Mode) (o : Option SwitchBind) (f : EgressSt → EgressSt) : State :=
  { fab .service 0 false with
    modes.ports := [(143, m)], fab.editions := [(1, ed 1 2), (2, ed 2 2)], fab.binds := [(143, bound o)],
    ports := [(143, port 2 fun t => { t with egress := f t.egress })] }
def att0 (l : List (Byte × Bool)) : State := attached .service none fun e => { e with liBuf := l, loBuf := l }
def attIx (n : Nat) : State :=
  attached .service none fun e => { e with ixBeats := [1, 2, 3].take n, ixOffered := n, exOut := if n = 3 then [(false, 6)] else [] }
def attSw (n : Nat) : State := attached .service (some (swOld n)) id
/-- One record: carrel 35 of bay 31, this rota. -/
def rec1 (f n l0 l1 : Nat) : List (Nat × Nat × Nat) :=
  [(16, 1, f), (18, 2, n), (20, 1, 31), (21, 1, 35), (23, 1, 2), (24, 4, l0 * 65536 + 7), (28, 4, l1 * 65536)]
def bare (f : Nat) : List (Nat × Nat × Nat) := [(16, 1, f)]

/-- Folio 7 of carrel 35 of bay 31 stands in the archive, in this state. -/
def archived (m : Mode) (st : FolioState) (e : Nat) : State :=
  { fab m 0 false with
    fab.folios := [(9704, store 10), (9711, { store 17 with state := st })], fab.editions := [(1023, ed 1 e)],
    fab.carrels := if st == .inRota then [(1151, { CarrelSt.dflt with rota := rota2 })] else [],
    cfg.archive := [(9208, copy9), (9215, copy9)] }

/-- Folio 7 of carrel 35 of bay 31 alone, throughout the frame. -/
def rota7 : RotaSt := ⟨false, [w32 (249 * 65536 + 7)]⟩
/-- Editions 1 and 2 of that folio are loaded; port 143 bound to edition 1 if asked. -/
def bindable (b : Bool) : State :=
  { fab .service 0 false with
    fab.carrels := [(1151, { CarrelSt.dflt with rota := rota7, idle := false })],
    fab.editions := [(1, ed 3 2), (2, ed 3 2)], fab.binds := if b then [(143, bound none)] else [] }
def poolBank (user : BitVec 5) : BankCfg := { pool := true, share := 0, user := user, place := none }
/-- The least pool: the memory layer's 256 banks, eight, and 32. -/
def pool : Sparse BankCfg :=
  (List.range 296).map fun i => (i, poolBank (if i < 256 then 0x10 else if i < 264 then 0x11 else 0x12))
def banked (m : Mode) : State := { up with fab.banks := pool, modes.bays := [(0, m), (2, m), (31, m)] }
def spared : State := { banked .service with fab.banks := [(142, poolBank 0x10), (143, poolBank 0x13)] }
def abandoning (k : Nat) : Change4 :=
  { ch := 4, seq := 2, change := .rotas [⟨31, 35, false, [w32 (249 * 65536 + 7)]⟩], retries := k, id := some old, ready := true }
def failing : State := { banked .service with fab.changes := [abandoning 1] }
/-- Bay 31 in Service and running; in bank 0 of the layer some bytes are known, and master 31 has every right. -/
def memUp : State :=
  { fab .service 0 false with
    mem.layer := [(5, 7), (0x12FFFFF8, 9)], mem.side := [(64, 3), (0x7FFFFFFFF, 4)],
    crypto.rights := [(31, { accLo := 0xFFFFFFFF, accHi := 0x3FFFFFFF, view := 0 }),
      (33, { accLo := 0xFFFFFFFF, accHi := 0xFFFFFFFF, view := 0 })] }
/-- No counter of block 1 is left, and the random source gives no key. -/
def spentBlock : State :=
  { memUp with crypto.nodes := [(0, { major := 0xFFFFFFFF, minors := [(1, 127)], epoch := false, rebuilding := false, generation := 0 })] }
def memRetired : State := { memUp with mem.retired := [{ bank := true, index := 0, inForce := true }] }
def memBindery : State := { memRetired with modes.house := .bindery }
def eight : List Byte := [1, 2, 3, 4, 5, 6, 7, 8]
def block64 : List Byte := (List.range 64).map fun i => BitVec.ofNat 8 (i + 1)

def work (copy : Bool) : MemWork :=
  { id := { old with op := if copy then 0x0804 else 0x0803 }, copy := copy, srcStore := 1, dstStore := 0, src := 64, dst := 0x2000, len := 64,
    pattern := 0x0102030405060708, moved := 0x400000 }
def working (c : Bool) : State := { memUp with mem.work := [work c] }
def fused (k : Option (BitVec 256)) : State := { up with modes.house := .bindery, pkg.streamKey := k, crypto.rngOk := true }
def fused9 : State := fused (some 9)
def keyed (st : Nat) : State := { up with crypto.vols := [(31, { VolSt.dflt with state := st, watermark := 7 })] }
/-- One port in a mode, with this lane state. -/
def lanesOn (p st : Nat) (m : Mode) (f : LaneSt → LaneSt) : State :=
  { up with modes.ports := [(p, m)], ports := [(p, { PortSt.dflt p with cfg.setting := st, lane := f LaneSt.dflt })] }
/-- The same with its four lanes in use. -/
def wideOn (p st : Nat) (m : Mode) (f : LaneSt → LaneSt) : State :=
  { lanesOn p st m f with ports := [(p, { (lanesOn p st m f).port p with neg.cur := ⟨0, 2⟩ })] }
/-- A mark or set with its CRC. -/
def sealed (l : List Byte) : List Byte := l ++ leBytes 2 (crc16 l)
def lanesT : State := wideOn 143 0 .service fun l => { l with inSync := 8, itemOpen := true, codeViol := [0, 0, 0, 65535] }
def lanesS : State := lanesOn 127 0 .service id
def lanesF : State := lanesOn 128 3 .service id
def lanesW : State := lanesOn 127 0 .service fun l => { l with limitHits := [255, 0], track := [15, -15] }
def lanesOpen : State := wideOn 143 0 .service fun l => { l with inSync := 8 }
def lanesX : State := wideOn 128 3 .holdover id
/-- D0.0 as it is sent at negative disparity, K28.7 and a group that is none. -/
def d00 : BitVec 10 := BitVec.ofNat 10 (encodeSym (0, false) false)
def k287 : BitVec 10 := BitVec.ofNat 10 (encodeSym (kSym 0xFC) false)
def fm (b : Nat) : List Byte := sealed [1, 0, 0, BitVec.ofNat 8 b, 0]
def sm (no w : Nat) : List Byte := sealed ([BitVec.ofNat 8 no, 0, 0] ++ List.replicate (4 * w) 0x55)
def marked : State := lanesOn 143 0 .service fun l =>
  { l with creditW := 2, lastSlotNo := some 249, lastMark := some (List.replicate 32 3), fill := [30, 30, 30, 30] }
def wide : State := { marked with ports := [(143, { (marked.port 143) with neg.cur := ⟨0, 1⟩ })] }
def runs (m : Mode) : State := lanesOn 143 0 m fun l =>
  { l with marksLost := 4, goodMarks := 16, noMarkSlots := 250, itemOpen := true, discIn := 65535 }
/-- The same with no item open. -/
def rests (m : Mode) : State := lanesOn 143 0 m fun l => { l with discIn := 65535 }
def checking (m : Mode) (v : Nat) : State := wideOn 143 0 m fun l =>
  { l with testCtrl := [0, 0, 0, w32 v], chkLock := 8, prbsErr := [0, 0, 0, 0xFFFFFFF0] }
def checkWindow : State :=
  { checking .bringUp 0x10 with ports := [(143, { (checking .bringUp 0x10).port 143 with neg.window := true, neg.readySent := true, neg.state := 2 })] }
/-- A negotiation set: its type, rates, widths, step, frame, for a trunk or not. -/
def setOf (type rates widths step frame : Nat) (trunk : Bool) : List Byte :=
  sealed ([BitVec.ofNat 8 type] ++ leBytes 2 rates ++ [BitVec.ofNat 8 widths, BitVec.ofNat 8 step] ++ leBytes 2 frame ++ [0, 0, if trunk then 1 else 0, 0, 0, 0])
/-- Trunk port 143 in Bring-up, its partner known, in this negotiation state. -/
def trains (f : NegSt → NegSt) : State :=
  { up with modes.ports := [(143, .bringUp)],
            ports := [(143, { PortSt.dflt 143 with neg := f { NegSt.dflt with
              partnerValid := true, ownRates := 0x1FF, partnerRates := 0x1FF, ownWidths := 7, partnerWidths := 7, target := ⟨8, 2⟩ } })] }
def caps0 : State := trains fun n => { n with state := 3, partnerValid := false }
def prop3 : State := trains fun n => { n with state := 3, cur := ⟨0, 2⟩ }
def sent3 (x : Step) : State := trains fun n => { n with state := 3, cur := ⟨0, 2⟩, propose := some (x, 8, 8) }
def sentTwice : State := trains fun n => { n with state := 3, cur := ⟨0, 2⟩, propose := some (⟨1, 2⟩, 4, 9) }
def conf2 (x : Step) (own : Option Bool) : State := trains fun n => { n with state := 2, cur := x, ownResult := own }
def got (type : Nat) : List Byte := setOf type 0x1FF 7 0x21 8 true
def bringS (p : Nat) (f : NegSt → NegSt) : State :=
  { up with modes.ports := [(p, .bringUp)], ports := [(p, { PortSt.dflt p with neg := f NegSt.dflt, lane.inSync := 15 })] }
def trainable (p : Nat) : State := bringS p fun n => { n with state := 1, markSeen := true }
/-- All that has to be so before the leader opens the window, at the boundary of the slot that follows. -/
def ready1 : State := bringS 143 fun n =>
  { n with state := 1, leader := true, trained := true, capsHere := true, readySent := true, readyRecv := true, windowDue := true }
/-- The window of a step has run its time on both lanes, this end's check of lane 1 bad or not. -/
def windowed (x : Step) (bad : BitVec 4) : State :=
  { up with modes.ports := [(143, .bringUp)], ports := [(143, { PortSt.dflt 143 with
      neg := { NegSt.dflt with state := 2, window := true, windowSent := 20, checked := [16, 16, 0, 0], checkBad := bad, cur := x }
      lane.inSync := 15, lane.chkLock := 3 })] }
/-- What a limit of R156 is counted from. -/
def waited (st on w all : Nat) (x : Step) (f : NegSt → NegSt) : State :=
  bringS 143 fun n => f { n with state := st, onStep := on, waited := w, inBringUp := all, cur := x }
/-- A foreign trunk whose lanes are in sync. -/
def foreignTrunk (setting : Nat) : State :=
  { up with modes.ports := [(143, .bringUp)], ports := [(143, { PortSt.dflt 143 with
      cfg.setting := setting, neg := { NegSt.dflt with state := 7 }, lane.inSync := 15 })] }
def readied (n : NegSt) : NegSt := { n with readySent := true }
def passed (n : NegSt) : NegSt := { n with ownResult := some true }
def proposed (n : NegSt) : NegSt := { n with propose := some (⟨1, 0⟩, 3, 3) }
def refused16 (n : NegSt) : NegSt := { n with propose := some (⟨1, 0⟩, 3, 3), refusedRun := 16 }
def outOfSync (n : NegSt) : NegSt := { n with outSync := 500 }
def backingOff (n : NegSt) : NegSt := { n with backoff := 1 }
def refd (r : Nat) : State :=
  { up with ports := [(143, { PortSt.dflt 143 with cfg.refSrc := 2, cfg.refTrunk := r, cfg.setting := 0, lane.tripIdle := true })],
            modes.ports := [(0, .bringUp), (143, .bringUp)] }

/-- A header word: flow, length, class, kind, sequence, tag. -/
def hd (flow len ord kind seq tag : Nat) : Line :=
  BitVec.ofNat 256 (flow + len * 2 ^ 16 + ord * 2 ^ 25 + kind * 2 ^ 26 + seq * 2 ^ 32 + tag * 2 ^ 48)
def flow0 : FlowSt :=
  { FlowSt.dflt with valid := true, ordinary := true, inPort := 127, inTag := 255, egPort := 143, egQueue := 16383 }
/-- Flow 65535 leads from port 127 to queue 16383 of port 143. -/
def flowing (d : QueueSt) (m : Mode) : State :=
  { up with cfg.stepsDone := 5, modes.ports := [(127, .service), (143, m)], queues := [(16383, d)], flows := [(65535, flow0)],
            ports := [(143, { PortSt.dflt 143 with egress.ord := [⟨16383, 1, 15, 0⟩], egress.grants := [(16383, 1)] })] }
def q0 : QueueSt := { QueueSt.dflt with enable := true, ordinary := true, sizeCode := 0, threshold := 15 }
/-- A header stands first in the lookup stage of slot port 127, whose item attach is in bay 31; or comes in on trunk 142. -/
def stands (m : Mode) (w : Line) : State :=
  { flowing q0 .service with
    modes.bays := [(31, m)], fab.editions := [(1, ed 3 2)], fab.binds := [(127, bound none)], modes.ports := [(127, .service), (142, .service), (143, .service)],
    ports := [(127, { PortSt.dflt 127 with egress.ixWords := [(w, true)] })], flows := [(65534, { flow0 with inPort := 142 }), (65535, flow0)] }
/-- An item of n words stands in the queue from pointer a, taken of them so far. -/
def holding (a n taken : Nat) (mid : Bool) : QueueSt :=
  { q0 with wptr := BitVec.ofNat 17 ((a + taken) % 32), wptrSh := BitVec.ofNat 17 ((a + taken) % 32), rptr := BitVec.ofNat 17 a, rptrSh := BitVec.ofNat 17 a,
            words := [(a % 16, hd 65535 n 1 0 9 255)], prodMid := mid, prodHdr := hd 65535 n 1 0 9 255, prodAt := BitVec.ofNat 17 a, prodTaken := taken, items := 1 }
/-- The consumer is inside that item. -/
def inside (a n taken : Nat) (mid : Bool) (popped : Nat) : QueueSt :=
  { holding a n taken mid with rptr := BitVec.ofNat 17 (a + popped), rptrSh := BitVec.ofNat 17 (a + popped), consMid := true,
                               consHdr := hd 65535 n 1 0 9 255, consTaken := popped }
/-- A header of n words waits in the crossbar for queue 16383. -/
def xb (n : Nat) : XbarItem := { port := 127, queue := 16383, hdr := hd 65535 n 1 0 9 255, index := 31, isOpen := true, poisoned := false }
def crossing (d : QueueSt) (n : Nat) : State := { flowing d .service with xbar := [{ xb 1 with queue := 3 }, xb n, xb 2] }
def aborting : QueueSt := { inside 8 8 8 false 3 with abortPending := true, abortAt := 11 }
def flushed (n : Nat) : QueueSt := { q0 with flush := true, flushItems := n, flushWords := 2 * n, flushSlips := [{ old with op := 0x0603 }], flushFirst := some (hd 65535 2 1 0 9 255), flushLast := some (hd 65535 2 1 0 9 255) }
def held (seq rel : Nat) (f : Nat) : HeldItem :=
  { queue := 16383, words := [hd f 2 0 0 seq 255, 7], release := rel, marker := false, complete := true, poisoned := false, charge := none }
/-- Flow k with its delay line and heads. -/
def member (twin : Nat) (dl heads : List HeldItem) (next : Nat) (w : Bool) : FlowSt :=
  { flow0 with ordinary := false, delayEn := true, paired := twin != 0, twin := twin, dlBase := 0, dlPages := 1, dl := dl, heads := heads,
               dlRptr := 0, dlRptrSh := 0, dlWptr := 2, dlWptrSh := 2, mergeNext := next, mergeSet := true, waiting := w, quiet := 8000 }
def merging (l : Sparse FlowSt) : State :=
  { flowing { q0 with ordinary := false } .service with
    flows := l, frame.time := 1000, crypto.rights := [(32, { accLo := 0xFFFFFFFF, accHi := 0xFFFFFFFF, view := 0 })],
    mem.side := (List.range 64).map fun i => (i, BitVec.ofNat 8 i) }
def dlPair : State := merging [(1, member 65535 [held 9 1499 1] [] 3 false), (65535, member 1 [] [] 0 false)]
def dlAlone : State := merging [(1, member 0 [held 9 1499 1] [] 3 false)]
def pairAt (next a b : Option Nat) (w : Bool) : State :=
  merging [(1, member 65535 [] (a.toList.map fun x => held x 900 1) (next.getD 0) w),
    (65535, member 1 [] (b.toList.map fun x => held x 900 65535) 0 false)]
def px : State := pairAt (some 9) (some 9) none false
def pd : State := pairAt (some 9) (some 8) none false
def pw : State := pairAt (some 9) none (some 10) false
def pt : State := pairAt (some 65535) none (some 0) true
def pg : State := pairAt (some 65535) (some 3) (some 1) true

def poolQ (n : Nat) : Sparse BankCfg := (List.range (4 * n)).map fun i => (i, { pool := true, share := 0, user := 15, place := none })
/-- Engine 15 has n groups of the pool; its last queue stands so. -/
def spaced (n : Nat) (d : QueueSt) : State := { up with fab.banks := poolQ n, queues := [(16383, d)] }
def qset (fl code t base : Nat) : List (Nat × Nat × Nat) := [(16, 2, 16383), (18, 1, fl), (19, 1, code), (20, 2, t), (22, 3, base)]
def qOn (code : Nat) : QueueSt := { QueueSt.dflt with enable := true, ordinary := true, sizeCode := BitVec.ofNat 4 code, threshold := 1 }
/-- Queue 16383 is protected, enabled and in the calendar of port 143; the delay lines' master may use every volume. -/
def settable (l : Sparse FlowSt) : State :=
  { merging l with
    ports := [(143, { PortSt.dflt 143 with egress.prot := [⟨16383, 1, 15, 0⟩], egress.pendProt := [(4, [⟨16383, 2, 15, 0⟩])] })] }
def fl (n x : Nat) : FlowSt := { flow0 with ordinary := false, inPort := n, twin := x, paired := x != 0, itemsIn := 5, mergeSet := true, gaps := 3 }
def flowFields (flags delay pages : Nat) : List (Nat × Nat × Nat) :=
  [(16, 2, 65535), (20, 1, flags), (21, 1, 142), (22, 1, 0), (23, 1, 143), (24, 2, 16383), (28, 4, delay), (32, 2, 65535),
    (36, 4, 8126461), (40, 4, pages)]
def fset (flags delay pages : Nat) (l : Sparse FlowSt) : State := sent 0x0701 (par (flowFields flags delay pages)) (settable l)
def flows2 (b : Bool) : State := settable [(9, fl 127 (if b then 65535 else 0)), (65535, fl 126 (if b then 9 else 0))]
def crediting (m : Mode) : State := { up with modes.ports := [(143, m)], ports := [(143, { PortSt.dflt 143 with neg.cur := ⟨0, 0⟩, credit.allowProt := 2, credit.allowOrd := 1 })] }

def slotIn : SlotIn := { phases := List.replicate 96 10, inputMa := 100, vinMv := 12000, railsOut := 0, moves := [], errors := [] }
def frameIn : FrameIn := { freqErrPpb := 2, dtNs := 125000, sample := slotIn, restores := [] }
def atSlot (n : Nat) (zero : Bool) : State := { up with frame.slot := BitVec.ofNat 8 n, frame.number := 0xFFFFFFFF, frame.time := 500, cfg.frame0Due := zero }

def starting : State :=
  { inMode .bringUp with modes.bringUpFrames := [(31, 8000)], fab.editions := [(1, ed 3 2)], fab.binds := [(143, bound none)] }
/-- Folio 7 of carrel 35 runs, and with it the member that holds up edition 1's readiness. -/
def bringing : State :=
  { fab .bringUp 0 false with fab.editions := [(1, ed 3 2), (2, ed 4 2)], fab.binds := [(143, bound none)] }
def closing0 (d : Domain) (t : Nat) : ClosingSt := { dom := d, framesLeft := 0, test := t, left := 0, drained := true, tested := [31], lo := [], ix := [], id := some old }
def shutting (d : Domain) (t : Nat) : State := { inMode .closing with modes.closing := [closing0 d t], pkg.frameOut := true }
/-- Master m holds the arm of the block of this number. -/
def arm (m : Master) (n : Nat) (s : State) : State := { s with regs.arms := [{ master := m, block := n, left := 1 }], pkg.debugFuse := 2 }
def gatedUp : State := { up with clk.gatedBay := 0x80000000, clk.gateReqBay := 0x80000001 }
def wrong (n : Nat) : State := { up with regs.wrongKeys := [(5, n)], regs.arms := [{ master := .i2c, block := 5, left := 1 }] }
def locked5 : State := { up with regs.lockout := [(5, 1)] }
def lapsing : State := { up with regs.arms := [⟨.i2c, 5, 0⟩, ⟨.pcie, 5, 0⟩, ⟨.i2c, 5, 1⟩] }
def unlocking : State := { up with regs.lockout := [(5, 0)] }
def shelfSet : State := { up with regs.shelfId := 4, regs.shelfIdSet := true }
def lateTime : State := { up with frame.time := 0xFFFFFFFF }
def asked : State :=
  { up with clk.gateReqBay := BitVec.allOnes 32, clk.gateReqPort := BitVec.allOnes 144, clk.gateReqQe := BitVec.allOnes 16,
            clk.gateReqSide0 := true, clk.gateReqPcie := true, crypto.cache := [(0, true)] }
def askedEngine : State := { asked with clk.gatedPort := BitVec.allOnes 144 }
def drainOn : DrainSt := { active := true, ch := 0, addr := 0x1000, log2 := 6, prod := 5, cons := 127 }
def books : State :=
  { arm .i2c 9 up with log.latched := [(0x0101, 0), (0x0204, 3), (0x0B01, 2)], log.drain := drainOn, regs.arms := [⟨.i2c, 9, 3⟩, ⟨.i2c, 5, 3⟩, ⟨.i2c, 207, 1⟩] }
def qUp (d : QueueSt) : State := flowing d .service
def ringAt (f : RingSt → RingSt) : State :=
  let s := arm .i2c 10 up
  { s with slips.rings := [RingSt.reset, RingSt.reset, RingSt.reset, f { RingSt.reset with prod := 260, cons := 5, rprod := 3, rcons := 2, gen := 6 }] }
def ringOn : State := ringAt fun r => { r with enable := true }
def ringHeld (b : Bool) : State := ringAt fun r => { r with enable := b, draining := true, heldEnable := b }
def reply (ch : Channel) (l : List Byte) : Reply :=
  { id := { old with ch := ch }, completion := false, status := 0, flags := 0, detail := 0, result := l }
/-- A reply of this length waits on the channel. -/
def replying (ch : Channel) (n room : Nat) : State :=
  { ringAt (fun r => { r with enable := true, rprod := BitVec.ofNat 9 (256 - room), rcons := 0 }) with
    slips.chans := (List.replicate 6 ChanSt.reset).set ch.val { ChanSt.reset with waiting := [reply ch (List.replicate n 7), reply ch []] },
    slips.qOut := 16383, slips.fOut := 65535, slips.inEnabled := true, queues := [(16383, { q0 with sizeCode := 3 })], flows := [(65535, flow0)] }
def wait (ch : Channel) (n : Nat) : Reply := reply ch (List.replicate n 7)
def regBytes (off v : Nat) : List Byte := leBytes 3 off ++ leBytes 4 v
def bufBytes (off n : Nat) : List Byte := leBytes 2 off ++ [BitVec.ofNat 8 n] ++ List.replicate n 9
def sbUp (n w : Nat) : State :=
  { up with slips.sbQueue := List.replicate n [1], slips.sbBuffer := [(0, 1), (3, 1), (4095, 5)],
            slips.chans := (List.replicate 6 ChanSt.reset).set 4 { ChanSt.reset with written := List.replicate w eight, lastSeq := some 7 },
            slips.sbQuiet := 8000, regs.scratch := 0x12345678 }
def inItem : State :=
  { qUp { holding 31 3 3 false with words := [(0, BitVec.ofNat 256 0x0100010D), (1, 6), (15, hd 65535 3 1 0 9 255)] } with
    slips.inEnabled := true, slips.qIn := 16383 }
def twoFlows : State :=
  { qUp q0 with flows := [(0, { flow0 with egPort := 0, egQueue := 0 }), (65535, flow0)], queues := [(0, q0), (16383, q0)] }
def pairUp (b : Bool) : State := { up with desk.standbyReady := b, desk.reloading := true }
def alarmEv : Event := { cls := .alarm, code := 0x0204, subject := 3, detail := 5, frame := 9, slot := 2 }
def infoEv : Event := { cls := .info, code := 0x0A07, subject := 7, detail := 1, frame := 4, slot := 0 }
def traceEv : Event := { cls := .trace, code := 0x0B09, subject := 7, detail := 1, frame := 4, slot := 0 }
def other : Entry := Entry.ofEvent { alarmEv with code := 0x0301 }
def entry (n : Nat) : Entry := { Entry.ofEvent { alarmEv with frame := 2, detail := 3 } with count := n }
/-- These events wait, and the book holds n entries of another source and those given. -/
def logging (l : List Event) (n : Nat) (es : List Entry) : State :=
  { up with log.raised := l, log.ring := List.replicate n other ++ es, log.traceEn := true, pkg.pcieUp := true }
theorem book_fill (l : List Event) (n : Nat) : (logging l n []).bookFill = n := by simp [logging, State.bookFill]
theorem book_others {l : List Event} {n : Nat} {c : BitVec 16} (hc : other.code ≠ c) : ∀ e ∈ (logging l n []).log.ring, e.code ≠ c := by
  intro e he
  simp only [logging, List.append_nil, List.mem_replicate] at he
  exact he.2 ▸ hc
def unheard : State := { logging [traceEv, alarmEv] 0 [] with log.traceEn := false }
def draining (l : List Entry) (f : DrainSt → DrainSt) : State :=
  { up with log.ring := l, log.drain := f { active := true, ch := 2, addr := 4096, log2 := 6, prod := 0, cons := 65 } }
def periodOver : State := { up with log.periodLeft := 0, log.periodNext := 17, log.current := { nm := 1, alarms := 2, warnings := 3, info := 4, trace := 5 }, frame.number := 77 }
def latched : State := { up with log.latched := [(0x0204, 3), (0x0B01, 0), (0x0201, 5)], desk.doubleFail := false }
def latchedBy (l : List (BitVec 16 × Nat)) : State := { up with log.latched := l }
def latchedCold : State := { latchedBy [(0x0201, 3), (0x0B01, 0), (0x0101, 2)] with thm.nodes := [(47, { NodeSt.dflt with temp := 1808 })] }
def bookOf (b : Bool) : State := { up with log.ring := [entry 3, other, entry 1], log.drain := { LogSt.reset.drain with active := b, log2 := 6 } }
/-- A slip of one slot on the first host ring. -/
def hdr0 : SlipHdr := { hdr with ch := 0 }
def ringSlip (s : State) : State :=
  { s with pkg.pcieUp := true, slips.rings := [{ RingSt.reset with enable := true, prod := 3, cons := 2 }, RingSt.reset, RingSt.reset, RingSt.reset] }
/-- A part of one empty segment for this position, its trailer in place; its order A B C D E, its serial number 77. -/
def partOf (pos flags : Nat) : List Byte :=
  leBytes 4 0xD1C0F1A5 ++ leBytes 4 0xD191440B ++ leBytes 2 1 ++ leBytes 1 pos ++ leBytes 1 flags ++ leBytes 2 0 ++ leBytes 2 500 ++
    leBytes 4 0 ++ leBytes 2 1 ++ leBytes 2 0 ++ leBytes 12 0 ++ leBytes 4 77 ++ leBytes 120 0 ++ leBytes 4 0x7A11D1C0 ++ leBytes 4 192 ++
    leBytes 24 0
def intake (src : BitVec 2) (phase : Nat) : State :=
  { up with frame.running := false, modes.house := .intake, pkg.bootSrc := src, cfg.phase := phase, crypto.rngOk := true,
            pkg.streamKey := some 5, cfg.image := 0, cfg.streamInEffect := false }
def chained (pos : Option (BitVec 3)) (again : Bool) : State :=
  { intake 1 1 with cfg.startDone := true, cfg.position := pos, cfg.again := again, cfg.chainNext := 4, cfg.stageState := 1,
                    cfg.staged := [1, 2, 3], cfg.stagedBytes := 3, cfg.outActive := true }
/-- The CRC that a start block, or a data block with two bytes of payload, should carry. -/
def startCrc (pos : Nat) : BitVec 32 := BitVec.ofNat 32 (crc32 (chainBody 1 pos 0 []))
def dataCrc (pos seq : Nat) : BitVec 32 := BitVec.ofNat 32 (crc32 (chainBody 2 pos seq [9, 9]))
def chainGot : State := { chained (some 7) true with cfg.chainGot := true }
def wholePart (phase pos flags : Nat) : State :=
  { intake 1 phase with cfg.staged := partOf pos flags, cfg.stagedBytes := 192, cfg.stageState := 1, cfg.stagedFrom := 1 }
def fromReserve : State := { wholePart 4 255 1 with cfg.stagedFrom := 4 }
def locked (r : Bool) (st : Nat) : State :=
  { intake 1 5 with cfg.streamInEffect := true, clk.loopLock := 63, clk.qualA := true, clk.qualB := true, frame.running := r, cfg.stepsDone := st,
                    cfg.order := 0x44D1, cfg.rdvTimeout := 500, cfg.rdvFrames := 500, cfg.rdvWait := st == 4, cfg.stepTaken := some 5 }
def notYet : State := { locked true 4 with cfg.rdvFrames := 499 }
def noTimeout : State := { locked true 4 with cfg.rdvTimeout := 0 }
def streaming (m : Mode) (st : Nat) (w : List CfgWork) : State :=
  { up with modes.house := m, cfg.stageState := st, cfg.work := w, cfg.phase := 5, cfg.staged := partOf 0 0, cfg.stagedBytes := 192,
            crypto.rights := [(33, { accLo := 0, accHi := 0x80000000, view := 0 })], pkg.streamKey := some 5 }
def flashed (w : List CfgWork) : State := { streaming .bindery 2 w with cfg.flash := [(5, 1), (255, 2), (256, 3), (0x10000, 4)] }
def staging (len : Nat) : CfgWork := .stage old 0 (some block64) 0 0 len len
def shortPart : State := { streaming .service 1 [.auth old] with cfg.staged := [1], cfg.stagedBytes := 1 }
/-- The sweep is at this place of bay 31; carrel 35's folio 0 is the active one, and a correction of its folio 7 waits. -/
def waits7 : Correction := { folioKey := 9215, frame := 3, bit := 8, left := 0, ready := false }
def shelved (p : Nat) (cat : Option (List Nat)) : State :=
  { fab .service 1 false with
    fab.folios := [(9704, { store 10 with catalogue := cat }), (9711, { store 17 with catalogue := some [3] })]
    shelf.position := p, shelf.positionSh := p, shelf.pending := [waits7], shelf.essential := 65535, shelf.readThisFrame := 7811 }
/-- Frame 639 of that folio, and of folio 7. -/
def at0 : Nat := 9208 * 640 + 639
def at7 : Nat := 9215 * 640 + 639
def turningOut : Correction := { folioKey := 9208, frame := 639, bit := 8, left := 1, ready := true }
def twoPending : State := { shelved 0 none with shelf.pending := [{ turningOut with ready := false }, turningOut, waits7] }
def swept : State := { shelved 5 none with shelf.sweepFrames := 800, shelf.stallRun := 4, shelf.stalls := 255 }
theorem met_of {n m : Nat} (e : n = m) : signatureMet n [Config.blockSignature m] = true := by
  have z : lfsr64 0#64 = 0#64 := by decide
  subst e; simp [signatureMet, compact, z]
theorem unmet_of {n m : Nat} (e : n = m) : signatureMet n [Config.blockSignature m + 1] = false := by
  have z : lfsr64 0#64 = 0#64 := by decide
  subst e; simp [signatureMet, compact, z]
def again0 (x : SliceSt) : SliceSt := { x with rerun := true, blockStart := 0 }
def again1 (x : SliceSt) : SliceSt := { x with rerun := true, blockStart := 0, pattern := 127, left := 1 }
def sliced (f : SliceSt → SliceSt) : State :=
  { fab .service 1 false with
    fab.carrels := [(1151, { CarrelSt.dflt with rota := rota2, cur := 1, slicing := true })]
    stock.carrels := [(1151, f { SliceSt.dflt with pattern := 16384, blockStart := 16256, left := 0 })], stock.policy := [(31, 2)], stock.failures := 65535 }
def noPolicy : State := { sliced (fun x => { x with rerun := true, blockStart := 0 }) with stock.policy := [] }
def testDue (r : Bool) (rep : Nat) : TestSt := { logic := true, banks := true, poolBanks := true, repair := rep, budget := 9, paused := false, running := r, stop := none, id := some old }
def tested (r ok : Bool) (rep : Nat) : State :=
  { up with modes.bays := [(31, .bindery)], stock.tests := [(31, testDue r rep)], pwr.vinMv := if ok then 11400 else 12601, clk.loopLock := 63 }
def recording (n : Nat) : State := { up with stock.recordWrite := some (List.replicate n (List.replicate 16 5)), cfg.flash := [(0x5FFFFFFF, 1), (0x61000000, 2)] }
def bayOf (m : Mode) (r : RotaSt) : State :=
  { up with modes.bays := [(31, m)], stock.results := [1, 2, 3], fab.carrels := (List.range 36).map fun c => (31 * 36 + c, { CarrelSt.dflt with rota := r }),
            stock.carrels := [(1151, { SliceSt.dflt with stopped := true })], stock.declared := 0xFFFFFFFF, clk.gatedBay := 0x7FFFFFFF,
            stock.rows := [(4863, 0, 3)], stock.columns := [(4862, 9)] }
def rota9 : RotaSt := ⟨false, [w32 (99 * 65536 + 7), w32 (149 * 65536 + 9)]⟩
def bayTested : State := { bayOf .bindery rota9 with stock.tests := [(24, testDue true 0)] }
def powered (n : NodeSt → NodeSt) : State :=
  { up with pwr.railOut := 3, pwr.vinRun := 8, thm.timer := 16000, thm.nodes := [(47, n NodeSt.dflt)], stock.spoiled := 0,
            pwr.fault := [(5, 1)], pwr.mismatch := [(83, 8)], pwr.restoring := [(false, 31, old), (true, 7, old)], pwr.offBay := 0x80000000, pwr.offLg := 0x80 }
def warm (w : Bool) (n : NodeSt) : NodeSt := { n with warn := w, warnHi := 64, warnLo := 64 }
def banded (b : Nat) (up down : List Nat) (n : NodeSt) : NodeSt := { n with band := b, bandUp := up, bandDown := down }
def sensorUp (k : Int) : State := { powered id with pwr.phase := List.replicate 96 k }
def pinnedNode (n : NodeSt) : NodeSt := { n with pinned := true }
def released (k : Nat) : State := { powered id with thm.nodes := [(46, pinnedNode NodeSt.dflt)], pwr.passed := [(95, 1024), (96, k)] }
def railed (off : BitVec 8) (gp : BitVec 144) : State := { up with clk.gatedBay := 0x80000000, clk.gatedPort := gp, pwr.offLg := off, pwr.offBay := 1 }
def tap : State := { up with tap.boundary := 0xABCDE }
def debugging (f : BitVec 2) : State :=
  { up with pkg.debugFuse := f, regs.scratch := 0x89ABCDEF, mem.layer := [(0, 5), (7, 200)], modes.bays := [(0, .bindery), (31, .bindery)] }
def regDr (off : Nat) (w : Bool) : BitVec 56 := BitVec.ofNat 56 (0x13572468 + off * 2 ^ 32 + (if w then 2 ^ 54 else 0) + 2 ^ 55)
def memDr (a : Nat) : BitVec 102 := BitVec.ofNat 102 (a * 2 ^ 64 + 2 ^ 101)
def laneUp (m : Mode) : State := { up with modes.ports := [(143, m)], ports := [(143, { PortSt.dflt 143 with lane.prbsErr := [1, 2, 3, 4], lane.injCount := [5, 6, 7, 8], lane.lockLost := 15 })] }

/-! ## The witnesses -/

theorem witness_StepRunsFrontCommand (h : Obligations.StepRunsFrontCommand) :
    step { State.reset with pending := [.vstbyLoss] } = exec .vstbyLoss { State.reset with pending := [] } ∧
    step State.reset = .next State.reset :=
  ⟨h.1 .vstbyLoss [] State.reset,
   h.2 State.reset rfl⟩

theorem witness_ResetState (h : Obligations.ResetState) :
    Completes (.porstNAssert) (State.reset) ∧
    Completes (.vin12Shutdown) (up) ∧
    Completes (.vstbyLoss) (up) :=
  ⟨completes1 ((((h).2 State.reset)).1),
   (by refine completes1 ((((h).2 up)).2.1 ?_); decide +kernel),
   completes1 ((((h).2 up)).2.2)⟩

theorem witness_SuppliesRise (h : Obligations.SuppliesRise) :
    Completes (.vstbyRise) (offStandby) ∧
    Completes (.vin12Rise 3 1) (offRails) ∧
    Completes (.vin12Rise 3 1) (offHeld) ∧
    Completes (.porstNRelease 3 1) (heldOn) ∧
    Completes (.leaveReset) (atReset true) ∧
    Completes (.leaveReset) (atReset false) :=
  ⟨(by refine completes0 ((h offStandby 3 1).1 ?_); decide +kernel),
   (by refine completes0 ((h offRails 3 1).2.1 ?_ ?_ ?_) <;> decide +kernel),
   (by refine completes0 ((h offHeld 3 1).2.2.1 ?_ ?_ ?_) <;> decide +kernel),
   (by refine completes0 ((h heldOn 3 1).2.2.2.1 ?_); decide +kernel),
   (by refine completes1 ((h (atReset true) 3 1).2.2.2.2.1 ?_ ?_ ?_ ?_ ?_ ?_) <;> decide +kernel),
   (by refine completes0 ((h (atReset false) 3 1).2.2.2.2.2 ?_); decide +kernel)⟩

theorem witness_ClocksQualifyAndTrip (h : Obligations.ClocksQualifyAndTrip) :
    Completes (.monitorWindowEnd expectedCount 25000 19440 63) (counted 63) ∧
    Completes (.clockStoppedDetect 8) (qualified) ∧
    Completes (.clockStoppedDetect 0) (qualified) :=
  ⟨(by refine completes1 (((h).1 (counted 63) expectedCount 25000 19440 0x3F) ?_ ?_ ?_) <;> decide +kernel),
   completes1 ((((h).2 qualified) (by decide +kernel) (by decide +kernel)).1 8),
   (by refine completes1 ((((h).2 qualified) (by decide +kernel) (by decide +kernel)).2 ?_ ?_ ?_) <;> decide +kernel)⟩

theorem witness_ClockSourcesMove (h : Obligations.ClockSourcesMove) :
    Completes (.ioscSStopped) (onCold) ∧
    Completes (.ioscSRunsAgain) (stoppedAll) ∧
    Completes (.glitchFreeSwitchDone 3) (switching) ∧
    Completes (.switchForced 3) (switching) ∧
    Completes (.overrideQualifyTimeout false) (overriding false) :=
  ⟨(by refine completes0 ((((h).1 onCold 3)).1 ?_); decide +kernel),
   (by refine completes0 ((((h).1 stoppedAll 3)).2.1 ?_); decide +kernel),
   completes1 ((((h).1 switching 3)).2.2.1),
   (by refine completes1 ((((h).1 switching 3)).2.2.2 { target := .ioscF, forced := false } ?_); decide +kernel),
   (by refine completes1 ((h).2 (overriding false) false true 8000 old ?_ ?_ ?_ ?_) <;> decide +kernel)⟩

theorem witness_ClockSlips (h : Obligations.ClockSlips) :
    Completes (.clockSet hdr (par [(16, 1, 31), (17, 1, 1), (18, 1, 0), (19, 1, 1), (20, 1, 2), (21, 1, 0), (22, 1, 1), (23, 1, 15)])) (sent 259 (par [(16, 1, 31), (17, 1, 1), (18, 1, 0), (19, 1, 1), (20, 1, 2), (21, 1, 0), (22, 1, 1), (23, 1, 15)]) up) ∧
    Completes (.clockRestore hdr (par [(16, 1, 0)])) (sent 260 (par [(16, 1, 0)]) qualified) :=
  ⟨(by refine completes1 ((h (sent 0x0103 (par [(16, 1, 31), (17, 1, 1), (18, 1, 0), (19, 1, 1), (20, 1, 2), (21, 1, 0), (22, 1, 1), (23, 1, 15)]) up) hdr (par [(16, 1, 31), (17, 1, 1), (18, 1, 0), (19, 1, 1), (20, 1, 2), (21, 1, 0), (22, 1, 1), (23, 1, 15)]) (by decide)).1 ?_ ?_) <;> first | exact ok_of (by decide +kernel) | exact takes_of (by decide +kernel)),
   (by refine completes1 ((h (sent 0x0104 (par [(16, 1, 0)]) qualified) hdr (par [(16, 1, 0)]) (by decide)).2 ?_ ?_) <;> first | exact ok_of (by decide +kernel) | exact takes_of (by decide +kernel))⟩

theorem witness_FrameEdgesAndLock (h : Obligations.FrameEdgesAndLock) :
    Completes (.frameInEdge 500) (onPin) ∧
    Completes (.frameOutEdge true) (driving) ∧
    Completes (.frameOutEdge false) (driving) ∧
    Completes (.loopLocked) (running 64 false) ∧
    Completes (.loopLocked) (running 63 false) ∧
    Completes (.frameUnlocked) (running 63 false) ∧
    Completes (.frameOverrun 5) (running 63 false) :=
  ⟨(by refine completes1 ((((h).1 onPin 500)).1 ?_ ?_ ?_) <;> decide +kernel),
   (by refine completes0 ((((h).1 driving 0)).2.1 ?_); decide +kernel),
   completes0 ((((h).1 driving 0)).2.2),
   (by refine completes0 ((((h).2 (running 64 false) 5)).1 ?_); decide +kernel),
   (by refine completes0 ((((h).2 (running 63 false) 5)).2.1 ?_); decide +kernel),
   (by refine completes1 ((((h).2 (running 63 false) 5)).2.2.1 ?_ ?_) <;> decide +kernel),
   (by refine completes1 ((((h).2 (running 63 false) 5)).2.2.2 ?_ ?_) <;> decide +kernel)⟩

theorem witness_SourceLostAndQualified (h : Obligations.SourceLostAndQualified) :
    Completes (.frameSourceLoss) (losing) ∧
    Completes (.frameSourceQualified) (losing) ∧
    Completes (.frameSourceQualified) (waiting) ∧
    Completes (.frameSourceQualifyTimeout) (waiting) :=
  ⟨(by refine completes1 ((h losing).1 ?_ ?_ ?_ ?_) <;> decide +kernel),
   (by refine completes0 ((h losing).2.1 ?_ ?_ ?_) <;> decide +kernel),
   (by refine completes0 ((h waiting).2.2.1 srcIn old 8000 ?_ ?_ ?_) <;> decide +kernel),
   (by refine completes1 ((h waiting).2.2.2 srcIn old 8000 ?_ ?_ ?_ ?_ ?_) <;> decide +kernel)⟩

theorem witness_FrameSlips (h : Obligations.FrameSlips) :
    Completes (.frameSource hdr (par [(16, 1, 1), (18, 1, 1), (19, 1, 3), (20, 4, 62500), (24, 1, 0)])) (sent 257 (par [(16, 1, 1), (18, 1, 1), (19, 1, 3), (20, 4, 62500), (24, 1, 0)]) framePend) ∧
    Completes (.frameNumberSet hdr (par [(16, 4, 9), (20, 4, 65535)])) (sent 258 (par [(16, 4, 9), (20, 4, 65535)]) up) :=
  ⟨(by refine completes3 ((h (sent 0x0101 (par [(16, 1, 1), (18, 1, 1), (19, 1, 3), (20, 4, 62500), (24, 1, 0)]) framePend) hdr (par [(16, 1, 1), (18, 1, 1), (19, 1, 3), (20, 4, 62500), (24, 1, 0)]) (by decide)).1 ?_ ?_) <;> first | exact ok_of (by decide +kernel) | exact takes_of (by decide +kernel)),
   (by refine completes2 ((h (sent 0x0102 (par [(16, 4, 9), (20, 4, 65535)]) up) hdr (par [(16, 4, 9), (20, 4, 65535)]) (by decide)).2 ?_ ?_) <;> first | exact ok_of (by decide +kernel) | exact takes_of (by decide +kernel))⟩

theorem witness_ModeSlips (h : Obligations.ModeSlips) :
    Completes (.modeSet hdr (par [(16, 1, 1), (17, 1, 4), (18, 2, 31), (20, 2, 65535), (22, 2, 0), (26, 1, 1)]) true) (sent 3073 (par [(16, 1, 1), (17, 1, 4), (18, 2, 31), (20, 2, 65535), (22, 2, 0), (26, 1, 1)]) (inMode Mode.service)) ∧
    Completes (.modeSet hdr (par [(16, 1, 2), (17, 1, 2), (18, 2, 143)]) false) (sent 3073 (par [(16, 1, 2), (17, 1, 2), (18, 2, 143)]) (inMode Mode.service)) ∧
    Completes (.modeSet hdr (par [(16, 1, 0), (17, 1, 2)]) true) (sent 3073 (par [(16, 1, 0), (17, 1, 2)]) (inMode Mode.intake)) ∧
    Completes (.modeQuery hdr (par [])) (sent 3074 (par []) (inMode Mode.holdover)) :=
  ⟨(by refine completes2 ((((h (sent 0x0C01 (par [(16, 1, 1), (17, 1, 4), (18, 2, 31), (20, 2, 65535), (22, 2, 0), (26, 1, 1)]) (inMode .service)) hdr (par [(16, 1, 1), (17, 1, 4), (18, 2, 31), (20, 2, 65535), (22, 2, 0), (26, 1, 1)]) (.bay 31) .bindery true).1) (takes_of (by decide +kernel)) rfl rfl (ok_of (by decide +kernel))).1 ?_ ?_ ?_ ?_) <;> decide +kernel),
   (by refine completes1 ((((h (sent 0x0C01 (par [(16, 1, 2), (17, 1, 2), (18, 2, 143)]) (inMode .service)) hdr (par [(16, 1, 2), (17, 1, 2), (18, 2, 143)]) (.port 143) .service false).1) (takes_of (by decide +kernel)) rfl rfl (ok_of (by decide +kernel))).2.1 ?_ ?_ ?_) <;> decide +kernel),
   (by refine completes1 ((((h (sent 0x0C01 (par [(16, 1, 0), (17, 1, 2)]) (inMode .intake)) hdr (par [(16, 1, 0), (17, 1, 2)]) .house .service true).1) (takes_of (by decide +kernel)) rfl rfl (ok_of (by decide +kernel))).2.2 ?_ ?_ ?_) <;> decide +kernel),
   (by refine completes2 (((h (sent 0x0C02 (par []) (inMode .holdover)) hdr (par []) .house .service true).2) ?_ ?_) <;> first | exact ok_of (by decide +kernel) | exact takes_of (by decide +kernel))⟩

theorem witness_CarrelTurns (h : Obligations.CarrelTurns) :
    Completes (.turn 31 35 tin upsets) (fabStill) ∧
    Completes (.turn 31 35 tin upsets) (fab Mode.service 0 false) ∧
    Completes (.carrelBankAccess 31 35 3 99 none none []) (fab Mode.service 0 false) ∧
    Completes (.carrelBankAccess 31 35 3 98 none (some (2047, 77)) []) (fab Mode.service 0 false) ∧
    Completes (.carrelBankAccess 31 35 3 0 (some 2047) none []) (fab Mode.service 0 false) ∧
    Completes (.carrelBankAccess 31 35 2 4 (some 2047) (some (2047, 77)) []) (fab Mode.service 0 false) :=
  ⟨(by refine completes0 ((((h).1 fabStill 31 35 tin upsets ?_)).1 ?_) <;> decide +kernel),
   (by refine completes1 ((((h).1 (fab .service 0 false) 31 35 tin upsets ?_)).2 ?_) <;> decide +kernel),
   (by refine completes0 ((((h).2 (fab .service 0 false) 31 35 3 99 2047 77 [] ?_)).1 none none ?_) <;> decide +kernel),
   (by refine completes1 ((((h).2 (fab .service 0 false) 31 35 3 98 2047 77 [] ?_)).2.1 ?_ ?_ ?_ ?_) <;> decide +kernel),
   (by refine completes1 ((((h).2 (fab .service 0 false) 31 35 3 0 2047 77 [] ?_)).2.2.1 ?_ ?_ ?_ ?_) <;> decide +kernel),
   (by refine completes1 ((((h).2 (fab .service 0 false) 31 35 2 4 2047 77 [] ?_)).2.2.2 ?_ ?_ ?_ ?_) <;> decide +kernel)⟩

theorem witness_LoaderWrites (h : Obligations.LoaderWrites) :
    Completes (.folioWriteComplete 31 35 7) (loading FolioState.loading) ∧
    Completes (.reloadRewriteStart 31 35 7) (loading FolioState.reloading) ∧
    Completes (.archiveReadError 31) (loading FolioState.loading) :=
  ⟨(by refine completes1 (((h (loading .loading) 31 35 7 ?_)).1 (item .empty false) copy9 none ?_ ?_ ?_ ?_ ?_ ?_ (.inl ?_)) <;> decide +kernel),
   (by refine completes1 (((h (loading .reloading) 31 35 7 ?_)).2.1 ?_) <;> decide +kernel),
   (by refine completes1 (((h (loading .loading) 31 35 7 ?_)).2.2 (item .empty false) { num := 4, kind := .folios, id := some old } old ?_ ?_ ?_ ?_) <;> decide +kernel)⟩

theorem witness_AttachesMove (h : Obligations.AttachesMove) :
    Completes (.lineAttachIngress 143 bytes9) (att0 bytes9) ∧
    Completes (.lineAttachTake 143 false) (att0 bytes9) ∧
    Completes (.lineAttachSend 143 false 8 1) (att0 bytes9) ∧
    Completes (.egressUnderrun 143) (att0 bytes9) ∧
    Completes (.itemAttachBeat 143 false 8) (attIx 2) ∧
    Completes (.itemAttachBeat 143 false 8) (attIx 3) ∧
    Completes (.egressTake 143 false) (attIx 3) ∧
    Completes (.egressTake 143 false) (attIx 2) ∧
    Completes (.liRelease 143) (attSw 7) ∧
    Completes (.loRelease 143) (attSw 7) ∧
    Completes (.ixRelease 143) (attSw 7) ∧
    Completes (.editionSwitchForced 143) (attSw 8) :=
  ⟨(by refine completes1 ((((h).1 (att0 bytes9) 143 false bytes9 (bound none) 8 1 ?_ ?_ ?_)).1 ?_ ?_ ?_) <;> decide +kernel),
   (by refine completes1 ((((h).1 (att0 bytes9) 143 false bytes9 (bound none) 8 1 ?_ ?_ ?_)).2.1 ?_ ?_ ?_) <;> decide +kernel),
   (by refine completes1 ((((h).1 (att0 bytes9) 143 false bytes9 (bound none) 8 1 ?_ ?_ ?_)).2.2.1 ?_ ?_ ?_ ?_ ?_) <;> decide +kernel),
   (by refine completes1 ((((h).1 (att0 bytes9) 143 false bytes9 (bound none) 8 1 ?_ ?_ ?_)).2.2.2 ?_ ?_) <;> decide +kernel),
   (by refine completes1 ((((h).2.1 (attIx 2) 143 false (bound none) 8 ?_ ?_ ?_ ?_)).1 ?_ ?_ ?_) <;> decide +kernel),
   (by refine completes1 ((((h).2.1 (attIx 3) 143 false (bound none) 8 ?_ ?_ ?_ ?_)).2.1 1 2 3 ?_ ?_ ?_ ?_) <;> decide +kernel),
   (by refine completes1 ((((h).2.1 (attIx 3) 143 false (bound none) 8 ?_ ?_ ?_ ?_)).2.2.1 6 [] ?_) <;> decide +kernel),
   (by refine completes1 ((((h).2.1 (attIx 2) 143 false (bound none) 8 ?_ ?_ ?_ ?_)).2.2.2 ?_) <;> decide +kernel),
   (by refine completes1 ((((h).2.2 (attSw 7) 143 (bound (some (swOld 7))) (swOld 7) ?_ ?_ ?_)).1 ?_) <;> decide +kernel),
   (by refine completes1 ((((h).2.2 (attSw 7) 143 (bound (some (swOld 7))) (swOld 7) ?_ ?_ ?_)).2.1 ?_) <;> decide +kernel),
   (by refine completes1 ((((h).2.2 (attSw 7) 143 (bound (some (swOld 7))) (swOld 7) ?_ ?_ ?_)).2.2.1 ?_) <;> decide +kernel),
   (by refine completes1 ((((h).2.2 (attSw 8) 143 (bound (some (swOld 8))) (swOld 8) ?_ ?_ ?_)).2.2.2 ?_) <;> decide +kernel)⟩

theorem witness_RotaSetPendsOrCommits (h : Obligations.RotaSetPendsOrCommits) :
    Completes (.rotaSet (hdrN 2) (parN 2 [(16, 1, 2)])) (sentN 2 1025 (parN 2 [(16, 1, 2)]) (fab Mode.service 0 false)) ∧
    Completes (.rotaSet (hdrN 2) (parN 2 (rec1 0 1 62499 1))) (sentN 2 1025 (parN 2 (rec1 0 1 62499 1)) (fab Mode.service 0 false)) ∧
    Completes (.rotaSet (hdrN 2) (parN 2 (rec1 1 1 100 149))) (sentN 2 1025 (parN 2 (rec1 1 1 100 149)) (fab Mode.service 0 false)) ∧
    Completes (.rotaSet (hdrN 2) (parN 2 (rec1 1 1 98 150))) (sentN 2 1025 (parN 2 (rec1 1 1 98 150)) (fab Mode.bindery 0 false)) ∧
    Completes (.rotaSet (hdrN 2) (parN 2 (rec1 1 1 98 150))) (sentN 2 1025 (parN 2 (rec1 1 1 98 150)) (fab Mode.service 0 false)) :=
  ⟨(by refine completes1 (((h (sentN 2 0x0401 (parN 2 [(16, 1, 2)]) (fab .service 0 false)) (hdrN 2) (parN 2 [(16, 1, 2)]) ?_ ?_ ?_ ?_ ?_ ?_ ?_ ?_ ?_ ?_)).1 ?_) <;> first | decide +kernel | exact ok_of (by decide +kernel) | exact takes_of (by decide +kernel)),
   (by refine completes1 (((h (sentN 2 0x0401 (parN 2 (rec1 0 1 62499 1)) (fab .service 0 false)) (hdrN 2) (parN 2 (rec1 0 1 62499 1)) ?_ ?_ ?_ ?_ ?_ ?_ ?_ ?_ ?_ ?_)).2.1 ?_) <;> first | decide +kernel | exact ok_of (by decide +kernel) | exact takes_of (by decide +kernel)),
   (by refine completes1 (((h (sentN 2 0x0401 (parN 2 (rec1 1 1 100 149)) (fab .service 0 false)) (hdrN 2) (parN 2 (rec1 1 1 100 149)) ?_ ?_ ?_ ?_ ?_ ?_ ?_ ?_ ?_ ?_)).2.2.1 St.rotaLength ?_ ?_ ?_) <;> first | decide +kernel | exact ok_of (by decide +kernel) | exact takes_of (by decide +kernel)),
   (by refine completes1 (((h (sentN 2 0x0401 (parN 2 (rec1 1 1 98 150)) (fab .bindery 0 false)) (hdrN 2) (parN 2 (rec1 1 1 98 150)) ?_ ?_ ?_ ?_ ?_ ?_ ?_ ?_ ?_ ?_)).2.2.2.1 ?_ ?_ ?_ ?_) <;> first | decide +kernel | exact ok_of (by decide +kernel) | exact takes_of (by decide +kernel)),
   (by refine completes2 (((h (sentN 2 0x0401 (parN 2 (rec1 1 1 98 150)) (fab .service 0 false)) (hdrN 2) (parN 2 (rec1 1 1 98 150)) ?_ ?_ ?_ ?_ ?_ ?_ ?_ ?_ ?_ ?_)).2.2.2.2 ?_ ?_ ?_) <;> first | decide +kernel | exact ok_of (by decide +kernel) | exact takes_of (by decide +kernel))⟩

theorem witness_LoadAndRetireSlips (h : Obligations.LoadAndRetireSlips) :
    Completes (.folioLoad hdr (par [(16, 2, 1), (20, 1, 31), (21, 1, 35), (22, 1, 7)])) (sent 1027 (par [(16, 2, 1), (20, 1, 31), (21, 1, 35), (22, 1, 7)]) (archived Mode.bringUp FolioState.inRota 0)) ∧
    Completes (.editionLoad hdr (par [(16, 2, 1023)])) (sent 1028 (par [(16, 2, 1023)]) (archived Mode.service FolioState.empty 0)) ∧
    Completes (.editionRetire hdr (par [(16, 2, 1023), (18, 1, 1)])) (sent 1034 (par [(16, 2, 1023), (18, 1, 1)]) (archived Mode.service FolioState.loaded 2)) :=
  ⟨(by refine completes1 ((h (sent 0x0403 (par [(16, 2, 1), (20, 1, 31), (21, 1, 35), (22, 1, 7)]) (archived .bringUp .inRota 0)) hdr (par [(16, 2, 1), (20, 1, 31), (21, 1, 35), (22, 1, 7)]) ?_).1 ?_ ?_ ?_ ?_ ?_ ?_ ?_) <;> first | decide +kernel | exact ok_of (by decide +kernel) | exact takes_of (by decide +kernel)),
   (by refine completes1 ((h (sent 0x0404 (par [(16, 2, 1023)]) (archived .service .empty 0)) hdr (par [(16, 2, 1023)]) ?_).2.1 (ed 1 0) ?_ ?_ ?_ ?_ ?_ ?_) <;> first | decide +kernel | exact ok_of (by decide +kernel) | exact takes_of (by decide +kernel)),
   (by refine completes1 ((h (sent 0x040A (par [(16, 2, 1023), (18, 1, 1)]) (archived .service .loaded 2)) hdr (par [(16, 2, 1023), (18, 1, 1)]) ?_).2.2 (ed 1 2) ?_ ?_ ?_ ?_ ?_) <;> first | decide +kernel | exact ok_of (by decide +kernel) | exact takes_of (by decide +kernel))⟩

theorem witness_BindingsPendOrEnd (h : Obligations.BindingsPendOrEnd) :
    Completes (.editionBind hdr (par [(16, 2, 1), (18, 1, 0), (19, 1, 1), (20, 2, 143), (22, 1, 2), (23, 1, 0), (24, 1, 0), (25, 1, 1)])) (sent 1029 (par [(16, 2, 1), (18, 1, 0), (19, 1, 1), (20, 2, 143), (22, 1, 2), (23, 1, 0), (24, 1, 0), (25, 1, 1)]) (bindable false)) ∧
    Completes (.editionBind hdr (par [(16, 2, 1), (18, 1, 1), (19, 1, 1), (20, 2, 143)])) (sent 1029 (par [(16, 2, 1), (18, 1, 1), (19, 1, 1), (20, 2, 143)]) (bindable true)) ∧
    Completes (.editionSwitch hdr (par [(16, 2, 1), (18, 2, 2), (20, 1, 1), (24, 2, 143), (26, 1, 2), (28, 1, 0), (29, 1, 1)])) (sent 1030 (par [(16, 2, 1), (18, 2, 2), (20, 1, 1), (24, 2, 143), (26, 1, 2), (28, 1, 0), (29, 1, 1)]) (bindable true)) ∧
    Completes (.bankSet hdr (par [(16, 1, 2), (17, 1, 0), (18, 2, 1), (20, 1, 3), (21, 1, 0), (22, 1, 211)])) (sent 1032 (par [(16, 1, 2), (17, 1, 0), (18, 2, 1), (20, 1, 3), (21, 1, 0), (22, 1, 211)]) (banked Mode.bindery)) ∧
    Completes (.bankSet hdr (par [(16, 1, 0), (17, 1, 1), (18, 2, 2), (20, 1, 35), (21, 1, 2), (24, 1, 35), (25, 1, 3)])) (sent 1032 (par [(16, 1, 0), (17, 1, 1), (18, 2, 2), (20, 1, 35), (21, 1, 2), (24, 1, 35), (25, 1, 3)]) spared) ∧
    Completes (.changeAbandoned 4) (failing) :=
  ⟨(by refine completes2 (((((h).1) (sent 0x0405 (par [(16, 2, 1), (18, 1, 0), (19, 1, 1), (20, 2, 143), (22, 1, 2), (23, 1, 0), (24, 1, 0), (25, 1, 1)]) (bindable false)) hdr (par [(16, 2, 1), (18, 1, 0), (19, 1, 1), (20, 2, 143), (22, 1, 2), (23, 1, 0), (24, 1, 0), (25, 1, 1)])).1 ?_ ?_ ?_ ?_ ?_).1 ?_ ?_ ?_ ?_ ?_ ?_) <;> first | decide +kernel | exact ok_of (by decide +kernel) | exact takes_of (by decide +kernel)),
   (by refine completes2 (((((h).1) (sent 0x0405 (par [(16, 2, 1), (18, 1, 1), (19, 1, 1), (20, 2, 143)]) (bindable true)) hdr (par [(16, 2, 1), (18, 1, 1), (19, 1, 1), (20, 2, 143)])).1 ?_ ?_ ?_ ?_ ?_).2 ?_ ?_ ?_) <;> first | decide +kernel | exact ok_of (by decide +kernel) | exact takes_of (by decide +kernel)),
   (by refine completes2 ((((h).1) (sent 0x0406 (par [(16, 2, 1), (18, 2, 2), (20, 1, 1), (24, 2, 143), (26, 1, 2), (28, 1, 0), (29, 1, 1)]) (bindable true)) hdr (par [(16, 2, 1), (18, 2, 2), (20, 1, 1), (24, 2, 143), (26, 1, 2), (28, 1, 0), (29, 1, 1)])).2.1 ?_ ?_ ?_ ?_ ?_ ?_ ?_ ?_ ?_ ?_ ?_ ?_ ?_) <;> first | decide +kernel | exact ok_of (by decide +kernel) | exact takes_of (by decide +kernel)),
   (by refine completes2 (((((h).1) (sent 0x0408 (par [(16, 1, 2), (17, 1, 0), (18, 2, 1), (20, 1, 3), (21, 1, 0), (22, 1, 211)]) (banked .bindery)) hdr (par [(16, 1, 2), (17, 1, 0), (18, 2, 1), (20, 1, 3), (21, 1, 0), (22, 1, 211)])).2.2 ?_ ?_ ?_ ?_).1 ?_ ?_ ?_ ?_ ?_ ?_ ?_ ?_) <;> first | decide +kernel | exact ok_of (by decide +kernel) | exact takes_of (by decide +kernel)),
   (by refine completes2 (((((h).1) (sent 0x0408 (par [(16, 1, 0), (17, 1, 1), (18, 2, 2), (20, 1, 35), (21, 1, 2), (24, 1, 35), (25, 1, 3)]) spared) hdr (par [(16, 1, 0), (17, 1, 1), (18, 2, 2), (20, 1, 35), (21, 1, 2), (24, 1, 35), (25, 1, 3)])).2.2 ?_ ?_ ?_ ?_).2 ?_ ?_ ?_ ?_ ?_ ?_ ?_ ?_ ?_) <;> first | decide +kernel | exact ok_of (by decide +kernel) | exact takes_of (by decide +kernel)),
   (by refine completes1 ((h).2 failing 4 (abandoning 1) old ?_ ?_ ?_ ?_ ?_) <;> decide +kernel)⟩

theorem witness_LayerAccess (h : Obligations.LayerAccess) :
    exec (.memoryLayerRead 49 37748736 .clean) memUp = .fault .noSuchAddress ∧
    exec (.memoryLayerWrite 49 301989881 eight .clean) memUp = .fault .noSuchAddress ∧
    Completes (.memoryLayerRead 49 37748735 Found.clean) (memUp) ∧
    Completes (.memoryLayerRead 49 0 Found.clean) (memRetired) ∧
    Completes (.memoryLayerWrite 49 301989880 eight (Found.uncorrectable 3)) (memUp) ∧
    Completes (.memoryLayerWrite 49 5 [1, 2, 3] (Found.uncorrectable 3)) (memUp) :=
  ⟨(by refine (h memUp 0x31 0x2400000 0 [] .clean ?_).1 ?_ <;> decide +kernel),
   (by refine (h memUp 0x31 0 0x11FFFFF9 eight .clean ?_).2.1 ?_ <;> decide +kernel),
   (by refine completes1 ((h memUp 0x31 0x23FFFFF 0 [] .clean ?_).2.2.1 ?_ ?_ ?_ ?_) <;> decide +kernel),
   (by refine completes1 ((h memRetired 0x31 0 0 [] .clean ?_).2.2.2.1 ?_ ?_ ?_ ?_) <;> decide +kernel),
   (by refine completes1 ((h memUp 0x31 0 0x11FFFFF8 eight (.uncorrectable 3) ?_).2.2.2.2.1 ?_ ?_ ?_ ?_ ?_ ?_) <;> decide +kernel),
   (by refine completes1 ((h memUp 0x31 0 5 [1, 2, 3] (.uncorrectable 3) ?_).2.2.2.2.2 ?_ ?_ ?_ ?_ ?_ ?_) <;> decide +kernel)⟩

theorem witness_SideAccess (h : Obligations.SideAccess) :
    Completes (.sideStoreRead 31 1 Found.clean []) (memUp) ∧
    Completes (.sideStoreRead 31 536870911 Found.clean []) (memUp) ∧
    Completes (.sideStoreWrite 31 64 block64 Found.clean []) (memUp) ∧
    Completes (.sideStoreWrite 31 64 block64 Found.clean []) (spentBlock) ∧
    Completes (.sideStoreWrite 31 33285996544 block64 Found.clean []) (memUp) ∧
    Completes (.sideRefresh 1) (memUp) :=
  ⟨(by refine completes1 ((h memUp 31 1 64 block64 .clean [] 0 ?_ ?_ ?_).1 ?_ ?_ ?_ ?_ ?_ ?_) <;> decide +kernel),
   (by refine completes1 ((h memUp 31 0x1FFFFFFF 64 block64 .clean [] 1 ?_ ?_ ?_).2.1 ?_ ?_) <;> decide +kernel),
   (by refine completes1 ((h memUp 31 0 64 block64 .clean [] 0 ?_ ?_ ?_).2.2.1 ?_ ?_ ?_ ?_ ?_ ?_ ?_ ?_) <;> decide +kernel),
   (by refine completes1 ((h spentBlock 31 0 64 block64 .clean [] 0 ?_ ?_ ?_).2.2.2.1 ?_ ?_ ?_ ?_ ?_ ?_ ?_ ?_) <;> decide +kernel),
   (by refine completes1 ((h memUp 31 0 0x7C0000000 block64 .clean [] 0 ?_ ?_ ?_).2.2.2.2.1 ?_ ?_ ?_) <;> decide +kernel),
   (by refine completes0 ((h memUp 31 0 0 [] .clean [] 1 ?_ ?_ ?_).2.2.2.2.2 ?_ ?_ ?_) <;> decide +kernel)⟩

theorem witness_LayerRegionReadsBack (h : Obligations.LayerRegionReadsBack) :
    (writeRegion 0 33 0x31 0x11FFFFFA [9, 8, 7, 6, 5, 4] [] memUp).acc = .ok ∧
    (writeRegion 0 33 0x31 3 [9, 8, 7, 6, 5, 4] [] memUp).acc = .ok :=
  ⟨(by refine (h memUp 33 0x31 0x11FFFFFA [9, 8, 7, 6, 5, 4] ?_ ?_ ?_ ?_ ?_).1 <;> decide +kernel),
   (by refine (h memUp 33 0x31 3 [9, 8, 7, 6, 5, 4] ?_ ?_ ?_ ?_ ?_).1 <;> decide +kernel)⟩

theorem witness_MemorySlips (h : Obligations.MemorySlips) :
    Completes (.read hdr (par [(16, 1, 0), (20, 8, 3), (28, 4, 20)]) []) (sent 2049 (par [(16, 1, 0), (20, 8, 3), (28, 4, 20)]) memUp) ∧
    Completes (.write hdr (par [(16, 1, 0), (20, 8, 292552702), (28, 4, 2), (32, 2, 4660)]) []) (sent 2050 (par [(16, 1, 0), (20, 8, 292552702), (28, 4, 2), (32, 2, 4660)]) memUp) ∧
    Completes (.fill hdr (par [(16, 1, 1), (20, 8, 1073741824), (28, 8, 1073741824), (36, 8, 5)])) (sent 2051 (par [(16, 1, 1), (20, 8, 1073741824), (28, 8, 1073741824), (36, 8, 5)]) memUp) ∧
    Completes (.copy hdr (par [(16, 1, 0), (17, 1, 1), (20, 8, 64), (28, 8, 33285996480), (36, 8, 64)])) (sent 2052 (par [(16, 1, 0), (17, 1, 1), (20, 8, 64), (28, 8, 33285996480), (36, 8, 64)]) memUp) ∧
    Completes (.memoryFillDone []) (working false) ∧
    Completes (.memoryCopyDone [(64, Found.corrected 3 1)]) (working true) :=
  ⟨(by refine completes2 ((h (sent 0x0801 (par [(16, 1, 0), (20, 8, 3), (28, 4, 20)]) memUp) hdr (par [(16, 1, 0), (20, 8, 3), (28, 4, 20)]) [] ?_).1 ?_ ?_ ?_ ?_) <;> first | decide +kernel | exact ok_of (by decide +kernel) | exact takes_of (by decide +kernel)),
   (by refine completes2 ((h (sent 0x0802 (par [(16, 1, 0), (20, 8, 0x116FFFFE), (28, 4, 2), (32, 2, 0x1234)]) memUp) hdr (par [(16, 1, 0), (20, 8, 0x116FFFFE), (28, 4, 2), (32, 2, 0x1234)]) [] ?_).2.1 ?_ ?_ ?_ ?_ ?_ ?_) <;> first | decide +kernel | exact ok_of (by decide +kernel) | exact takes_of (by decide +kernel)),
   (by refine completes2 ((h (sent 0x0803 (par [(16, 1, 1), (20, 8, 0x40000000), (28, 8, 0x40000000), (36, 8, 5)]) memUp) hdr (par [(16, 1, 1), (20, 8, 0x40000000), (28, 8, 0x40000000), (36, 8, 5)]) [] ?_).2.2.1 ?_ ?_ ?_ ?_ ?_ ?_) <;> first | decide +kernel | exact ok_of (by decide +kernel) | exact takes_of (by decide +kernel)),
   (by refine completes2 ((h (sent 0x0804 (par [(16, 1, 0), (17, 1, 1), (20, 8, 64), (28, 8, 0x7BFFFFFC0), (36, 8, 64)]) memUp) hdr (par [(16, 1, 0), (17, 1, 1), (20, 8, 64), (28, 8, 0x7BFFFFFC0), (36, 8, 64)]) [] ?_).2.2.2.1 0 1 64 0x7BFFFFFC0 64 ?_ ?_ ?_ ?_ ?_ ?_ ?_ ?_ ?_ ?_ ?_ ?_ ?_ ?_) <;> first | decide +kernel | exact ok_of (by decide +kernel) | exact takes_of (by decide +kernel)),
   (by refine completes2 ((h (working false) hdr [] [] ?_).2.2.2.2.1 (work false) ?_ ?_ ?_ ?_) <;> decide +kernel),
   (by refine completes2 ((h (working true) hdr [] [(64, .corrected 3 1)] ?_).2.2.2.2.2 (work true) ?_ ?_ ?_ ?_) <;> decide +kernel)⟩

theorem witness_RetireSlips (h : Obligations.RetireSlips) :
    Completes (.retire hdr (par [(16, 1, 0), (17, 1, 0), (20, 4, 8388607)])) (sent 2053 (par [(16, 1, 0), (17, 1, 0), (20, 4, 8388607)]) memUp) ∧
    Completes (.retireClear hdr (par [(16, 1, 1), (20, 4, 0)])) (sent 2054 (par [(16, 1, 1), (20, 4, 0)]) memBindery) :=
  ⟨(by refine completes1 ((h (sent 0x0805 (par [(16, 1, 0), (17, 1, 0), (20, 4, 8388607)]) memUp) hdr (par [(16, 1, 0), (17, 1, 0), (20, 4, 8388607)])).1 ?_ ?_ ?_ ?_) <;> first | decide +kernel | exact ok_of (by decide +kernel) | exact takes_of (by decide +kernel)),
   (by refine completes1 ((h (sent 0x0806 (par [(16, 1, 1), (20, 4, 0)]) memBindery) hdr (par [(16, 1, 1), (20, 4, 0)])).2 ?_ ?_ ?_) <;> first | decide +kernel | exact ok_of (by decide +kernel) | exact takes_of (by decide +kernel))⟩

theorem witness_KeysAndRights (h : Obligations.KeysAndRights) :
    Completes (.rightsSet hdr (par [(16, 1, 31), (17, 1, 1), (18, 1, 1), (20, 4, 2147483649)])) (sent 2305 (par [(16, 1, 31), (17, 1, 1), (18, 1, 1), (20, 4, 2147483649)]) up) ∧
    Completes (.rekey hdr (par [(16, 1, 31)])) (sent 2307 (par [(16, 1, 31)]) (keyed 0)) ∧
    Completes (.keyFuseSet hdr (par [(16, 1, 1), (17, 1, 2)])) (sent 2310 (par [(16, 1, 1), (17, 1, 2)]) (fused none)) ∧
    Completes (.keyFuseSet hdr (par [(16, 1, 0), (63, 1, 1)])) (sent 2310 (par [(16, 1, 0), (63, 1, 1)]) (fused none)) ∧
    Completes (.keyFuseSet hdr (par [(16, 1, 0), (32, 1, 255)])) (sent 2310 (par [(16, 1, 0), (32, 1, 255)]) fused9) ∧
    Completes (.rngFail) (fused none) ∧
    Completes (.ledgerRead hdr (par [(20, 4, 8388607)])) (sent 2309 (par [(20, 4, 8388607)]) up) :=
  ⟨(by refine completes1 ((h (sent 0x0901 (par [(16, 1, 31), (17, 1, 1), (18, 1, 1), (20, 4, 0x80000001)]) up) hdr (par [(16, 1, 31), (17, 1, 1), (18, 1, 1), (20, 4, 0x80000001)]) ?_).1 ?_ ?_ ?_ ?_ ?_ ?_) <;> first | decide +kernel | exact ok_of (by decide +kernel) | exact takes_of (by decide +kernel)),
   (by refine completes1 ((h (sent 0x0903 (par [(16, 1, 31)]) (keyed 0)) hdr (par [(16, 1, 31)]) ?_).2.1 ?_ ?_ ?_) <;> first | decide +kernel | exact ok_of (by decide +kernel) | exact takes_of (by decide +kernel)),
   (by refine completes1 ((((h (sent 0x0906 (par [(16, 1, 1), (17, 1, 2)]) (fused none)) hdr (par [(16, 1, 1), (17, 1, 2)]) ?_).2.2.1) ?_ ?_ ?_).1 ?_) <;> first | decide +kernel | exact ok_of (by decide +kernel) | exact takes_of (by decide +kernel)),
   (by refine completes1 ((((h (sent 0x0906 (par [(16, 1, 0), (63, 1, 1)]) (fused none)) hdr (par [(16, 1, 0), (63, 1, 1)]) ?_).2.2.1) ?_ ?_ ?_).2.1 ?_ ?_) <;> first | decide +kernel | exact ok_of (by decide +kernel) | exact takes_of (by decide +kernel)),
   (by refine completes1 ((((h (sent 0x0906 (par [(16, 1, 0), (32, 1, 255)]) fused9) hdr (par [(16, 1, 0), (32, 1, 255)]) ?_).2.2.1) ?_ ?_ ?_).2.2 ?_ ?_) <;> first | decide +kernel | exact ok_of (by decide +kernel) | exact takes_of (by decide +kernel)),
   (by refine completes1 ((h (fused none) hdr [] ?_).2.2.2.1 ?_ ?_) <;> decide +kernel),
   (by refine completes2 ((h (sent 0x0905 (par [(20, 4, 8388607)]) up) hdr (par [(20, 4, 8388607)]) ?_).2.2.2.2 ?_ ?_ ?_ ?_ ?_ ?_) <;> first | decide +kernel | exact ok_of (by decide +kernel) | exact takes_of (by decide +kernel))⟩

theorem witness_LaneErrorsAndSkips (h : Obligations.LaneErrorsAndSkips) :
    Completes (.laneSyncAcquired 143 { lane := 0, positive := true }) (lanesT) ∧
    Completes (.laneSyncLost 143 3) (lanesT) ∧
    Completes (.receiveBufferRecentre 127 0) (lanesS) ∧
    Completes (.invalidSymbol 143 3 (BadSymbol.group d00 true)) (lanesT) ∧
    Completes (.invalidSymbol 143 3 BadSymbol.misplacedComma) (lanesT) ∧
    Completes (.qColumnReceived 128) (lanesF) ∧
    Completes (.lanePhaseLimit 127 0 true) (lanesW) ∧
    Completes (.elasticSlip 143) (lanesT) ∧
    Completes (.frameMarkReceived 143 [[1, 0, 0, 0, 0, 9, 9]] true 5) (marked) ∧
    Completes (.frameMarkReceived 143 [fm 16, fm 16, [1]] true 5) (wide) ∧
    Completes (.slotMarkReceived 143 [250]) (marked) ∧
    Completes (.slotMarkReceived 143 (sm 249 2)) (marked) ∧
    Completes (.skipSetReceived 143 [37, 36, 35, 37]) (marked) ∧
    Completes (.skipSetReceived 127 [36]) (lanesS) :=
  ⟨(by refine completes1 ((((h).1 lanesT 143 0 ?_ ?_ ?_)).1 true) <;> decide +kernel),
   (by refine completes1 ((((h).1 lanesT 143 3 ?_ ?_ ?_)).2.1 ?_ ?_) <;> decide +kernel),
   (by refine completes1 ((((h).1 lanesS 127 0 ?_ ?_ ?_)).2.2 ?_) <;> decide +kernel),
   (by refine completes1 ((((h).2.1 lanesT 143 3 (.group d00 true) ?_ ?_ ?_)).1 d00 true rfl (0, false) ?_ ?_) <;> decide +kernel),
   (by refine completes1 ((((h).2.1 lanesT 143 3 .misplacedComma ?_ ?_ ?_)).2 (.inl rfl)) <;> decide +kernel),
   (by refine completes1 ((((h).2.2.1 lanesF 128 ?_ ?_)).1 ?_ ?_) <;> decide +kernel),
   (by refine completes1 ((((h).2.2.1 lanesW 127 ?_ ?_)).2.1 0 true ?_ ?_) <;> decide +kernel),
   (by refine completes1 ((((h).2.2.1 lanesT 143 ?_ ?_)).2.2 ?_) <;> decide +kernel),
   (by refine completes1 ((((h).2.2.2 marked 143 [1, 0, 0, 0, 0, 9, 9] [] true 5 [] ?_ ?_)).1 ?_ ?_) <;> decide +kernel),
   (by refine completes1 ((((h).2.2.2 wide 143 (fm 0x10) [fm 0x10, [1]] true 5 [] ?_ ?_)).2.1 ?_ ?_) <;> decide +kernel),
   (by refine completes1 (((((h).2.2.2 marked 143 [250] [] true 5 [] ?_ ?_)).2.2.1 ?_).1 ?_) <;> decide +kernel),
   (by refine completes1 (((((h).2.2.2 marked 143 (sm 249 2) [] true 5 [] ?_ ?_)).2.2.1 ?_).2 ?_ ?_) <;> decide +kernel),
   (by refine completes1 ((((h).2.2.2 marked 143 (fm 0) [] true 5 [37, 36, 35, 37] ?_ ?_)).2.2.2.1 ?_) <;> decide +kernel),
   (by refine completes1 ((((h).2.2.2 lanesS 127 (fm 0) [] true 5 [36] ?_ ?_)).2.2.2.2 ?_) <;> decide +kernel)⟩

theorem witness_MarksItemsAndCheckers (h : Obligations.MarksItemsAndCheckers) :
    Completes (.portMarksLost 143) (runs Mode.service) ∧
    Completes (.portMarksRestored 143) (runs Mode.holdover) ∧
    Completes (.portMarksAbsent 143) (runs Mode.holdover) ∧
    Completes (.itemStartReceived 143) (runs Mode.holdover) ∧
    Completes (.itemStartReceived 143) (runs Mode.closing) ∧
    Completes (.itemEndReceived 143 32) (runs Mode.service) ∧
    Completes (.itemPoisonReceived 143) (runs Mode.service) ∧
    Completes (.prbsCheckerLock 143 3) (checking Mode.bindery 16) ∧
    Completes (.prbsLockLost 143 3 100) (checking Mode.bindery 16) ∧
    Completes (.errorInjection 143 3) (checking Mode.service 268500992) ∧
    Completes (.injOnce 143 3) (checking Mode.bindery 3221225472) :=
  ⟨(by refine completes0 ((((h).1 (runs .service) 143 9 ?_ ?_)).1 ?_ ?_) <;> decide +kernel),
   (by refine completes0 ((((h).1 (runs .holdover) 143 9 ?_ ?_)).2.1 ?_ ?_) <;> decide +kernel),
   (by refine completes0 ((((h).1 (runs .holdover) 143 9 ?_ ?_)).2.2.1 ?_ ?_) <;> decide +kernel),
   (by refine completes1 ((((h).1 (runs .holdover) 143 9 ?_ ?_)).2.2.2.1 ?_) <;> decide +kernel),
   (by refine completes1 ((((h).1 (runs .closing) 143 9 ?_ ?_)).2.2.2.2.1 ?_ ?_) <;> decide +kernel),
   (by refine completes1 (((((h).1 (runs .service) 143 32 ?_ ?_)).2.2.2.2.2 ?_).1) <;> decide +kernel),
   (by refine completes1 (((((h).1 (runs .service) 143 9 ?_ ?_)).2.2.2.2.2 ?_).2) <;> decide +kernel),
   (by refine completes1 ((((h).2 (checking .bindery 0x10) 143 3 100 ?_ ?_ ?_)).1 ?_) <;> decide +kernel),
   (by refine completes1 ((((h).2 (checking .bindery 0x10) 143 3 100 ?_ ?_ ?_)).2.1 ?_ ?_) <;> decide +kernel),
   (by refine completes1 ((((h).2 (checking .service 0x10010000) 143 3 100 ?_ ?_ ?_)).2.2.1 ?_ ?_ ?_) <;> decide +kernel),
   (by refine completes1 ((((h).2 (checking .bindery 0xC0000000) 143 3 100 ?_ ?_ ?_)).2.2.2 ?_ ?_ ?_) <;> decide +kernel)⟩

theorem witness_NegotiationSets (h : Obligations.NegotiationSets) :
    Completes (.negCapabilitiesReceived 143 (setOf 1 511 7 0 0 true)) (caps0) ∧
    Completes (.negProposeReceived 143 (got 2)) (prop3) ∧
    Completes (.negAcceptReceived 143 (got 3)) (sentTwice) ∧
    Completes (.negConfirmReceived 143 (setOf 4 511 7 40 8 true)) (conf2 { rate := 8, width := 2 } (some true)) ∧
    Completes (.negFailReceived 143 (setOf 5 511 7 40 8 true)) (conf2 { rate := 8, width := 2 } none) ∧
    Completes (.negRefuseReceived 143 (got 6)) (sent3 { rate := 1, width := 2 }) ∧
    Completes (.negCapabilitiesReceived 143 [1, 2, 3]) (caps0) ∧
    Completes (.negRefuseReceived 143 [1, 2, 3]) (caps0) :=
  ⟨(by refine completes1 (((h caps0 143 (setOf 1 0x1FF 7 0 0 true) ?_)).1 ?_ ?_) <;> first | decide +kernel | exact hears_of (by decide +kernel)),
   (by refine completes1 (((h prop3 143 (got 2) ?_)).2.1 ?_ ?_ ?_ ?_ ?_ ?_ ?_ ?_) <;> first | decide +kernel | exact hears_of (by decide +kernel)),
   (by refine completes1 (((h sentTwice 143 (got 3) ?_)).2.2.1 4 9 ?_ ?_ ?_) <;> first | decide +kernel | exact hears_of (by decide +kernel)),
   (by refine completes1 (((h (conf2 ⟨8, 2⟩ (some true)) 143 (setOf 4 0x1FF 7 0x28 8 true) ?_)).2.2.2.1 ?_ ?_ ?_) <;> first | decide +kernel | exact hears_of (by decide +kernel)),
   (by refine completes1 (((h (conf2 ⟨8, 2⟩ none) 143 (setOf 5 0x1FF 7 0x28 8 true) ?_)).2.2.2.2.1 ?_ ?_ ?_ ?_ ?_ ?_ ?_) <;> first | decide +kernel | exact hears_of (by decide +kernel)),
   (by refine completes1 (((h (sent3 ⟨1, 2⟩) 143 (got 6) ?_)).2.2.2.2.2.1 (8, 8) ?_ ?_) <;> first | decide +kernel | exact hears_of (by decide +kernel)),
   (by refine completes1 (((h caps0 143 [1, 2, 3] ?_)).2.2.2.2.2.2 ?_ ?_ ?_ (.negCapabilitiesReceived 143 [1, 2, 3]) (by decide)) <;> decide +kernel),
   (by refine completes1 (((h caps0 143 [1, 2, 3] ?_)).2.2.2.2.2.2 ?_ ?_ ?_ (.negRefuseReceived 143 [1, 2, 3]) (by decide)) <;> decide +kernel)⟩

theorem witness_BringUpSteps (h : Obligations.BringUpSteps) :
    Completes (.portTrained 127 8 (-8) 0 63) (trainable 127) ∧
    Completes (.prbsWindowStart 143) (ready1) ∧
    Completes (.prbsWindowEnd 143 true) (windowed { rate := 0, width := 1 } 0) ∧
    Completes (.prbsWindowEnd 143 false) (windowed { rate := 0, width := 1 } 0) ∧
    Completes (.trainingTimeout 143) (waited 1 16000 0 16000 { rate := 0, width := 1 } id) ∧
    Completes (.confirmTimeout 143) (waited 1 0 1000 0 { rate := 0, width := 1 } readied) ∧
    Completes (.negTimeout 143) (waited 3 0 4000 0 { rate := 0, width := 1 } proposed) ∧
    Completes (.confirmedStepSyncLoss 143) (waited 4 0 0 0 { rate := 0, width := 1 } outOfSync) ∧
    Completes (.portNoPartner 143) (waited 1 0 0 2000000 { rate := 0, width := 0 } id) ∧
    Completes (.collisionBackoffExpiry 143) (waited 1 0 0 0 { rate := 0, width := 0 } backingOff) ∧
    Completes (.foreignLinkUp { port := 143, page := 0 }) (foreignTrunk 3) :=
  ⟨(by refine completes1 (((h (trainable 127) 127 8 (-8) 0 63 0 true ?_ ?_)).1 ?_ ?_) <;> decide +kernel),
   (by refine completes1 (((h ready1 143 0 0 0 0 0 true ?_ ?_)).2.1 ?_ ?_) <;> decide +kernel),
   (by refine completes1 (((h (windowed ⟨0, 1⟩ 0) 143 0 0 0 0 0 true ?_ ?_)).2.2.1 ?_ ?_ ?_ ?_ ?_) <;> decide +kernel),
   (by refine completes1 (((h (windowed ⟨0, 1⟩ 0) 143 0 0 0 0 0 false ?_ ?_)).2.2.2.1 ?_ ?_ ?_ ?_ ?_) <;> decide +kernel),
   (by refine completes1 (((h (waited 1 16000 0 16000 ⟨0, 1⟩ id) 143 0 0 0 0 0 true ?_ ?_)).2.2.2.2.1 ?_ ?_ ?_ ?_ ?_) <;> decide +kernel),
   (by refine completes1 (((h (waited 1 0 1000 0 ⟨0, 1⟩ readied) 143 0 0 0 0 0 true ?_ ?_)).2.2.2.2.2.1 ?_ ?_ ?_) <;> decide +kernel),
   (by refine completes1 (((h (waited 3 0 4000 0 ⟨0, 1⟩ proposed) 143 0 0 0 0 0 true ?_ ?_)).2.2.2.2.2.2.1 ?_ ?_ ?_) <;> decide +kernel),
   (by refine completes1 (((h (waited 4 0 0 0 ⟨0, 1⟩ outOfSync) 143 0 0 0 0 0 true ?_ ?_)).2.2.2.2.2.2.2.1 ?_ ?_) <;> decide +kernel),
   (by refine completes1 (((h (waited 1 0 0 2000000 ⟨0, 0⟩ id) 143 0 0 0 0 0 true ?_ ?_)).2.2.2.2.2.2.2.2.1 ?_ ?_ ?_) <;> decide +kernel),
   (by refine completes1 (((h (waited 1 0 0 0 ⟨0, 0⟩ backingOff) 143 0 0 0 0 0 true ?_ ?_)).2.2.2.2.2.2.2.2.2.1 ?_) <;> decide +kernel),
   (by refine completes1 (((h (foreignTrunk 3) 143 0 0 0 0 0 true ?_ ?_)).2.2.2.2.2.2.2.2.2.2 ?_ ?_ ?_ ?_) <;> decide +kernel)⟩

theorem witness_PortSettings (h : Obligations.PortSettings) :
    Completes (.trunkRefLost 3) (refd 3) ∧
    Completes (.loopRelocked 5 none) (refd 3) ∧
    Completes (.loopRelocked 5 (some 143)) (refd 3) ∧
    Completes (.portSet hdr (par [(16, 2, 143), (18, 1, 1), (19, 1, 8), (20, 1, 2), (21, 1, 2), (22, 1, 8), (23, 1, 2), (24, 1, 2), (25, 1, 248), (26, 1, 2), (27, 1, 14), (28, 1, 1), (29, 1, 3)])) (sent 1281 (par [(16, 2, 143), (18, 1, 1), (19, 1, 8), (20, 1, 2), (21, 1, 2), (22, 1, 8), (23, 1, 2), (24, 1, 2), (25, 1, 248), (26, 1, 2), (27, 1, 14), (28, 1, 1), (29, 1, 3)]) up) :=
  ⟨(by refine completes1 (((h (refd 3) 3 0 143 hdr [] ?_)).1 15 ?_ ?_ ?_ ?_) <;> decide +kernel),
   (by refine completes0 (((h (refd 3) 3 5 143 hdr [] ?_)).2.1 ?_) <;> decide +kernel),
   (by refine completes1 (((h (refd 3) 3 5 143 hdr [] ?_)).2.2.1 ?_ ?_ ?_) <;> decide +kernel),
   (by refine completes2 (((h (sent 0x0501 (par [(16, 2, 143), (18, 1, 1), (19, 1, 8), (20, 1, 2), (21, 1, 2), (22, 1, 8), (23, 1, 2), (24, 1, 2), (25, 1, 0xF8), (26, 1, 2), (27, 1, 14), (28, 1, 1), (29, 1, 3)]) up) 3 5 143 hdr (par [(16, 2, 143), (18, 1, 1), (19, 1, 8), (20, 1, 2), (21, 1, 2), (22, 1, 8), (23, 1, 2), (24, 1, 2), (25, 1, 0xF8), (26, 1, 2), (27, 1, 14), (28, 1, 1), (29, 1, 3)]) ?_)).2.2.2 ?_ ?_ ?_ ?_ ?_) <;> first | decide +kernel | exact ok_of (by decide +kernel) | exact takes_of (by decide +kernel))⟩

theorem witness_FlowLookupPlaces (h : Obligations.FlowLookupPlaces) :
    Completes (.flowLookup 127 (hd 0 1 0 0 9 255) []) (stands Mode.bringUp (hd 0 1 0 0 9 255)) ∧
    Completes (.flowLookup 127 (hd 65535 320 0 0 9 255) []) (stands Mode.service (hd 65535 320 0 0 9 255)) ∧
    Completes (.flowLookup 142 (hd 65535 1 0 0 9 255) [Found.clean]) (stands Mode.service 0) ∧
    Completes (.flowLookup 127 (hd 0 1 0 0 9 255) [Found.uncorrectable 1]) (stands Mode.service (hd 0 1 0 0 9 255)) :=
  ⟨(by refine completes0 (((h (stands .bringUp (hd 0 1 0 0 9 255)) 127 (hd 0 1 0 0 9 255) [] ?_ ?_ ?_)).1 ?_) <;> decide +kernel),
   (by refine completes1 (((h (stands .service (hd 65535 320 0 0 9 255)) 127 (hd 65535 320 0 0 9 255) [] ?_ ?_ ?_)).2.1 ?_ ?_ ?_ ?_ ?_) <;> decide +kernel),
   (by refine completes1 (((h (stands .service 0) 142 (hd 65535 1 0 0 9 255) [.clean] ?_ ?_ ?_)).2.2.1 ?_ ?_ ?_) <;> decide +kernel),
   (by refine completes1 (((h (stands .service (hd 0 1 0 0 9 255)) 127 (hd 0 1 0 0 9 255) [.uncorrectable 1] ?_ ?_ ?_)).2.2.2 ?_ ?_) <;> decide +kernel)⟩

theorem witness_ItemsAdmitted (h : Obligations.ItemsAdmitted) :
    Completes (.itemHeaderTaken 16383 5 Upset.none) (flowing q0 Mode.service) ∧
    Completes (.itemHeaderTaken 16383 (xb 15).hdr Upset.none) (crossing q0 15) ∧
    Completes (.itemHeaderTaken 16383 (xb 8).hdr Upset.none) (crossing (holding 31 8 8 false) 8) ∧
    Completes (.itemWordWrite 16383 5 Upset.none) (flowing (holding 31 8 7 true) Mode.service) ∧
    Completes (.itemComplete 16383) (flowing (holding 31 8 8 true) Mode.service) ∧
    Completes (.itemPoisonedEnd 16383) (flowing (inside 8 8 3 true 1) Mode.service) ∧
    Completes (.itemPoisonedEnd 16383) (flowing (holding 31 8 3 true) Mode.service) :=
  ⟨(by refine completes0 (((h (flowing q0 .service) 16383 (xb 1) 5 ?_)).1 ?_) <;> decide +kernel),
   (by refine completes1 ((((h (crossing q0 15) 16383 (xb 15) 5 ?_)).2.1 ?_ ?_ ?_ ?_ ?_ ?_ ?_ ?_ ?_).1 ?_) <;> decide +kernel),
   (by refine completes1 ((((h (crossing (holding 31 8 8 false) 8) 16383 (xb 8) 5 ?_)).2.1 ?_ ?_ ?_ ?_ ?_ ?_ ?_ ?_ ?_).2 ?_ ?_) <;> decide +kernel),
   (by refine completes1 ((((h (flowing (holding 31 8 7 true) .service) 16383 (xb 1) 5 ?_)).2.2 ?_ ?_ ?_ ?_).1 ?_ ?_) <;> decide +kernel),
   (by refine completes1 ((((h (flowing (holding 31 8 8 true) .service) 16383 (xb 1) 5 ?_)).2.2 ?_ ?_ ?_ ?_).2.1 ?_ ?_) <;> decide +kernel),
   (by refine completes1 ((((h (flowing (inside 8 8 3 true 1) .service) 16383 (xb 1) 5 ?_)).2.2 ?_ ?_ ?_ ?_).2.2.1 ?_ ?_) <;> decide +kernel),
   (by refine completes1 ((((h (flowing (holding 31 8 3 true) .service) 16383 (xb 1) 5 ?_)).2.2 ?_ ?_ ?_ ?_).2.2.2 ?_ ?_) <;> decide +kernel)⟩

theorem witness_ItemsPopped (h : Obligations.ItemsPopped) :
    Completes (.queuePop 16383 Found.clean Upset.none) (flowing (holding 31 8 8 false) Mode.service) ∧
    Completes (.queuePop 16383 Found.clean Upset.none) (flowing aborting Mode.service) ∧
    Completes (.queuePop 16383 Found.clean Upset.none) (flowing q0 Mode.service) ∧
    Completes (.flushMarkerWrite 16383) (flowing (flushed 1) Mode.service) :=
  ⟨(by refine completes1 ((((h (flowing (holding 31 8 8 false) .service) 16383 143 ?_).1) ?_).1 ?_ ?_ ?_) <;> decide +kernel),
   (by refine completes2 ((((h (flowing aborting .service) 16383 143 ?_).1) ?_).2.1 ?_ ?_ ?_) <;> decide +kernel),
   (by refine completes1 ((((h (flowing q0 .service) 16383 143 ?_).1) ?_).2.2 ?_) <;> decide +kernel),
   (by refine completes1 ((h (flowing (flushed 1) .service) 16383 143 ?_).2 ?_ ?_ ?_) <;> decide +kernel)⟩

theorem witness_DelayAndMerge (h : Obligations.DelayAndMerge) :
    Completes (.delayLineRelease 1 [] Upset.none) (dlPair) ∧
    Completes (.delayLineRelease 1 [] Upset.none) (dlAlone) ∧
    Completes (.delayLineRelease 1 [] (Upset.readPtr 1)) (dlPair) ∧
    Completes (.mergeStep 1) (px) ∧
    Completes (.mergeStep 1) (pd) ∧
    Completes (.mergeStep 65535) (pw) ∧
    Completes (.mergeGapTimeout 65535) (pt) ∧
    Completes (.mergeStep 1) (pg) ∧
    Completes (.mergeAutoResync 1) (pg) :=
  ⟨(by refine completes1 ((((h dlPair 1 ?_).1) (held 9 1499 1) [] ?_ ?_ ?_ ?_).1 ?_ ?_) <;> decide +kernel),
   (by refine completes1 ((((h dlAlone 1 ?_).1) (held 9 1499 1) [] ?_ ?_ ?_ ?_).2 ?_) <;> decide +kernel),
   (by refine completes1 (((h dlPair 1 ?_).2.1) (held 9 1499 1) [] 1 ?_ ?_ ?_ ?_ ?_) <;> decide +kernel),
   (by refine completes1 (((((((h px 1 ?_).2.2) ?_ ?_ ?_).1) 1 65535 (held 9 900 1) ?_ ?_ ?_).1 ?_ ?_ ?_ ?_).1 ?_ ?_ ?_ ?_) <;> decide +kernel),
   (by refine completes1 (((((((h pd 1 ?_).2.2) ?_ ?_ ?_).1) 1 65535 (held 8 900 1) ?_ ?_ ?_).1 ?_ ?_ ?_ ?_).2.1 ?_ ?_ ?_ ?_) <;> decide +kernel),
   (by refine completes1 (((((((h pw 65535 ?_).2.2) ?_ ?_ ?_).1) 65535 1 (held 10 900 65535) ?_ ?_ ?_).1 ?_ ?_ ?_ ?_).2.2 ?_ ?_ ?_) <;> decide +kernel),
   (by refine completes1 ((((((h pt 65535 ?_).2.2) ?_ ?_ ?_).1) 65535 1 (held 0 900 65535) ?_ ?_ ?_).2 ?_) <;> decide +kernel),
   (by refine completes1 (((((h pg 1 ?_).2.2) ?_ ?_ ?_).2.1) (held 3 900 1) (held 1 900 65535) ?_ ?_ ?_ ?_) <;> decide +kernel),
   (by refine completes1 ((((h pg 1 ?_).2.2) ?_ ?_ ?_).2.2 ?_) <;> decide +kernel)⟩

theorem witness_QueueSlips (h : Obligations.QueueSlips) :
    Completes (.queueSet hdr (par (qset 3 9 320 0))) (sent 1537 (par (qset 3 9 320 0)) (spaced 1 QueueSt.dflt)) ∧
    Completes (.queueSet hdr (par (qset 3 9 320 0))) (sent 1537 (par (qset 3 9 320 0)) (spaced 1 (qOn 9))) ∧
    Completes (.queueSet hdr (par (qset 2 9 320 0))) (sent 1537 (par (qset 2 9 320 0)) (spaced 1 (qOn 9))) ∧
    Completes (.queueSet hdr (par (qset 2 0 15 511))) (sent 1537 (par (qset 2 0 15 511)) (spaced 1 (holding 31 8 8 false))) ∧
    Completes (.queueFlush hdr (par [(16, 2, 16383)])) (sent 1539 (par [(16, 2, 16383)]) (spaced 1 QueueSt.dflt)) ∧
    Completes (.queueFlush hdr (par [(16, 2, 16383)])) (sent 1539 (par [(16, 2, 16383)]) (spaced 1 (holding 31 8 8 false))) ∧
    Completes (.queueFlush hdr (par [(16, 2, 16383)])) (sent 1539 (par [(16, 2, 16383)]) (spaced 1 (holding 31 8 3 true))) :=
  ⟨(by refine completes1 ((((h (sent 0x0601 (par (qset 3 9 320 0)) (spaced 1 .dflt)) hdr (par (qset 3 9 320 0)) ?_).1) ?_ ?_ ?_ ?_ ?_).1 ?_ ?_ ?_ ?_) <;> first | decide +kernel | exact ok_of (by decide +kernel) | exact takes_of (by decide +kernel)),
   (by refine completes1 ((((h (sent 0x0601 (par (qset 3 9 320 0)) (spaced 1 (qOn 9))) hdr (par (qset 3 9 320 0)) ?_).1) ?_ ?_ ?_ ?_ ?_).2.1 ?_ ?_ ?_ ?_ ?_ ?_ ?_) <;> first | decide +kernel | exact ok_of (by decide +kernel) | exact takes_of (by decide +kernel)),
   (by refine completes1 ((((h (sent 0x0601 (par (qset 2 9 320 0)) (spaced 1 (qOn 9))) hdr (par (qset 2 9 320 0)) ?_).1) ?_ ?_ ?_ ?_ ?_).2.2.1 ?_ ?_ ?_ ?_ ?_ ?_ ?_ ?_ ?_ ?_) <;> first | decide +kernel | exact ok_of (by decide +kernel) | exact takes_of (by decide +kernel)),
   (by refine completes1 ((((h (sent 0x0601 (par (qset 2 0 15 511)) (spaced 1 (holding 31 8 8 false))) hdr (par (qset 2 0 15 511)) ?_).1) ?_ ?_ ?_ ?_ ?_).2.2.2 ?_ ?_ ?_) <;> first | decide +kernel | exact ok_of (by decide +kernel) | exact takes_of (by decide +kernel)),
   (by refine completes1 ((((h (sent 0x0603 (par [(16, 2, 16383)]) (spaced 1 .dflt)) hdr (par [(16, 2, 16383)]) ?_).2) ?_ ?_ ?_).1 ?_) <;> first | decide +kernel | exact ok_of (by decide +kernel) | exact takes_of (by decide +kernel)),
   (by refine completes2 ((((h (sent 0x0603 (par [(16, 2, 16383)]) (spaced 1 (holding 31 8 8 false))) hdr (par [(16, 2, 16383)]) ?_).2) ?_ ?_ ?_).2.1 ?_ ?_ ?_ ?_) <;> first | decide +kernel | exact ok_of (by decide +kernel) | exact takes_of (by decide +kernel)),
   (by refine completes1 ((((h (sent 0x0603 (par [(16, 2, 16383)]) (spaced 1 (holding 31 8 3 true))) hdr (par [(16, 2, 16383)]) ?_).2) ?_ ?_ ?_).2.2 ?_ ?_ ?_) <;> first | decide +kernel | exact ok_of (by decide +kernel) | exact takes_of (by decide +kernel))⟩

theorem witness_FlowSlips (h : Obligations.FlowSlips) :
    Completes (.flowSet hdr (par (flowFields 5 1 3))) (fset 5 1 3 []) ∧
    Completes (.flowSet hdr (par (flowFields 5 1 3))) (fset 5 1 3 [(65535, fl 141 0)]) ∧
    Completes (.flowSet hdr (par (flowFields 0 1 3))) (fset 0 1 3 [(65535, fl 141 0)]) ∧
    Completes (.pairSet hdr (par [(16, 2, 65535), (18, 2, 9), (20, 1, 0)])) (sent 1795 (par [(16, 2, 65535), (18, 2, 9), (20, 1, 0)]) (flows2 false)) ∧
    Completes (.pairSet hdr (par [(16, 2, 65535), (18, 2, 9), (20, 1, 1)])) (sent 1795 (par [(16, 2, 65535), (18, 2, 9), (20, 1, 1)]) (flows2 true)) ∧
    Completes (.pairSet hdr (par [(16, 2, 65535), (18, 2, 9), (20, 1, 2)])) (sent 1795 (par [(16, 2, 65535), (18, 2, 9), (20, 1, 2)]) (flows2 true)) ∧
    Completes (.flowCountClear hdr (par [(16, 2, 2), (20, 2, 65535), (22, 2, 65535)])) (sent 1796 (par [(16, 2, 2), (20, 2, 65535), (22, 2, 65535)]) (flows2 true)) :=
  ⟨(by refine completes1 ((((h (fset 5 1 3 []) hdr (par (flowFields 5 1 3)) ?_ ?_).1) ?_ ?_).1 ?_ ?_ ?_ ?_ ?_ ?_ ?_ ?_ ?_) <;> first | decide +kernel | exact ok_of (by decide +kernel) | exact takes_of (by decide +kernel)),
   (by refine completes1 ((((h (fset 5 1 3 [(65535, fl 141 0)]) hdr (par (flowFields 5 1 3)) ?_ ?_).1) ?_ ?_).2.1 ?_ ?_ ?_) <;> first | decide +kernel | exact ok_of (by decide +kernel) | exact takes_of (by decide +kernel)),
   (by refine completes1 ((((h (fset 0 1 3 [(65535, fl 141 0)]) hdr (par (flowFields 0 1 3)) ?_ ?_).1) ?_ ?_).2.2 ?_ ?_) <;> first | decide +kernel | exact ok_of (by decide +kernel) | exact takes_of (by decide +kernel)),
   (by refine completes1 ((((h (sent 0x0703 (par [(16, 2, 65535), (18, 2, 9), (20, 1, 0)]) (flows2 false)) hdr (par [(16, 2, 65535), (18, 2, 9), (20, 1, 0)]) ?_ ?_).2.1) ?_ ?_).1 ?_ ?_ ?_ ?_ ?_ ?_ ?_ ?_ ?_ ?_) <;> first | decide +kernel | exact ok_of (by decide +kernel) | exact takes_of (by decide +kernel)),
   (by refine completes1 ((((((h (sent 0x0703 (par [(16, 2, 65535), (18, 2, 9), (20, 1, 1)]) (flows2 true)) hdr (par [(16, 2, 65535), (18, 2, 9), (20, 1, 1)]) ?_ ?_).2.1) ?_ ?_).2) ?_ ?_ ?_ ?_).1 ?_ ?_) <;> first | decide +kernel | exact ok_of (by decide +kernel) | exact takes_of (by decide +kernel)),
   (by refine completes1 ((((((h (sent 0x0703 (par [(16, 2, 65535), (18, 2, 9), (20, 1, 2)]) (flows2 true)) hdr (par [(16, 2, 65535), (18, 2, 9), (20, 1, 2)]) ?_ ?_).2.1) ?_ ?_).2) ?_ ?_ ?_ ?_).2 ?_) <;> first | decide +kernel | exact ok_of (by decide +kernel) | exact takes_of (by decide +kernel)),
   (by refine completes1 (((h (sent 0x0704 (par [(16, 2, 2), (20, 2, 65535), (22, 2, 65535)]) (flows2 true)) hdr (par [(16, 2, 2), (20, 2, 65535), (22, 2, 65535)]) ?_ ?_).2.2) ?_ ?_ ?_ ?_) <;> first | decide +kernel | exact ok_of (by decide +kernel) | exact takes_of (by decide +kernel))⟩

theorem witness_CalendarAndCredit (h : Obligations.CalendarAndCredit) :
    Completes (.egressSet hdr (par [(16, 2, 143), (18, 1, 1), (19, 1, 0)])) (sent 1797 (par [(16, 2, 143), (18, 1, 1), (19, 1, 0)]) (settable [])) ∧
    Completes (.egressSet hdr (par [(16, 2, 142), (18, 1, 0), (19, 1, 0)])) (sent 1797 (par [(16, 2, 142), (18, 1, 0), (19, 1, 0)]) (settable [])) ∧
    Completes (.egressSet hdr (par [(16, 2, 143), (18, 1, 0), (20, 2, 1), (24, 2, 16383), (26, 1, 1)])) (sent 1797 (par [(16, 2, 143), (18, 1, 0), (20, 2, 1), (24, 2, 16383), (26, 1, 1)]) (settable [])) ∧
    Completes (.creditSet hdr (par [(16, 2, 143), (18, 1, 1), (19, 1, 127)])) (sent 1799 (par [(16, 2, 143), (18, 1, 1), (19, 1, 127)]) (crediting Mode.bringUp)) ∧
    Completes (.creditSet hdr (par [(16, 2, 143), (18, 1, 1), (19, 1, 3)])) (sent 1799 (par [(16, 2, 143), (18, 1, 1), (19, 1, 3)]) (crediting Mode.service)) ∧
    Completes (.creditSet hdr (par [(16, 2, 143), (18, 1, 0), (19, 1, 4)])) (sent 1799 (par [(16, 2, 143), (18, 1, 0), (19, 1, 4)]) (crediting Mode.service)) :=
  ⟨(by refine completes1 ((((h (sent 0x0705 (par [(16, 2, 143), (18, 1, 1), (19, 1, 0)]) (settable [])) hdr (par [(16, 2, 143), (18, 1, 1), (19, 1, 0)]) ?_ ?_).1) ?_ ?_ ?_ ?_ ?_ ?_ ?_ ?_ ?_).1 ?_) <;> first | decide +kernel | exact ok_of (by decide +kernel) | exact takes_of (by decide +kernel)),
   (by refine completes2 ((((h (sent 0x0705 (par [(16, 2, 142), (18, 1, 0), (19, 1, 0)]) (settable [])) hdr (par [(16, 2, 142), (18, 1, 0), (19, 1, 0)]) ?_ ?_).1) ?_ ?_ ?_ ?_ ?_ ?_ ?_ ?_ ?_).2.1 ?_ ?_) <;> first | decide +kernel | exact ok_of (by decide +kernel) | exact takes_of (by decide +kernel)),
   (by refine completes1 ((((h (sent 0x0705 (par [(16, 2, 143), (18, 1, 0), (20, 2, 1), (24, 2, 16383), (26, 1, 1)]) (settable [])) hdr (par [(16, 2, 143), (18, 1, 0), (20, 2, 1), (24, 2, 16383), (26, 1, 1)]) ?_ ?_).1) ?_ ?_ ?_ ?_ ?_ ?_ ?_ ?_ ?_).2.2 St.calConflict ?_ ?_ ?_) <;> first | decide +kernel | exact ok_of (by decide +kernel) | exact takes_of (by decide +kernel)),
   (by refine completes1 ((((h (sent 0x0707 (par [(16, 2, 143), (18, 1, 1), (19, 1, 127)]) (crediting .bringUp)) hdr (par [(16, 2, 143), (18, 1, 1), (19, 1, 127)]) ?_ ?_).2) ?_ ?_).1 ?_) <;> first | decide +kernel | exact ok_of (by decide +kernel) | exact takes_of (by decide +kernel)),
   (by refine completes1 ((((h (sent 0x0707 (par [(16, 2, 143), (18, 1, 1), (19, 1, 3)]) (crediting .service)) hdr (par [(16, 2, 143), (18, 1, 1), (19, 1, 3)]) ?_ ?_).2) ?_ ?_).2.1 ?_ ?_) <;> first | decide +kernel | exact ok_of (by decide +kernel) | exact takes_of (by decide +kernel)),
   (by refine completes1 ((((h (sent 0x0707 (par [(16, 2, 143), (18, 1, 0), (19, 1, 4)]) (crediting .service)) hdr (par [(16, 2, 143), (18, 1, 0), (19, 1, 4)]) ?_ ?_).2) ?_ ?_).2.2 ?_ ?_ ?_) <;> first | decide +kernel | exact ok_of (by decide +kernel) | exact takes_of (by decide +kernel))⟩

theorem witness_BoundariesCount (h : Obligations.BoundariesCount) :
    Completes (.frameBoundary frameIn) (atSlot 249 false) ∧
    Completes (.slotBoundary slotIn) (atSlot 248 false) :=
  ⟨(by refine completes1 ((h (atSlot 249 false)).1 frameIn ?_ ?_ ?_) <;> decide +kernel),
   (by refine completes1 ((h (atSlot 248 false)).2 slotIn ?_ ?_ ?_) <;> decide +kernel)⟩

theorem witness_ReadinessAndClosing (h : Obligations.ReadinessAndClosing) :
    Completes (.editionReady 31) (bringing) ∧
    Completes (.bayNotReady 31) (starting) ∧
    Completes (.closingDrainEnd (Domain.port 143)) (shutting (Domain.port 143) 0) ∧
    Completes (.closingDrainEnd (Domain.bay 31)) (shutting (Domain.bay 31) 9) ∧
    Completes (.closingDrainEnd Domain.house) (shutting Domain.house 0) ∧
    Completes (.closingDrainEnd (Domain.port 143)) (shutting Domain.house 0) :=
  ⟨(by refine completes1 (((h bringing 31 0 (closing0 .house 0) ?_)).1 ?_ ?_) <;> decide +kernel),
   (by refine completes1 ((h starting 31 0 (closing0 .house 0) ?_).2.1 ?_ ?_ ?_ ?_) <;> decide +kernel),
   (by refine completes1 ((h (shutting (.port 143) 0) 31 143 (closing0 (.port 143) 0) ?_).2.2.1 ?_ ?_ ?_ ?_) <;> decide +kernel),
   (by refine completes1 ((h (shutting (.bay 31) 9) 31 143 (closing0 (.bay 31) 9) ?_).2.2.2.1 ?_ ?_ ?_ ?_ ?_ ?_ ?_) <;> decide +kernel),
   (by refine completes1 ((h (shutting .house 0) 31 143 (closing0 .house 0) ?_).2.2.2.2.1 ?_ ?_ ?_ ?_ ?_ ?_) <;> decide +kernel),
   (by refine completes1 ((h (shutting .house 0) 31 143 (closing0 .house 0) ?_).2.2.2.2.2 ?_ ?_) <;> decide +kernel)⟩

theorem witness_RegisterAccesses (h : Obligations.RegisterAccesses) :
    Completes (.registerWrite Master.readingRoom 16 7) (up) ∧
    Completes (.registerRead Master.pcie 4194303) (up) ∧
    Completes (.registerWrite Master.pcie 3932160 7) (up) ∧
    Completes (.registerRead Master.i2c 40) (up) ∧
    Completes (.registerWrite Master.i2c 17 7) (up) ∧
    Completes (.registerRead Master.i2c 778240) (gatedUp) ∧
    Completes (.registerWrite Master.i2c 778240 7) (gatedUp) ∧
    Completes (.registerWrite Master.i2c 327680 0) (up) ∧
    Completes (.unlockWrite Master.i2c 393212 45068) (locked5) ∧
    Completes (.unlockWrite Master.i2c 393212 45068) (up) ∧
    Completes (.unlockWrite Master.i2c 393212 45069) (wrong 2) ∧
    Completes (.registerWrite Master.pcie 16 4294967295) (up) ∧
    Completes (.registerRead Master.pcie 16) (up) ∧
    Completes (.unlockArmLapse Master.i2c 5) (lapsing) ∧
    Completes (.lockoutEnd 5) (unlocking) ∧
    Completes (.deskShelfIdWrite Master.pcie 9) (up) ∧
    Completes (.deskShelfIdWrite Master.pcie 9) (shelfSet) ∧
    Completes (.deskTimeLoRead Master.i2c 500) (lateTime) ∧
    Completes (.pcieZeroLengthRead 16) (up) ∧
    Completes (.pcieBadRequest 4194303 true) (up) :=
  ⟨(by refine completes1 (((h).1 up .readingRoom 0x10 7 ?_ ?_ ?_).1 ?_ ?_) <;> decide +kernel),
   (by refine completes1 ((((h).1 up .pcie 0x3FFFFF 7 ?_ ?_ ?_).2.1 ?_).1) <;> decide +kernel),
   (by refine completes1 ((((h).1 up .pcie 0x3C0000 7 ?_ ?_ ?_).2.1 ?_).2 ?_) <;> first | decide +kernel | exact may (by decide +kernel)),
   (by refine completes1 ((((h).1 up .i2c 0x28 7 ?_ ?_ ?_).2.2.1 .desk 0x28 ?_ ?_ ?_).1) <;> decide +kernel),
   (by refine completes1 ((((h).1 up .i2c 0x11 7 ?_ ?_ ?_).2.2.1 .desk 0x11 ?_ ?_ ?_).2 ?_) <;> first | decide +kernel | exact may (by decide +kernel)),
   (by refine completes1 ((((h).1 gatedUp .i2c 0x0BE000 7 ?_ ?_ ?_).2.2.2.1 (.fab 31) 0 ?_ ?_ ?_).1) <;> decide +kernel),
   (by refine completes1 ((((h).1 gatedUp .i2c 0x0BE000 7 ?_ ?_ ?_).2.2.2.1 (.fab 31) 0 ?_ ?_ ?_).2 ?_) <;> first | decide +kernel | exact may (by decide +kernel)),
   (by refine completes1 (((h).1 up .i2c 0x050000 0 ?_ ?_ ?_).2.2.2.2.1 .shelf 0 ?_ ?_ ?_ ?_ ?_ ?_ ?_) <;> first | decide +kernel | exact may (by decide +kernel)),
   (by refine completes1 ((((h).1 locked5 .i2c 0x05FFFC 0xB00C ?_ ?_ ?_).2.2.2.2.2.1 .shelf 0xFFFC ?_ ?_ ?_ ?_).1 ?_) <;> first | decide +kernel | exact may (by decide +kernel)),
   (by refine completes1 ((((h).1 up .i2c 0x05FFFC 0xB00C ?_ ?_ ?_).2.2.2.2.2.1 .shelf 0xFFFC ?_ ?_ ?_ ?_).2.1 ?_ ?_) <;> first | decide +kernel | exact may (by decide +kernel)),
   (by refine completes1 ((((h).1 (wrong 2) .i2c 0x05FFFC 0xB00D ?_ ?_ ?_).2.2.2.2.2.1 .shelf 0xFFFC ?_ ?_ ?_ ?_).2.2 ?_ ?_) <;> first | decide +kernel | exact may (by decide +kernel)),
   (by refine completes1 ((((h).1 up .pcie 0x10 0xFFFFFFFF ?_ ?_ ?_).2.2.2.2.2.2.1 ?_ ?_).1) <;> first | decide +kernel | exact may (by decide +kernel)),
   (by refine completes1 ((((h).1 up .pcie 0x10 0xFFFFFFFF ?_ ?_ ?_).2.2.2.2.2.2.1 ?_ ?_).2) <;> first | decide +kernel | exact may (by decide +kernel)),
   (by refine completes1 (((h).1 lapsing .i2c 0x10 0 ?_ ?_ ?_).2.2.2.2.2.2.2.1 5) <;> decide +kernel),
   (by refine completes1 (((h).1 unlocking .i2c 0x10 0 ?_ ?_ ?_).2.2.2.2.2.2.2.2 5 ?_) <;> decide +kernel),
   (by refine completes1 ((((h).2 up .pcie 0x10 9 true 3 ?_)).1 ?_ ?_) <;> first | decide +kernel | exact may (by decide +kernel)),
   (by refine completes1 ((((h).2 shelfSet .pcie 0x10 9 true 3 ?_)).2.1 ?_ ?_) <;> first | decide +kernel | exact may (by decide +kernel)),
   (by refine completes1 ((((h).2 lateTime .i2c 0x10 9 true 500 ?_)).2.2.1 ?_ ?_) <;> decide +kernel),
   (by refine completes1 (((((h).2 up .i2c 0x10 9 true 500 ?_)).2.2.2 ?_ ?_).1) <;> decide +kernel),
   (by refine completes1 (((((h).2 up .i2c 0x3FFFFF 9 true 500 ?_)).2.2.2 ?_ ?_).2) <;> decide +kernel)⟩

theorem witness_GateRequests (h : Obligations.GateRequests) :
    Completes (.bayGateRequest Master.i2c 1 32768) (gatedUp) ∧
    Completes (.portGateRequest Master.i2c 8 32768) (arm Master.i2c 1 up) ∧
    Completes (.qeGateRequest Master.i2c 32768) (arm Master.i2c 1 up) ∧
    Completes (.side0GateRequest Master.i2c 3) (arm Master.i2c 1 up) ∧
    Completes (.pcieGateRequest Master.i2c 3) (arm Master.i2c 1 up) ∧
    Completes (.gateTakesEffect (GateBlock.bay 31)) (asked) ∧
    Completes (.pcieLinkUp) (up) :=
  ⟨(by refine completes1 ((h gatedUp .i2c 0x8000 ?_ ?_).1 1 ?_) <;> first | decide +kernel | exact may (by decide +kernel)),
   (by refine completes1 ((h (arm .i2c 1 up) .i2c 0x8000 ?_ ?_).2.1 8 ?_) <;> first | decide +kernel | exact may (by decide +kernel)),
   (by refine completes1 ((h (arm .i2c 1 up) .i2c 0x8000 ?_ ?_).2.2.1 ?_) <;> first | decide +kernel | exact may (by decide +kernel)),
   (by refine completes1 ((h (arm .i2c 1 up) .i2c 3 ?_ ?_).2.2.2.1 ?_ (.side0GateRequest .i2c 3) (by decide)) <;> first | decide +kernel | exact may (by decide +kernel)),
   (by refine completes1 ((h (arm .i2c 1 up) .i2c 3 ?_ ?_).2.2.2.1 ?_ (.pcieGateRequest .i2c 3) (by decide)) <;> first | decide +kernel | exact may (by decide +kernel)),
   (by refine completes1 ((h asked .i2c 3 ?_ ?_).2.2.2.2.1 (.bay 31) ?_ ?_) <;> first | decide +kernel | exact may (by decide +kernel)),
   (by refine completes0 ((h up .i2c 3 ?_ ?_).2.2.2.2.2 ?_ ?_ ?_ ?_) <;> first | decide +kernel | exact may (by decide +kernel))⟩

theorem witness_BlockWrites (h : Obligations.BlockWrites) :
    Completes (.frameOutCtrlWrite Master.i2c 16381) (driving) ∧
    Completes (.thermBoundaryWrite Master.i2c 2000) (up) ∧
    Completes (.thermBoundaryWrite Master.i2c 2001) (up) ∧
    Completes (.shelfCtrlWrite Master.i2c 0 false) (books) ∧
    Completes (.shelfCtrlWrite Master.i2c 0 true) (books) ∧
    Completes (.shelfActionWrite Master.i2c true 3221225475) (books) ∧
    Completes (.portLoopWrite Master.i2c 143 7) (books) ∧
    Completes (.laneTestCtrlWrite Master.i2c 143 3 4294967295) (books) ∧
    Completes (.qdFlushWrite Master.i2c 16383) (up) ∧
    Completes (.qdFlushWrite Master.i2c 16383) (qUp (holding 31 8 3 true)) ∧
    Completes (.logNmLatchClear Master.i2c 4294967295) (books) ∧
    Completes (.logAlarmClear Master.i2c 1 4294967295) (books) ∧
    Completes (.logDrainConsWrite Master.i2c 4096) (books) :=
  ⟨(by refine completes1 ((h driving .i2c 0x3FFD ?_ ?_).1) <;> first | decide +kernel | exact may (by decide +kernel)),
   (by refine completes1 ((h up .i2c 0x7D0 ?_ ?_).2.1 ?_ ?_) <;> first | decide +kernel | exact may (by decide +kernel)),
   (by refine completes1 ((h up .i2c 0x7D1 ?_ ?_).2.2.1 ?_) <;> first | decide +kernel | exact may (by decide +kernel)),
   (by refine completes1 ((((h books .i2c 0 ?_ ?_).2.2.2.1) ?_).1) <;> first | decide +kernel | exact may (by decide +kernel)),
   (by refine completes1 ((((h books .i2c 0 ?_ ?_).2.2.2.1) ?_).2) <;> first | decide +kernel | exact may (by decide +kernel)),
   (by refine completes1 (((h books .i2c 0xC0000003 ?_ ?_).2.2.2.2.1) true ?_) <;> first | decide +kernel | exact may (by decide +kernel)),
   (by refine completes1 ((((h books .i2c 7 ?_ ?_).2.2.2.2.2.1) 143 ?_).1) <;> first | decide +kernel | exact may (by decide +kernel)),
   (by refine completes2 ((((h books .i2c 0xFFFFFFFF ?_ ?_).2.2.2.2.2.1) 143 ?_).2 3 ?_ ?_ ?_) <;> first | decide +kernel | exact may (by decide +kernel)),
   (by refine completes1 ((((h up .i2c 0 ?_ ?_).2.2.2.2.2.2.1) 16383 ?_).1 ?_) <;> first | decide +kernel | exact may (by decide +kernel)),
   (by refine completes1 ((((h (qUp (holding 31 8 3 true)) .i2c 0 ?_ ?_).2.2.2.2.2.2.1) 16383 ?_).2 ?_ ?_ ?_ ?_) <;> first | decide +kernel | exact may (by decide +kernel)),
   (by refine completes1 ((h books .i2c 0xFFFFFFFF ?_ ?_).2.2.2.2.2.2.2.1  ?_) <;> first | decide +kernel | exact may (by decide +kernel)),
   (by refine completes1 ((h books .i2c 0xFFFFFFFF ?_ ?_).2.2.2.2.2.2.2.2.1 1) <;> first | decide +kernel | exact may (by decide +kernel)),
   (by refine completes1 ((h books .i2c 0x1000 ?_ ?_).2.2.2.2.2.2.2.2.2 ?_ ?_) <;> first | decide +kernel | exact may (by decide +kernel))⟩

theorem witness_HostRings (h : Obligations.HostRings) :
    Completes (.slipRingEnable Master.i2c 3 true) (ringAt id) ∧
    Completes (.slipRingDisable Master.i2c 3 true) (ringOn) ∧
    Completes (.ringDrainComplete 3) (ringHeld true) ∧
    Completes (.slipProdWrite Master.i2c 3 261) (ringOn) ∧
    Completes (.slipProdWrite Master.i2c 3 262) (ringOn) ∧
    Completes (.slipRconsWrite Master.i2c 3 259) (ringOn) ∧
    Completes (.slipRconsWrite Master.i2c 3 258) (ringOn) ∧
    Completes (.slipDmaFault 3 7) (ringOn) :=
  ⟨(by refine completes1 ((h (ringAt id) .i2c 3 true 0 0 ?_ ?_).1 ?_ ?_) <;> first | decide +kernel | exact may (by decide +kernel)),
   (by refine completes1 ((h ringOn .i2c 3 true 0 0 ?_ ?_).2.1 ?_ ?_) <;> first | decide +kernel | exact may (by decide +kernel)),
   (by refine completes1 ((h (ringHeld true) .i2c 3 true 0 0 ?_ ?_).2.2.1 ?_ ?_) <;> first | decide +kernel | exact may (by decide +kernel)),
   (by refine completes1 (((h ringOn .i2c 3 true 261 0 ?_ ?_).2.2.2.1).1 ?_) <;> first | decide +kernel | exact may (by decide +kernel)),
   (by refine completes1 (((h ringOn .i2c 3 true 262 0 ?_ ?_).2.2.2.1).2 ?_) <;> first | decide +kernel | exact may (by decide +kernel)),
   (by refine completes1 (((h ringOn .i2c 3 true 259 0 ?_ ?_).2.2.2.2.1).1 ?_) <;> first | decide +kernel | exact may (by decide +kernel)),
   (by refine completes1 (((h ringOn .i2c 3 true 258 0 ?_ ?_).2.2.2.2.1).2 ?_) <;> first | decide +kernel | exact may (by decide +kernel)),
   (by refine completes1 ((h ringOn .i2c 3 true 259 7 ?_ ?_).2.2.2.2.2 ?_ ?_ ?_ ?_ ?_ ?_) <;> first | decide +kernel | exact may (by decide +kernel))⟩

theorem witness_RepliesWritten (h : Obligations.RepliesWritten) :
    Completes (.replyWrite 3) (replying 3 113 3) ∧
    Completes (.replyWrite 3) (replying 3 113 2) ∧
    Completes (.replyWrite 4) (replying 4 113 2) ∧
    Completes (.replyWrite 5) (replying 5 113 2) :=
  ⟨(by refine completes1 ((h (replying 3 113 3) 3 (wait 3 113) [reply 3 []] ?_ ?_ ?_ ?_ ?_).1 ?_ ?_ ?_ ?_) <;> decide +kernel),
   (by refine completes0 ((h (replying 3 113 2) 3 (wait 3 113) [reply 3 []] ?_ ?_ ?_ ?_ ?_).2.1 ?_ ?_) <;> decide +kernel),
   (by refine completes1 ((h (replying 4 113 2) 4 (wait 4 113) [reply 4 []] ?_ ?_ ?_ ?_ ?_).2.2.1 ?_ ?_) <;> decide +kernel),
   (by refine completes1 ((h (replying 5 113 2) 5 (wait 5 113) [reply 5 []] ?_ ?_ ?_ ?_ ?_).2.2.2 ?_ ?_ ?_ ?_ ?_) <;> decide +kernel)⟩

theorem witness_SidebandTransfers (h : Obligations.SidebandTransfers) :
    Completes (.sidebandSubmit) (State.reset) ∧
    Completes (.sidebandRegRead [1] 0) (State.reset) ∧
    Completes (.sidebandRegWrite (regBytes 16 77)) (sbUp 3 2) ∧
    Completes (.sidebandRegWrite (regBytes 3932160 77)) (sbUp 3 2) ∧
    Completes (.sidebandRegRead [16, 0, 0] 0) (sbUp 3 2) ∧
    Completes (.sidebandSlipWrite (bufBytes 4064 32)) (sbUp 3 2) ∧
    Completes (.sidebandSubmit) (sbUp 15 2) ∧
    Completes (.sidebandSubmit) (sbUp 16 2) ∧
    Completes (.sidebandReplyRead [6, 0, 32]) (sbUp 3 2) ∧
    Completes (.sidebandRelease) (sbUp 3 2) ∧
    Completes (.sidebandStatus) (sbUp 16 16) ∧
    Completes (.sidebandBadCommand 224) (sbUp 16 16) ∧
    Completes (.sidebandSeriesReset) (sbUp 0 0) ∧
    Completes (.sidebandSubmit) (sbUp 0 0) :=
  ⟨(by refine completes0 (((h State.reset [1] 0 0xE0 ?_).1) ?_ (.sidebandSubmit) (by decide)) <;> decide +kernel),
   (by refine completes0 (((h State.reset [1] 0 0xE0 ?_).1) ?_ (.sidebandRegRead [1] 0) (by decide)) <;> decide +kernel),
   (by refine completes1 ((((h (sbUp 3 2) (regBytes 0x10 77) 0 0xE0 ?_).2.1) ?_).1 ?_ ?_) <;> decide +kernel),
   (by refine completes1 ((((h (sbUp 3 2) (regBytes 0x3C0000 77) 0 0xE0 ?_).2.1) ?_).2.1 ?_ ?_ ?_) <;> decide +kernel),
   (by refine completes1 ((((h (sbUp 3 2) [0x10, 0, 0] 0 0xE0 ?_).2.1) ?_).2.2.1 ?_ ?_) <;> decide +kernel),
   (by refine completes1 ((((h (sbUp 3 2) (bufBytes 4064 32) 0 0xE0 ?_).2.1) ?_).2.2.2.1 ?_ ?_ ?_ ?_ ?_) <;> decide +kernel),
   (by refine completes1 ((((h (sbUp 15 2) [] 0 0xE0 ?_).2.1) ?_).2.2.2.2.1 ?_ ?_) <;> decide +kernel),
   (by refine completes0 ((((h (sbUp 16 2) [] 0 0xE0 ?_).2.1) ?_).2.2.2.2.2.1 ?_) <;> decide +kernel),
   (by refine completes0 ((((((h (sbUp 3 2) [6, 0, 32] 0 0xE0 ?_).2.1) ?_).2.2.2.2.2.2.1) eight [eight] ?_).1 ?_ ?_ ?_) <;> decide +kernel),
   (by refine completes1 ((((((h (sbUp 3 2) [6, 0, 32] 0 0xE0 ?_).2.1) ?_).2.2.2.2.2.2.1) eight [eight] ?_).2) <;> decide +kernel),
   (by refine completes2 ((((h (sbUp 16 16) [6, 0, 32] 0 0xE0 ?_).2.1) ?_).2.2.2.2.2.2.2.1 ?_ ?_) <;> decide +kernel),
   (by refine completes0 ((((h (sbUp 16 16) [6, 0, 32] 0 0xE0 ?_).2.1) ?_).2.2.2.2.2.2.2.2 ?_) <;> decide +kernel),
   (by refine completes1 ((h (sbUp 0 0) [] 0 0xE0 ?_).2.2.2 ?_ ?_ ?_ ?_ ?_) <;> decide +kernel),
   (by refine completes1 ((h (sbUp 0 0) [] 0 0xE0 ?_).2.2.1 ?_ ?_ ?_ ?_ ?_ ?_) <;> decide +kernel)⟩

theorem witness_InBandAndPairs (h : Obligations.InBandAndPairs) :
    Completes (.inbandItem [] Upset.none) (inItem) ∧
    Completes (.slipUnknownOpcode 3585 hdr (par [])) (sent 3585 (par []) up) ∧
    Completes (.inbandSet hdr (par [(20, 1, 1)])) (sent 2832 (par [(20, 1, 1)]) inItem) ∧
    Completes (.inbandSet hdr (par [(16, 2, 0), (18, 2, 65535)])) (sent 2832 (par [(16, 2, 0), (18, 2, 65535)]) twoFlows) ∧
    Completes (.lockstepMismatch) (pairUp true) ∧
    Completes (.lockstepMismatch) (pairUp false) ∧
    Completes (.standbyReloadComplete) (pairUp false) :=
  ⟨(by refine completes1 ((h inItem hdr [] 0 ?_).1 ?_ ?_ ?_ ?_ ?_ ?_ ?_ ?_ ?_ ?_ ?_ ?_ ?_ ?_ ?_ ?_) <;> decide +kernel),
   (by refine completes1 (((h (sent 0x0E01 (par []) up) hdr (par []) 0x0E01 ?_).2.1) ?_ ?_) <;> first | decide +kernel | exact takes_of (by decide +kernel)),
   (by refine completes1 ((((h (sent 0x0B10 (par [(20, 1, 1)]) inItem) hdr (par [(20, 1, 1)]) 0 ?_).2.2.1) ?_).1 ?_ ?_) <;> first | decide +kernel | exact ok_of (by decide +kernel) | exact takes_of (by decide +kernel)),
   (by refine completes1 ((((h (sent 0x0B10 (par [(16, 2, 0), (18, 2, 65535)]) twoFlows) hdr (par [(16, 2, 0), (18, 2, 65535)]) 0 ?_).2.2.1) ?_).2 ?_ ?_ ?_ ?_ ?_ ?_ ?_) <;> first | decide +kernel | exact ok_of (by decide +kernel) | exact takes_of (by decide +kernel)),
   (by refine completes1 ((((h (pairUp true) hdr [] 0 ?_).2.2.2.1) ?_ ?_).1 ?_) <;> decide +kernel),
   (by refine completes1 ((((h (pairUp false) hdr [] 0 ?_).2.2.2.1) ?_ ?_).2 ?_) <;> decide +kernel),
   (by refine completes0 (((h (pairUp false) hdr [] 0 ?_).2.2.2.2) ?_ ?_ ?_) <;> decide +kernel)⟩

theorem witness_DayBookTurns (h : Obligations.DayBookTurns) :
    Completes (.daybookEntryWrite Found.clean Upset.none) (unheard) ∧
    Completes (.daybookEntryWrite Found.clean Upset.none) (logging [alarmEv] 1 []) ∧
    Completes (.daybookEntryWrite .clean .none) (logging [infoEv] 12289 []) ∧
    Completes (.daybookEntryWrite .clean .none) (logging [alarmEv] 16383 []) ∧
    Completes (.daybookEntryWrite Found.clean Upset.none) (logging [alarmEv] 1 [entry 65534, other]) ∧
    Completes (.daybookDrainCopy Found.clean Upset.none) (draining [entry 3, other] id) ∧
    Completes (.summaryPeriodEnd) (periodOver) :=
  ⟨(by refine completes0 (((((h unheard traceEv [alarmEv]).1) ?_ ?_ ?_ ?_ ?_ ?_).1) ?_) <;> decide +kernel),
   (by refine completes1 (((((h (logging [alarmEv] 1 []) alarmEv []).1) ?_ ?_ ?_ ?_ ?_ ?_).2.1) ?_ ?_ ?_ ?_) <;> decide +kernel),
   (by refine completes1 (((h (logging [infoEv] 12289 []) infoEv []).1 ?_ ?_ ?_ ?_ ?_ ?_).2.2.1 (by decide) (latestOf_none _ _ _ (book_others (by decide))) (by rw [book_fill]; decide) (by decide)) <;> decide +kernel),
   (by refine completes1 (((h (logging [alarmEv] 16383 []) alarmEv []).1 ?_ ?_ ?_ ?_ ?_ ?_).2.2.2.1 (by decide) (latestOf_none _ _ _ (book_others (by decide))) (by decide) (by rw [book_fill])) <;> decide +kernel),
   (by refine completes1 (((((h (logging [alarmEv] 1 [entry 65534, other]) alarmEv []).1) ?_ ?_ ?_ ?_ ?_ ?_).2.2.2.2) 1 (entry 65534) ?_ ?_ ?_ ?_ ?_) <;> decide +kernel),
   (by refine completes1 (((h (draining [entry 3, other] id) alarmEv []).2.1) (entry 3) [other] ?_ ?_) <;> decide +kernel),
   (by refine completes1 (((h periodOver alarmEv []).2.2) ?_ ?_) <;> decide +kernel)⟩

theorem witness_DayBookSlips (h : Obligations.DayBookSlips) :
    Completes (.eventAck hdr (par [(16, 1, 3)])) (sent 2817 (par [(16, 1, 3)]) (latchedBy [(516, 3), (2817, 0), (257, 2)])) ∧
    Completes (.daybookRead hdr (par [(16, 2, 2)]) []) (sent 2818 (par [(16, 2, 2)]) (bookOf false)) ∧
    Completes (.daybookRead hdr (par [(16, 2, 126)]) []) (sent 2818 (par [(16, 2, 126)]) (bookOf true)) ∧
    Completes (.daybookDrainSet hdr (par [(16, 1, 0), (17, 1, 3)])) (sent 2819 (par [(16, 1, 0), (17, 1, 3)]) (bookOf true)) ∧
    Completes (.eventFilterSet hdr (par [(16, 1, 2), (17, 2, 8000)])) (sent 2820 (par [(16, 1, 2), (17, 2, 8000)]) up) ∧
    Completes (.daybookDrainSet hdr0 (par [(16, 1, 0), (17, 1, 3)])) (ringSlip (bookOf true)) :=
  ⟨(by refine completes1 ((h (sent 0x0B01 (par [(16, 1, 3)]) (latchedBy [(0x0204, 3), (0x0B01, 0), (0x0101, 2)])) hdr (par [(16, 1, 3)])).1 ?_ ?_ ?_ ?_ ?_) <;> first | decide +kernel | exact ok_of (by decide +kernel) | exact takes_of (by decide +kernel)),
   (by refine completes1 ((((h (sent 0x0B02 (par [(16, 2, 2)]) (bookOf false)) hdr (par [(16, 2, 2)])).2.1) ?_ ?_).1 ?_) <;> first | decide +kernel | exact ok_of (by decide +kernel) | exact takes_of (by decide +kernel)),
   (by refine completes1 ((((h (sent 0x0B02 (par [(16, 2, 126)]) (bookOf true)) hdr (par [(16, 2, 126)])).2.1) ?_ ?_).2 ?_) <;> first | decide +kernel | exact ok_of (by decide +kernel) | exact takes_of (by decide +kernel)),
   (by refine completes1 ((((h (sent 0x0B03 (par [(16, 1, 0), (17, 1, 3)]) (bookOf true)) hdr (par [(16, 1, 0), (17, 1, 3)])).2.2.1) ?_ ?_).1 ?_) <;> first | decide +kernel | exact ok_of (by decide +kernel) | exact takes_of (by decide +kernel)),
   (by refine completes1 ((h (sent 0x0B04 (par [(16, 1, 2), (17, 2, 8000)]) up) hdr (par [(16, 1, 2), (17, 2, 8000)])).2.2.2 ?_ ?_) <;> first | exact ok_of (by decide +kernel) | exact takes_of (by decide +kernel)),
   (by refine completes1 ((((h (ringSlip (bookOf true)) hdr0 (par [(16, 1, 0), (17, 1, 3)])).2.2.1) ?_ ?_).2 ?_ ?_) <;> first | decide +kernel | exact ok_of (by decide +kernel) | exact takes_of (by decide +kernel))⟩

theorem witness_StartsAndSteps (h : Obligations.StartsAndSteps) :
    Completes (.streamLoadStart) (intake 0 0) ∧
    Completes (.chainStartBlockReceived 6 (startCrc 6)) (chained none false) ∧
    Completes (.chainStartBlockReceived 7 (startCrc 7)) (chained none false) ∧
    Completes (.chainDataBlockReceived 7 4 [9, 9] (dataCrc 7 4)) (chained (some 7) false) ∧
    Completes (.chainDataBlockReceived 7 4 [9, 9] (dataCrc 7 4 ^^^ 1)) (chained (some 7) false) ∧
    Completes (.chainDataBlockReceived 3 0 [9, 9] 0) (chained (some 7) false) ∧
    Completes (.chainEndBlockReceived (chainSymbols 4 0 9 [])) (chained (some 7) false) ∧
    Completes (.chainBlockTimeout) (chained (some 7) false) ∧
    Completes (.chainStartTimeout) (chained none false) ∧
    Completes (.partTrailerCheck false Found.clean) (wholePart 1 0 0) ∧
    Completes (.partTrailerCheck true Found.clean) (wholePart 1 0 0) ∧
    Completes (.streamApplyComplete) (fromReserve) ∧
    Completes (.startupStepAComplete) (locked false 0) ∧
    Completes (.rendezvousMet) (locked true 4) ∧
    Completes (.rendezvousTimeout) (locked true 4) ∧
    Completes (.rendezvousTimeout) (notYet) :=
  ⟨(by refine completes1 (((h).1 (intake 0 0)).1 ?_ ?_ ?_ ?_) <;> decide +kernel),
   (by refine completes2 ((((((h).1 (chained none false)).2.1) ?_).1 6 (startCrc 6) ?_ ?_ ?_).1 ?_) <;> decide +kernel),
   (by refine completes1 ((((((h).1 (chained none false)).2.1) ?_).1 7 (startCrc 7) ?_ ?_ ?_).2 ?_) <;> decide +kernel),
   (by refine completes1 ((((((((h).1 (chained (some 7) false)).2.1) ?_).2.1 7 7 4 [9, 9] (dataCrc 7 4) [] ?_).1) ?_ ?_ ?_ ?_).1 ?_) <;> decide +kernel),
   (by refine completes1 ((((((((h).1 (chained (some 7) false)).2.1) ?_).2.1 7 7 4 [9, 9] (dataCrc 7 4 ^^^ 1) [] ?_).1) ?_ ?_ ?_ ?_).2 ?_) <;> decide +kernel),
   (by refine completes1 (((((((h).1 (chained (some 7) false)).2.1) ?_).2.1 7 3 0 [9, 9] 0 [] ?_).2.1) ?_ ?_) <;> decide +kernel),
   (by refine completes1 (((((((h).1 (chained (some 7) false)).2.1) ?_).2.1 7 0 0 [] 0 (chainSymbols 4 0 9 []) ?_).2.2.1) ?_) <;> decide +kernel),
   (by refine completes1 (((((((h).1 (chained (some 7) false)).2.1) ?_).2.1 7 0 0 [] 0 [] ?_).2.2.2) ?_ ?_) <;> decide +kernel),
   (by refine completes1 ((((((h).1 (chained none false)).2.1) ?_).2.2) ?_ ?_) <;> decide +kernel),
   (by refine completes1 (((((h).1 (wholePart 1 0 0)).2.2) ?_ (by decide) ?_ ?_).1) <;> decide +kernel),
   (by refine completes1 (((((h).1 (wholePart 1 0 0)).2.2) ?_ (by decide) ?_ ?_).2) <;> decide +kernel),
   (by refine completes1 (((h).2 fromReserve ?_).1 ?_ ?_ ?_) <;> decide +kernel),
   (by refine completes1 (((h).2 (locked false 0) ?_).2.1 ?_ ?_ ?_ ?_ ?_ ?_) <;> decide +kernel),
   (by refine completes0 (((h).2 (locked true 4) ?_).2.2.1 ?_) <;> decide +kernel),
   (by refine completes1 (((h).2 (locked true 4) ?_).2.2.2.1 ?_ ?_ ?_) <;> decide +kernel),
   (by refine completes0 (((h).2 notYet ?_).2.2.2.2 ?_ ?_) <;> decide +kernel)⟩

theorem witness_StreamSlips (h : Obligations.StreamSlips) :
    Completes (.streamStage hdr (par [(24, 4, 536870912), (28, 8, 64)]) (some eight)) (sent 769 (par [(24, 4, 536870912), (28, 8, 64)]) (streaming Mode.service 0 [])) ∧
    Completes (.streamStage hdr (par [(16, 1, 1), (17, 1, 7)]) none) (sent 769 (par [(16, 1, 1), (17, 1, 7)]) (streaming Mode.bindery 2 [])) ∧
    Completes (.streamStage hdr (par [(16, 1, 1), (17, 1, 0)]) none) (sent 769 (par [(16, 1, 1), (17, 1, 0)]) (streaming Mode.bindery 3 [])) ∧
    Completes (.streamAuth hdr (par [])) (sent 770 (par []) (streaming Mode.holdover 0 [CfgWork.auth old])) ∧
    Completes (.streamApply hdr (par [])) (sent 771 (par []) (streaming Mode.intake 2 [])) ∧
    Completes (.streamApply hdr (par [])) (sent 771 (par []) (streaming Mode.intake 1 [])) ∧
    Completes (.flashWrite hdr0 (par [(16, 4, 1610608640), (20, 4, 4096), (24, 8, 9)]) (some eight)) (ringSlip (streaming Mode.bindery 0 [CfgWork.auth old])) ∧
    Completes (.flashErase hdr (par [(16, 4, 1073741824), (20, 4, 536870912)])) (sent 773 (par [(16, 4, 1073741824), (20, 4, 536870912)]) (streaming Mode.bindery 0 [CfgWork.auth old])) ∧
    Completes (.archiveAdd hdr (par [(16, 1, 31)])) (sent 775 (par [(16, 1, 31)]) (streaming Mode.bindery 2 [CfgWork.auth old])) ∧
    Completes (.archiveAdd hdr (par [(16, 1, 31)])) (sent 775 (par [(16, 1, 31)]) (streaming Mode.bindery 3 [CfgWork.auth old])) :=
  ⟨(by refine completes1 ((((h (sent 0x0301 (par [(24, 4, 0x20000000), (28, 8, 64)]) (streaming .service 0 [])) hdr (par [(24, 4, 0x20000000), (28, 8, 64)]) eight ?_ ?_).1) ?_ ?_).1 ?_ ?_ ?_) <;> first | decide +kernel | exact ok_of (by decide +kernel) | exact takes_of (by decide +kernel)),
   (by refine completes1 ((((h (sent 0x0301 (par [(16, 1, 1), (17, 1, 7)]) (streaming .bindery 2 [])) hdr (par [(16, 1, 1), (17, 1, 7)]) [] ?_ ?_).1) ?_ ?_).2 ?_ ?_) <;> first | decide +kernel | exact ok_of (by decide +kernel) | exact takes_of (by decide +kernel)),
   (by refine completes1 (((h (sent 0x0301 (par [(16, 1, 1), (17, 1, 0)]) (streaming .bindery 3 [])) hdr (par [(16, 1, 1), (17, 1, 0)]) [] ?_ ?_).2.1) ?_ ?_ ?_ ?_) <;> first | decide +kernel | exact ok_of (by decide +kernel) | exact takes_of (by decide +kernel)),
   (by refine completes1 (((h (sent 0x0302 (par []) (streaming .holdover 0 [.auth old])) hdr (par []) [] ?_ ?_).2.2.1) ?_ ?_) <;> first | decide +kernel | exact ok_of (by decide +kernel) | exact takes_of (by decide +kernel)),
   (by refine completes1 ((((h (sent 0x0303 (par []) (streaming .intake 2 [])) hdr (par []) [] ?_ ?_).2.2.2.1) ?_ ?_ ?_).1 ?_) <;> first | decide +kernel | exact ok_of (by decide +kernel) | exact takes_of (by decide +kernel)),
   (by refine completes1 ((((h (sent 0x0303 (par []) (streaming .intake 1 [])) hdr (par []) [] ?_ ?_).2.2.2.1) ?_ ?_ ?_).2 ?_ ?_) <;> first | decide +kernel | exact ok_of (by decide +kernel) | exact takes_of (by decide +kernel)),
   (by refine completes1 (((h (ringSlip (streaming .bindery 0 [.auth old])) hdr0 (par [(16, 4, 0x5FFFF000), (20, 4, 0x1000), (24, 8, 9)]) eight ?_ ?_).2.2.2.2.1) ?_ ?_ ?_ ?_) <;> first | decide +kernel | exact ok_of (by decide +kernel) | exact takes_of (by decide +kernel)),
   (by refine completes1 ((h (sent 0x0305 (par [(16, 4, 0x40000000), (20, 4, 0x20000000)]) (streaming .bindery 0 [.auth old])) hdr (par [(16, 4, 0x40000000), (20, 4, 0x20000000)]) [] ?_ ?_).2.2.2.2.2.1 ?_ ?_ ?_) <;> first | decide +kernel | exact ok_of (by decide +kernel) | exact takes_of (by decide +kernel)),
   (by refine completes1 ((((h (sent 0x0307 (par [(16, 1, 31)]) (streaming .bindery 2 [.auth old])) hdr (par [(16, 1, 31)]) [] ?_ ?_).2.2.2.2.2.2) ?_ ?_ ?_).1 ?_) <;> first | decide +kernel | exact ok_of (by decide +kernel) | exact takes_of (by decide +kernel)),
   (by refine completes1 ((((h (sent 0x0307 (par [(16, 1, 31)]) (streaming .bindery 3 [.auth old])) hdr (par [(16, 1, 31)]) [] ?_ ?_).2.2.2.2.2.2) ?_ ?_ ?_).2 ?_) <;> first | decide +kernel | exact ok_of (by decide +kernel) | exact takes_of (by decide +kernel))⟩

theorem witness_StreamWorkEnds (h : Obligations.StreamWorkEnds) :
    Completes (.streamStageDone Found.clean) (streaming Mode.service 1 [staging 64]) ∧
    Completes (.streamStageDone Found.clean) (streaming Mode.service 1 [staging 536870976]) ∧
    Completes (.streamAuthDone true) (shortPart) ∧
    Completes (.streamAuthDone false) (streaming Mode.service 1 [CfgWork.auth old, staging 64]) ∧
    Completes (.streamAuthDone true) (streaming Mode.service 1 [CfgWork.auth old, staging 64]) ∧
    Completes (.flashWriteDone) (flashed [CfgWork.flashWrite old 6 eight]) ∧
    Completes (.flashWriteDone) (flashed [CfgWork.flashWrite old 248 eight]) ∧
    Completes (.flashEraseDone) (flashed [CfgWork.flashErase old 0 65536, CfgWork.auth old]) ∧
    Completes (.archiveAddDone) (streaming Mode.service 1 [CfgWork.archiveAdd old 31]) ∧
    Completes (.archiveAddDone) (streaming Mode.service 2 [CfgWork.archiveAdd old 31]) :=
  ⟨(by refine completes1 ((((h (streaming .service 1 [staging 64]) old [] ?_ ?_ ?_ ?_ ?_).1) block64 64 64 ?_ ?_).1 ?_ ?_) <;> decide +kernel),
   (by refine completes1 ((((h (streaming .service 1 [staging 0x20000040]) old [] ?_ ?_ ?_ ?_ ?_).1) block64 0x20000040 0x20000040 ?_ ?_).2 ?_) <;> decide +kernel),
   (by refine completes1 ((((h shortPart old [] ?_ ?_ ?_ ?_ ?_).2.1) ?_).1 ?_ true) <;> decide +kernel),
   (by refine completes1 (((((h (streaming .service 1 [.auth old, staging 64]) old [staging 64] ?_ ?_ ?_ ?_ ?_).2.1) ?_).2 ?_ ?_).1) <;> decide +kernel),
   (by refine completes1 (((((h (streaming .service 1 [.auth old, staging 64]) old [staging 64] ?_ ?_ ?_ ?_ ?_).2.1) ?_).2 ?_ ?_).2) <;> decide +kernel),
   (by refine completes1 ((((h (flashed [.flashWrite old 6 eight]) old [] ?_ ?_ ?_ ?_ ?_).2.2.1) 6 eight ?_).1 ?_) <;> decide +kernel),
   (by refine completes1 ((((h (flashed [.flashWrite old 248 eight]) old [] ?_ ?_ ?_ ?_ ?_).2.2.1) 248 eight ?_).2 ?_) <;> decide +kernel),
   (by refine completes1 (((h (flashed [.flashErase old 0 0x10000, .auth old]) old [.auth old] ?_ ?_ ?_ ?_ ?_).2.2.2.1) 0 0x10000 ?_) <;> decide +kernel),
   (by refine completes1 ((((h (streaming .service 1 [.archiveAdd old 31]) old [] ?_ ?_ ?_ ?_ ?_).2.2.2.2) 31 ?_).1 ?_) <;> decide +kernel),
   (by refine completes1 ((((h (streaming .service 2 [.archiveAdd old 31]) old [] ?_ ?_ ?_ ?_ ?_).2.2.2.2) 31 ?_).2 ?_) <;> decide +kernel)⟩

theorem witness_ShelfReading (h : Obligations.ShelfReading) :
    Completes (.shelfFrameRead 0 0 Upset.none) (shelved at0 none) ∧
    Completes (.shelfFrameRead 32768 0 Upset.none) (shelved at0 (some [40896])) ∧
    Completes (.shelfFrameRead 0 3072 Upset.none) (shelved at7 none) ∧
    Completes (.shelfFrameRead 5 0 Upset.parity) (shelved 0 none) ∧
    Completes (.shelfCorrectionWrite) (shelved 0 none) ∧
    Completes (.sweepLate) (swept) ∧
    Completes (.shelfStall) (swept) :=
  ⟨(by refine completes1 ((((h (shelved at0 none) 0 0 ?_).2.1) at0 ?_ ?_ ?_ ?_).1 ?_) <;> decide +kernel),
   (by refine completes1 ((((h (shelved at0 (some [40896])) 0x8000 0 ?_).2.1) at0 ?_ ?_ ?_ ?_).2.1 15 ?_) <;> decide +kernel),
   (by refine completes1 ((((h (shelved at7 none) 0 0xC00 ?_).2.1) at7 ?_ ?_ ?_ ?_).2.2 ?_) <;> decide +kernel),
   (by refine completes1 (((h (shelved 0 none) 5 0 ?_).2.2.1) ?_) <;> decide +kernel),
   (by refine completes1 (((h (shelved 0 none) 0 0 ?_).2.2.2.1) ?_ waits7 ?_) <;> decide +kernel),
   (by refine completes1 (((h swept 0 0 ?_).2.2.2.2.1) ?_ ?_) <;> decide +kernel),
   (by refine completes1 (((h swept 0 0 ?_).2.2.2.2.2) ?_) <;> decide +kernel)⟩

theorem witness_StocktakeRuns (h : Obligations.StocktakeRuns) :
    Completes (.stockBlockCompare 31 35 [Config.blockSignature 127 + 1]) (sliced id) ∧
    Completes (.stockBlockCompare 31 35 [Config.blockSignature 0 + 1]) (sliced again1) ∧
    Completes (.stockBlockCompare 31 35 [Config.blockSignature 127]) (sliced id) ∧
    Completes (.stockTestStart 31) (tested false true 1) ∧
    Completes (.stockTestStart 31) (tested false false 1) ∧
    Completes (.stockTestEnd 31 TestEnd.done { blocks := 128, banks := [] } []) (tested true true 1) ∧
    Completes (.stockTestEnd 31 TestEnd.done { blocks := 128, banks := [] } [TestFault.logic 37 127 none]) (tested true true 0) ∧
    Completes (.repairRecordWriteDone) (recording 2) :=
  ⟨(by refine completes1 ((((h (sliced id) 31 35 old [Config.blockSignature 127 + 1] ?_).1) ?_ ?_ ?_).2.1 (unmet_of (by decide +kernel)) ?_) <;> decide +kernel),
   (by refine completes1 ((((h (sliced again1) 31 35 old [Config.blockSignature 0 + 1] ?_).1) ?_ ?_ ?_).2.2 (unmet_of (by decide +kernel)) ?_) <;> decide +kernel),
   (by refine completes1 ((((h (sliced id) 31 35 old [Config.blockSignature 127] ?_).1) ?_ ?_ ?_).1 (met_of (by decide +kernel))) <;> decide +kernel),
   (by refine completes1 ((((h (tested false true 1) 31 35 old [] ?_).2.1) (testDue false 1) ?_ ?_ ?_ ?_).1 ?_) <;> decide +kernel),
   (by refine completes1 ((((h (tested false false 1) 31 35 old [] ?_).2.1) (testDue false 1) ?_ ?_ ?_ ?_).2 ?_ ?_ ?_ ?_ ?_) <;> decide +kernel),
   (by refine completes2 ((((h (tested true true 1) 31 35 old [] ?_).2.2.1) (testDue true 1) 128 [] ?_ ?_ ?_ ?_ ?_ ?_ ?_ ?_ ?_).1) <;> decide +kernel),
   (by refine completes2 ((((h (tested true true 0) 31 35 old [] ?_).2.2.1) (testDue true 0) 128 [] ?_ ?_ ?_ ?_ ?_ ?_ ?_ ?_ ?_).2 37 127 ?_ ?_ ?_) <;> decide +kernel),
   (by refine completes1 ((((h (recording 2) 31 35 old [] ?_).2.2.2) (List.replicate 2 (List.replicate 16 5)) ?_ ?_).1 ?_) <;> decide +kernel)⟩

theorem witness_StockSlips (h : Obligations.StockSlips) :
    Completes (.stockDeclare hdr (par [(16, 1, 31), (17, 1, 0)])) (sent 2561 (par [(16, 1, 31), (17, 1, 0)]) (bayOf Mode.service rota9)) ∧
    Completes (.stockDeclare hdr (par [(16, 1, 31), (17, 1, 1), (18, 1, 2)])) (sent 2561 (par [(16, 1, 31), (17, 1, 1), (18, 1, 2)]) (bayOf Mode.service rota9)) ∧
    Completes (.stockDeclare hdr (par [(16, 1, 31), (17, 1, 1), (18, 1, 2)])) (sent 2561 (par [(16, 1, 31), (17, 1, 1), (18, 1, 2)]) (bayOf Mode.bindery rota2)) ∧
    Completes (.stockRun hdr (par [(16, 1, 31), (17, 1, 7), (18, 1, 2), (20, 2, 65535)])) (sent 2562 (par [(16, 1, 31), (17, 1, 7), (18, 1, 2), (20, 2, 65535)]) (bayOf Mode.bindery rota9)) ∧
    Completes (.stockRun hdr (par [(16, 1, 31), (17, 1, 1), (18, 1, 0), (20, 2, 1)])) (sent 2562 (par [(16, 1, 31), (17, 1, 1), (18, 1, 0), (20, 2, 1)]) bayTested) ∧
    Completes (.stockRepair hdr (par [(16, 1, 31), (17, 1, 0), (20, 1, 35), (21, 1, 37)])) (sent 2563 (par [(16, 1, 31), (17, 1, 0), (20, 1, 35), (21, 1, 37)]) (bayOf Mode.bindery rota9)) ∧
    Completes (.stockRepair hdr (par [(16, 1, 31), (17, 1, 1), (20, 2, 151), (22, 1, 1), (23, 1, 255)])) (sent 2563 (par [(16, 1, 31), (17, 1, 1), (20, 2, 151), (22, 1, 1), (23, 1, 255)]) (bayOf Mode.bindery rota9)) ∧
    Completes (.stockRepair hdr (par [(16, 1, 31), (17, 1, 2), (20, 2, 151), (22, 2, 2303)])) (sent 2563 (par [(16, 1, 31), (17, 1, 2), (20, 2, 151), (22, 2, 2303)]) (bayOf Mode.bindery rota9)) ∧
    Completes (.stockResult hdr (par [(16, 1, 2)])) (sent 2564 (par [(16, 1, 2)]) (bayOf Mode.bindery rota9)) :=
  ⟨(by refine completes1 ((((h (sent 0x0A01 (par [(16, 1, 31), (17, 1, 0)]) (bayOf .service rota9)) hdr (par [(16, 1, 31), (17, 1, 0)]) ?_).1) ?_ ?_ ?_).1 ?_) <;> first | decide +kernel | exact ok_of (by decide +kernel) | exact takes_of (by decide +kernel)),
   (by refine completes1 ((((h (sent 0x0A01 (par [(16, 1, 31), (17, 1, 1), (18, 1, 2)]) (bayOf .service rota9)) hdr (par [(16, 1, 31), (17, 1, 1), (18, 1, 2)]) ?_).1) ?_ ?_ ?_).2.1 ?_ ?_) <;> first | decide +kernel | exact ok_of (by decide +kernel) | exact takes_of (by decide +kernel)),
   (by refine completes1 ((((h (sent 0x0A01 (par [(16, 1, 31), (17, 1, 1), (18, 1, 2)]) (bayOf .bindery rota2)) hdr (par [(16, 1, 31), (17, 1, 1), (18, 1, 2)]) ?_).1) ?_ ?_ ?_).2.2 ?_ ?_) <;> first | decide +kernel | exact ok_of (by decide +kernel) | exact takes_of (by decide +kernel)),
   (by refine completes2 ((((h (sent 0x0A02 (par [(16, 1, 31), (17, 1, 7), (18, 1, 2), (20, 2, 65535)]) (bayOf .bindery rota9)) hdr (par [(16, 1, 31), (17, 1, 7), (18, 1, 2), (20, 2, 65535)]) ?_).2.1) ?_ ?_ ?_ ?_).1 ?_) <;> first | decide +kernel | exact ok_of (by decide +kernel) | exact takes_of (by decide +kernel)),
   (by refine completes1 ((((h (sent 0x0A02 (par [(16, 1, 31), (17, 1, 1), (18, 1, 0), (20, 2, 1)]) bayTested) hdr (par [(16, 1, 31), (17, 1, 1), (18, 1, 0), (20, 2, 1)]) ?_).2.1) ?_ ?_ ?_ ?_).2 ?_) <;> first | decide +kernel | exact ok_of (by decide +kernel) | exact takes_of (by decide +kernel)),
   (by refine completes1 ((((h (sent 0x0A03 (par [(16, 1, 31), (17, 1, 0), (20, 1, 35), (21, 1, 37)]) (bayOf .bindery rota9)) hdr (par [(16, 1, 31), (17, 1, 0), (20, 1, 35), (21, 1, 37)]) ?_).2.2.1) ?_ ?_ ?_).1 ?_ ?_ ?_) <;> first | decide +kernel | exact ok_of (by decide +kernel) | exact takes_of (by decide +kernel)),
   (by refine completes1 ((((h (sent 0x0A03 (par [(16, 1, 31), (17, 1, 1), (20, 2, 151), (22, 1, 1), (23, 1, 255)]) (bayOf .bindery rota9)) hdr (par [(16, 1, 31), (17, 1, 1), (20, 2, 151), (22, 1, 1), (23, 1, 255)]) ?_).2.2.1) ?_ ?_ ?_).2.1 ?_ ?_ ?_) <;> first | decide +kernel | exact ok_of (by decide +kernel) | exact takes_of (by decide +kernel)),
   (by refine completes1 ((((h (sent 0x0A03 (par [(16, 1, 31), (17, 1, 2), (20, 2, 151), (22, 2, 2303)]) (bayOf .bindery rota9)) hdr (par [(16, 1, 31), (17, 1, 2), (20, 2, 151), (22, 2, 2303)]) ?_).2.2.1) ?_ ?_ ?_).2.2 ?_ ?_ ?_) <;> first | decide +kernel | exact ok_of (by decide +kernel) | exact takes_of (by decide +kernel)),
   (by refine completes1 (((h (sent 0x0A04 (par [(16, 1, 2)]) (bayOf .bindery rota9)) hdr (par [(16, 1, 2)]) ?_).2.2.2) ?_ ?_ ?_) <;> first | decide +kernel | exact ok_of (by decide +kernel) | exact takes_of (by decide +kernel))⟩

theorem witness_PowerEvents (h : Obligations.PowerEvents) :
    Completes (.railFault 5 255) (powered id) ∧
    Completes (.vinFault) (powered id) ∧
    Completes (.boundaryStale) (powered id) ∧
    Completes (.slopeWarn 47) (powered (warm false)) ∧
    Completes (.slopeWarn 47) (powered (warm true)) ∧
    Completes (.bandChange 47) (powered (banded 3 [0, 0, 0, 64] [64, 64, 64, 64])) ∧
    Completes (.bandChange 47) (powered (banded 4 [0, 0, 0, 63] [64, 64, 64, 64])) ∧
    Completes (.sensorFault 83 SensorKind.sisterMismatch) (sensorUp 0) ∧
    Completes (.railRestored false 31) (powered id) :=
  ⟨(by refine completes1 ((h (powered id) 47 83 5 255 ?_ ?_).1) <;> decide +kernel),
   (by refine completes1 ((h (powered id) 47 83 5 255 ?_ ?_).2.1 ?_ ?_) <;> decide +kernel),
   (by refine completes1 ((h (powered id) 47 83 5 255 ?_ ?_).2.2.1 ?_ ?_) <;> decide +kernel),
   (by refine completes1 ((h (powered (warm false)) 47 83 5 255 ?_ ?_).2.2.2.1 ?_ ?_) <;> decide +kernel),
   (by refine completes1 ((h (powered (warm true)) 47 83 5 255 ?_ ?_).2.2.2.2.1 ?_ ?_) <;> decide +kernel),
   (by refine completes0 ((((h (powered (banded 3 [0, 0, 0, 64] [64, 64, 64, 64])) 47 83 5 255 ?_ ?_).2.2.2.2.2.1) ?_ ?_).1 ?_ ?_) <;> decide +kernel),
   (by refine completes0 ((((h (powered (banded 4 [0, 0, 0, 63] [64, 64, 64, 64])) 47 83 5 255 ?_ ?_).2.2.2.2.2.1) ?_ ?_).2 ?_ ?_ ?_ ?_) <;> decide +kernel),
   (by refine completes1 (((h (sensorUp 0) 47 83 5 255 ?_ ?_).2.2.2.2.2.2.1) .sisterMismatch ?_ ?_ ?_) <;> decide +kernel),
   (by refine completes1 (((h (powered id) 47 0 5 255 ?_ ?_).2.2.2.2.2.2.2) false 31 old ?_ ?_ ?_ ?_) <;> decide +kernel)⟩

theorem witness_ThermalSlips (h : Obligations.ThermalSlips) :
    Completes (.thermalSet hdr (par [(16, 1, 63), (17, 1, 100), (18, 1, 1), (19, 1, 200), (20, 1, 200), (21, 1, 192), (22, 3, 1048575)])) (sent 513 (par [(16, 1, 63), (17, 1, 100), (18, 1, 1), (19, 1, 200), (20, 1, 200), (21, 1, 192), (22, 3, 1048575)]) up) ∧
    Completes (.thermalRelease hdr (par [(16, 1, 47)])) (sent 514 (par [(16, 1, 47)]) (powered id)) ∧
    Completes (.thermalRelease hdr (par [(16, 1, 46)])) (sent 514 (par [(16, 1, 46)]) (released 1024)) ∧
    Completes (.thermalRelease hdr (par [(16, 1, 46)])) (sent 514 (par [(16, 1, 46)]) (released 1023)) ∧
    Completes (.powerSet hdr (par [(16, 1, 31), (17, 1, 80)])) (sent 516 (par [(16, 1, 31), (17, 1, 80)]) (powered id)) ∧
    Completes (.powerGate hdr (par [(16, 1, 0), (17, 1, 31)])) (sent 517 (par [(16, 1, 0), (17, 1, 31)]) (railed 0 0)) ∧
    Completes (.powerGate hdr (par [(16, 1, 1), (17, 1, 7)])) (sent 517 (par [(16, 1, 1), (17, 1, 7)]) (railed 0 1)) ∧
    Completes (.powerGate hdr (par [(16, 1, 1), (17, 1, 7), (18, 1, 1)])) (sent 517 (par [(16, 1, 1), (17, 1, 7), (18, 1, 1)]) (railed 128 1)) :=
  ⟨(by refine completes2 ((h (sent 0x0201 (par [(16, 1, 63), (17, 1, 100), (18, 1, 1), (19, 1, 200), (20, 1, 200), (21, 1, 192), (22, 3, 0xFFFFF)]) up) hdr (par [(16, 1, 63), (17, 1, 100), (18, 1, 1), (19, 1, 200), (20, 1, 200), (21, 1, 192), (22, 3, 0xFFFFF)]) ?_).1 ?_ ?_) <;> first | decide +kernel | exact ok_of (by decide +kernel) | exact takes_of (by decide +kernel)),
   (by refine completes1 ((((h (sent 0x0202 (par [(16, 1, 47)]) (powered id)) hdr (par [(16, 1, 47)]) ?_).2.1) ?_ ?_).1 ?_) <;> first | decide +kernel | exact ok_of (by decide +kernel) | exact takes_of (by decide +kernel)),
   (by refine completes1 ((((h (sent 0x0202 (par [(16, 1, 46)]) (released 1024)) hdr (par [(16, 1, 46)]) ?_).2.1) ?_ ?_).2.1 ?_ ?_) <;> first | decide +kernel | exact ok_of (by decide +kernel) | exact takes_of (by decide +kernel)),
   (by refine completes1 ((((h (sent 0x0202 (par [(16, 1, 46)]) (released 1023)) hdr (par [(16, 1, 46)]) ?_).2.1) ?_ ?_).2.2 ?_ ?_) <;> first | decide +kernel | exact ok_of (by decide +kernel) | exact takes_of (by decide +kernel)),
   (by refine completes1 ((h (sent 0x0204 (par [(16, 1, 31), (17, 1, 80)]) (powered id)) hdr (par [(16, 1, 31), (17, 1, 80)]) ?_).2.2.1 ?_ ?_) <;> first | decide +kernel | exact ok_of (by decide +kernel) | exact takes_of (by decide +kernel)),
   (by refine completes1 ((((h (sent 0x0205 (par [(16, 1, 0), (17, 1, 31)]) (railed 0 0)) hdr (par [(16, 1, 0), (17, 1, 31)]) ?_).2.2.2) ?_ ?_ ?_).1 ?_ ?_ ?_) <;> first | decide +kernel | exact ok_of (by decide +kernel) | exact takes_of (by decide +kernel)),
   (by refine completes1 ((((h (sent 0x0205 (par [(16, 1, 1), (17, 1, 7)]) (railed 0 1)) hdr (par [(16, 1, 1), (17, 1, 7)]) ?_).2.2.2) ?_ ?_ ?_).2.1 ?_ ?_ ?_) <;> first | decide +kernel | exact ok_of (by decide +kernel) | exact takes_of (by decide +kernel)),
   (by refine completes1 ((((h (sent 0x0205 (par [(16, 1, 1), (17, 1, 7), (18, 1, 1)]) (railed 0x80 1)) hdr (par [(16, 1, 1), (17, 1, 7), (18, 1, 1)]) ?_).2.2.2) ?_ ?_ ?_).2.2 ?_ ?_) <;> first | decide +kernel | exact ok_of (by decide +kernel) | exact takes_of (by decide +kernel))⟩

theorem witness_ReadingRoomPort (h : Obligations.ReadingRoomPort) :
    Completes (.idcode) (tap) ∧
    Completes (.tapReset) (tap) ∧
    Completes (.extest 640) (tap) ∧
    Completes (.samplePreload (some 640) 74565) (tap) ∧
    Completes (.samplePreload none 74565) (tap) ∧
    Completes (.highz) (tap) ∧
    Completes (.clamp) (tap) ∧
    Completes (.bypass 255) (tap) ∧
    Completes (.rrReg 0 3) (debugging 2) ∧
    Completes (.rrReg (regDr 16 false) 3) (debugging 0) ∧
    Completes (.rrReg (regDr 16 true) 3) (debugging 2) ∧
    Completes (.rrReg (regDr 16 true) 3) (debugging 1) ∧
    Completes (.rrReg (regDr 3932160 false) 3) (debugging 1) ∧
    Completes (.rrMem 0 Found.clean []) (debugging 1) ∧
    Completes (.rrMem (memDr 0) Found.clean []) (debugging 1) ∧
    Completes (.rrMem (memDr 0) Found.clean []) (debugging 0) :=
  ⟨completes1 (((h).1 tap 0x280 0x12345 0xFF).1 .idcode (by decide)),
   completes1 (((h).1 tap 0x280 0x12345 0xFF).1 .tapReset (by decide)),
   completes1 (((h).1 tap 0x280 0x12345 0xFF).2.1),
   completes1 (((h).1 tap 0x280 0x12345 0xFF).2.2.1),
   completes1 (((h).1 tap 0x280 0x12345 0xFF).2.2.2.1),
   completes1 (((h).1 tap 0x280 0x12345 0xFF).2.2.2.2.1),
   completes1 (((h).1 tap 0x280 0x12345 0xFF).2.2.2.2.2.1),
   completes1 (((h).1 tap 0x280 0x12345 0xFF).2.2.2.2.2.2),
   (by refine completes0 (((h).2 (debugging 2) 0 0 3 ?_).1 ?_) <;> decide +kernel),
   (by refine completes1 (((((h).2 (debugging 0) (regDr 0x10 false) 0 3 ?_).2.1) ?_ ?_ ?_).1 ?_ ?_) <;> decide +kernel),
   (by refine completes1 (((((h).2 (debugging 2) (regDr 0x10 true) 0 3 ?_).2.1) ?_ ?_ ?_).2.1 ?_ ?_ ?_) <;> decide +kernel),
   (by refine completes1 (((((h).2 (debugging 1) (regDr 0x10 true) 0 3 ?_).2.1) ?_ ?_ ?_).2.2.1 ?_ ?_) <;> decide +kernel),
   (by refine completes1 (((((h).2 (debugging 1) (regDr 0x3C0000 false) 0 3 ?_).2.1) ?_ ?_ ?_).2.2.2 ?_ ?_) <;> decide +kernel),
   (by refine completes0 ((((h).2 (debugging 1) 0 0 3 ?_).2.2.1) ?_) <;> decide +kernel),
   (by refine completes1 (((((h).2 (debugging 1) 0 (memDr 0) 3 ?_).2.2.2) ?_ ?_ ?_ ?_ ?_).1 ?_ ?_ ?_ ?_ ?_ ?_) <;> decide +kernel),
   (by refine completes1 (((((h).2 (debugging 0) 0 (memDr 0) 3 ?_).2.2.2) ?_ ?_ ?_ ?_ ?_).2 ?_) <;> decide +kernel)⟩

theorem witness_RegisterQueries (h : Obligations.RegisterQueries) :
    Completes (.clockQuery hdr (par [])) (sent 261 (par []) qualified) ∧
    Completes (.thermalQuery hdr (par [])) (sent 515 (par []) (powered id)) ∧
    Completes (.powerQuery hdr (par [])) (sent 518 (par []) (powered id)) ∧
    Completes (.streamQuery hdr (par [])) (sent 774 (par []) (streaming Mode.service 2 [])) ∧
    Completes (.rekeyQuery hdr (par [])) (sent 2308 (par []) up) ∧
    Completes (.stockQuery hdr (par [])) (sent 2565 (par []) (bayOf Mode.service rota9)) ∧
    Completes (.eventQuery hdr (par [])) (sent 2821 (par []) books) :=
  ⟨(by refine completes2 ((h (sent 0x0105 (par []) qualified) hdr (par []) ?_).1 ?_ ?_) <;> first | decide +kernel | exact ok_of (by decide +kernel) | exact takes_of (by decide +kernel)),
   (by refine completes2 ((h (sent 0x0203 (par []) (powered id)) hdr (par []) ?_).2.1 ?_) <;> first | exact ok_of (by decide +kernel) | exact takes_of (by decide +kernel)),
   (by refine completes2 ((h (sent 0x0206 (par []) (powered id)) hdr (par []) ?_).2.2.1 ?_) <;> first | exact ok_of (by decide +kernel) | exact takes_of (by decide +kernel)),
   (by refine completes2 ((h (sent 0x0306 (par []) (streaming .service 2 [])) hdr (par []) ?_).2.2.2.1 ?_ ?_) <;> first | decide +kernel | exact ok_of (by decide +kernel) | exact takes_of (by decide +kernel)),
   (by refine completes2 ((h (sent 0x0904 (par []) up) hdr (par []) ?_).2.2.2.2.1 ?_ ?_) <;> first | decide +kernel | exact ok_of (by decide +kernel) | exact takes_of (by decide +kernel)),
   (by refine completes2 ((h (sent 0x0A05 (par []) (bayOf .service rota9)) hdr (par []) ?_).2.2.2.2.2.1 ?_ ?_) <;> first | decide +kernel | exact ok_of (by decide +kernel) | exact takes_of (by decide +kernel)),
   (by refine completes2 ((h (sent 0x0B05 (par []) books) hdr (par []) ?_).2.2.2.2.2.2 ?_) <;> first | exact ok_of (by decide +kernel) | exact takes_of (by decide +kernel))⟩

theorem witness_TableQueries (h : Obligations.TableQueries) :
    Completes (.rotaQuery hdr (par [(16, 1, 31), (17, 1, 35), (18, 1, 1), (19, 1, 1)])) (sent 1026 (par [(16, 1, 31), (17, 1, 35), (18, 1, 1), (19, 1, 1)]) (fab Mode.service 0 false)) ∧
    Completes (.editionQuery hdr (par [(16, 2, 1023)])) (sent 0x0407 (par [(16, 2, 1023)]) (bindable true)) ∧
    Completes (.editionQuery hdr (par [(16, 2, 1)])) (sent 1031 (par [(16, 2, 1)]) (bindable true)) ∧
    Completes (.channelQuery hdr (par [(16, 1, 31)])) (sent 1033 (par [(16, 1, 31)]) (fab Mode.service 0 false)) ∧
    Completes (.portQuery hdr (par [(16, 2, 143)])) (sent 1282 (par [(16, 2, 143)]) (flowing q0 Mode.service)) ∧
    Completes (.queueQuery hdr (par [(16, 2, 16383), (18, 1, 1)])) (sent 1538 (par [(16, 2, 16383), (18, 1, 1)]) (flowing q0 Mode.service)) ∧
    Completes (.queueSpaceQuery hdr (par [(16, 1, 15)])) (sent 1540 (par [(16, 1, 15)]) (spaced 1 q0)) ∧
    Completes (.flowQuery hdr (par [(16, 2, 65535), (18, 1, 1)])) (sent 1794 (par [(16, 2, 65535), (18, 1, 1)]) (flowing q0 Mode.service)) ∧
    Completes (.egressQuery hdr (par [(16, 2, 143), (18, 2, 0)])) (sent 1798 (par [(16, 2, 143), (18, 2, 0)]) (flowing q0 Mode.service)) ∧
    Completes (.retireQuery hdr (par [(16, 2, 0)])) (sent 2055 (par [(16, 2, 0)]) up) ∧
    Completes (.rightsQuery hdr (par [(16, 1, 38), (17, 1, 1)])) (sent 2306 (par [(16, 1, 38), (17, 1, 1)]) up) :=
  ⟨(by refine completes2 ((h (sent 0x0402 (par [(16, 1, 31), (17, 1, 35), (18, 1, 1), (19, 1, 1)]) (fab .service 0 false)) hdr (par [(16, 1, 31), (17, 1, 35), (18, 1, 1), (19, 1, 1)])).1 ?_ ?_ ?_) <;> first | decide +kernel | exact ok_of (by decide +kernel) | exact takes_of (by decide +kernel)),
   (by refine completes1 ((((h (sent 0x0407 (par [(16, 2, 1023)]) (bindable true)) hdr (par [(16, 2, 1023)])).2.1) ?_).1 ?_ rfl) <;> first | decide +kernel | exact takes_of (by decide +kernel)),
   (by refine completes2 ((((h (sent 0x0407 (par [(16, 2, 1)]) (bindable true)) hdr (par [(16, 2, 1)])).2.1) ?_).2 (ed 3 2) ?_ ?_) <;> first | decide +kernel | exact ok_of (by decide +kernel) | exact takes_of (by decide +kernel)),
   (by refine completes2 ((h (sent 0x0409 (par [(16, 1, 31)]) (fab .service 0 false)) hdr (par [(16, 1, 31)])).2.2.1 ?_ ?_ ?_) <;> first | decide +kernel | exact ok_of (by decide +kernel) | exact takes_of (by decide +kernel)),
   (by refine completes2 ((h (sent 0x0502 (par [(16, 2, 143)]) (flowing q0 .service)) hdr (par [(16, 2, 143)])).2.2.2.1 ?_ ?_ ?_) <;> first | decide +kernel | exact ok_of (by decide +kernel) | exact takes_of (by decide +kernel)),
   (by refine completes2 ((h (sent 0x0602 (par [(16, 2, 16383), (18, 1, 1)]) (flowing q0 .service)) hdr (par [(16, 2, 16383), (18, 1, 1)])).2.2.2.2.1 ?_ ?_) <;> first | exact ok_of (by decide +kernel) | exact takes_of (by decide +kernel)),
   (by refine completes2 ((h (sent 0x0604 (par [(16, 1, 15)]) (spaced 1 q0)) hdr (par [(16, 1, 15)])).2.2.2.2.2.1 ?_ ?_) <;> first | exact ok_of (by decide +kernel) | exact takes_of (by decide +kernel)),
   (by refine completes2 ((h (sent 0x0702 (par [(16, 2, 65535), (18, 1, 1)]) (flowing q0 .service)) hdr (par [(16, 2, 65535), (18, 1, 1)])).2.2.2.2.2.2.1 ?_ ?_) <;> first | exact ok_of (by decide +kernel) | exact takes_of (by decide +kernel)),
   (by refine completes2 ((h (sent 0x0706 (par [(16, 2, 143), (18, 2, 0)]) (flowing q0 .service)) hdr (par [(16, 2, 143), (18, 2, 0)])).2.2.2.2.2.2.2.1 ?_ ?_) <;> first | exact ok_of (by decide +kernel) | exact takes_of (by decide +kernel)),
   (by refine completes2 ((h (sent 0x0807 (par [(16, 2, 0)]) up) hdr (par [(16, 2, 0)])).2.2.2.2.2.2.2.2.1 ?_ ?_) <;> first | exact ok_of (by decide +kernel) | exact takes_of (by decide +kernel)),
   (by refine completes2 ((h (sent 0x0902 (par [(16, 1, 38), (17, 1, 1)]) up) hdr (par [(16, 1, 38), (17, 1, 1)])).2.2.2.2.2.2.2.2.2 ?_ ?_ ?_) <;> first | decide +kernel | exact ok_of (by decide +kernel) | exact takes_of (by decide +kernel))⟩

theorem witness_LaneTests (h : Obligations.LaneTests) :
    Completes (.laneTestSet hdr (par [(16, 2, 143), (18, 1, 15), (19, 1, 255), (20, 4, 4294967295), (24, 1, 1)])) (sent 3329 (par [(16, 2, 143), (18, 1, 15), (19, 1, 255), (20, 4, 4294967295), (24, 1, 1)]) (laneUp Mode.bindery)) ∧
    Completes (.laneTestQuery hdr (par [(16, 2, 143)])) (sent 3330 (par [(16, 2, 143)]) (laneUp Mode.bindery)) ∧
    Completes (.laneTestSet hdr (par [(16, 2, 143), (24, 1, 0)])) (sent 3329 (par [(16, 2, 143), (24, 1, 0)]) (laneUp Mode.service)) ∧
    Completes (.laneTestQuery hdr (par [(16, 2, 143)])) (sent 3330 (par [(16, 2, 143)]) (laneUp Mode.service)) :=
  ⟨(by refine completes1 (((h (sent 0x0D01 (par [(16, 2, 143), (18, 1, 15), (19, 1, 255), (20, 4, 0xFFFFFFFF), (24, 1, 1)]) (laneUp .bindery)) hdr (par [(16, 2, 143), (18, 1, 15), (19, 1, 255), (20, 4, 0xFFFFFFFF), (24, 1, 1)])).1) ?_ ?_ ?_ ?_ ?_ ?_ ?_) <;> first | decide +kernel | exact ok_of (by decide +kernel) | exact takes_of (by decide +kernel)),
   (by refine completes2 ((h (sent 0x0D02 (par [(16, 2, 143)]) (laneUp .bindery)) hdr (par [(16, 2, 143)])).2.1 ?_ ?_ ?_) <;> first | decide +kernel | exact ok_of (by decide +kernel) | exact takes_of (by decide +kernel)),
   (by refine completes1 ((h (sent 0x0D01 (par [(16, 2, 143), (24, 1, 0)]) (laneUp .service)) hdr (par [(16, 2, 143), (24, 1, 0)])).2.2.1 ?_ ?_ ?_) <;> first | decide +kernel | exact takes_of (by decide +kernel)),
   (by refine completes1 ((h (sent 0x0D02 (par [(16, 2, 143)]) (laneUp .service)) hdr (par [(16, 2, 143)])).2.2.2 ?_ ?_ ?_) <;> first | decide +kernel | exact takes_of (by decide +kernel))⟩

/-! ## The commands as the table gives them -/

/-- The table gives no row bits, so no word spells a command. -/
theorem decodes_none : decodeTableWord 32 0x0101 = none := rfl
theorem no_word_placed : State.reset.withFetchWord 32 0x0101 = State.reset := rfl

theorem wellFormed_slip : Instr.wf (.clockQuery hdr (par [])) = true := by decide
theorem illFormed_monitorWindowEnd : Instr.wf (.monitorWindowEnd [1, 2] 0 0 0) = false := by decide
theorem illFormed_slotBoundary : Instr.wf (.slotBoundary ⟨[], 0, 0, 0, [], []⟩) = false := by decide
theorem illFormed_frameBoundary_sample : Instr.wf (.frameBoundary ⟨0, 0, ⟨[], 0, 0, 0, [], []⟩, []⟩) = false := by decide
theorem illFormed_frameBoundary_restore :
    Instr.wf (.frameBoundary ⟨0, 0, ⟨List.replicate 96 0, 0, 0, 0, [], []⟩, [(1152, ⟨0, 0⟩)]⟩) = false := by decide
theorem illFormed_skipSet : Instr.wf (.skipSetReceived 0 [1, 2]) = false := by decide
theorem illFormed_slotBoundary_lane : Instr.wf (.slotBoundary ⟨List.replicate 96 0, 0, 0, 0, [(576, 1)], []⟩) = false := by decide
theorem illFormed_slotBoundary_error : Instr.wf (.slotBoundary ⟨List.replicate 96 0, 0, 0, 0, [], [(576, 1)]⟩) = false := by decide
theorem illFormed_frameMark : Instr.wf (.frameMarkReceived 0 [[1]] true 0) = false := by decide
theorem illFormed_frameMark_copy : Instr.wf (.frameMarkReceived 0 [[1, 2, 3, 4, 5, 6, 7], [1]] true 0) = false := by decide
theorem illFormed_turn : Instr.wf (.turn 0 0 ⟨0, 0, 0, [0, 0, 0, 0, 0, 0], false⟩ ⟨0, 0⟩) = false := by decide
theorem illFormed_bankAccess : Instr.wf (.carrelBankAccess 0 0 0 0 none none [.clean, .clean, .clean, .clean, .clean]) = false := by
  decide
theorem illFormed_negSets : ∀ c ∈ [Instr.negCapabilitiesReceived 0 [1], .negProposeReceived 0 [1], .negAcceptReceived 0 [1],
    .negConfirmReceived 0 [1], .negFailReceived 0 [1], .negRefuseReceived 0 [1]], c.wf = false := by decide
theorem illFormed_armLapse : Instr.wf (.unlockArmLapse .i2c 241) = false := by decide
theorem illFormed_lockoutEnd : Instr.wf (.lockoutEnd 241) = false := by decide
theorem illFormed_layerWrite_none : Instr.wf (.memoryLayerWrite 0 0 [] .clean) = false := by decide
theorem illFormed_layerWrite_across : Instr.wf (.memoryLayerWrite 0 7 [1, 2] .clean) = false := by decide
theorem illFormed_sideWrite_none : Instr.wf (.sideStoreWrite 0 0 [] .clean []) = false := by decide
theorem illFormed_sideWrite_across : Instr.wf (.sideStoreWrite 0 63 [1, 2] .clean []) = false := by decide
theorem illFormed_frameMark_none : Instr.wf (.frameMarkReceived 0 [] true 0) = false := by decide
theorem illFormed_chainBlocks : (∀ l : List Byte, l.length = 1025 → (Instr.chainDataBlockReceived 0 0 l 0).wf = false) ∧
    ∀ l : List Byte, l.length = 1036 → (Instr.chainEndBlockReceived l).wf = false := by
  constructor <;> intro l e <;> simp [Instr.wf, e]
theorem illFormed_testFault_block : Instr.wf (.stockTestEnd 0 .done ⟨0, []⟩ [.logic 0 128 none]) = false := by decide
theorem illFormed_testFault_line : Instr.wf (.stockTestEnd 0 .done ⟨0, []⟩ [.bank 0 0 [(2048, 0)]]) = false := by decide
theorem illFormed_testFault_bit : Instr.wf (.stockTestEnd 0 .done ⟨0, []⟩ [.bank 0 0 [(0, 288)]]) = false := by decide
theorem illFormed_slip : Instr.wf (.clockQuery hdr [1]) = false := by decide

/-! ## Numbers the spec works out -/

/-- The state after a command. -/
def after (c : Instr) (s : State) : State :=
  match exec c s with
  | .next t => t
  | .fault _ => s
  | .refused _ => s

theorem test_idle : step State.reset = .next State.reset := rfl

/-- DESK_ID reads 0xD191_440B. -/
theorem test_deskId : Sparse.get 0 (after (.registerRead .i2c 0) up).regs.readData (Master.code .i2c) = 0xD191440B := by
  decide +kernel

/-- The reset words of BAY_MAP, SHELF_ACTION_LO, THERM_BOUNDARY and THM_PARAM. -/
theorem test_resetWords : (up.blockReg (.fab 31) 4, up.blockReg .shelf 4, up.blockReg .thm 0, up.blockReg .thm 8) =
    (0x3F3F, 0x55555555, 0x460, 0x0A1EC046) := by decide +kernel

/-- "Side stores and inline encryption": the block at 0x0_C000_0040 with major 5, minor 9, generation 0. -/
def node59 : LedgerNode := { major := 5, minors := [(1, 9)], epoch := false, rebuilding := false, generation := 0 }
theorem test_tweak : tweak 0x03000001 2 0 node59 = 0x00000000000000090000000543000001 := by decide +kernel
theorem test_maskTweak : tweak 0x03000001 0 1 node59 = 0x00000000800000090000000503000001 := by decide +kernel

/-- The same section: V07 being swept, its watermark 76,250. -/
theorem test_volState : State.volState { up with crypto.vols := [(7, { VolSt.dflt with
    state := 2, newSlot := true, twoLive := true, watermark := 76250 })] } 7 = 0xB00129DA := by decide +kernel

/-- "Configuration upsets and shelf-reading": B12.C05, F1, frame 300, bit 517; granule 19,232 is essential. -/
def b12 : State :=
  { up with modes.bays := [(12, .service)], shelf.position := ((12 * 36 + 5) * 8 + 1) * 640 + 300,
            fab.folios := [((12 * 38 + 5) * 8 + 1, { FolioSt.dflt with state := .inRota, catalogue := some [19232] })] }
theorem test_shelfLog : (after (.shelfFrameRead (1 <<< 517) 0 .none) b12).shelf.log = 0x58294B00 := by decide +kernel
theorem test_shelfLogInfo : (after (.shelfFrameRead (1 <<< 517) 0 .none) b12).shelf.logInfo = 0x40000205 := by decide +kernel

/-- "Serial lanes and line coding": w of 1.25 Gbaud ×1, 3.125 ×2 and 6.25 ×2. -/
theorem test_creditWidths : (creditWidth 0 0, creditWidth 2 1, creditWidth 4 1) = (2, 3, 4) := by decide

/-- The same section: one inverted bit of a PRBS-31 stream on L2 of T05 is counted as three errors, and inj_once clears. -/
def t05 : State :=
  { up with modes.ports := [(133, .bindery)], ports := [(133, { PortSt.dflt 133 with
      neg.cur := ⟨7, 2⟩, lane.loopback := 1, lane.chkLock := 15,
      lane.testCtrl := [0x44, 0x44, 0x90000044, 0x44] })] }
theorem test_injOnce : ((after (.injOnce 133 2) t05).port 133).lane.prbsErr = [0, 0, 3, 0] := by decide +kernel
theorem test_injOnce_clears : ((after (.injOnce 133 2) t05).port 133).lane.testCtrl = [0x44, 0x44, 0x10000044, 0x44] := by decide +kernel

/-- "Port bring-up": the six steps of S048. -/
theorem test_ladder : ladder { NegSt.dflt with
    ownRates := 0x1F, ownWidths := 3, partnerRates := 0x1F, partnerWidths := 3, partnerValid := true } =
    [⟨0, 0⟩, ⟨0, 1⟩, ⟨1, 1⟩, ⟨2, 1⟩, ⟨3, 1⟩, ⟨4, 1⟩] := by decide

/-- "Stocktake": a test entry of 12,498 cycles runs 148 patterns a slice. -/
theorem test_slicePatterns : slicePatterns (w32 (12498 * 65536 + 9)) = 148 := by decide

/-- The same section: block 63 of B03.C14 fails its rerun. -/
def b03 : State :=
  { up with fab.bays := [(3, { BaySt.dflt with running := true })], stock.policy := [(3, 2)],
            fab.carrels := [(122, { CarrelSt.dflt with slicing := true })],
            stock.carrels := [(122, { SliceSt.dflt with pattern := 8140, blockStart := 8064, left := 148, rerun := true })] }
theorem test_failLog : (blockCompare 3 14 false b03).stock.failLog = 0x0CE7E07F := by decide +kernel
theorem test_failInfo : (blockCompare 3 14 false b03).stock.outcome = 3 := by decide +kernel
/-- C14 at C36. -/
theorem test_bayMap : State.blockReg { up with fab.bays := [(3, { BaySt.dflt with c36 := some 14 })] } (.fab 3) 4 = 0x3F0E := by
  decide +kernel

/-- K28.5, D0.0 and D31.7 as IEEE 802.3 clause 36 codes them at each disparity. -/
theorem test_codes : ([(k285, false), (k285, true), ((0, false), false), ((0, false), true), ((255, false), false)].map
    fun y => encodeSym y.1 y.2) = [0b0011111010, 0b1100000101, 0b1001110100, 0b0110001011, 0b1010110001] := by decide

/-- "Pins, package and electrical": SL037_RX1 and TK05_TX3. -/
theorem test_balls : [laneBall 37 1 true false, laneBall 37 1 true true, laneBall 133 3 false false, laneBall 133 3 false true] =
    [⟨1, 63⟩, ⟨2, 63⟩, ⟨4, 65⟩, ⟨5, 65⟩] := by decide

end Sys2Proof.Tests
end

section
/-! PROOFS. A queue's producer end: the header that is taken, the words that follow it, and the item's end ("Queues", R170 to R182). -/

namespace Sys2Proof.Machine
open Sys2Proof

/-! ## Where the words of the queues stand, the mirror has nothing to write -/

theorem Sparse.look_of_mem {α : Type} (m : Sparse α) (k : Nat) (v : α) (h : Sparse.rises m = true) (hm : (k, v) ∈ m) :
    Sparse.look m k = some v := by
  have gen : ∀ lo, Sparse.risesFrom lo m = true → Sparse.look m k = some v := by
    clear h
    induction m with
    | nil => cases hm
    | cons x r ih =>
      intro lo h
      simp only [Sparse.risesFrom, Bool.and_eq_true, decide_eq_true_eq] at h
      rcases List.mem_cons.mp hm with rfl | hr
      · simp [Sparse.look]
      · have hk := ih hr _ h.2
        rw [Sparse.look, if_neg, hk]
        rintro rfl
        simp [Sparse.look_below _ _ _ h.2 (Nat.lt_succ_self _)] at hk
  exact gen 0 h

/-- The stored words of a queue, and where they stand in its engine's space. -/
def QueueSt.sameStore (a b : QueueSt) : Prop := b.words = a.words ∧ b.base = a.base ∧ b.sizeCode = a.sizeCode

theorem newWords_eq_nil (a b : QueueSt) (h : a.sameStore b) (ha : Sparse.rises a.words = true) : newWords a b = [] := by
  obtain ⟨hw, hb, hc⟩ := h
  refine List.filter_eq_nil_iff.mpr fun x hx => ?_
  rw [hw] at hx
  simp [hb, hc, Sparse.look_of_mem _ _ _ ha hx]

theorem mirrorQueues_sameStore (s t : State) (hs : s.wf = true) (ht : Sparse.rises t.queues = true)
    (h : ∀ q, (s.queue q).sameStore (t.queue q)) : mirrorQueues s t = t := by
  unfold mirrorQueues
  split
  · rfl
  · refine List.foldlRecOn (motive := (· = t)) t.queues _ rfl fun x hx qd hqd => ?_
    have hd : t.queue qd.1 = qd.2 := by rw [State.queue, Sparse.get, Sparse.look_of_mem _ _ _ ht hqd]; rfl
    have hn : newWords (s.queue qd.1) qd.2 = [] := newWords_eq_nil _ _ (hd ▸ h qd.1) (s.wf_queue hs _)
    simpa [hn] using hx

theorem mirror_sameStore (s t : State) (hs : s.wf = true) (ht : Sparse.rises t.queues = true)
    (h : ∀ q, (s.queue q).sameStore (t.queue q)) (hf : t.flows = s.flows) (hl : t.log = s.log) : mirror s t = t := by
  have hm : mirrorBook s (mirrorFlows s (mirrorQueues s t)) = t := by
    simp [mirrorQueues_sameStore s t hs ht h, mirrorFlows, mirrorBook, hf, hl]
  unfold mirror
  rw [hm]

/-- A command that raises nothing and stores no word leaves what it did. -/
theorem run_sameStore (f : State → State) (s : State) (hs : s.wf = true) (hq : Sparse.rises (f s).queues = true)
    (h : ∀ q, (s.queue q).sameStore ((f s).queue q)) (hf : (f s).flows = s.flows) (hl : (f s).log = s.log) :
    run f s = .next (f s) := by
  unfold run
  rw [inOneCycle_same f s (congrArg LogSt.raised hl), mirror_sameStore s _ hs hq h hf hl]

/-- Sorting the events and mirroring the bytes leave crossbar, queues and engines as the command left them. -/
theorem run_reads (f : State → State) (s : State) : ∃ t, run f s = .next t ∧ t.xbar = (f s).xbar ∧
    (∀ q, t.queue q = (f s).queue q) ∧ ∀ e, t.engine e = (f s).engine e :=
  ⟨_, rfl, rfl, fun _ => rfl, fun _ => rfl⟩

/-! ## What leaves the queues alone -/

@[simp] theorem State.setQueue_rises (s : State) (q : Nat) (v : QueueSt) (h : Sparse.rises s.queues = true) :
    Sparse.rises (s.setQueue q v).queues = true := Sparse.rises_put _ _ _ _ h

@[simp] theorem State.modQueue_rises (s : State) (q : Nat) (f : QueueSt → QueueSt) (h : Sparse.rises s.queues = true) :
    Sparse.rises (s.modQueue q f).queues = true := Sparse.rises_put _ _ _ _ h

@[simp] theorem State.modEngine_rises (s : State) (e : Nat) (f : EngineSt → EngineSt) (h : Sparse.rises s.engines = true) :
    Sparse.rises (s.modEngine e f).engines = true := Sparse.rises_put _ _ _ _ h

/-- Credit is freed at a port. -/
theorem freeCredit_eq (c : Option (Nat × Nat × Nat)) (s : State) :
    freeCredit c s = { s with ports := (freeCredit c s).ports } := by
  cases c <;> rfl

@[simp] theorem freeCredit_xbar (c : Option (Nat × Nat × Nat)) (s : State) : (freeCredit c s).xbar = s.xbar := by
  rw [freeCredit_eq]
@[simp] theorem freeCredit_queues (c : Option (Nat × Nat × Nat)) (s : State) : (freeCredit c s).queues = s.queues := by
  rw [freeCredit_eq]
@[simp] theorem freeCredit_queue (c : Option (Nat × Nat × Nat)) (s : State) (q : Nat) :
    (freeCredit c s).queue q = s.queue q := by rw [freeCredit_eq]; rfl
@[simp] theorem freeCredit_engine (c : Option (Nat × Nat × Nat)) (s : State) (e : Nat) :
    (freeCredit c s).engine e = s.engine e := by rw [freeCredit_eq]; rfl

/-- A word leaves the lookup stage of a port. -/
theorem leaveFor_eq (q : Nat) (w : Line) (s : State) : leaveFor q w s = { s with ports := (leaveFor q w s).ports } := by
  unfold leaveFor leaveStage
  cases (s.queue q).prodPort with
  | none => rfl
  | some p =>
    simp only [Option.elim_some]
    split <;> rfl

@[simp] theorem leaveFor_queues (q : Nat) (w : Line) (s : State) : (leaveFor q w s).queues = s.queues := by rw [leaveFor_eq]
@[simp] theorem leaveFor_queue (q : Nat) (w : Line) (s : State) (r : Nat) : (leaveFor q w s).queue r = s.queue r := by
  rw [leaveFor_eq]; rfl

/-- Where no upset strikes, nothing changes. -/
@[simp] theorem strikeFor_none (q : Nat) (line : Option Nat) (s : State) : strikeFor q line .none s = s := by
  unfold strikeFor
  split
  · split <;> rfl
  · rfl

/-! ## A queue whose copies agree (R169, R189) -/

/-- Both copies of both pointers agree, and no upset stands in the settings. -/
def QueueSt.agrees (d : QueueSt) : Prop := d.wptrSh = d.wptr ∧ d.rptrSh = d.rptr ∧ d.parityBad = false

/-- A use finds no fault. -/
theorem useQueue_agrees (q : Nat) (s : State) (h : (s.queue q).agrees) : useQueue q s = none := by
  obtain ⟨hw, hr, hp⟩ := h
  simp [useQueue, hw, hr, hp]

/-! ## Storing a word (R167, R168) -/

/-- The word pushed stands at the write pointer as it was. -/
theorem QueueSt.word_push (d : QueueSt) (w : Line) : (d.push w).word d.wptr.toNat = w := by
  show Sparse.get 0 (Sparse.ins d.words (d.pos d.wptr.toNat) w) (d.pos d.wptr.toNat) = w
  rw [Sparse.get, Sparse.look_ins, if_pos rfl, Option.getD_some]

/-! ## Losses (R177) -/

/-- A queue that has recorded a loss at its tail: in the engine's own marker there, or in a new one. -/
def QueueSt.marked (l : Loss) (d : QueueSt) : QueueSt :=
  let last := d.wptr.toNat + 2 * d.cap - 1
  if d.tailMarker then { d with words := Sparse.ins d.words (d.pos last) ((lossOf (d.word last)).join l).line }
  else { d.push l.line with tailMarker := true, own := d.pos d.wptr.toNat :: (d.push l.line).own }

@[simp] theorem QueueSt.marked_tailMarker (l : Loss) (d : QueueSt) : (d.marked l).tailMarker = true := by
  cases h : d.tailMarker <;> simp [marked, h]
@[simp] theorem QueueSt.marked_prodMid (l : Loss) (d : QueueSt) : (d.marked l).prodMid = d.prodMid := by
  cases h : d.tailMarker <;> simp [marked, h, push, setW]
@[simp] theorem QueueSt.marked_items (l : Loss) (d : QueueSt) : (d.marked l).items = d.items := by
  cases h : d.tailMarker <;> simp [marked, h, push, setW]
@[simp] theorem QueueSt.marked_rptr (l : Loss) (d : QueueSt) : (d.marked l).rptr = d.rptr := by
  cases h : d.tailMarker <;> simp [marked, h, push, setW]

/-- A new marker is pushed. -/
theorem QueueSt.marked_new (l : Loss) (d : QueueSt) (h : d.tailMarker = false) :
    (d.marked l).wptr = d.ptr (d.wptr.toNat + 1) ∧ (d.marked l).word d.wptr.toNat = l.line := by
  simp only [marked, h]
  exact ⟨rfl, d.word_push l.line⟩

theorem markLoss_agrees (q : Nat) (l : Loss) (s : State) (h : (s.queue q).agrees) :
    markLoss q l s = if (s.queue q).tailMarker then s.setQueue q ((s.queue q).marked l)
      else countMarker (queueEngine q) (s.setQueue q ((s.queue q).marked l)) := by
  cases ht : (s.queue q).tailMarker <;> simp [markLoss, useQueue_agrees q s h, QueueSt.marked, ht]

/-- What a loss leaves: its marker in the queue, every other queue, and the count of dropped items. -/
theorem markLoss_reads (q : Nat) (l : Loss) (s : State) (h : (s.queue q).agrees) (hq : Sparse.rises s.queues = true)
    (he : Sparse.rises s.engines = true) :
    (∀ r, (markLoss q l s).queue r = if r = q then (s.queue q).marked l else s.queue r) ∧
    (∀ e, ((markLoss q l s).engine e).dropItems = (s.engine e).dropItems) ∧ (markLoss q l s).xbar = s.xbar := by
  rw [markLoss_agrees q l s h]
  split
  · exact ⟨fun r => s.setQueue_queue q _ r hq, fun _ => rfl, rfl⟩
  · refine ⟨fun r => s.setQueue_queue q _ r hq, fun e => ?_, rfl⟩
    have hread := (s.setQueue q ((s.queue q).marked l)).modEngine_engine (queueEngine q)
      (fun t => { t with dropMarkers := sat 0xFFFF t.dropMarkers 1 }) e he
    rw [countMarker, hread]
    split
    · subst_vars; rfl
    · rfl

theorem markLoss_rises (q : Nat) (l : Loss) (s : State) (h : (s.queue q).agrees) (hq : Sparse.rises s.queues = true) :
    Sparse.rises (markLoss q l s).queues = true := by
  rw [markLoss_agrees q l s h]
  split <;> exact s.setQueue_rises q _ hq

theorem dropItem_rises (q : Nat) (hdr : Line) (cause : Byte) (c : Option (Nat × Nat × Nat)) (s : State)
    (h : (s.queue q).agrees) (hq : Sparse.rises s.queues = true) : Sparse.rises (dropItem q hdr cause c s).queues = true := by
  rw [dropItem, freeCredit_queues]
  exact markLoss_rises q _ _ h hq

/-- What dropping an item whole leaves: its marker in the queue, every other queue, and the item counted at the engine. -/
theorem dropItem_reads (q : Nat) (hdr : Line) (cause : Byte) (c : Option (Nat × Nat × Nat)) (s : State)
    (h : (s.queue q).agrees) (hq : Sparse.rises s.queues = true) (he : Sparse.rises s.engines = true) :
    (∀ r, (dropItem q hdr cause c s).queue r = if r = q then (s.queue q).marked (s.lossNow q hdr cause) else s.queue r) ∧
    ((dropItem q hdr cause c s).engine (queueEngine q)).dropItems = min 65535 ((s.engine (queueEngine q)).dropItems + 1) ∧
    (dropItem q hdr cause c s).xbar = s.xbar := by
  let counted := s.modEngine (queueEngine q) fun t => { t with dropItems := sat 0xFFFF t.dropItems 1 }
  obtain ⟨hqueue, hdrop, hxbar⟩ := markLoss_reads q (counted.lossNow q hdr cause) counted h hq (s.modEngine_rises _ _ he)
  refine ⟨fun r => ?_, ?_, ?_⟩
  · rw [dropItem, freeCredit_queue]; exact hqueue r
  · rw [dropItem, freeCredit_engine]
    refine (hdrop _).trans ?_
    rw [State.modEngine_engine _ _ _ _ he, if_pos rfl]; rfl
  · rw [dropItem, freeCredit_xbar]; exact hxbar

/-! ## A header is taken (R171 to R178) -/

/-- A queue whose producer has stored an item's header. -/
def QueueSt.stored (hdr : Line) (c : Option (Nat × Nat × Nat)) (d : QueueSt) : QueueSt :=
  { d.push hdr with
    tailMarker := false, prodMid := true, prodHdr := hdr, prodAt := d.wptr, prodTaken := 1, items := d.items + 1
    charges := match c with
      | some c => Sparse.ins d.charges (d.pos d.wptr.toNat) c
      | none => d.charges }

/-- The header can be judged by its room alone: it is well formed, its consumers are not closing, and the queue could hold its item
if empty. -/
def State.judgedByRoom (s : State) (q : Nat) (hdr : Line) : Prop :=
  isMalformed hdr = false ∧ isD (s.consumers (s.flow (hdrFlow hdr)).egPort) = false ∧ hdrLen hdr ≤ (s.queue q).cap - 1

theorem takeHeader_fits (q : Nat) (hdr : Line) (c : Option (Nat × Nat × Nat)) (s : State) (h : s.judgedByRoom q hdr)
    (hfit : (s.queue q).occupied + hdrLen hdr ≤ (s.queue q).cap - 1) :
    takeHeader q hdr c s = (true, s.setQueue q ((s.queue q).stored hdr c)) := by
  obtain ⟨hm, hd, hn⟩ := h
  simp only [takeHeader, hm, hd, if_neg (Nat.not_lt.mpr hn), if_neg (Nat.not_lt.mpr hfit), Bool.false_eq_true, if_false]
  rfl

theorem takeHeader_full (q : Nat) (hdr : Line) (c : Option (Nat × Nat × Nat)) (s : State) (h : s.judgedByRoom q hdr)
    (hfull : (s.queue q).cap - 1 < (s.queue q).occupied + hdrLen hdr)
    (hH : isH (s.consumers (s.flow (hdrFlow hdr)).egPort) = false) :
    takeHeader q hdr c s = (false, dropItem q hdr 0x01 c s) := by
  obtain ⟨hm, hd, hn⟩ := h
  simp only [takeHeader, hm, hd, hH, if_neg (Nat.not_lt.mpr hn), if_pos hfull, Bool.false_eq_true, if_false]

/-- A queue whose engine has noted an arriving item: its header, and where the rest of it comes from. -/
def QueueSt.fedBy (x : XbarItem) (d : QueueSt) : QueueSt :=
  { d with prodPort := some x.port, prodOpen := x.isOpen, prodPoison := x.poisoned, prodHdr := x.hdr, prodTaken := 1 }

/-- A header leaves the crossbar for its engine. -/
def State.crossed (s : State) (q : Nat) (x : XbarItem) : State :=
  { s with xbar := s.xbar.erase x }.modQueue q (QueueSt.fedBy x)

theorem State.crossed_queue (s : State) (q : Nat) (x : XbarItem) (r : Nat) (h : Sparse.rises s.queues = true) :
    (s.crossed q x).queue r = if r = q then (s.queue q).fedBy x else s.queue r := State.modQueue_queue _ _ _ _ h

theorem State.crossed_queue_same (s : State) (q : Nat) (x : XbarItem) (h : Sparse.rises s.queues = true) :
    (s.crossed q x).queue q = (s.queue q).fedBy x := by rw [s.crossed_queue q x q h, if_pos rfl]

theorem State.crossed_judgedByRoom (s : State) (q : Nat) (x : XbarItem) (h : Sparse.rises s.queues = true)
    (hj : s.judgedByRoom q x.hdr) : (s.crossed q x).judgedByRoom q x.hdr := by
  obtain ⟨hm, hd, hn⟩ := hj
  refine ⟨hm, hd, ?_⟩
  rw [s.crossed_queue_same q x h]
  exact hn

/-- The engine takes the header that waits first, where its producer side is free. -/
theorem exec_itemHeaderTaken (s : State) (q : Queue) (x : XbarItem) (hx : s.waitingFor q.val = some x)
    (hb : (s.queue q.val).busy = false) : exec (.itemHeaderTaken q x.hdr .none) s = run (headerTaken q.val x) s := by
  show execItemHeaderTaken q x.hdr .none s = _
  unfold execItemHeaderTaken run inOneCycle
  simp [hx, hb, when]

theorem QueueSt.prodMid_of_not_busy (d : QueueSt) (h : d.busy = false) : d.prodMid = false := by
  simp only [busy, Bool.or_eq_false_iff] at h
  obtain ⟨⟨⟨⟨hmid, -⟩, -⟩, -⟩, -⟩ := h
  exact hmid

/-- The flow of a header leads straight to its queue: no delay line and no merge stands between. -/
def FlowSt.direct (f : FlowSt) : Prop := f.valid = false ∨ (f.delayEn = false ∧ f.paired = false)

theorem headerTaken_direct (q : Nat) (x : XbarItem) (s : State) (hD : s.stepDone 4 = true) (hf : (s.flow (hdrFlow x.hdr)).direct) :
    headerTaken q x s = headerToQueue q x.hdr x.charge (s.crossed q x) := by
  have hdelay : ((s.flow (hdrFlow x.hdr)).valid && (s.flow (hdrFlow x.hdr)).delayEn) = false := by
    rcases hf with hv | ⟨hd, -⟩ <;> simp [*]
  have hpair : ((s.flow (hdrFlow x.hdr)).valid && (s.flow (hdrFlow x.hdr)).paired) = false := by
    rcases hf with hv | ⟨-, hp⟩ <;> simp [*]
  have hstep : (!(s.crossed q x).stepDone 4) ≠ true := by
    show (!s.stepDone 4) ≠ true
    simp [hD]
  unfold headerTaken
  simp only [hdelay, hpair, Bool.false_and, Bool.false_eq_true, if_false]
  exact if_neg hstep

/-- At an enabled queue without a fault a header goes where takeHeader sends it. -/
theorem headerToQueue_agrees (q : Nat) (hdr : Line) (c : Option (Nat × Nat × Nat)) (s : State) (hen : (s.queue q).enable = true)
    (h : (s.queue q).agrees) : headerToQueue q hdr c s =
      if (takeHeader q hdr c s).1 then (takeHeader q hdr c s).2 else startDropping q (takeHeader q hdr c s).2 := by
  simp [headerToQueue, hen, useQueue_agrees q s h]

section
variable (q : Nat) (x : XbarItem) (s : State) (hs : s.wf = true) (hD : s.stepDone 4 = true)
  (hf : (s.flow (hdrFlow x.hdr)).direct) (hen : (s.queue q).enable = true) (ha : (s.queue q).agrees)
  (hj : s.judgedByRoom q x.hdr)
include hs hD hf hen ha hj

theorem headerTaken_fits (hfit : (s.queue q).occupied + hdrLen x.hdr ≤ (s.queue q).cap - 1) :
    headerTaken q x s = (s.crossed q x).setQueue q (((s.queue q).fedBy x).stored x.hdr x.charge) := by
  have hd := s.crossed_queue_same q x (s.wf_queues hs)
  have ht := takeHeader_fits q x.hdr x.charge (s.crossed q x) (s.crossed_judgedByRoom q x (s.wf_queues hs) hj)
    (by rw [hd]; exact hfit)
  rw [headerTaken_direct q x s hD hf, headerToQueue_agrees q _ _ _ (by rw [hd]; exact hen) (by rw [hd]; exact ha), ht, hd]
  rfl

theorem headerTaken_full (hfull : (s.queue q).cap - 1 < (s.queue q).occupied + hdrLen x.hdr)
    (hH : isH (s.consumers (s.flow (hdrFlow x.hdr)).egPort) = false) :
    headerTaken q x s = startDropping q (dropItem q x.hdr 0x01 x.charge (s.crossed q x)) := by
  have hd := s.crossed_queue_same q x (s.wf_queues hs)
  have ht := takeHeader_full q x.hdr x.charge (s.crossed q x) (s.crossed_judgedByRoom q x (s.wf_queues hs) hj)
    (by rw [hd]; exact hfull) hH
  rw [headerTaken_direct q x s hD hf, headerToQueue_agrees q _ _ _ (by rw [hd]; exact hen) (by rw [hd]; exact ha), ht]
  rfl

end

/-! ## The words and the end of an item (R172, R182) -/

/-- The producer is inside an item that the queue has admitted. -/
def QueueSt.writing (d : QueueSt) : Prop :=
  d.dropping = false ∧ d.arriving = none ∧ d.discarding = false ∧ d.prodMid = true

theorem wordWrite_writing (q : Nat) (w : Line) (s : State) (hw : (s.queue q).writing) (h : (s.queue q).agrees)
    (hn : (s.queue q).prodTaken < hdrLen (s.queue q).prodHdr) : wordWrite q w s = pushWord q w (leaveFor q w s) := by
  obtain ⟨hdrop, harr, hdisc, hmid⟩ := hw
  have hu : useQueue q (leaveFor q w s) = none := useQueue_agrees q _ (by rwa [leaveFor_queue])
  simp [wordWrite, hdrop, harr, hdisc, hmid, hu, Nat.not_le.mpr hn]

/-- A queue whose producer waits for no port. -/
def QueueSt.released (d : QueueSt) : QueueSt := { d with prodPort := none, prodOpen := false, prodPoison := false }

theorem itemEnds_eq (q : Nat) (poisoned : Bool) (s : State) :
    itemEnds q poisoned s = (endWritten q (poisoned || (s.queue q).prodPoison) s).modQueue q QueueSt.released := rfl

theorem endWritten_whole (q : Nat) (s : State) (hw : (s.queue q).writing)
    (hn : (s.queue q).prodTaken = hdrLen (s.queue q).prodHdr) :
    endWritten q false s = s.setQueue q { s.queue q with prodMid := false } := by
  obtain ⟨hdrop, harr, hdisc, hmid⟩ := hw
  simp [endWritten, hdrop, harr, hdisc, hmid, hn]

theorem endWritten_poisoned (q : Nat) (s : State) (hw : (s.queue q).writing) (h : (s.queue q).agrees) :
    endWritten q true s = poisonItem q s := by
  obtain ⟨hdrop, harr, hdisc, hmid⟩ := hw
  simp [endWritten, hdrop, harr, hdisc, hmid, useQueue_agrees q s h]

/-- A queue whose open item ends poisoned: an abort is due where its last word would stand. -/
def QueueSt.aborted (d : QueueSt) : QueueSt :=
  let w := if d.prodTaken = hdrLen d.prodHdr then d.wptr.toNat + 2 * d.cap - 1 else d.wptr.toNat
  { d.setW w with
    prodMid := false, abortPending := true, abortAt := d.ptr w
    abortCause := (if d.abortPending then d.abortCause else 0) ||| 0x04 }

theorem poisonItem_opened (q : Nat) (s : State) (h : (s.queue q).opened = true) :
    poisonItem q s = s.setQueue q (s.queue q).aborted := by
  simp only [poisonItem, h, if_true]
  rfl

/-- A queue from which the item being written has been taken back. -/
def QueueSt.withdrawn (d : QueueSt) : QueueSt :=
  let d1 := { d.setW d.prodAt.toNat with
    prodMid := false, items := d.items - 1, charges := Sparse.del d.charges (d.pos d.prodAt.toNat) }
  { d1 with tailMarker := d1.isOwn (d.prodAt.toNat + 2 * d.cap - 1) && d1.occupied != 0 }

theorem poisonItem_unopened (q : Nat) (s : State) (h : (s.queue q).opened = false) :
    poisonItem q s = dropItem q (s.queue q).prodHdr 0x04 (Sparse.look (s.queue q).charges ((s.queue q).pos (s.queue q).prodAt.toNat))
      (s.setQueue q (s.queue q).withdrawn) := by
  simp only [poisonItem, h]
  rfl

theorem QueueSt.withdrawn_agrees (d : QueueSt) (h : d.agrees) : d.withdrawn.agrees := ⟨rfl, h.2.1, h.2.2⟩

/-- One queue is written, then released. -/
theorem State.setQueue_released (s : State) (q : Nat) (v : QueueSt) (h : Sparse.rises s.queues = true) (r : Nat) :
    ((s.setQueue q v).modQueue q QueueSt.released).queue r = if r = q then v.released else s.queue r := by
  rw [State.modQueue_queue _ _ _ _ (s.setQueue_rises q v h), State.setQueue_queue _ _ _ _ h, State.setQueue_queue _ _ _ _ h]
  split <;> simp

/-- A command that writes one queue but none of its words, and releases it, does that alone. -/
theorem run_setQueue_released (f : State → State) (s : State) (q : Nat) (v : QueueSt) (hs : s.wf = true)
    (hf : f s = (s.setQueue q v).modQueue q QueueSt.released) (hv : (s.queue q).sameStore v) :
    ∃ t, run f s = .next t ∧ t.queue q = v.released ∧ t = { s with queues := t.queues } ∧
      ∀ r, r ≠ q → t.queue r = s.queue r := by
  have hq := s.wf_queues hs
  have hread := s.setQueue_released q v hq
  refine ⟨f s, run_sameStore f s hs ?_ (fun r => ?_) ?_ ?_, ?_, ?_, fun r hr => ?_⟩
  · rw [hf]; exact State.modQueue_rises _ _ _ (s.setQueue_rises q v hq)
  · rw [hf, hread]
    split
    · subst_vars; exact hv
    · exact ⟨rfl, rfl, rfl⟩
  · rw [hf]; rfl
  · rw [hf]; rfl
  · rw [hf, hread, if_pos rfl]
  · rw [hf]; rfl
  · rw [hf, hread, if_neg hr]

/-! ## The commands of the producer -/

/-- R27: where no header waits for the queue, there is nothing to take. -/
theorem itemHeaderTaken_idle (s : State) (q : Queue) (w : Line) (h : s.waitingFor q.val = none) :
    exec (.itemHeaderTaken q w .none) s = .next s := by
  show execItemHeaderTaken q w .none s = _
  rw [execItemHeaderTaken, h]
  exact run_quiet id s rfl rfl rfl

section
variable (s : State) (q : Queue) (x : XbarItem) (hs : s.wf = true) (hx : s.waitingFor q.val = some x)
  (hb : (s.queue q.val).busy = false) (hD : s.stepDone 4 = true) (hf : (s.flow (hdrFlow x.hdr)).direct)
  (hen : (s.queue q.val).enable = true) (ha : (s.queue q.val).agrees) (hj : s.judgedByRoom q.val x.hdr)
include hs hx hb hD hf hen ha hj

/-- R173, R175: an item that fits is admitted, and its header stored. -/
theorem itemHeaderTaken_fits (hfit : (s.queue q.val).occupied + hdrLen x.hdr ≤ (s.queue q.val).cap - 1) :
    ∃ t, exec (.itemHeaderTaken q x.hdr .none) s = .next t ∧ t.xbar = s.xbar.erase x ∧
      t.queue q.val = ((s.queue q.val).fedBy x).stored x.hdr x.charge ∧ ∀ r, r ≠ q.val → t.queue r = s.queue r := by
  have hq := s.wf_queues hs
  obtain ⟨t, ht, hxbar, hqueue, -⟩ := run_reads (headerTaken q.val x) s
  rw [headerTaken_fits q.val x s hs hD hf hen ha hj hfit] at hxbar hqueue
  have hread := fun r => (hqueue r).trans (State.setQueue_queue (s.crossed q.val x) q.val _ r (State.modQueue_rises _ _ _ hq))
  refine ⟨t, (exec_itemHeaderTaken s q x hx hb).trans ht, hxbar, ?_, fun r hr => ?_⟩
  · rw [hread, if_pos rfl]
  · rw [hread, if_neg hr, s.crossed_queue _ _ _ hq, if_neg hr]

/-- R175, R177: an item that does not fit is dropped, marked at the tail and counted. -/
theorem itemHeaderTaken_full (hfull : (s.queue q.val).cap - 1 < (s.queue q.val).occupied + hdrLen x.hdr)
    (hH : isH (s.consumers (s.flow (hdrFlow x.hdr)).egPort) = false) :
    ∃ t, exec (.itemHeaderTaken q x.hdr .none) s = .next t ∧ t.xbar = s.xbar.erase x ∧
      t.queue q.val = { ((s.queue q.val).fedBy x).marked (s.lossNow q.val x.hdr 0x01) with dropping := true } ∧
      (t.engine (queueEngine q.val)).dropItems = min 65535 ((s.engine (queueEngine q.val)).dropItems + 1) ∧
      ∀ r, r ≠ q.val → t.queue r = s.queue r := by
  have hq := s.wf_queues hs
  have hself := s.crossed_queue_same q.val x hq
  have hagree : ((s.crossed q.val x).queue q.val).agrees := by rw [hself]; exact ha
  obtain ⟨hdropq, hdropn, hdropx⟩ := dropItem_reads q.val x.hdr 0x01 x.charge (s.crossed q.val x) hagree
    (State.modQueue_rises _ _ _ hq) (s.wf_engines hs)
  obtain ⟨t, ht, hxbar, hqueue, hengine⟩ := run_reads (headerTaken q.val x) s
  rw [headerTaken_full q.val x s hs hD hf hen ha hj hfull hH] at hxbar hqueue hengine
  have hread := fun r => (hqueue r).trans (State.modQueue_queue _ q.val _ r
    (dropItem_rises q.val _ _ _ _ hagree (State.modQueue_rises _ _ _ hq)))
  refine ⟨t, (exec_itemHeaderTaken s q x hx hb).trans ht, hxbar.trans hdropx, ?_,
    (congrArg EngineSt.dropItems (hengine _)).trans hdropn, fun r hr => ?_⟩
  · rw [hread, if_pos rfl, hdropq, if_pos rfl, hself]; rfl
  · rw [hread, if_neg hr, hdropq, if_neg hr, s.crossed_queue _ _ _ hq, if_neg hr]

end

section
variable (s : State) (q : Queue) (hs : s.wf = true) (hw : (s.queue q.val).writing)
include hs hw

/-- R172: a further word of an admitted item is stored. -/
theorem itemWordWrite_stores (w : Line) (ha : (s.queue q.val).agrees)
    (hn : (s.queue q.val).prodTaken < hdrLen (s.queue q.val).prodHdr) :
    ∃ t, exec (.itemWordWrite q w .none) s = .next t ∧
      t.queue q.val = { (s.queue q.val).push w with prodTaken := (s.queue q.val).prodTaken + 1 } ∧
      ∀ r, r ≠ q.val → t.queue r = s.queue r := by
  obtain ⟨t, ht, -, hqueue, -⟩ := run_reads
    (fun s => wordWrite q.val w (strikeFor q.val (s.queue q.val).arriving .none s)) s
  simp only [strikeFor_none, wordWrite_writing q.val w s hw ha hn] at hqueue
  have hread := fun r => (hqueue r).trans (State.modQueue_queue (leaveFor q.val w s) q.val _ r
    (by rw [leaveFor_queues]; exact s.wf_queues hs))
  refine ⟨t, ht, ?_, fun r hr => ?_⟩
  · rw [hread, if_pos rfl, leaveFor_queue]
  · rw [hread, if_neg hr, leaveFor_queue]

/-- R172: an item that has all its words is complete. -/
theorem itemComplete_releases (hn : (s.queue q.val).prodTaken = hdrLen (s.queue q.val).prodHdr)
    (hp : (s.queue q.val).prodPoison = false) :
    ∃ t, exec (.itemComplete q) s = .next t ∧ t.queue q.val = { s.queue q.val with prodMid := false }.released ∧
      t = { s with queues := t.queues } ∧ ∀ r, r ≠ q.val → t.queue r = s.queue r := by
  refine run_setQueue_released (itemEnds q.val false) s q.val _ hs ?_ ⟨rfl, rfl, rfl⟩
  rw [itemEnds_eq, hp, Bool.or_false, endWritten_whole q.val s hw hn]

/-- R182: an opened item that ends poisoned leaves an abort for its consumer. -/
theorem itemPoisonedEnd_opened (ha : (s.queue q.val).agrees) (ho : (s.queue q.val).opened = true) :
    ∃ t, exec (.itemPoisonedEnd q) s = .next t ∧ t.queue q.val = (s.queue q.val).aborted.released ∧
      t = { s with queues := t.queues } ∧ ∀ r, r ≠ q.val → t.queue r = s.queue r := by
  refine run_setQueue_released (itemEnds q.val true) s q.val _ hs ?_ ⟨rfl, rfl, rfl⟩
  rw [itemEnds_eq, Bool.true_or, endWritten_poisoned q.val s hw ha, poisonItem_opened q.val s ho]

/-- R182: an item that ends poisoned before it was opened is taken back and dropped whole. -/
theorem itemPoisonedEnd_unopened (ha : (s.queue q.val).agrees) (ho : (s.queue q.val).opened = false) :
    ∃ t, exec (.itemPoisonedEnd q) s = .next t ∧
      t.queue q.val = ((s.queue q.val).withdrawn.marked (s.lossNow q.val (s.queue q.val).prodHdr 0x04)).released ∧
      (t.engine (queueEngine q.val)).dropItems = min 65535 ((s.engine (queueEngine q.val)).dropItems + 1) ∧
      ∀ r, r ≠ q.val → t.queue r = s.queue r := by
  have hq := s.wf_queues hs
  have hback := fun r => s.setQueue_queue q.val (s.queue q.val).withdrawn r hq
  have hself : (s.setQueue q.val (s.queue q.val).withdrawn).queue q.val = (s.queue q.val).withdrawn := by rw [hback, if_pos rfl]
  have hagree : ((s.setQueue q.val (s.queue q.val).withdrawn).queue q.val).agrees := by
    rw [hself]; exact QueueSt.withdrawn_agrees _ ha
  obtain ⟨hdropq, hdropn, -⟩ := dropItem_reads q.val (s.queue q.val).prodHdr 0x04
    (Sparse.look (s.queue q.val).charges ((s.queue q.val).pos (s.queue q.val).prodAt.toNat))
    (s.setQueue q.val (s.queue q.val).withdrawn) hagree
    (s.setQueue_rises _ _ hq) (s.wf_engines hs)
  obtain ⟨t, ht, -, hqueue, hengine⟩ := run_reads (itemEnds q.val true) s
  rw [itemEnds_eq, Bool.true_or, endWritten_poisoned q.val s hw ha, poisonItem_unopened q.val s ho] at hqueue hengine
  have hread := fun r => (hqueue r).trans (State.modQueue_queue _ q.val _ r
    (dropItem_rises q.val _ _ _ _ hagree (s.setQueue_rises _ _ hq)))
  refine ⟨t, ht, ?_, (congrArg EngineSt.dropItems (hengine _)).trans hdropn, fun r hr => ?_⟩
  · rw [hread, if_pos rfl, hdropq, if_pos rfl, hself]; rfl
  · rw [hread, if_neg hr, hdropq, if_neg hr, hback, if_neg hr]

end

/-- Settles O32: each clause is read off the queue that the producer's command leaves. -/
theorem itemsAdmitted : Obligations.ItemsAdmitted := by
  unfold Obligations.ItemsAdmitted
  intro s q x w hs
  refine ⟨itemHeaderTaken_idle s q w, ?_, fun hdrop harr hdisc hmid => ?_⟩
  · intro hx hb hD hf hen ha hm hd hn
    refine ⟨fun hfit => ?_, fun hfull hH => ?_⟩
    · obtain ⟨t, ht, hxbar, hself, hother⟩ := itemHeaderTaken_fits s q x hs hx hb hD hf hen ha ⟨hm, hd, hn⟩ hfit
      refine ⟨t, ht, hxbar, ?_⟩
      rw [hself]
      exact ⟨((s.queue q.val).fedBy x).word_push x.hdr, rfl, rfl, rfl, rfl, rfl, rfl, rfl, rfl, rfl, rfl, hother⟩
    · obtain ⟨t, ht, hxbar, hself, hcount, hother⟩ :=
        itemHeaderTaken_full s q x hs hx hb hD hf hen ha ⟨hm, hd, hn⟩ hfull hH
      refine ⟨t, ht, hxbar, ?_⟩
      rw [hself]
      refine ⟨rfl, QueueSt.marked_tailMarker _ _, (QueueSt.marked_prodMid _ _).trans (QueueSt.prodMid_of_not_busy _ hb),
        QueueSt.marked_rptr _ _, hcount, fun htail => QueueSt.marked_new _ ((s.queue q.val).fedBy x) htail, hother⟩
  · have hw : (s.queue q.val).writing := ⟨hdrop, harr, hdisc, hmid⟩
    refine ⟨fun ha hn => ?_, itemComplete_releases s q hs hw, fun ha ho => ?_, fun ha ho => ?_⟩
    · obtain ⟨t, ht, hself, hother⟩ := itemWordWrite_stores s q hs hw w ha hn
      refine ⟨t, ht, ?_⟩
      rw [hself]
      exact ⟨(s.queue q.val).word_push w, rfl, rfl, rfl, hother⟩
    · obtain ⟨t, ht, hself, hframe, hother⟩ := itemPoisonedEnd_opened s q hs hw ha ho
      refine ⟨t, ht, ?_, ?_, ?_, hframe, hother⟩
      · rw [hself]; rfl
      · rw [hself]; rfl
      · rw [hself]; simp [QueueSt.released, QueueSt.aborted, QueueSt.setW]
    · obtain ⟨t, ht, hself, hcount, hother⟩ := itemPoisonedEnd_unopened s q hs hw ha ho
      refine ⟨t, ht, ?_, ?_, ?_, hcount, hother⟩
      · rw [hself]; exact QueueSt.marked_prodMid _ _
      · rw [hself]; exact QueueSt.marked_tailMarker _ _
      · rw [hself]; exact QueueSt.marked_items _ _

end Sys2Proof.Machine
end

section
/-! PROOFS. The frame's edges, its loop and its sources (R35 to R43, R49). -/

namespace Sys2Proof.Machine
open Sys2Proof

/-! ## Commands whose condition holds -/

/-- A command that raises nothing, where its condition holds, does what it says. -/
theorem done_when {c : Bool} (hc : c = true) (f : State → State) (s : State) : done (when c f s) = .next (f s) := by
  subst hc; rfl

/-- Where it does not hold, nothing happens. -/
theorem done_when_not {c : Bool} (hc : c = false) (f : State → State) (s : State) : done (when c f s) = .next s := by
  subst hc; rfl

/-- A command that may raise events: they are put in order, and the pool's bytes follow. -/
theorem run_when {c : Bool} (hc : c = true) (f : State → State) (s : State) :
    run (when c f) s = .next (mirror s (inOneCycle f s)) := by
  subst hc; rfl

/-- What a command raised is told of when it has ended. -/
theorem mirror_told (f : State → State) (s : State) (c : EvClass) (code : BitVec 16) (sub : Nat)
    (h : (f s).told c code sub) : (mirror s (inOneCycle f s)).told c code sub :=
  (inOneCycle_told f s c code sub).mpr h

/-- A completion event leaves the frame alone. -/
@[simp] theorem complete_frame (id : SlipId) (st : BitVec 16) (d : Nat) (l : List Byte) (s : State) :
    (complete id st d l s).frame = s.frame := by rw [complete_eq]

/-! ## An edge of FRAME_IN (R35) -/

/-- While FRAME_IN is in use and no other selection qualifies, its first edge in the window is taken and any other counted. -/
theorem frameInEdge_active (place : Int) (f : FrameSt) (hsrc : f.active.src = 1) (hq : f.qualifying = none) :
    frameInEdge place f =
      if inWindow f.active place ∧ f.edge = none then { f with edge := some (windowDist f.active place) }
      else { f with misplaced := min 255 (f.misplaced + 1) } := by
  have hc : f.cand = none := by simp [FrameSt.cand, hq]
  cases hw : inWindow f.active place <;> cases he : f.edge <;> simp [frameInEdge, hc, hsrc, hw, he, sat]

/-! ## What the sources' commands do (R36, R37) -/

/-- A lost source: the state that FRAME_SOURCE_LOST is raised on holds the frozen word. -/
theorem frameSourceLoss_eq (s : State) (hrun : s.framesRun = true) (hlost : s.frame.lost = false)
    (hsrc : s.frame.active.src ≠ 0) (hshown : s.lossShown = true) :
    exec .frameSourceLoss s = .next (mirror s (inOneCycle sourceLoss s)) :=
  run_when (by simp [hrun, hlost, hsrc, hshown]) _ s

/-- A selection that has not qualified in 8,000 frames is given up for the one in use. -/
theorem sourceQualifyTimeout_late (s : State) (sel : FrameSel) (id : SlipId) (n : Nat)
    (hq : s.frame.qualifying = some (sel, id, n)) (hlate : 8000 ≤ n) (hnew : s.frame.newQualified = false) :
    sourceQualifyTimeout s =
      complete id St.qualifyTimeout 0 [] { s with frame.qualifying := none, frame.sel := s.frame.active } := by
  simp [sourceQualifyTimeout, hq, hlate, hnew]

/-! ## Obligations -/

/-- Settles O10: the window's edge by the cases of `frameInEdge_active`, the rest from what each command's condition admits. -/
theorem frameEdgesAndLock : Obligations.FrameEdgesAndLock := by
  unfold Obligations.FrameEdgesAndLock
  refine ⟨fun s place => ⟨fun hrun hsrc hq => ?_, fun hout => ?_, rfl⟩,
    fun s u => ⟨fun hlock => ?_, fun hshort => ?_, fun hlong hnew => ?_, fun hlong hnew => ?_⟩⟩
  · refine ⟨_, done_when hrun _ s, ?_⟩
    simp only [frameInEdge_active place s.frame hsrc hq]
    split <;> exact ⟨rfl, rfl, rfl⟩
  · simp [exec, execFrameOutEdge, done, when, hout]
  · exact done_when (decide_eq_true hlock) _ s
  · exact done_when_not (decide_eq_false (Nat.not_le.mpr hshort)) _ s
  · exact ⟨_, run_when (by simp [hlong, hnew]) _ s, rfl, rfl, mirror_told _ _ _ _ _ (raise_told ..)⟩
  · have hlt : u.val < s.frame.overrunTold.length := (List.getElem?_eq_some_iff.mp hnew).1
    exact ⟨_, run_when (by simp [hlong, List.getD, hnew]) _ s, mirror_told _ _ _ _ _ (raise_told ..),
      List.getElem?_set_self hlt, rfl⟩

/-- Settles O11: a command whose condition holds does what it says, and a selection that is late is given up by the completion
of its slip. -/
theorem sourceLostAndQualified : Obligations.SourceLostAndQualified := by
  unfold Obligations.SourceLostAndQualified
  refine fun s => ⟨fun hrun hlost hsrc hshown => ?_, fun hrun hq hgood => ?_, fun sel id n hrun hq hgood => ?_,
    fun sel id n hq hlate hnew hring hch => ?_⟩
  · exact ⟨_, frameSourceLoss_eq s hrun hlost hsrc hshown, rfl, rfl, rfl, rfl, mirror_told _ _ _ _ _ (raise_told ..)⟩
  · refine (done_when hrun sourceQualified s).trans ?_
    simp [sourceQualified, FrameSt.cand, hq, hgood]
  · refine (done_when hrun sourceQualified s).trans ?_
    simp [sourceQualified, FrameSt.cand, hq, hgood]
  · have ht := sourceQualifyTimeout_late s sel id n hq hlate hnew
    have hw : id.writes St.qualifyTimeout = true := by
      simp [SlipId.writes, St.qualifyTimeout, St.ok, St.accepted]
    have hc := complete_completed id St.qualifyTimeout 0 []
      { s with frame.qualifying := none, frame.sel := s.frame.active } hring hw hch
    have hf := complete_frame id St.qualifyTimeout 0 [] { s with frame.qualifying := none, frame.sel := s.frame.active }
    rw [← ht] at hc hf
    exact ⟨_, rfl, hc, (congrArg FrameSt.qualifying hf :), (congrArg FrameSt.active hf :),
      (congrArg FrameSt.sel hf :)⟩

end Sys2Proof.Machine
end

section
/-! PROOFS. The slips of the frame (R31, R34, R385): what pends, what it supersedes, and that both answer ACCEPTED. -/

namespace Sys2Proof.Machine
open Sys2Proof

/-! ## A slip's start leaves each ring's series (R363) -/

/-- What a ring takes and counts does not decide whether a slip's ring is gone. -/
theorem modRing_ringGone (s : State) (n : Nat) (f : RingSt → RingSt) (hf : ∀ r, (f r).enable = r.enable ∧ (f r).gen = r.gen)
    (id : SlipId) : (s.modRing n f).ringGone id = s.ringGone id := by
  have hk : ∀ k, ((s.modRing n f).ring k).enable = (s.ring k).enable ∧ ((s.modRing n f).ring k).gen = (s.ring k).gen := by
    intro k
    simp only [State.ring, State.modRing, List.getD, List.getElem?_modify]
    cases s.slips.rings[k]? with
    | none => simp
    | some r => by_cases hn : n = k <;> simp [hn, hf]
  obtain ⟨he, hg⟩ := hk id.ch.val
  simp [State.ringGone, he, hg]

/-- A slip that starts leaves every ring enabled or not, in the series it was. -/
theorem begun_ringGone (s : State) (op : BitVec 16) (h : SlipHdr) (p : List Byte) (id : SlipId) :
    (s.begun op h p).ringGone id = s.ringGone id := by
  have hn : (s.begun op h p).ringGone id = (startSlip op h p s).ringGone id := by
    unfold State.begun noteSeq
    simp only
    split
    · unfold warn; rw [raise_log _ _ _ _ _ rfl]; rfl
    · rfl
  rw [hn]
  unfold startSlip
  simp only
  split
  · rw [modRing_ringGone]
    · rfl
    · exact fun _ => ⟨rfl, rfl⟩
  · split <;> rfl

/-! ## What a channel still has to write survives a commit -/

theorem raise_chan (c : EvClass) (code : BitVec 16) (sub : Nat) (d : List (Nat × Nat)) (s : State) (k : Nat) :
    (raise c code sub d s).chan k = s.chan k := by rw [raise_eq c code sub d s]; rfl

theorem queueReply_waiting (q : Reply) (s : State) (k : Nat) {r : Reply} (hr : r ∈ (s.chan k).waiting) :
    r ∈ ((queueReply q s).chan k).waiting := by
  unfold queueReply
  split
  · exact modChan_waiting _ _ _ (fun k => { k with waiting := k.waiting ++ [q] }) (fun _ _ hr => List.mem_append_left _ hr) hr
  · exact hr

/-- What waits in the body's state waits after the commit. -/
theorem commitSlip_waiting (id : SlipId) (o : SlipOk) (hp : o.post = none) (k : Nat) {r : Reply}
    (hr : r ∈ (o.state.chan k).waiting) : r ∈ ((commitSlip id o).chan k).waiting := by
  have hq := queueReply_waiting (replyOf id o.status 0 o.result)
    { o.state with slips.lastCh := BitVec.ofNat 3 id.ch.val, slips.lastSeq := id.seq } k hr
  unfold commitSlip
  simp only [hp, if_true]
  split
  · refine modChan_waiting _ _ _ (fun k => { k with open_ := k.open_ ++ [id] }) (fun _ _ hr => hr) ?_
    rw [raise_chan]; exact hq
  · rw [raise_chan]; exact hq

/-- So of a slip that is taken and commits: what its body left waiting waits in the next state. -/
theorem slip_waiting {op : BitVec 16} {c : OrdClass} {h : SlipHdr} {p : List Byte} {body : SlipId → State → SlipOut}
    {s t : State} {o : SlipOk} (ht : s.takes op c h p) (hb : body (slipId s op h c) (s.begun op h p) = .ok o)
    (hp : o.post = none) (he : slip op c h p body s = .next t) (k : Nat) {r : Reply} (hr : r ∈ (o.state.chan k).waiting) :
    r ∈ (t.chan k).waiting := by
  obtain ⟨h1, h2, h3, h4⟩ := ht
  have hrun : runSlip op c h p body s = commitSlip (slipId s op h c) o := by
    unfold runSlip
    simp only [h1, h2, if_true]
    have : noteSeq (s.gapIn h) h (startSlip op h p s) = s.begun op h p := rfl
    rw [this, hb]
  have hm : mirror s (inOneCycle (runSlip op c h p body) s) = t := Host.Outcome.next.inj he
  have hs : (runSlip op c h p body s).slips = t.slips := (congrArg State.slips hm :)
  unfold State.chan
  rw [← hs, hrun]
  exact commitSlip_waiting _ o hp k hr

/-! ## An earlier slip still pending ends SUPERSEDED (R34) -/

/-- The end of the slip that a later one supersedes, if there is one. -/
def supersede (old : Option SlipId) (s : State) : State := old.elim s fun id => complete id St.superseded 0 [] s

theorem supersede_eq (old : Option SlipId) (s : State) :
    supersede old s = { s with slips := (supersede old s).slips, log := (supersede old s).log } := by
  cases old with
  | none => rfl
  | some id => exact complete_eq id St.superseded 0 [] s

theorem supersede_ring (old : Option SlipId) (s : State) : (supersede old s).log.sameRing s.log := by
  cases old with
  | none => exact ⟨rfl, rfl⟩
  | some id => exact complete_ring id St.superseded 0 [] s

theorem supersede_length (old : Option SlipId) (s : State) :
    (supersede old s).slips.chans.length = s.slips.chans.length := by
  cases old with
  | none => rfl
  | some id => exact complete_length id St.superseded 0 [] s

/-- A slip that is accepted, supersedes an earlier one and leaves its own record in the frame. -/
theorem slip_supersedes {op : BitVec 16} {c : OrdClass} {h : SlipHdr} {p : List Byte} {body : SlipId → State → SlipOut}
    {s : State} (ht : s.takes op c h p) (old : Option SlipId) (g : FrameSt → FrameSt)
    (hb : body (slipId s op h c) (s.begun op h p) =
      accept { supersede old (s.begun op h p) with frame := g (supersede old (s.begun op h p)).frame }) :
    ∃ t, slip op c h p body s = .next t ∧ t.accepted op h ∧
      t.frame = g { s.frame with freeCount := s.frame.freeCount + 1 } ∧
      ∀ id, old = some id → s.ringGone id = false → id.ch.val < s.slips.chans.length → t.completed id St.superseded [] := by
  have hB := begun_eq s op h p
  have hO := supersede_eq old (s.begun op h p)
  obtain ⟨t, he, -, hacc, ht'⟩ := slip_ok_same ht hb rfl
    ((supersede_length old _).trans (begun_length s op h p))
    ((congrArg State.queues hO :).trans (congrArg State.queues hB :))
    ((congrArg State.flows hO :).trans (congrArg State.flows hB :))
    ⟨(supersede_ring old _).1.trans (begun_ring s op h p).1, (supersede_ring old _).2.trans (begun_ring s op h p).2⟩
  have hF : (supersede old (s.begun op h p)).frame = { s.frame with freeCount := s.frame.freeCount + 1 } :=
    (congrArg State.frame hO :).trans (congrArg State.frame hB :)
  refine ⟨t, he, hacc rfl rfl, (congrArg State.frame ht').trans (congrArg g hF), fun id hid hg hl => ?_⟩
  subst hid
  have hw : id.writes St.superseded = true := by simp [SlipId.writes, St.superseded, St.ok, St.accepted]
  obtain ⟨r, hr, hrest⟩ := complete_completed id St.superseded 0 [] (s.begun op h p)
    ((begun_ringGone s op h p id).trans hg) hw ((begun_length s op h p).symm ▸ hl)
  exact ⟨r, slip_waiting ht hb rfl he _ hr, hrest⟩

/-! ## The bodies of the two slips -/

theorem houseOpen_ok (s : State) (hm : s.modes.house ≠ .closing) : houseOpen s = .ok () := by simp [houseOpen, need, hm]

/-- The selection that FRAME_SOURCE's fields give: a slew of 0 means 10. -/
def selOf (p : List Byte) : FrameSel :=
  { src := arg p 16 1, trunk := arg p 17 1, revertive := (arg p 18 1).testBit 0, phase := (arg p 18 1).testBit 1,
    bandwidth := arg p 19 1, offset := toInt 32 (arg p 20 4), slew := if arg p 24 1 = 0 then 10 else arg p 24 1 }

/-- FRAME_SOURCE, its fields in range. -/
theorem frameSourceBody_ok (p : List Byte) (id : SlipId) (s : State) (hm : s.modes.house ≠ .closing)
    (hf : fields [⟨16, 1, 1 ≤ arg p 16 1 && arg p 16 1 ≤ 3⟩, ⟨17, 1, if arg p 16 1 = 2 then arg p 17 1 < 16 else arg p 17 1 = 0⟩,
      ⟨18, 1, arg p 18 1 < 4 && (arg p 18 1 < 2 || (arg p 16 1 == 2 && !(2 ≤ (s.port (128 + arg p 17 1)).cfg.setting)))⟩,
      ⟨19, 1, arg p 19 1 < 4⟩,
      ⟨20, 4, if arg p 16 1 = 1 then -62499 ≤ toInt 32 (arg p 20 4) && toInt 32 (arg p 20 4) ≤ 62500
              else toInt 32 (arg p 20 4) = 0⟩,
      ⟨24, 1, arg p 24 1 ≤ 50⟩] p = .ok ()) :
    frameSourceBody p id s =
      let u := supersede (s.frame.pendSel.map (·.2)) s
      accept { u with frame := { u.frame with pendSel := some (selOf p, id) } } := by
  unfold frameSourceBody
  simp only [houseOpen_ok s hm, hf]
  cases s.frame.pendSel <;> rfl

/-- FRAME_NUMBER_SET, its fields in range. -/
theorem frameNumberSetBody_ok (p : List Byte) (id : SlipId) (s : State) (hm : s.modes.house ≠ .closing)
    (hf : fields [⟨16, 4, true⟩, ⟨20, 4, 1 ≤ (w32 (arg p 20 4) - s.frame.number).toNat &&
      (w32 (arg p 20 4) - s.frame.number).toNat ≤ 65535⟩] p = .ok ()) :
    frameNumberSetBody p id s =
      let u := supersede (s.frame.pendNumber.map (·.2.2)) s
      accept { u with frame := { u.frame with pendNumber := some (w32 (arg p 16 4), w32 (arg p 20 4), id) } } := by
  unfold frameNumberSetBody
  simp only [houseOpen_ok s hm, hf]
  cases s.frame.pendNumber <;> rfl

/-- Settles O12: each body, its fields in range, supersedes and accepts (`slip_supersedes`). -/
theorem frameSlips : Obligations.FrameSlips := by
  unfold Obligations.FrameSlips
  refine fun s h p hm => ⟨fun ht hf => ?_, fun ht hf => ?_⟩
  · have hB := begun_eq s 0x0101 h p
    have hb := frameSourceBody_ok p (slipId s 0x0101 h .ordinary) (s.begun 0x0101 h p)
      (by rw [hB]; exact hm) (by rw [hB]; exact hf)
    obtain ⟨t, he, hacc, hfr, hold⟩ := slip_supersedes ht _ (fun f => { f with pendSel := some (selOf p, _) }) hb
    refine ⟨t, selOf p, slipId s 0x0101 h .ordinary, he, hacc, congrArg FrameSt.pendSel hfr, rfl, rfl, rfl, rfl, rfl, rfl, rfl,
      rfl, (congrArg FrameSt.sel hfr :), (congrArg FrameSt.active hfr :), fun x old hx hg _ hl => hold old ?_ hg hl⟩
    rw [hB]
    exact congrArg (Option.map (·.2)) hx
  · have hB := begun_eq s 0x0102 h p
    have hb := frameNumberSetBody_ok p (slipId s 0x0102 h .ordinary) (s.begun 0x0102 h p)
      (by rw [hB]; exact hm) (by rw [hB]; exact hf)
    obtain ⟨t, he, hacc, hfr, -⟩ :=
      slip_supersedes ht _ (fun f => { f with pendNumber := some (w32 (arg p 16 4), w32 (arg p 20 4), _) }) hb
    exact ⟨t, slipId s 0x0102 h .ordinary, he, hacc, rfl, congrArg FrameSt.pendNumber hfr, (congrArg FrameSt.number hfr :)⟩

end Sys2Proof.Machine
end

section
/-! PROOFS. A register write that its block takes (R344, R345, R352): which state it leaves, and what the master is answered. -/

namespace Sys2Proof.Machine
open Sys2Proof

/-! ## The access -/

/-- The access reaches the device, and its fuse allows it. -/
theorem access_eq {m : Master} {s : State} (hm : s.mayAccess m) (f : State → State) :
    access m f s = .next (mirror s (inOneCycle f s)) := by
  obtain ⟨hreach, hclk, -⟩ := hm
  exact run_when (by simp [hreach, hclk]) f s

/-- The state that a write leaves, where an arm may have been used for it. -/
def State.armsSpent (s : State) (b : Block) (m : Master) (guarded : Bool) : State :=
  if guarded then dropArm m b.num s else s

theorem armsSpent_eq (s : State) (b : Block) (m : Master) (g : Bool) :
    s.armsSpent b m g = { s with regs.arms := (s.armsSpent b m g).regs.arms } := by
  cases g <;> rfl

/-- A write of a register that stands, in a block that is not gated, under an arm where its change is guarded, is taken. -/
theorem regWrite_taken {m : Master} {off : Nat} {v : Word} {s : State} {b : Block} {o : Nat} (hm : s.mayAccess m)
    (hb : blockAt off = some (b, o)) (hreg : b.hasReg o = true) (hgate : s.blockGated b o = false)
    (hunlock : b.unlockAt ≠ some o) (hdesk : b ≠ .desk) (harm : s.guarded b o v = true → s.armed m b = true) :
    regWrite m off v s = regAnswer m 0 false (writeReg b o v (s.armsSpent b m (s.guarded b o v))) := by
  obtain ⟨-, -, hfuse⟩ := hm
  have hf : (m = .readingRoom && s.pkg.debugFuse != 2) = false := by
    by_cases h : m = .readingRoom <;> simp [h, hfuse]
  unfold regWrite
  simp only [hf, hb, hreg, hgate, hunlock, hdesk, State.armsSpent]
  cases hg : s.guarded b o v
  · simp
  · simp [harm hg]

/-- t is u, but for what an access records, the order of its events and the pool's bytes. -/
def State.sameWritten (u t : State) : Prop :=
  t = { u with regs := t.regs, log.raised := t.log.raised, mem.layer := t.mem.layer }

theorem regAnswer_gave (m : Master) (data : Word) (err : Bool) (s : State) (hd : Sparse.rises s.regs.readData = true)
    (he : Sparse.rises s.regs.readErr = true) : (regAnswer m data err s).gave m data err := by
  simp [State.gave, regAnswer, Sparse.get_put _ _ _ _ _ hd, Sparse.get_put _ _ _ _ _ he]

/-- A command that leaves u and answers the master's write: what is read back of it. -/
theorem access_answered {m : Master} {s u : State} {f : State → State} (hm : s.mayAccess m) (hs : s.wf = true)
    (hf : f s = regAnswer m 0 false u) (hd : u.regs.readData = s.regs.readData) (he : u.regs.readErr = s.regs.readErr) :
    ∃ t, access m f s = .next t ∧ t.gave m 0 false ∧ u.sameWritten t ∧ t.regs.superseded = u.regs.superseded ∧
      ∀ c code sub, u.told c code sub → t.told c code sub := by
  have hr : (mirror s (inOneCycle f s)).regs = (regAnswer m 0 false u).regs := by rw [← hf]; rfl
  refine ⟨_, access_eq hm f, ?_, ?_, (congrArg RegSt.superseded hr :),
    fun c code sub hu => mirror_told f s c code sub (by rw [hf]; exact hu)⟩
  · unfold State.gave
    rw [hr]
    exact regAnswer_gave m 0 false u (hd ▸ s.wf_regs_readData hs) (he ▸ s.wf_regs_readErr hs)
  · unfold State.sameWritten mirror inOneCycle
    rw [hf]; rfl

/-- A register write that is taken leaves what its block makes of it, and answers. -/
theorem access_write {m : Master} {off : Nat} {v : Word} {s : State} {b : Block} {o : Nat} (hm : s.mayAccess m)
    (hs : s.wf = true) (hb : blockAt off = some (b, o)) (hreg : b.hasReg o = true) (hgate : s.blockGated b o = false)
    (hunlock : b.unlockAt ≠ some o) (hdesk : b ≠ .desk) (harm : s.guarded b o v = true → s.armed m b = true)
    (hkeep : ∀ arms, (writeReg b o v { s with regs.arms := arms }).regs = { s.regs with arms := arms }) :
    ∃ t arms, access m (regWrite m off v) s = .next t ∧ t.gave m 0 false ∧
      (writeReg b o v { s with regs.arms := arms }).sameWritten t ∧
      ∀ c code sub, (writeReg b o v { s with regs.arms := arms }).told c code sub → t.told c code sub := by
  have hw := regWrite_taken hm hb hreg hgate hunlock hdesk harm
  rw [armsSpent_eq] at hw
  obtain ⟨t, he, hgave, hsame, -, htold⟩ := access_answered hm hs hw (by rw [hkeep]) (by rw [hkeep])
  exact ⟨t, _, he, hgave, hsame, htold⟩

/-! ## FRAME_OUT_CTRL (R43) -/

theorem field_toNat_ofNat (v hi lo w : Nat) (h : hi + 1 - lo = w) : (BitVec.ofNat w (field v hi lo)).toNat = field v hi lo := by
  subst h
  exact Nat.mod_eq_of_lt (Nat.mod_lt _ (Nat.two_pow_pos _))

theorem frameOutCtrlWrite_takes {s : State} {m : Master} (v : Word) (hm : s.mayAccess m) (hs : s.wf = true) :
    ∃ t, exec (.frameOutCtrlWrite m v) s = .next t ∧ t.gave m 0 false ∧ t.frame.outEn = getBit v 0 ∧
    t.frame.outOffsetNext.toNat = field v.toNat 13 4 ∧ t.frame.outWidthNext.toNat = field v.toNat 3 2 ∧
    t.frame.outOffset = s.frame.outOffset ∧ t.frame.outWidth = s.frame.outWidth ∧
    t.pkg.frameOut = (s.pkg.frameOut && getBit v 0) := by
  obtain ⟨t, arms, he, hgave, hsame, -⟩ := access_write (off := 0x010810) (v := v) (b := .clk) (o := 0x810) hm hs rfl rfl rfl
    (by decide) (by decide) (by intro h; exact absurd h (by simp [State.guarded, upto])) (fun _ => rfl)
  have hf : t.frame = (writeFrameOut v s).frame := (congrArg State.frame hsame :)
  have hp : t.pkg = (writeFrameOut v s).pkg := (congrArg State.pkg hsame :)
  refine ⟨t, he, hgave, ?_⟩
  rw [hf, hp]
  exact ⟨rfl, field_toNat_ofNat _ 13 4 10 rfl, field_toNat_ofNat _ 3 2 2 rfl, rfl, rfl, rfl⟩

/-! ## THERM_BOUNDARY (R314) -/

/-- The temperatures that THERM_BOUNDARY takes. -/
theorem writeBoundary_taken {v : Word} (s : State) (hlo : -640 ≤ toInt 12 v.toNat) (hhi : toInt 12 v.toNat ≤ 2000) :
    writeBoundary v s =
      { s with thm.boundary := BitVec.ofNat 12 v.toNat, thm.boundaryStale := false, thm.timer := 0 } := by
  simp [writeBoundary, hlo, hhi]

/-- Any other is refused. -/
theorem writeBoundary_refused {v : Word} (s : State) (h : toInt 12 v.toNat < -640 ∨ 2000 < toInt 12 v.toNat) :
    writeBoundary v s = warn 0x0208 0 [] { s with thm.event := s.thm.event ||| 0x01 } := by
  have : ¬ (-640 ≤ toInt 12 v.toNat ∧ toInt 12 v.toNat ≤ 2000) := by omega
  simp [writeBoundary, this]

theorem writeBoundary_regs (v : Word) (s : State) : (writeBoundary v s).regs = s.regs := by
  by_cases h : -640 ≤ toInt 12 v.toNat ∧ toInt 12 v.toNat ≤ 2000
  · rw [writeBoundary_taken s h.1 h.2]
  · rw [writeBoundary_refused s (by omega), warn, raise_log _ _ _ _ _ rfl]

theorem thermBoundaryWrite_takes {s : State} {m : Master} (v : Word) (hm : s.mayAccess m) (hs : s.wf = true) :
    ∃ t arms, exec (.thermBoundaryWrite m v) s = .next t ∧ t.gave m 0 false ∧
      (writeBoundary v { s with regs.arms := arms }).sameWritten t ∧
      ∀ c code sub, (writeBoundary v { s with regs.arms := arms }).told c code sub → t.told c code sub :=
  access_write (off := 0x030000) (v := v) (b := .thm) (o := 0x000) hm hs rfl rfl rfl (by decide) (by decide)
    (fun h => nomatch h) (fun _ => writeBoundary_regs v _)

theorem thermBoundaryWrite_stores {s : State} {m : Master} {v : Word} (hm : s.mayAccess m) (hs : s.wf = true)
    (hlo : -640 ≤ toInt 12 v.toNat) (hhi : toInt 12 v.toNat ≤ 2000) :
    ∃ t, exec (.thermBoundaryWrite m v) s = .next t ∧ t.gave m 0 false ∧ t.thm.boundary = v.truncate 12 ∧
      t.thm.boundaryStale = false ∧ t.thm.timer = 0 := by
  obtain ⟨t, arms, he, hgave, hsame, -⟩ := thermBoundaryWrite_takes v hm hs
  rw [writeBoundary_taken _ hlo hhi] at hsame
  have ht : t.thm = { s.thm with boundary := BitVec.ofNat 12 v.toNat, boundaryStale := false, timer := 0 } :=
    (congrArg State.thm hsame :)
  refine ⟨t, he, hgave, ?_⟩
  rw [ht]
  exact ⟨rfl, rfl, rfl⟩

theorem thermBoundaryWrite_warns {s : State} {m : Master} {v : Word} (hm : s.mayAccess m) (hs : s.wf = true)
    (h : toInt 12 v.toNat < -640 ∨ 2000 < toInt 12 v.toNat) :
    ∃ t, exec (.thermBoundaryWrite m v) s = .next t ∧ t.thm.boundary = s.thm.boundary ∧ t.told .warning 0x0208 0 := by
  obtain ⟨t, arms, he, -, hsame, htold⟩ := thermBoundaryWrite_takes v hm hs
  rw [writeBoundary_refused _ h] at hsame htold
  refine ⟨t, he, ?_, htold _ _ _ (raise_told ..)⟩
  rw [warn, raise_log _ _ _ _ _ rfl] at hsame
  exact (congrArg (·.thm.boundary) hsame :)

/-! ## SHELF_CTRL and SHELF_ACTION (R289, R352) -/

/-- A write of SHELF_CTRL that may change sweep_en. -/
theorem regWrite_shelfCtrl {s : State} {m : Master} {v : Word} (hm : s.mayAccess m)
    (h : getBit v 0 = s.shelf.sweepEn ∨ s.armed m .shelf = true) :
    ∃ arms, regWrite m 0x050000 v s = regAnswer m 0 false (writeSweepEn v { s with regs.arms := arms }) := by
  have hw := regWrite_taken (off := 0x050000) (v := v) (b := .shelf) (o := 0x00) hm rfl rfl rfl (by decide) (by decide)
    (fun hg => h.resolve_left (by simpa [State.guarded] using hg))
  rw [armsSpent_eq] at hw
  exact ⟨_, hw⟩

theorem shelfCtrlWrite_stores {s : State} {m : Master} {v : Word} (hm : s.mayAccess m) (hs : s.wf = true)
    (h : getBit v 0 = s.shelf.sweepEn ∨ s.armed m .shelf = true) :
    ∃ t, exec (.shelfCtrlWrite m v false) s = .next t ∧ t.gave m 0 false ∧ t.shelf.sweepEn = getBit v 0 ∧
      t.shelf.actionLo = s.shelf.actionLo := by
  obtain ⟨arms, hw⟩ := regWrite_shelfCtrl hm h
  obtain ⟨t, he, hgave, hsame, -, -⟩ := access_answered (f := shelfCtrlWrite m v false) hm hs hw rfl rfl
  exact ⟨t, he, hgave, (congrArg (·.shelf.sweepEn) hsame :), (congrArg (·.shelf.actionLo) hsame :)⟩

/-- A settings fault in the cycle of the write: the settings return to reset, and the software's value stands (R289, R349). -/
theorem shelfCtrlWrite_fault {s : State} {m : Master} {v : Word} (h : getBit v 0 = s.shelf.sweepEn ∨ s.armed m .shelf = true) :
    shelfCtrlWrite m v true s =
      let t := shelfFault true (regWrite m 0x050000 v s)
      { writeSweepEn v t with regs.superseded := t.regs.superseded.filter (· != Block.shelf.num) ++ [Block.shelf.num] } := by
  have hserved : (!s.guarded .shelf 0 v || s.armed m .shelf) = true := by
    rcases h with h | h <;> simp [State.guarded, h]
  simp [shelfCtrlWrite, hserved]

theorem shelfFault_shelf (s : State) : (shelfFault true s).shelf.actionLo = 0x55555555 ∧
    (shelfFault true s).shelf.actionHi = 0x55555555 := by
  unfold shelfFault alarm
  rw [raise_eq]
  exact ⟨rfl, rfl⟩

theorem shelfFault_told (setting : Bool) (s : State) : (shelfFault setting s).told .alarm 0x0305 0 := raise_told ..

theorem shelfCtrlWrite_faults {s : State} {m : Master} {v : Word} (hm : s.mayAccess m)
    (h : getBit v 0 = s.shelf.sweepEn ∨ s.armed m .shelf = true) :
    ∃ t, exec (.shelfCtrlWrite m v true) s = .next t ∧ t.shelf.sweepEn = getBit v 0 ∧ t.shelf.actionLo = 0x55555555 ∧
      t.shelf.actionHi = 0x55555555 ∧ t.regs.superseded.contains Block.shelf.num = true ∧ t.told .alarm 0x0305 0 := by
  have hf := shelfCtrlWrite_fault (m := m) (v := v) h
  have hshelf := congrArg State.shelf hf
  refine ⟨_, access_eq hm _, (congrArg ShelfSt.sweepEn hshelf :), (congrArg ShelfSt.actionLo hshelf :).trans ?_,
    (congrArg ShelfSt.actionHi hshelf :).trans ?_, ?_, mirror_told _ _ _ _ _ ?_⟩
  · exact (shelfFault_shelf _).1
  · exact (shelfFault_shelf _).2
  · show ((shelfCtrlWrite m v true s).regs.superseded.contains Block.shelf.num) = true
    rw [hf]; simp
  · rw [hf]; exact shelfFault_told true _

/-! ### The fields that a write merges -/

/-- Values of two bits laid side by side are read back one by one. -/
theorem field_pack_pairs (l : List Nat) (k : Nat) :
    field (pack (l.map fun v => (2, v))) (2 * k + 1) (2 * k) = l.getD k 0 % 4 := by
  have hw : 2 * k + 1 + 1 - 2 * k = 2 := by omega
  unfold field
  rw [hw]
  induction l generalizing k with
  | nil => simp [pack]
  | cons v l ih =>
    cases k with
    | zero => simp [pack]
    | succ k =>
      have hk : 2 ^ (2 * (k + 1)) = 4 * 2 ^ (2 * k) := by rw [Nat.mul_succ, Nat.pow_add]; omega
      have hd : (v % 4 + 4 * pack (l.map fun v => (2, v))) / 4 = pack (l.map fun v => (2, v)) := by omega
      rw [hk, ← Nat.div_div_eq_div_mul]
      simp only [List.map_cons, pack, Nat.reducePow, hd]
      simpa using ih k (by omega)

theorem pack_pairs_lt (l : List Nat) : pack (l.map fun v => (2, v)) < 4 ^ l.length := by
  induction l with
  | nil => simp [pack]
  | cons v l ih =>
    simp only [List.map_cons, pack, List.length_cons, Nat.pow_succ]
    omega

/-- The sixteen fields that stand after a write of SHELF_ACTION. -/
def mergedField (old new : Word) (k : Nat) : Nat :=
  if field new.toNat (2 * k + 1) (2 * k) = 3 then field old.toNat (2 * k + 1) (2 * k)
  else field new.toNat (2 * k + 1) (2 * k)

theorem mergeActions_eq (old new : Word) :
    mergeActions old new = w32 (pack (((List.range 16).map (mergedField old new)).map fun v => (2, v))) := by
  rw [List.map_map]
  rfl

theorem mergedField_lt (old new : Word) (k : Nat) : mergedField old new k < 4 := by
  have hlt : ∀ x, field x (2 * k + 1) (2 * k) < 4 := by
    intro x
    have hw : 2 * k + 1 + 1 - 2 * k = 2 := by omega
    unfold field
    rw [hw]
    omega
  unfold mergedField
  split <;> exact hlt _

/-- A field of SHELF_ACTION takes its value, but for 0b11, which keeps what stands. -/
theorem mergeActions_field (old new : Word) (k : Nat) (hk : k < 16) :
    field (mergeActions old new).toNat (2 * k + 1) (2 * k) = mergedField old new k := by
  have hlen := pack_pairs_lt ((List.range 16).map (mergedField old new))
  rw [List.length_map, List.length_range, show 4 ^ 16 = 2 ^ 32 by norm_num] at hlen
  rw [mergeActions_eq, w32, BitVec.toNat_ofNat, Nat.mod_eq_of_lt hlen, field_pack_pairs]
  simpa [List.getD, hk] using Nat.mod_eq_of_lt (mergedField_lt old new k)

theorem writeShelfAction_regs (hi : Bool) (v : Word) (s : State) : (writeShelfAction hi v s).regs = s.regs := by
  cases hi <;> simp [writeShelfAction]

theorem shelfActionWrite_merges {s : State} {m : Master} (hi : Bool) (v : Word) (hm : s.mayAccess m) (hs : s.wf = true)
    (harm : s.armed m .shelf = true) :
    ∃ t, exec (.shelfActionWrite m hi v) s = .next t ∧ t.gave m 0 false ∧ t.shelf.sweepEn = s.shelf.sweepEn ∧
      (if hi then t.shelf.actionHi else t.shelf.actionLo) =
        mergeActions (if hi then s.shelf.actionHi else s.shelf.actionLo) v := by
  obtain ⟨t, arms, he, hgave, hsame⟩ : ∃ t arms, exec (.shelfActionWrite m hi v) s = .next t ∧ t.gave m 0 false ∧
      (writeShelfAction hi v { s with regs.arms := arms }).sameWritten t := by
    cases hi with
    | false =>
      have hw : ∀ x : State, writeReg .shelf 0x04 v x = writeShelfAction false v x := fun x => by simp [writeReg]
      obtain ⟨t, arms, he, hgave, hsame, -⟩ := access_write (off := 0x050004) (b := .shelf) (o := 0x04) hm hs rfl
        rfl rfl (by decide) (by decide) (fun _ => harm) (fun x => by rw [hw, writeShelfAction_regs])
      exact ⟨t, arms, he, hgave, hw _ ▸ hsame⟩
    | true =>
      have hw : ∀ x : State, writeReg .shelf 0x08 v x = writeShelfAction true v x := fun x => by simp [writeReg]
      obtain ⟨t, arms, he, hgave, hsame, -⟩ := access_write (off := 0x050008) (b := .shelf) (o := 0x08) hm hs rfl
        rfl rfl (by decide) (by decide) (fun _ => harm) (fun x => by rw [hw, writeShelfAction_regs])
      exact ⟨t, arms, he, hgave, hw _ ▸ hsame⟩
  have ht : t.shelf = (writeShelfAction hi v { s with regs.arms := arms }).shelf := (congrArg State.shelf hsame :)
  refine ⟨t, he, hgave, ?_⟩
  rw [ht]
  cases hi <;> simp [writeShelfAction]

end Sys2Proof.Machine
end

section
/-! PROOFS. The fields of a word read bit by bit, as the registers that merge a write take them over (R347, R348). -/

namespace Sys2Proof.Machine
open Sys2Proof

/-! ## Fields bit by bit -/

theorem testBit_field (v hi lo j : Nat) : (field v hi lo).testBit j = (decide (j < hi + 1 - lo) && v.testBit (lo + j)) := by
  rw [field, Nat.testBit_mod_two_pow, Nat.testBit_div_two_pow, Nat.add_comm j lo]

/-- Words that agree from bit lo to bit hi have the same field there. -/
theorem field_congr {a b : Word} {hi lo : Nat} (h : ∀ j, lo ≤ j → j ≤ hi → a.getLsbD j = b.getLsbD j) :
    field a.toNat hi lo = field b.toNat hi lo := by
  refine Nat.eq_of_testBit_eq fun j => ?_
  rw [testBit_field, testBit_field]
  by_cases hj : j < hi + 1 - lo
  · simp only [hj, decide_true, Bool.true_and]
    exact h (lo + j) (by omega) (by omega)
  · simp [hj]

/-- Putting x into bits lo to lo + w - 1 of n, read back bit by bit. -/
theorem testBit_insert (n x lo w : Nat) (hx : x < 2 ^ w) (j : Nat) :
    (n - n / 2 ^ lo % 2 ^ w * 2 ^ lo + x * 2 ^ lo).testBit j =
      if lo ≤ j ∧ j < lo + w then x.testBit (j - lo) else n.testBit j := by
  have hq := Nat.div_add_mod n (2 ^ lo)
  have hf := Nat.div_add_mod (n / 2 ^ lo) (2 ^ w)
  have hsplit : 2 ^ lo * (n / 2 ^ lo) =
      2 ^ lo * (2 ^ w * (n / 2 ^ lo / 2 ^ w)) + n / 2 ^ lo % 2 ^ w * 2 ^ lo := by
    conv_lhs => rw [← hf]
    ring
  have hnew : n - n / 2 ^ lo % 2 ^ w * 2 ^ lo + x * 2 ^ lo =
      2 ^ lo * (2 ^ w * (n / 2 ^ lo / 2 ^ w) + x) + n % 2 ^ lo := by
    rw [Nat.mul_add, Nat.mul_comm (2 ^ lo) x]
    omega
  rw [hnew, Nat.testBit_two_pow_mul_add _ (Nat.mod_lt _ (Nat.two_pow_pos _)), Nat.testBit_mod_two_pow]
  by_cases h1 : j < lo
  · simp [h1, show ¬ lo ≤ j by omega]
  · rw [if_neg h1, Nat.testBit_two_pow_mul_add _ hx, Nat.testBit_div_two_pow, Nat.testBit_div_two_pow]
    by_cases h2 : j < lo + w
    · rw [if_pos (by omega), if_pos (by omega)]
    · rw [if_neg (by omega), if_neg (by omega)]
      congr 1
      omega

/-- A field taken over: its bits are the written ones if its value is valid, and all others stand. -/
theorem takeField_getLsbD {hi lo : Nat} (ok : Nat → Bool) (v old : Word) (hlo : lo ≤ hi) (hhi : hi < 32) (j : Nat) :
    (takeField hi lo ok v old).getLsbD j =
      if ok (field v.toNat hi lo) = true ∧ lo ≤ j ∧ j ≤ hi then v.getLsbD j else old.getLsbD j := by
  unfold takeField
  simp only
  cases hok : ok (field v.toNat hi lo) with
  | false => simp
  | true =>
    rw [if_pos rfl, BitVec.getLsbD_ofNat, field, field, testBit_insert _ _ _ _ (Nat.mod_lt _ (Nat.two_pow_pos _))]
    by_cases hj : lo ≤ j ∧ j ≤ hi
    · rw [if_pos (by omega), if_pos ⟨rfl, hj⟩, ← field, testBit_field]
      simp only [show j < 32 by omega, show j - lo < hi + 1 - lo by omega, decide_true, Bool.true_and,
        show lo + (j - lo) = j by omega]
      rfl
    · rw [if_neg (by omega), if_neg fun h => hj h.2]
      by_cases h32 : j < 32
      · simp only [h32, decide_true, Bool.true_and]
        rfl
      · simp [h32, BitVec.getLsbD_of_ge old j (by omega)]

/-- A field whose written value is valid takes it. -/
theorem field_takeField {hi lo : Nat} {ok : Nat → Bool} (v old : Word) (hlo : lo ≤ hi) (hhi : hi < 32) :
    field (takeField hi lo ok v old).toNat hi lo =
      if ok (field v.toNat hi lo) then field v.toNat hi lo else field old.toNat hi lo := by
  split
  · next hok => exact field_congr fun j h1 h2 => by rw [takeField_getLsbD ok v old hlo hhi, if_pos ⟨hok, h1, h2⟩]
  · next hok => exact field_congr fun j h1 h2 => by rw [takeField_getLsbD ok v old hlo hhi, if_neg fun h => hok h.1]

/-- Another field stands. -/
theorem field_takeField_apart {hi lo hi' lo' : Nat} (ok : Nat → Bool) (v old : Word) (hlo : lo ≤ hi) (hhi : hi < 32)
    (h : hi < lo' ∨ hi' < lo) : field (takeField hi lo ok v old).toNat hi' lo' = field old.toNat hi' lo' :=
  field_congr fun j h1 h2 => by rw [takeField_getLsbD ok v old hlo hhi, if_neg fun h => by omega]

theorem field_setBit_apart {v : Word} {i hi lo : Nat} (h : i < lo ∨ hi < i) :
    field (setBit v i true).toNat hi lo = field v.toNat hi lo := by
  refine field_congr fun j h1 h2 => ?_
  simp only [setBit, if_true, BitVec.getLsbD_or, BitVec.getLsbD_ofNat, Nat.testBit_two_pow]
  have : i ≠ j := by omega
  simp [this]

end Sys2Proof.Machine
end

section
/-! PROOFS. Writes of a port's loopback and lane tests (R137 to R140, R352). -/

namespace Sys2Proof.Machine
open Sys2Proof

/-! ## Loopback and lane tests -/

theorem State.modLane_port (s : State) (p : Nat) (f : LaneSt → LaneSt) (j : Nat) (h : Sparse.rises s.ports = true) :
    (s.modLane p f).port j = if j = p then { s.port p with lane := f (s.port p).lane } else s.port j :=
  State.modPort_port s p _ j h

theorem State.modTx_port (s : State) (p : Nat) (f : TxSt → TxSt) (j : Nat) (h : Sparse.rises s.ports = true) :
    (s.modTx p f).port j = if j = p then { s.port p with tx := f (s.port p).tx } else s.port j :=
  State.modPort_port s p _ j h

theorem writeLoop_regs (p v : Nat) (s : State) : (writeLoop p v s).regs = s.regs := by
  unfold writeLoop; split <;> rfl

/-- A loopback code takes effect, but for the reserved ones; no other port is touched. -/
theorem writeLoop_port {p v : Nat} {s : State} (hv : v < 8) (h : Sparse.rises s.ports = true) :
    ((writeLoop p v s).port p).lane.loopback.toNat = (if v < 4 then v else (s.port p).lane.loopback.toNat) ∧
      ∀ q, q ≠ p → (writeLoop p v s).port q = s.port q := by
  unfold writeLoop
  by_cases hr : 4 ≤ v
  · simp [hr, show ¬ v < 4 by omega]
  · simp only [hr, if_false, show v < 4 by omega, if_true]
    refine ⟨?_, fun q hq => by rw [State.modLane_port _ _ _ _ h, if_neg hq]⟩
    rw [State.modLane_port _ _ _ _ h, if_pos rfl]
    exact Nat.mod_eq_of_lt hv

/-- The word of LANE_TEST_CTRL after a write under an arm: each field that is valid is taken, and inj_once if it is set. -/
def mergeTest (v old : Word) : Word :=
  let c := takeField 30 28 (· ≤ 4) v (takeField 27 20 (fun _ => true) v (takeField 19 16 (fun _ => true) v
    (takeField 3 0 (· ≤ 5) v (takeField 7 4 (· ≤ 5) v (takeField 9 8 (fun _ => true) v old)))))
  if getBit v 31 then setBit c 31 true else c

/-- A write of LANE_TEST_CTRL changes the port's lane, and perhaps its transmitter. -/
theorem writeTest_eq (p k : Nat) (v : Word) (s : State) : ∃ (c : Bool) (f : LaneSt → LaneSt) (g : TxSt → TxSt),
    writeTest p k true v s = (if c then s.modLane p f else (s.modLane p f).modTx p g) ∧
    ∀ l, (f l).testCtrl = l.testCtrl.set k (mergeTest v (l.testCtrl.getD k 0)) := by
  refine ⟨decide _, _, _, (if_congr decide_eq_true_iff rfl rfl).symm, fun l => ?_⟩
  simp [mergeTest]

theorem writeTest_regs (p k : Nat) (v : Word) (s : State) : (writeTest p k true v s).regs = s.regs := by
  obtain ⟨c, f, g, h, -⟩ := writeTest_eq p k v s
  rw [h]
  cases c <;> rfl

theorem writeTest_port (p k : Nat) (v : Word) {s : State} (h : Sparse.rises s.ports = true) :
    ((writeTest p k true v s).port p).lane.testCtrl =
      (s.port p).lane.testCtrl.set k (mergeTest v ((s.port p).lane.testCtrl.getD k 0)) ∧
    ∀ q, q ≠ p → (writeTest p k true v s).port q = s.port q := by
  obtain ⟨c, f, g, hw, hf⟩ := writeTest_eq p k v s
  have h' : Sparse.rises (s.modLane p f).ports = true := Sparse.rises_put _ _ _ _ h
  rw [hw, ← hf]
  cases c with
  | true => simp +contextual [State.modLane_port _ _ _ _ h]
  | false => simp +contextual [State.modTx_port _ _ _ _ h', State.modLane_port _ _ _ _ h]

theorem setBit31_apart {v c : Word} {hi lo : Nat} (h : hi < 31) :
    field (if getBit v 31 then setBit c 31 true else c).toNat hi lo = field c.toNat hi lo := by
  split
  · exact field_setBit_apart (.inr h)
  · rfl

/-- The pattern, the sources, the slip and the injection count that a write leaves. -/
theorem mergeTest_fields (v old : Word) :
    field (mergeTest v old).toNat 3 0 = (if field v.toNat 3 0 ≤ 5 then field v.toNat 3 0 else field old.toNat 3 0) ∧
    field (mergeTest v old).toNat 9 8 = field v.toNat 9 8 ∧
    field (mergeTest v old).toNat 27 20 = field v.toNat 27 20 ∧
    field (mergeTest v old).toNat 19 16 = field v.toNat 19 16 := by
  unfold mergeTest
  simp [setBit31_apart, field_takeField, field_takeField_apart]

/-! ## The registers -/

/-- A port's registers stand in its block. -/
theorem blockAt_port (p : Port) (o : Nat) (ho : o < 0x1000) : blockAt (0x100000 + 0x1000 * p.val + o) = some (.port p.val, o) := by
  have hp := p.isLt
  have h1 : ¬ (0x100000 + 0x1000 * p.val + o < 0x070000) := by omega
  have h2 : ¬ (0x100000 + 0x1000 * p.val + o < 0x0C0000) := by omega
  have h3 : 0x100000 ≤ 0x100000 + 0x1000 * p.val + o ∧ 0x100000 + 0x1000 * p.val + o < 0x190000 := by omega
  have h4 : (0x100000 + 0x1000 * p.val + o - 0x100000) / 0x1000 = p.val := by omega
  have h5 : (0x100000 + 0x1000 * p.val + o) % 0x1000 = o := by omega
  simp only [blockAt, h1, h2, h3, h4, h5]
  simp

theorem portLoopWrite_takes {s : State} {m : Master} (p : Port) (v : Word) (hm : s.mayAccess m) (hs : s.wf = true)
    (hgate : getBit s.clk.gatedPort p.val = false) :
    ∃ t, exec (.portLoopWrite m p v) s = .next t ∧ t.gave m 0 false ∧ (t.port p.val).lane.loopback.toNat =
        (if field v.toNat 2 0 < 4 then field v.toNat 2 0 else (s.port p.val).lane.loopback.toNat) ∧
      ∀ q, q ≠ p.val → t.port q = s.port q := by
  have hw : ∀ x : State, writeReg (.port p.val) 0x200 v x = writeLoop p.val (field v.toNat 2 0) x := fun x => rfl
  have hb : blockAt (0x100200 + 0x1000 * p.val) = some (.port p.val, 0x200) := by
    rw [← blockAt_port p 0x200 (by omega)]; congr 1; omega
  obtain ⟨t, arms, he, hgave, hsame, -⟩ := access_write (v := v) hm hs hb rfl hgate (by simp [Block.unlockAt]) (by simp)
    (fun h => absurd h (by simp [State.guarded, upto])) (fun x => by rw [hw, writeLoop_regs])
  rw [hw] at hsame
  have ht : ∀ q, t.port q = (writeLoop p.val (field v.toNat 2 0) { s with regs.arms := arms }).port q :=
    fun q => (congrArg (Sparse.get (PortSt.dflt q) ·.ports q) hsame :)
  refine ⟨t, he, hgave, ?_⟩
  simp only [ht]
  exact writeLoop_port (Nat.mod_lt _ (by norm_num)) (s.wf_ports hs)

theorem laneTestCtrlWrite_takes {s : State} {m : Master} (p : Port) (k : Fin 4) (v : Word) (hm : s.mayAccess m)
    (hs : s.wf = true) (hgate : getBit s.clk.gatedPort p.val = false) (hlane : hasLane p.val k.val = true)
    (harm : s.armed m (.port p.val) = true) :
    ∃ t, exec (.laneTestCtrlWrite m p k v) s = .next t ∧ t.gave m 0 false ∧
      (t.port p.val).lane.testCtrl = (s.port p.val).lane.testCtrl.set k.val
        (mergeTest v ((s.port p.val).lane.testCtrl.getD k.val 0)) ∧ ∀ q, q ≠ p.val → t.port q = s.port q := by
  have hk := k.isLt
  have hw : ∀ x : State, writeReg (.port p.val) (0x210 + 4 * k.val) v x = writeTest p.val k.val true v x := fun x => by
    have hi : (0x210 + 4 * k.val) / 4 % 4 = k.val := by omega
    have hr : upto (0x210 + 4 * k.val) 0x210 0x21C = true := by simp [upto]; omega
    simp only [writeReg, hi, hr, hlane]
    rw [if_neg (by omega)]
    rfl
  have hb : blockAt (0x100210 + 0x1000 * p.val + 4 * k.val) = some (.port p.val, 0x210 + 4 * k.val) := by
    rw [← blockAt_port p _ (by omega)]; congr 1; omega
  have hreg : ∀ k : Fin 4, portRegAt (0x210 + 4 * k.val) = true := by decide
  obtain ⟨t, arms, he, hgave, hsame, -⟩ := access_write (v := v) hm hs hb (by simp [Block.hasReg, hreg]) hgate
    (by simp [Block.unlockAt]; omega) (by simp) (fun _ => harm) (fun x => by rw [hw, writeTest_regs])
  rw [hw] at hsame
  have ht : ∀ q, t.port q = (writeTest p.val k.val true v { s with regs.arms := arms }).port q :=
    fun q => (congrArg (Sparse.get (PortSt.dflt q) ·.ports q) hsame :)
  refine ⟨t, he, hgave, ?_⟩
  simp only [ht]
  exact writeTest_port p.val k.val v (s.wf_ports hs)

end Sys2Proof.Machine
end

section
/-! PROOFS. The flush of a queue (R184), the log's latches and the drain's consumer index (R402, R403, R411). -/

namespace Sys2Proof.Machine
open Sys2Proof

/-! ## The flush of a queue (R184) -/

/-- What each step of a fold keeps, the fold keeps. -/
theorem foldl_keeps {σ α β : Type} (P : σ → β) (f : σ → α → σ) (h : ∀ s a, P (f s a) = P s) (l : List α) (s : σ) :
    P (l.foldl f s) = P s := by
  induction l generalizing s with
  | nil => rfl
  | cons a l ih => rw [List.foldl_cons, ih, h]

@[simp] theorem complete_queues (id : SlipId) (st : BitVec 16) (d : Nat) (l : List Byte) (s : State) :
    (complete id st d l s).queues = s.queues := by rw [complete_eq]
@[simp] theorem complete_regs (id : SlipId) (st : BitVec 16) (d : Nat) (l : List Byte) (s : State) :
    (complete id st d l s).regs = s.regs := by rw [complete_eq]
@[simp] theorem freeCredit_regs (c : Option (Nat × Nat × Nat)) (s : State) : (freeCredit c s).regs = s.regs := by
  rw [freeCredit_eq]

/-- Steps 1 and 2 of a flush write the queue, empty of items, and free the credits that its items held. -/
theorem beginFlush_eq (q : Nat) (s : State) : ∃ (u : State) (d : QueueSt),
    beginFlush q s = u.setQueue q d ∧ u.queues = s.queues ∧ u.regs = s.regs ∧
    d.rptr = (s.queue q).ptr (s.queue q).wptr.toNat ∧ d.rptrSh = d.rptr ∧ d.wptr = (s.queue q).wptr ∧
    d.wptrSh = (s.queue q).wptrSh ∧ d.parityBad = (s.queue q).parityBad ∧ d.flush = true ∧
    d.discarding = ((s.queue q).discarding || (s.queue q).prodMid) :=
  ⟨_, _, rfl, foldl_keeps State.queues _ (fun _ _ => freeCredit_queues ..) _ _,
    foldl_keeps State.regs _ (fun _ _ => freeCredit_regs ..) _ _, rfl, rfl, rfl, rfl, rfl, rfl, rfl⟩

theorem completeAll_queue (r : List Byte) (l : List SlipId) (s : State) (k : Nat) :
    (l.foldl (fun s id => complete id St.ok 0 r s) s).queue k = s.queue k :=
  foldl_keeps (State.queue · k) _ (fun s id => by rw [State.queue, complete_queues]; rfl) l s

theorem completeAll_regs (r : List Byte) (l : List SlipId) (s : State) :
    (l.foldl (fun s id => complete id St.ok 0 r s) s).regs = s.regs :=
  foldl_keeps State.regs _ (fun s id => complete_regs id St.ok 0 r s) l s

@[simp] theorem countMarker_queue (e : Nat) (s : State) (q : Nat) : (countMarker e s).queue q = s.queue q := rfl

theorem State.setQueue_self (s : State) (q : Nat) (v : QueueSt) (h : Sparse.rises s.queues = true) :
    (s.setQueue q v).queue q = v := (State.setQueue_queue s q v q h).trans (if_pos rfl)

theorem State.setQueue_other (s : State) {q r : Nat} (v : QueueSt) (h : Sparse.rises s.queues = true) (hr : r ≠ q) :
    (s.setQueue q v).queue r = s.queue r := (State.setQueue_queue s q v r h).trans (if_neg hr)

/-- Steps 3 and 4 write the queue alone: its flush has ended, and its read pointer stands. -/
theorem writeFlush_queue (q : Nat) (s : State) (h : Sparse.rises s.queues = true) :
    ((writeFlush q s).queue q).rptr = (s.queue q).rptr ∧ ((writeFlush q s).queue q).flush = false ∧
      ∀ r, r ≠ q → (writeFlush q s).queue r = s.queue r := by
  unfold writeFlush
  simp only [completeAll_queue]
  split
  · refine ⟨?_, ?_, fun r hr => s.setQueue_other _ h hr⟩ <;> rw [s.setQueue_self q _ h]
  · refine ⟨?_, ?_, fun r hr => ?_⟩
    · simp [State.setQueue_self, h, QueueSt.push, QueueSt.setW]
    · simp [State.setQueue_self, h, QueueSt.push, QueueSt.setW]
    · simp [State.setQueue_other, h, hr]

theorem writeFlush_regs (q : Nat) (s : State) : (writeFlush q s).regs = s.regs := by
  unfold writeFlush
  simp only [completeAll_regs]
  split <;> rfl

/-- A flush of a queue in service whose copies agree empties it; it stays open while the producer is in an item. -/
theorem flushQueue_agrees (q : Nat) (s : State) (h : Sparse.rises s.queues = true) (hen : (s.queue q).enable = true)
    (ha : (s.queue q).agrees) :
    ((flushQueue q s).queue q).rptr = (s.queue q).ptr (s.queue q).wptr.toNat ∧
    ((flushQueue q s).queue q).flush = ((s.queue q).discarding || (s.queue q).prodMid) ∧
    (∀ r, r ≠ q → (flushQueue q s).queue r = s.queue r) ∧ (flushQueue q s).regs = s.regs := by
  obtain ⟨u, d, hb, huq, hur, hrp, hrs, hwp, hws, hpb, hfl, hdc⟩ := beginFlush_eq q s
  have hu : Sparse.rises u.queues = true := huq ▸ h
  have hq : (beginFlush q s).queue q = d := by rw [hb, State.setQueue_queue _ _ _ _ hu, if_pos rfl]
  have ho : ∀ r, r ≠ q → (beginFlush q s).queue r = s.queue r := fun r hr => by
    rw [hb, State.setQueue_queue _ _ _ _ hu, if_neg hr, State.queue, huq]; rfl
  have hg : (beginFlush q s).regs = s.regs := by rw [hb]; exact hur
  have hr : Sparse.rises (beginFlush q s).queues = true := by rw [hb]; exact State.setQueue_rises _ _ _ hu
  obtain ⟨hw, hrr, hp⟩ := ha
  have hd : d.agrees := ⟨hws.trans (hw.trans hwp.symm), hrs, hpb.trans hp⟩
  have he : flushQueue q s = if d.discarding then beginFlush q s else writeFlush q (beginFlush q s) := by
    simp [flushQueue, hen, useQueue_agrees q s ⟨hw, hrr, hp⟩, hq, endFlush,
      useQueue_agrees q (beginFlush q s) (hq ▸ hd)]
  rw [he, ← hrp, ← hdc]
  cases hdisc : d.discarding with
  | true => simpa [hq, hfl, hg] using ho
  | false =>
    obtain ⟨her, hef, hother⟩ := writeFlush_queue q (beginFlush q s) hr
    refine ⟨?_, ?_, fun r hne => ?_, (writeFlush_regs q _).trans hg⟩
    · simp [her, hq]
    · simp [hef]
    · simp [hother r hne, ho r hne]

/-- A disabled queue is not flushed. -/
theorem flushQueue_disabled (q : Nat) (s : State) (hen : (s.queue q).enable = false) : flushQueue q s = s := by
  simp [flushQueue, hen]

theorem blockAt_queue (q : Queue) : blockAt (0x300000 + 32 * q.val) = some (.qd, 32 * q.val) := by
  have hq := q.isLt
  have h1 : ¬ (0x300000 + 32 * q.val < 0x070000) := by omega
  have h2 : ¬ (0x300000 + 32 * q.val < 0x0C0000) := by omega
  have h3 : ¬ (0x300000 + 32 * q.val < 0x190000) := by omega
  have h4 : ¬ (0x300000 + 32 * q.val < 0x300000) := by omega
  have h5 : 0x300000 + 32 * q.val < 0x380000 := by omega
  simp [blockAt, h1, h2, h3, h5]

theorem writeReg_flush (q : Queue) (s : State) : writeReg .qd (32 * q.val) 0x40000000 s = flushQueue q.val s := by
  have h1 : 32 * q.val % 32 = 0 := by omega
  have h2 : 32 * q.val / 32 = q.val := by omega
  have h3 : getBit (0x40000000 : Word) 30 = true := by decide
  simp only [writeReg, h1, h2, h3]
  rfl

theorem qdFlushWrite_takes {s : State} {m : Master} (q : Queue) (hm : s.mayAccess m) (hs : s.wf = true)
    (hgate : getBit s.clk.gatedQe (queueEngine q.val) = false)
    (hkeep : ∀ arms, (flushQueue q.val { s with regs.arms := arms }).regs = { s.regs with arms := arms }) :
    ∃ t arms, exec (.qdFlushWrite m q) s = .next t ∧ t.gave m 0 false ∧
      t.queues = (flushQueue q.val { s with regs.arms := arms }).queues := by
  have hq := q.isLt
  have hg : s.blockGated .qd (32 * q.val) = false := by
    have : 32 * q.val / 32 / 1024 = queueEngine q.val := by unfold queueEngine; omega
    exact (congrArg (getBit s.clk.gatedQe) this).trans hgate
  obtain ⟨t, arms, he, hgave, hsame, -⟩ := access_write hm hs (blockAt_queue q)
    (by simp [Block.hasReg]; omega) hg (by simp [Block.unlockAt]) (by simp) (fun h => nomatch h)
    (fun arms => by rw [writeReg_flush]; exact hkeep arms)
  rw [writeReg_flush] at hsame
  exact ⟨t, arms, he, hgave, (congrArg State.queues hsame :)⟩

theorem qdFlushWrite_disabled {s : State} {m : Master} (q : Queue) (hm : s.mayAccess m) (hs : s.wf = true)
    (hgate : getBit s.clk.gatedQe (queueEngine q.val) = false) (hen : (s.queue q.val).enable = false) :
    ∃ t, exec (.qdFlushWrite m q) s = .next t ∧ t.gave m 0 false ∧ t.queues = s.queues := by
  have hf : ∀ arms, _ = _ := fun arms => flushQueue_disabled q.val { s with regs.arms := arms } hen
  obtain ⟨t, arms, he, hgave, hq⟩ := qdFlushWrite_takes q hm hs hgate fun arms => by rw [hf]
  exact ⟨t, he, hgave, hq.trans (congrArg State.queues (hf arms) :)⟩

theorem qdFlushWrite_empties {s : State} {m : Master} (q : Queue) (hm : s.mayAccess m) (hs : s.wf = true)
    (hgate : getBit s.clk.gatedQe (queueEngine q.val) = false) (hen : (s.queue q.val).enable = true)
    (ha : (s.queue q.val).agrees) :
    ∃ t, exec (.qdFlushWrite m q) s = .next t ∧ t.gave m 0 false ∧
      (t.queue q.val).rptr = (s.queue q.val).ptr (s.queue q.val).wptr.toNat ∧
      (t.queue q.val).flush = ((s.queue q.val).discarding || (s.queue q.val).prodMid) ∧
      ∀ r, r ≠ q.val → t.queue r = s.queue r := by
  have hf : ∀ arms, _ := fun arms => flushQueue_agrees q.val { s with regs.arms := arms } (s.wf_queues hs) hen ha
  obtain ⟨t, arms, he, hgave, hq⟩ := qdFlushWrite_takes q hm hs hgate fun arms => (hf arms).2.2.2
  obtain ⟨hrptr, hflush, hother, -⟩ := hf arms
  have ht : ∀ r, t.queue r = (flushQueue q.val { s with regs.arms := arms }).queue r := fun r => by
    rw [State.queue, hq]; rfl
  exact ⟨t, he, hgave, (congrArg QueueSt.rptr (ht _)).trans hrptr, (congrArg QueueSt.flush (ht _)).trans hflush,
    fun r hr => (ht r).trans (hother r hr)⟩

end Sys2Proof.Machine
end

section
/-! PROOFS. Writes of the log's latches and of the drain's consumer index (R402, R403, R411), and the obligation that gathers the
writes that a block takes. -/

namespace Sys2Proof.Machine
open Sys2Proof

/-! ## The latches (R402, R403) -/

/-- A latch of a code stands after a clear, unless it is cleared and its condition does not hold. -/
theorem clearLatches_latchedCode (f : Nat → Bool) (s : State) (c : Nat) :
    (clearLatches f s).latchedCode c = (s.latchedCode c && !(f c && !s.nmActive c)) := by
  rw [Bool.eq_iff_iff]
  simp only [State.latchedCode, clearLatches, List.any_filter, List.any_eq_true, Bool.and_eq_true]
  constructor
  · rintro ⟨l, hl, hk, hc⟩
    have hc' : l.1.toNat = c := by simpa using hc
    exact ⟨⟨l, hl, hc⟩, hc' ▸ hk⟩
  · rintro ⟨⟨l, hl, hc⟩, hk⟩
    have hc' : l.1.toNat = c := by simpa using hc
    exact ⟨l, hl, hc'.symm ▸ hk, hc⟩

/-- LOG_NM_LATCH: a bit written clears its code's latch, unless the condition holds. -/
theorem writeNmLatch_latchedCode (v : Word) (s : State) (k : Nat) (hk : k < 4) :
    (writeNmLatch v s).latchedCode (nth nmCodes k) =
      (s.latchedCode (nth nmCodes k) && !(getBit v k && !s.nmActive (nth nmCodes k))) := by
  have hinj : ∀ i < 4, ∀ j < 4, nth nmCodes i = nth nmCodes j → i = j := by decide
  have hmem : ((s.nmClears v).map (nth nmCodes)).contains (nth nmCodes k) = (s.nmClears v).contains k := by
    rw [Bool.eq_iff_iff, List.contains_iff_mem, List.contains_iff_mem, List.mem_map]
    constructor
    · rintro ⟨i, hi, he⟩
      have hi4 : i < 4 := List.mem_range.mp (List.mem_filter.mp hi).1
      exact hinj i hi4 k hk he ▸ hi
    · exact fun h => ⟨k, h, rfl⟩
  have hcl : (s.nmClears v).contains k =
      (getBit v k && s.latchedCode (nth nmCodes k) && !s.nmActive (nth nmCodes k)) := by
    rw [Bool.eq_iff_iff, List.contains_iff_mem, State.nmClears, List.mem_filter, List.mem_range]
    simp [hk]
  rw [writeNmLatch, clearLatches_latchedCode, hmem, hcl]
  cases s.latchedCode (nth nmCodes k) <;> simp

/-- An alarm has no condition that holds its latch. -/
theorem nmActive_alarm (s : State) (c : Nat) (h : codeClass c = some .alarm) : s.nmActive c = false := by
  have h1 : c ≠ 0x0101 := by rintro rfl; exact absurd h (by decide)
  have h2 : c ≠ 0x0201 := by rintro rfl; exact absurd h (by decide)
  have h3 : c ≠ 0x0B01 := by rintro rfl; exact absurd h (by decide)
  simp [State.nmActive, h1, h2, h3]

/-- LOG_ALARM_f: a bit written clears the latch of its alarm. -/
theorem writeAlarm_latchedCode (v : Word) (s : State) (f i : Nat) (hi : i < 256) (h : codeClass (256 * f + i) = some .alarm) :
    (writeAlarm f v s).latchedCode (256 * f + i) = (s.latchedCode (256 * f + i) && !getBit v i) := by
  have h1 : (256 * f + i) / 256 = f := by omega
  have h2 : (256 * f + i) % 256 = i := by omega
  rw [writeAlarm, clearLatches_latchedCode, h1, h2, h, nmActive_alarm s _ h]
  simp

theorem sameWritten_latchedCode {u t : State} (h : u.sameWritten t) (c : Nat) : t.latchedCode c = u.latchedCode c := by
  have : t.log.latched = u.log.latched := (congrArg (·.log.latched) h :)
  simp [State.latchedCode, this]

theorem logNmLatchClear_takes {s : State} {m : Master} (v : Word) (hm : s.mayAccess m) (hs : s.wf = true)
    (harm : s.guarded .log 0x08 v = true → s.armed m .log = true) :
    ∃ t, exec (.logNmLatchClear m v) s = .next t ∧ t.gave m 0 false ∧
      ∀ k < 4, t.latchedCode (nth nmCodes k) =
        (s.latchedCode (nth nmCodes k) && !(getBit v k && !s.nmActive (nth nmCodes k))) := by
  have hw : ∀ x : State, writeReg .log 0x08 v x = writeNmLatch v x := fun x => by simp [writeReg]
  obtain ⟨t, arms, he, hgave, hsame, -⟩ := access_write (off := 0x3A0008) (b := .log) (o := 0x08) hm hs rfl rfl rfl
    (by decide) (by decide) harm (fun _ => by rw [hw]; rfl)
  rw [hw] at hsame
  refine ⟨t, he, hgave, fun k hk => ?_⟩
  rw [sameWritten_latchedCode hsame, writeNmLatch_latchedCode v _ k hk]
  rfl

theorem logAlarmClear_takes {s : State} {m : Master} (f : Fin 11) (v : Word) (hm : s.mayAccess m) (hs : s.wf = true) :
    ∃ t, exec (.logAlarmClear m f v) s = .next t ∧ t.gave m 0 false ∧
      ∀ i < 32, codeClass (256 * (f.val + 1) + i) = some .alarm →
        t.latchedCode (256 * (f.val + 1) + i) = (s.latchedCode (256 * (f.val + 1) + i) && !getBit v i) := by
  have hreg : ∀ f : Fin 11, blockAt (0x3A000C + 4 * f.val) = some (.log, 0x0C + 4 * f.val) ∧
      Block.log.hasReg (0x0C + 4 * f.val) = true := by decide
  have hw : ∀ x : State, writeReg .log (0x0C + 4 * f.val) v x = writeAlarm (f.val + 1) v x := fun x => by
    have hf := f.isLt
    have h1 : upto (0x0C + 4 * f.val) 0x0C 0x34 = true := by simp [upto]; omega
    have h2 : (0x0C + 4 * f.val - 0x0C) / 4 = f.val := by omega
    simp only [writeReg, h1, h2]
    rw [if_neg (by omega), if_neg (by omega)]
    rfl
  obtain ⟨t, arms, he, hgave, hsame, -⟩ := access_write (v := v) hm hs (hreg f).1 (hreg f).2 rfl
    (by simp [Block.unlockAt]; omega) (by simp) (fun h => absurd h (by simp [State.guarded]; omega))
    (fun _ => by rw [hw]; rfl)
  rw [hw] at hsame
  refine ⟨t, he, hgave, fun i hi hc => ?_⟩
  rw [sameWritten_latchedCode hsame, writeAlarm_latchedCode v _ _ i (by omega) hc]
  rfl

/-! ## The drain's consumer index (R411) -/

/-- An index within the span is taken. -/
theorem writeDrainCons_taken (v : Word) (s : State) (ha : s.log.drain.active = true)
    (h : (s.log.drain.prod + 2 * s.log.drain.size - v.toNat % 2 ^ 15 % (2 * s.log.drain.size)) % (2 * s.log.drain.size) ≤
      s.log.drain.size) :
    writeDrainCons v s =
      { s with log.drain := { s.log.drain with cons := v.toNat % 2 ^ 15 % (2 * s.log.drain.size) } } := by
  unfold writeDrainCons
  simp only [ha, h]
  rfl

theorem logDrainConsWrite_takes {s : State} {m : Master} (v : Word) (hm : s.mayAccess m) (hs : s.wf = true)
    (ha : s.log.drain.active = true)
    (h : (s.log.drain.prod + 2 * s.log.drain.size - v.toNat % 2 ^ 15 % (2 * s.log.drain.size)) % (2 * s.log.drain.size) ≤
      s.log.drain.size) :
    ∃ t, exec (.logDrainConsWrite m v) s = .next t ∧ t.gave m 0 false ∧
      t.log.drain = { s.log.drain with cons := v.toNat % 2 ^ 15 % (2 * s.log.drain.size) } ∧ t.log.ring = s.log.ring := by
  have hw : ∀ arms, writeReg .log 0x48 v { s with regs.arms := arms } = _ := fun arms =>
    (by simp [writeReg, upto] : writeReg .log 0x48 v { s with regs.arms := arms } = writeDrainCons v _).trans
      (writeDrainCons_taken v { s with regs.arms := arms } ha h)
  obtain ⟨t, arms, he, hgave, hsame, -⟩ := access_write (off := 0x3A0048) (b := .log) (o := 0x48) (v := v) hm hs rfl rfl rfl
    (by decide) (by decide) (fun h => absurd h (by simp [State.guarded])) (fun _ => by rw [hw])
  rw [hw] at hsame
  exact ⟨t, he, hgave, (congrArg (·.log.drain) hsame :), (congrArg (·.log.ring) hsame :)⟩

/-! ## The obligation -/

/-- Settles O42: register by register, what its block makes of a write that is taken (`access_write`). -/
theorem blockWrites : Obligations.BlockWrites := by
  unfold Obligations.BlockWrites
  refine fun s m v hm hs => ⟨frameOutCtrlWrite_takes v hm hs, thermBoundaryWrite_stores hm hs, thermBoundaryWrite_warns hm hs,
    fun h => ⟨shelfCtrlWrite_stores hm hs h, shelfCtrlWrite_faults hm h⟩, fun hi harm => ?_,
    fun p hgate => ⟨portLoopWrite_takes p v hm hs hgate, fun k hlane harm hlen => ?_⟩,
    fun q hgate => ⟨qdFlushWrite_disabled q hm hs hgate,
      fun hen hp hw hr => qdFlushWrite_empties q hm hs hgate hen ⟨hw, hr, hp⟩⟩,
    logNmLatchClear_takes v hm hs, fun f => logAlarmClear_takes f v hm hs, logDrainConsWrite_takes v hm hs⟩
  · obtain ⟨t, he, hgave, hen, hact⟩ := shelfActionWrite_merges hi v hm hs harm
    refine ⟨t, he, hgave, hen, fun k hk => ?_⟩
    rw [hact]
    exact mergeActions_field _ v k hk
  · obtain ⟨t, he, hgave, hctrl, hother⟩ := laneTestCtrlWrite_takes p k v hm hs hgate hlane harm
    obtain ⟨hpat, hsrc, hinj, hslip⟩ := mergeTest_fields v ((s.port p.val).lane.testCtrl.getD k.val 0)
    refine ⟨t, _, he, hgave, ?_, fun h => hpat.trans (if_pos h), fun h => hpat.trans (if_neg (by omega)), hsrc,
      hinj, hslip, hother⟩
    rw [hctrl, List.getElem?_set_self (by omega)]

end Sys2Proof.Machine
end

section
/-! PROOFS. A boundary's numbering (R31 to R33): frame and slot, the frames and cycles counted, and what is pending for them. What
else happens in a frame leaves it alone: one lemma for each function of the model, in the model's order. Here the state's
own updates, events, the store and the bays. -/

namespace Sys2Proof.Machine
open Sys2Proof

/-! ## The numbering -/

/-- What a boundary numbers and counts, and what its numbering waits for. -/
@[ext] structure Numbering where
  number : Word
  slot : BitVec 8
  frames : Nat
  time : Nat
  pendNumber : Option (Word × Word × SlipId)
  frame0Due : Bool

def State.numbering (s : State) : Numbering :=
  ⟨s.frame.number, s.frame.slot, s.frame.frames, s.frame.time, s.frame.pendNumber, s.cfg.frame0Due⟩

/-! Of a state written out field by field only the frame and the loader's record count. These rules go before the fields are
simplified (`↓`), and those that hold by definition are proved by `(rfl)`, so that `simp` keeps them as rules about `numbering`. -/

section
variable (pkg clk frame modes fab ports xbar queues engines flows mem crypto cfg shelf stock pwr thm regs desk slips log tap pending)

theorem State.numbering_mk :
    (State.mk pkg clk frame modes fab ports xbar queues engines flows mem crypto cfg shelf stock pwr thm regs desk slips log
      tap pending).numbering =
    ⟨frame.number, frame.slot, frame.frames, frame.time, frame.pendNumber, cfg.frame0Due⟩ := (rfl)

end

theorem State.numbering_eta (s : State) :
    Numbering.mk s.frame.number s.frame.slot s.frame.frames s.frame.time s.frame.pendNumber s.cfg.frame0Due = s.numbering :=
  (rfl)

theorem ite_numbering (c : Prop) [Decidable c] (a b : State) :
    (if c then a else b).numbering = if c then a.numbering else b.numbering := apply_ite _ _ _ _

/-- A fold whose steps leave the numbering alone leaves it alone. -/
@[simp] theorem foldl_numbering {α : Type} (l : List α) (f : State → α → State) (s : State)
    (h : ∀ s a, (f s a).numbering = s.numbering) : (l.foldl f s).numbering = s.numbering :=
  foldl_keeps State.numbering f h l s

/-! ## Updates of one entry of the state, and events -/

@[simp] theorem State.modPort_numbering (s : State) (p : Nat) (f : PortSt → PortSt) :
    (s.modPort p f).numbering = s.numbering := (rfl)

@[simp] theorem State.modNeg_numbering (s : State) (p : Nat) (f : NegSt → NegSt) :
    (s.modNeg p f).numbering = s.numbering := (rfl)

@[simp] theorem State.modLane_numbering (s : State) (p : Nat) (f : LaneSt → LaneSt) :
    (s.modLane p f).numbering = s.numbering := (rfl)

@[simp] theorem State.modTx_numbering (s : State) (p : Nat) (f : TxSt → TxSt) : (s.modTx p f).numbering = s.numbering := (rfl)

@[simp] theorem State.modCredit_numbering (s : State) (p : Nat) (f : CreditSt → CreditSt) :
    (s.modCredit p f).numbering = s.numbering := (rfl)

@[simp] theorem State.modEgress_numbering (s : State) (p : Nat) (f : EgressSt → EgressSt) :
    (s.modEgress p f).numbering = s.numbering := (rfl)

@[simp] theorem State.setQueue_numbering (s : State) (q : Nat) (v : QueueSt) : (s.setQueue q v).numbering = s.numbering := (rfl)

@[simp] theorem State.modQueue_numbering (s : State) (q : Nat) (f : QueueSt → QueueSt) :
    (s.modQueue q f).numbering = s.numbering := (rfl)

@[simp] theorem State.modEngine_numbering (s : State) (e : Nat) (f : EngineSt → EngineSt) :
    (s.modEngine e f).numbering = s.numbering := (rfl)

@[simp] theorem State.setFlow_numbering (s : State) (f : Nat) (v : FlowSt) : (s.setFlow f v).numbering = s.numbering := (rfl)

@[simp] theorem State.modFlow_numbering (s : State) (f : Nat) (g : FlowSt → FlowSt) :
    (s.modFlow f g).numbering = s.numbering := (rfl)

@[simp] theorem State.modBay_numbering (s : State) (b : Nat) (f : BaySt → BaySt) :
    (s.modBay b f).numbering = s.numbering := (rfl)

@[simp] theorem State.modCarrel_numbering (s : State) (k : Nat) (f : CarrelSt → CarrelSt) :
    (s.modCarrel k f).numbering = s.numbering := (rfl)

@[simp] theorem State.modFolio_numbering (s : State) (k : Nat) (f : FolioSt → FolioSt) :
    (s.modFolio k f).numbering = s.numbering := (rfl)

@[simp] theorem State.modNode_numbering (s : State) (n : Nat) (f : NodeSt → NodeSt) :
    (s.modNode n f).numbering = s.numbering := (rfl)

@[simp] theorem State.modVol_numbering (s : State) (v : Nat) (f : VolSt → VolSt) :
    (s.modVol v f).numbering = s.numbering := (rfl)

@[simp] theorem State.modLedger_numbering (s : State) (k : Nat) (f : LedgerNode → LedgerNode) :
    (s.modLedger k f).numbering = s.numbering := (rfl)

@[simp] theorem State.modSlice_numbering (s : State) (k : Nat) (f : SliceSt → SliceSt) :
    (s.modSlice k f).numbering = s.numbering := (rfl)

@[simp] theorem State.modChan_numbering (s : State) (ch : Nat) (f : ChanSt → ChanSt) :
    (s.modChan ch f).numbering = s.numbering := (rfl)

@[simp] theorem State.setMode_numbering (s : State) (d : Domain) (m : Mode) : (s.setMode d m).numbering = s.numbering := by
  unfold State.setMode; split <;> rfl

@[simp] theorem raise_numbering (c : EvClass) (code : BitVec 16) (sub : Nat) (d : List (Nat × Nat)) (s : State) :
    (raise c code sub d s).numbering = s.numbering := by rw [raise_eq c code sub d s]; rfl

@[simp] theorem warn_numbering (code : BitVec 16) (sub : Nat) (d : List (Nat × Nat)) (s : State) :
    (warn code sub d s).numbering = s.numbering := raise_numbering ..

@[simp] theorem alarm_numbering (code : BitVec 16) (sub : Nat) (d : List (Nat × Nat)) (s : State) :
    (alarm code sub d s).numbering = s.numbering := raise_numbering ..

@[simp] theorem info_numbering (code : BitVec 16) (sub : Nat) (d : List (Nat × Nat)) (s : State) :
    (info code sub d s).numbering = s.numbering := raise_numbering ..

@[simp] theorem nonMask_numbering (code : BitVec 16) (sub : Nat) (d : List (Nat × Nat)) (s : State) :
    (nonMask code sub d s).numbering = s.numbering := raise_numbering ..

@[simp] theorem State.useFree_numbering (s : State) : s.useFree.numbering = s.numbering := (rfl)

/-! ## The pool's bytes (R214) -/

@[simp] theorem layerWrite_numbering (a : Nat) (l : List Byte) (s : State) : (layerWrite a l s).numbering = s.numbering := by
  rw [(layerWrite_onlyLayer a l s).1]; rfl

/-! ## Completion events (R374) -/

@[simp] theorem queueReply_numbering (r : Reply) (s : State) : (queueReply r s).numbering = s.numbering := by
  simp [queueReply, ↓ite_numbering]

@[simp] theorem complete_numbering (id : SlipId) (status : BitVec 16) (detail : Nat) (result : List Byte) (s : State) :
    (complete id status detail result s).numbering = s.numbering := by
  simp [complete, ↓ite_numbering]

@[simp] theorem completeAll_numbering (ids : List SlipId) (status : BitVec 16) (s : State) :
    (completeAll ids status s).numbering = s.numbering := by
  simp [completeAll]

@[simp] theorem completeOpt_numbering (id : Option SlipId) (status : BitVec 16) (s : State) :
    (completeOpt id status s).numbering = s.numbering := by
  unfold completeOpt; split <;> simp

/-! ## Records of modes -/

@[simp] theorem noteMode_numbering (d : Domain) (old new : Mode) (c : Cause) (thermal : Bool) (s : State) :
    (noteMode d old new c thermal s).numbering = s.numbering := by
  simp [noteMode]

/-! ## The store: ledger, blocks and side memory -/

@[simp] theorem sidePut_numbering (a : Nat) (l : List Byte) (s : State) : (sidePut a l s).numbering = s.numbering := (rfl)

@[simp] theorem retiredHit_numbering (req : Nat) (s : State) : (retiredHit req s).numbering = s.numbering := by
  simp [retiredHit, ↓State.numbering_mk, ↓State.numbering_eta, ↓ite_numbering]

@[simp] theorem sideCorrected_numbering (req block pos value : Nat) (write : Bool) (s : State) :
    (sideCorrected req block pos value write s).numbering = s.numbering := (rfl)

@[simp] theorem sideUncorrectable_numbering (req block syndrome : Nat) (write : Bool) (s : State) :
    (sideUncorrectable req block syndrome write s).numbering = s.numbering := by
  simp [sideUncorrectable, ↓State.numbering_mk, ↓State.numbering_eta]

@[simp] theorem authFail_numbering (block : Nat) (s : State) : (authFail block s).numbering = s.numbering := by
  simp [authFail, ↓State.numbering_mk, ↓State.numbering_eta]

@[simp] theorem sideFinding_numbering (req block : Nat) (f : Found) (write : Bool) (s : State) :
    (sideFinding req block f write s).numbering = s.numbering := by
  unfold sideFinding; split <;> simp

@[simp] theorem refuseWrite_numbering (req : Nat) (s : State) : (refuseWrite req s).numbering = s.numbering := (rfl)

@[simp] theorem touchNode_numbering (k : Nat) (dirty : Bool) (s : State) : (touchNode k dirty s).numbering = s.numbering := by
  unfold touchNode; split <;> rfl

@[simp] theorem newKey_numbering (v : Nat) (s : State) : (newKey v s).numbering = s.numbering := by
  simp [newKey, ↓State.numbering_mk, ↓State.numbering_eta, ↓ite_numbering]

@[simp] theorem triggerRekey_numbering (v : Nat) (s : State) : (triggerRekey v s).numbering = s.numbering := by
  simp [triggerRekey, ↓State.numbering_mk, ↓State.numbering_eta, ↓ite_numbering]

@[simp] theorem countOverflow_numbering (s : State) : (countOverflow s).numbering = s.numbering := (rfl)

@[simp] theorem bumpParent_numbering (k : Nat) (s : State) : (bumpParent k s).numbering = s.numbering := by
  simp [bumpParent, ↓State.numbering_mk, ↓State.numbering_eta, ↓ite_numbering]

@[simp] theorem evictNode_numbering (e : Nat × Bool) (s : State) : (evictNode e s).numbering = s.numbering := by
  simp [evictNode, ↓State.numbering_mk, ↓State.numbering_eta, ↓ite_numbering]

@[simp] theorem fetchNode_numbering (k : Nat) (s : State) : (fetchNode k s).numbering = s.numbering := by
  unfold fetchNode
  split
  · simp
  · simp only [↓State.numbering_mk, ↓State.numbering_eta]
    split <;> simp

@[simp] theorem logNode_numbering (k cause : Nat) (s : State) : (logNode k cause s).numbering = s.numbering := (rfl)

@[simp] theorem poison_numbering (k cause : Nat) (s : State) : (poison k cause s).numbering = s.numbering := by
  simp [poison, ↓State.numbering_mk, ↓State.numbering_eta, ↓ite_numbering]

@[simp] theorem nodeFinding_numbering (k : Nat) (f : NodeFound) (s : State) : (nodeFinding k f s).numbering = s.numbering := by
  unfold nodeFinding
  split
  · simp [↓State.numbering_mk, ↓State.numbering_eta, ↓ite_numbering]
  · split <;> simp [↓State.numbering_mk, ↓State.numbering_eta]

@[simp] theorem walkPage_numbering (page : Nat) (path : List NodeFound) (s : State) :
    (walkPage page path s).numbering = s.numbering := by
  unfold walkPage
  simp only [↓ite_numbering, State.modLedger_numbering, ite_self]
  refine foldl_numbering _ _ _ fun s l => ?_
  simp only [fetchNode_numbering]
  split <;> simp [↓ite_numbering]

@[simp] theorem settleAbove_numbering (k : Nat) (s : State) : (settleAbove k s).numbering = s.numbering := by
  simp [settleAbove, ↓ite_numbering]

@[simp] theorem settleRebuild_numbering (page : Nat) (s : State) : (settleRebuild page s).numbering = s.numbering := by
  simp [settleRebuild, ↓ite_numbering]

theorem bumpBlock_numbering {block : Nat} {s t : State} (h : bumpBlock block s = some t) : t.numbering = s.numbering := by
  simp only [bumpBlock] at h
  split_ifs at h <;> cases h <;> simp

@[simp] theorem storeBlock_numbering (req block addr : Nat) (l : List Byte) (s : State) :
    (storeBlock req block addr l s).numbering = s.numbering := by
  unfold storeBlock
  split
  · next h => exact (sidePut_numbering ..).trans (bumpBlock_numbering h)
  · exact triggerRekey_numbering ..

theorem writeBlockAs_numbering (req block addr : Nat) (l : List Byte) (f : Found) (path : List NodeFound) (s : State) :
    (writeBlockAs req block addr l f path s).2.numbering = s.numbering := by
  unfold writeBlockAs
  split
  · simp
  · simp only
    split_ifs <;> simp

@[simp] theorem areaWrite_numbering (base off : Nat) (l : List Byte) (s : State) :
    (areaWrite base off l s).numbering = s.numbering := foldl_numbering _ _ _ fun _ _ => writeBlockAs_numbering ..

theorem placeCopy_numbering (im : FolioImage) (bytes : List Byte) (s : State) : (placeCopy im bytes s).2.numbering = s.numbering :=
  foldl_numbering _ _ _ fun _ _ => writeBlockAs_numbering ..

theorem placeCopies_numbering (l : List (Nat × FolioImage × (Nat × Nat))) (s : State) :
    (placeCopies l s).2.numbering = s.numbering := by
  unfold placeCopies
  refine List.foldlRecOn (motive := fun acc : List (Nat × FolioImage) × State => acc.2.numbering = s.numbering) l _ rfl
    fun acc h x _ => ?_
  exact (placeCopy_numbering x.2.1 (slice s.stagedPlain x.2.2.1 x.2.2.2) acc.2).trans h

/-! ## Bays, carrels and folios -/

@[simp] theorem testRotas_numbering (s : State) : (testRotas s).numbering = s.numbering := (rfl)

@[simp] theorem beginSlice_numbering (k : Nat) (w : Word) (s : State) : (beginSlice k w s).numbering = s.numbering := (rfl)

@[simp] theorem noteParity_numbering (b c f : Nat) (bad : BitVec 128) (s : State) :
    (noteParity b c f bad s).numbering = s.numbering := by
  simp [noteParity, ↓ite_numbering]

@[simp] theorem turnIn_numbering (b c : Nat) (r : RotaSt) (j : Nat) (u : StoreUpset) (s : State) :
    (turnIn b c r j u s).numbering = s.numbering := by
  simp [turnIn, ↓ite_numbering]

@[simp] theorem settleFolios_numbering (k : Nat) (r : RotaSt) (s : State) : (settleFolios k r s).numbering = s.numbering := by
  simp [settleFolios]

@[simp] theorem startBay_numbering (b : Nat) (s : State) : (startBay b s).numbering = s.numbering := by
  simp [startBay]

@[simp] theorem beginEntry_numbering (restores : List (Nat × StoreUpset)) (k : Nat) (s : State) :
    (beginEntry restores k s).numbering = s.numbering := by
  unfold beginEntry
  simp only
  split
  · exact State.modCarrel_numbering ..
  · exact (turnIn_numbering ..).trans (State.modCarrel_numbering ..)

/-- What is done for the frame's last turn is done under its number and slot, which then stand as they were. -/
theorem atTurn_numbering (n : Word) (f : State → State) (h : ∀ s, (f s).numbering = s.numbering) (s : State) :
    (atTurn n f s).numbering = s.numbering := by
  have ht := h { s with frame.number := n, frame.slot := 249 }
  simp only [State.numbering, Numbering.mk.injEq] at ht
  obtain ⟨-, -, hframes, htime, hpend, hdue⟩ := ht
  exact Numbering.ext rfl rfl hframes htime hpend hdue

@[simp] theorem beginEntries_numbering (n : Word) (restores : List (Nat × StoreUpset)) (s : State) :
    (beginEntries n restores s).numbering = s.numbering := by
  unfold beginEntries
  exact atTurn_numbering _ _ (fun s => foldl_numbering _ _ _ fun _ _ => beginEntry_numbering ..) s

@[simp] theorem stopBay_numbering (b : Nat) (s : State) : (stopBay b s).numbering = s.numbering := by
  simp [stopBay]

@[simp] theorem initBay_numbering (b : Nat) (s : State) : (initBay b s).numbering = s.numbering := by
  simp [initBay, ↓State.numbering_mk, ↓State.numbering_eta]

@[simp] theorem takeFolio_numbering (num : Nat) (keep : Bool) (k : Nat) (s : State) :
    (takeFolio num keep k s).numbering = s.numbering := (rfl)

@[simp] theorem startRequest_numbering (keep : Bool) (kind : LoadKind) (id : Option SlipId) (keys : List Nat) (s : State) :
    (startRequest keep kind id keys s).numbering = s.numbering := by
  simp [startRequest, ↓State.numbering_mk, ↓State.numbering_eta]

@[simp] theorem startLoad_numbering (kind : LoadKind) (id : Option SlipId) (keys : List Nat) (s : State) :
    (startLoad kind id keys s).numbering = s.numbering := by
  simp [startLoad]

@[simp] theorem installRota_numbering (r : RotaRec) (s : State) : (installRota r s).numbering = s.numbering := (rfl)

@[simp] theorem addEditions_numbering (es : List EditionSt) (state : Nat) (copies : List (Nat × FolioImage)) (cats : List
    (Nat × List Nat)) (s : State) :
    (addEditions es state copies cats s).numbering = s.numbering := by
  simp [addEditions, ↓State.numbering_mk, ↓State.numbering_eta]

@[simp] theorem dropEditions_numbering (b : Nat) (s : State) : (dropEditions b s).numbering = s.numbering := (rfl)

@[simp] theorem replaceArchive_numbering (b : Nat) (c : BayContent) (s : State) :
    (replaceArchive b c s).numbering = s.numbering :=
  (placeCopies_numbering c.folios (dropEditions b s)).trans (dropEditions_numbering b s)

@[simp] theorem applyBaySettings_numbering (b : Nat) (c : BayContent) (s : State) :
    (applyBaySettings b c s).numbering = s.numbering := by
  simp [applyBaySettings, ↓State.numbering_mk, ↓State.numbering_eta]

@[simp] theorem beginBays_numbering (l : List BayContent) (s : State) : (beginBays l s).numbering = s.numbering := by
  induction l generalizing s with
  | nil => rfl
  | cons c rest ih =>
    unfold beginBays
    simp [ih, ↓State.numbering_mk, ↓State.numbering_eta, ↓ite_numbering]

@[simp] theorem endRequest_numbering (r : LoadReq) (s : State) : (endRequest r s).numbering = s.numbering := by
  unfold endRequest
  simp only
  split
  · simp [↓State.numbering_mk, ↓State.numbering_eta]
  · simp only [↓ite_numbering, beginBays_numbering, ite_self, completeOpt_numbering]
    split <;> simp [↓State.numbering_mk, ↓State.numbering_eta]
  · split
    · simp [↓State.numbering_mk, ↓State.numbering_eta]
    · split <;> simp [↓State.numbering_mk, ↓State.numbering_eta]

@[simp] theorem returnFolios_numbering (num : Nat) (s : State) : (returnFolios num s).numbering = s.numbering := by
  simp [returnFolios, ↓State.numbering_mk, ↓State.numbering_eta]

@[simp] theorem freeChannels_numbering (k : Nat) (s : State) : (freeChannels k s).numbering = s.numbering := (rfl)

@[simp] theorem emptyFolio_numbering (s : State) (k : Nat) : (emptyFolio s k).numbering = s.numbering := by
  simp [emptyFolio]

@[simp] theorem unloadEdition_numbering (n : Nat) (s : State) : (unloadEdition n s).numbering = s.numbering := by
  unfold unloadEdition; split <;> simp [↓State.numbering_mk, ↓State.numbering_eta]

@[simp] theorem stopApply_numbering (b : Bay) (s : State) : (stopApply b s).numbering = s.numbering := by
  unfold stopApply
  split
  · rfl
  · simp only [completeOpt_numbering]
    split <;> simp [↓State.numbering_mk, ↓State.numbering_eta, ↓ite_numbering]

end Sys2Proof.Machine
end

section
/-! PROOFS. The numbering, left alone by queues, delay lines, transmitters, attaches, changes, clocks and sources. -/

namespace Sys2Proof.Machine
open Sys2Proof

/-! ## Queues (R169 to R189) -/

@[simp] theorem freeCredit_numbering (c : Option (Nat × Nat × Nat)) (s : State) : (freeCredit c s).numbering = s.numbering := by
  unfold freeCredit; split <;> rfl

@[simp] theorem countEgress_numbering (p : Nat) (s : State) : (countEgress p s).numbering = s.numbering := (rfl)

@[simp] theorem freeStored_numbering (q : Nat) (s : State) : (freeStored q s).numbering = s.numbering := by
  simp [freeStored]

@[simp] theorem countMarker_numbering (e : Nat) (s : State) : (countMarker e s).numbering = s.numbering := (rfl)

@[simp] theorem faultLog_numbering (q kind : Nat) (s : State) : (faultLog q kind s).numbering = s.numbering := (rfl)

@[simp] theorem resetQueue_numbering (q kind : Nat) (rd : BitVec 17 × BitVec 17 × BitVec 17 × BitVec 17) (s : State) :
    (resetQueue q kind rd s).numbering = s.numbering := by
  simp [resetQueue]

@[simp] theorem descFault_numbering (q : Nat) (s : State) : (descFault q s).numbering = s.numbering := by
  simp [descFault]

theorem useQueue_numbering {q : Nat} {s t : State} (h : useQueue q s = some t) : t.numbering = s.numbering := by
  simp only [useQueue] at h
  split_ifs at h <;> cases h <;> simp

@[simp] theorem markLoss_numbering (q : Nat) (l : Loss) (s : State) : (markLoss q l s).numbering = s.numbering := by
  unfold markLoss
  simp only
  split
  · next h => exact useQueue_numbering h
  · simp [↓ite_numbering]

@[simp] theorem dropItem_numbering (q : Nat) (hdr : Line) (cause : Byte) (charge : Option (Nat × Nat × Nat)) (s : State) :
    (dropItem q hdr cause charge s).numbering = s.numbering := by
  simp [dropItem]

@[simp] theorem poisonItem_numbering (q : Nat) (s : State) : (poisonItem q s).numbering = s.numbering := by
  simp [poisonItem, ↓ite_numbering]

@[simp] theorem writeFlush_numbering (q : Nat) (s : State) : (writeFlush q s).numbering = s.numbering := by
  simp [writeFlush, ↓ite_numbering]

@[simp] theorem endFlush_numbering (q : Nat) (s : State) : (endFlush q s).numbering = s.numbering := by
  unfold endFlush
  cases h : useQueue q s with
  | none => exact writeFlush_numbering ..
  | some t => exact useQueue_numbering h

@[simp] theorem beginFlush_numbering (q : Nat) (s : State) : (beginFlush q s).numbering = s.numbering := by
  simp [beginFlush]

@[simp] theorem flushQueue_numbering (q : Nat) (s : State) : (flushQueue q s).numbering = s.numbering := by
  unfold flushQueue
  split
  · rfl
  · split
    · next h => exact useQueue_numbering h
    · simp [↓ite_numbering]

/-! ## Delay lines (R208 to R213) -/

@[simp] theorem dlStore_numbering (f : FlowSt) (p : Nat) (w : Line) (s : State) :
    (dlStore f p w s).numbering = s.numbering := by
  simp [dlStore]

@[simp] theorem dlReset_numbering (k : Nat) (s : State) : (dlReset k s).numbering = s.numbering := by
  simp [dlReset]

theorem useLine_numbering {k : Nat} {s t : State} (h : useLine k s = some t) : t.numbering = s.numbering := by
  simp only [useLine] at h
  split_ifs at h
  exact Option.some.inj h ▸ dlReset_numbering k s

theorem dlMark_add_numbering (k : Nat) (l : Loss) (s : State) (f : FlowSt) : (dlMark.add k l s f).numbering = s.numbering := by
  simp [dlMark.add]

@[simp] theorem dlMark_numbering (k : Nat) (l : Loss) (s : State) : (dlMark k l s).numbering = s.numbering := by
  unfold dlMark
  simp only
  split
  · next _ h => exact useLine_numbering h
  · simp [dlMark_add_numbering, ↓ite_numbering]
  · exact dlMark_add_numbering ..

@[simp] theorem dlDrop_numbering (k : Nat) (hdr : Line) (cause : Byte) (charge : Option (Nat × Nat × Nat)) (s : State) :
    (dlDrop k hdr cause charge s).numbering = s.numbering := by
  simp [dlDrop]

/-! ## Transmitters -/

@[simp] theorem idleTx_numbering (p : Nat) (s : State) : (idleTx p s).numbering = s.numbering := (rfl)

@[simp] theorem sendUnit_numbering (p : Nat) (u : LineUnit) (s : State) : (sendUnit p u s).numbering = s.numbering := by
  simp [sendUnit, ↓ite_numbering]

@[simp] theorem sendData_numbering (p : Nat) (l : List Sym) (s : State) : (sendData p l s).numbering = s.numbering := (rfl)

@[simp] theorem closeTx_numbering (p : Nat) (s : State) : (closeTx p s).numbering = s.numbering := by
  simp [closeTx, ↓ite_numbering]

@[simp] theorem sendSet_numbering (p type : Nat) (x : Step) (f : BitVec 16) (s : State) :
    (sendSet p type x f s).numbering = s.numbering := by
  simp [sendSet]

@[simp] theorem sendDueSets_numbering (p : Nat) (s : State) : (sendDueSets p s).numbering = s.numbering := by
  simp [sendDueSets, ↓ite_numbering]

@[simp] theorem sendMarks_numbering (p : Nat) (s : State) : (sendMarks p s).numbering = s.numbering := by
  simp [sendMarks, ↓ite_numbering]

@[simp] theorem sendSkip_numbering (p : Nat) (s : State) : (sendSkip p s).numbering = s.numbering := by
  simp [sendSkip, ↓ite_numbering]

@[simp] theorem sendPage_numbering (p : Nat) (s : State) : (sendPage p s).numbering = s.numbering := by
  simp [sendPage, ↓ite_numbering]

@[simp] theorem openTx_numbering (p : Nat) (s : State) : (openTx p s).numbering = s.numbering := by
  simp [openTx]

/-! ## The producer's side of a queue -/

@[simp] theorem arrivalEnds_numbering (k : Nat) (poisoned : Bool) (s : State) :
    (arrivalEnds k poisoned s).numbering = s.numbering := by
  unfold arrivalEnds
  simp only
  split
  · split
    · simp
    · split
      · simp
      · split
        · split
          · next h => exact (State.modFlow_numbering ..).trans (useLine_numbering h)
          · simp
        · simp
  · simp

@[simp] theorem endWritten_numbering (q : Nat) (poisoned : Bool) (s : State) :
    (endWritten q poisoned s).numbering = s.numbering := by
  unfold endWritten
  simp only
  split
  · simp
  · split
    · simp
    · split
      · simp
      · split
        · split
          · split
            · next h => exact (State.modQueue_numbering ..).trans (useQueue_numbering h)
            · simp
          · simp
        · rfl

@[simp] theorem itemEnds_numbering (q : Nat) (poisoned : Bool) (s : State) :
    (itemEnds q poisoned s).numbering = s.numbering := by
  simp [itemEnds]

@[simp] theorem poisonFrom_numbering (p : Nat) (s : State) : (poisonFrom p s).numbering = s.numbering := by
  simp [poisonFrom, ↓State.numbering_mk, ↓State.numbering_eta]

/-! ## Installable changes (R45) -/

@[simp] theorem installAt_numbering (r : RotaRec) (s : State) : (installAt r s).numbering = s.numbering := by
  simp [installAt, ↓ite_numbering]

@[simp] theorem leaveSwitches_numbering (ports : List Nat) (s : State) :
    (leaveSwitches ports s).numbering = s.numbering := (rfl)

@[simp] theorem endSwitches_numbering (s : State) : (endSwitches s).numbering = s.numbering := by
  simp [endSwitches, ↓State.numbering_mk, ↓State.numbering_eta]

@[simp] theorem offerAt_numbering (p : Nat) (s : State) : (offerAt p s).numbering = s.numbering := by
  simp [offerAt, ↓State.numbering_mk, ↓State.numbering_eta, ↓ite_numbering]

@[simp] theorem joinTakes_numbering (p : Nat) (s : State) : (joinTakes p s).numbering = s.numbering := (rfl)

@[simp] theorem bindPorts_numbering (c : Step4) (ports : List Nat) (s : State) :
    (bindPorts c ports s).numbering = s.numbering := by
  simp [bindPorts, ↓State.numbering_mk, ↓State.numbering_eta, ↓ite_numbering]

@[simp] theorem copyBank_numbering (a b : Nat) (s : State) : (copyBank a b s).numbering = s.numbering := (rfl)

@[simp] theorem installChange_numbering (c : Change4) (s : State) : (installChange c s).numbering = s.numbering := by
  unfold installChange
  split
  · simp
  · simp
  · simp
  · simp only
    split <;> split <;> simp [↓State.numbering_mk, ↓State.numbering_eta]
  · simp [↓State.numbering_mk, ↓State.numbering_eta]
  · simp [↓State.numbering_mk, ↓State.numbering_eta]
  · simp

@[simp] theorem dropDisallowed_numbering (s : State) : (dropDisallowed s).numbering = s.numbering := by
  simp [dropDisallowed, ↓State.numbering_mk, ↓State.numbering_eta]

@[simp] theorem exchangeStep_numbering (s : State) : (exchangeStep s).numbering = s.numbering := (rfl)

@[simp] theorem installAll_numbering (cs : List Change4) (s : State) : (installAll cs s).numbering = s.numbering := by
  simp [installAll, ↓State.numbering_mk, ↓State.numbering_eta]

@[simp] theorem boundaryStep4_numbering (s : State) : (boundaryStep4 s).numbering = s.numbering := by
  simp [boundaryStep4, ↓State.numbering_mk, ↓State.numbering_eta]

/-! ## The attaches -/

@[simp] theorem lineFill_numbering (p : Nat) (s : State) : (lineFill p s).numbering = s.numbering := (rfl)

@[simp] theorem poisonPart_numbering (p : Nat) (s : State) : (poisonPart p s).numbering = s.numbering := by
  simp [poisonPart, ↓ite_numbering]

@[simp] theorem endSwitch_numbering (p : Nat) (s : State) : (endSwitch p s).numbering = s.numbering := by
  unfold endSwitch; split <;> simp [↓State.numbering_mk, ↓State.numbering_eta]

@[simp] theorem poisonAttach_numbering (p : Nat) (s : State) : (poisonAttach p s).numbering = s.numbering := by
  simp [poisonAttach, ↓ite_numbering]

@[simp] theorem forceSwitch_numbering (p : Nat) (s : State) : (forceSwitch p s).numbering = s.numbering := by
  unfold forceSwitch
  split
  · split
    · simp [↓ite_numbering]
    · rfl
  · rfl

@[simp] theorem forceSwitches_numbering (s : State) : (forceSwitches s).numbering = s.numbering := by
  simp [forceSwitches]

/-! ## The memory layer -/

@[simp] theorem workFrame_numbering (s : State) : (workFrame s).numbering = s.numbering := (rfl)

@[simp] theorem persist_numbering (e : List Byte) (s : State) : (persist e s).numbering = s.numbering := by
  simp [persist, ↓State.numbering_mk, ↓State.numbering_eta, ↓ite_numbering]

@[simp] theorem retireBanks_numbering (b : Nat) (s : State) : (retireBanks b s).numbering = s.numbering := (rfl)

/-! ## Keys and re-keying (R245) -/

@[simp] theorem sweepPage_numbering (v page : Nat) (s : State) : (sweepPage v page s).numbering = s.numbering := by
  simp [sweepPage, ↓ite_numbering]

@[simp] theorem sweepAbove_numbering (v page : Nat) (s : State) : (sweepAbove v page s).numbering = s.numbering := by
  simp [sweepAbove, ↓ite_numbering]

@[simp] theorem endRekey_numbering (v : Nat) (s : State) : (endRekey v s).numbering = s.numbering := by
  simp [endRekey, ↓State.numbering_mk, ↓State.numbering_eta]

@[simp] theorem sweepFrame_numbering (v : Nat) (s : State) : (sweepFrame v s).numbering = s.numbering := by
  simp [sweepFrame, ↓ite_numbering]

@[simp] theorem releaseHeld_numbering (v : Nat) (s : State) : (releaseHeld v s).numbering = s.numbering := by
  simp [releaseHeld, ↓State.numbering_mk, ↓State.numbering_eta]

@[simp] theorem retryKey_numbering (v : Nat) (s : State) : (retryKey v s).numbering = s.numbering := by
  simp [retryKey, ↓State.numbering_mk, ↓State.numbering_eta, ↓ite_numbering]

@[simp] theorem rekeyFrame_numbering (s : State) : (rekeyFrame s).numbering = s.numbering := by
  have hretry : ∀ l : List Nat, (l.foldl (fun s v => retryKey v s) s).numbering = s.numbering := fun l => by simp
  simp only [rekeyFrame]
  split
  · split
    · exact (sweepFrame_numbering ..).trans (hretry _)
    · exact hretry _
  · exact hretry _

/-! ## The day book -/

@[simp] theorem writeTail_numbering (s : State) : (writeTail s).numbering = s.numbering := (rfl)

/-! ## Clock changes -/

@[simp] theorem applyClkChange_numbering (s : State) (ch : ClkChange) : (applyClkChange s ch).numbering = s.numbering := by
  unfold applyClkChange; split <;> simp [↓State.numbering_mk, ↓State.numbering_eta, ↓ite_numbering]

@[simp] theorem clockStep3_numbering (s : State) : (clockStep3 s).numbering = s.numbering := by
  simp [clockStep3, ↓State.numbering_mk, ↓State.numbering_eta]

/-! ## Frame sources and the discipline (R34 to R41) -/

@[simp] theorem measure_numbering (i : FrameIn) (s : State) : (measure i s).numbering = s.numbering := (rfl)

@[simp] theorem discipline_numbering (i : FrameIn) (s : State) : (discipline i s).numbering = s.numbering := by
  simp [discipline, ↓State.numbering_mk, ↓State.numbering_eta, ↓ite_numbering]

@[simp] theorem forgetPhase_numbering (s : State) : (forgetPhase s).numbering = s.numbering := (rfl)

@[simp] theorem startQualifying_numbering (s : State) : (startQualifying s).numbering = s.numbering := by
  unfold startQualifying
  split
  · rfl
  · simp only [↓State.numbering_mk, ↓State.numbering_eta]
    split <;> simp

@[simp] theorem changeOver_numbering (s : State) : (changeOver s).numbering = s.numbering := by
  unfold changeOver; split <;> simp [↓State.numbering_mk, ↓State.numbering_eta, ↓ite_numbering]

@[simp] theorem countFrames_numbering (s : State) : (countFrames s).numbering = s.numbering := (rfl)

@[simp] theorem revert_numbering (s : State) : (revert s).numbering = s.numbering := by
  simp [revert, ↓State.numbering_mk, ↓State.numbering_eta, ↓ite_numbering]

end Sys2Proof.Machine
end

section
/-! PROOFS. The numbering, left alone by slices, the loader, thermal updates, ports and moves between modes. -/

namespace Sys2Proof.Machine
open Sys2Proof

/-! ## Slices, spares and repairs -/

@[simp] theorem grantSlices_numbering (s : State) : (grantSlices s).numbering = s.numbering := by
  simp [grantSlices, ↓State.numbering_mk, ↓State.numbering_eta, ↓ite_numbering]

@[simp] theorem settleSlices_numbering (s : State) : (settleSlices s).numbering = s.numbering := by
  simp [settleSlices, ↓State.numbering_mk, ↓State.numbering_eta, ↓ite_numbering]

@[simp] theorem keepResult_numbering (l : List Byte) (s : State) : (keepResult l s).numbering = s.numbering := by
  simp [keepResult, ↓State.numbering_mk, ↓State.numbering_eta, ↓ite_numbering]

@[simp] theorem noteFail_numbering (log bit outcome : Nat) (s : State) :
    (noteFail log bit outcome s).numbering = s.numbering := (rfl)

@[simp] theorem handleResult_numbering (w : ResultWork) (s : State) : (handleResult w s).numbering = s.numbering := by
  simp [handleResult, ↓State.numbering_mk, ↓State.numbering_eta, ↓ite_numbering]

@[simp] theorem deskResult_numbering (w : ResultWork) (s : State) : (deskResult w s).numbering = s.numbering := by
  simp [deskResult, ↓State.numbering_mk, ↓State.numbering_eta, ↓ite_numbering]

@[simp] theorem deskResults_numbering (s : State) : (deskResults s).numbering = s.numbering := by
  simp [deskResults, ↓State.numbering_mk, ↓State.numbering_eta]

@[simp] theorem loseBank_numbering (n : Nat) (s : State) : (loseBank n s).numbering = s.numbering := (rfl)

@[simp] theorem remapTo_numbering (b c ph : Nat) (s : State) : (remapTo b c ph s).numbering = s.numbering := by
  unfold remapTo; split <;> simp [↓State.numbering_mk, ↓State.numbering_eta]

@[simp] theorem persistIf_numbering (c : Bool) (e : List Byte) (s : State) : (persistIf c e s).numbering = s.numbering := by
  simp [persistIf, ↓ite_numbering]

@[simp] theorem markSpare_numbering (b ph : Nat) (keep : Bool) (s : State) :
    (markSpare b ph keep s).numbering = s.numbering := by
  simp [markSpare, ↓State.numbering_mk, ↓State.numbering_eta, ↓ite_numbering]

theorem repairCarrel_numbering (b ph : Nat) (keep : Bool) (s : State) :
    (repairCarrel b ph keep s).2.numbering = s.numbering := by
  unfold repairCarrel
  split
  · rfl
  · split
    · simp only
      split <;> simp [↓State.numbering_mk, ↓State.numbering_eta]
    · simp

@[simp] theorem applyRemap_numbering (b c : Nat) (keep : Bool) (named : Option Nat) (s : State) :
    (applyRemap b c keep named s).numbering = s.numbering := by
  unfold applyRemap
  simp only
  split
  · simp
  · exact (repairCarrel_numbering ..).trans (markSpare_numbering ..)

@[simp] theorem applyPendRemaps_numbering (b : Nat) (s : State) : (applyPendRemaps b s).numbering = s.numbering := by
  simp [applyPendRemaps, ↓State.numbering_mk, ↓State.numbering_eta]

@[simp] theorem loadRemapped_numbering (b : Nat) (s : State) : (loadRemapped b s).numbering = s.numbering := by
  simp [loadRemapped, ↓State.numbering_mk, ↓State.numbering_eta, ↓ite_numbering]

@[simp] theorem State.setTest_numbering (s : State) (b : Nat) (t : TestSt) : (s.setTest b t).numbering = s.numbering := (rfl)

@[simp] theorem noteConditions_numbering (s : State) : (noteConditions s).numbering = s.numbering := (rfl)

@[simp] theorem countTest_numbering (b : Nat) (t : TestSt) (s : State) : (countTest b t s).numbering = s.numbering := by
  simp [countTest, ↓ite_numbering]

@[simp] theorem countTests_numbering (s : State) : (countTests s).numbering = s.numbering := by
  simp [countTests, ↓State.numbering_mk, ↓State.numbering_eta, ↓ite_numbering]

@[simp] theorem tellUntested_numbering (s : State) : (tellUntested s).numbering = s.numbering := by
  simp [tellUntested, ↓State.numbering_mk, ↓State.numbering_eta, ↓ite_numbering]

/-! ## The loader -/

@[simp] theorem stagePart_numbering (l : List Byte) (s : State) : (stagePart l s).numbering = s.numbering := by
  simp [stagePart, ↓State.numbering_mk, ↓State.numbering_eta]

@[simp] theorem clearStage_numbering (s : State) : (clearStage s).numbering = s.numbering := (rfl)

@[simp] theorem emptyBay_numbering (b : Nat) (s : State) : (emptyBay b s).numbering = s.numbering := by
  simp [emptyBay, ↓State.numbering_mk, ↓State.numbering_eta]

@[simp] theorem setInband_numbering (fIn fOut : Nat) (s : State) : (setInband fIn fOut s).numbering = s.numbering := (rfl)

@[simp] theorem applyPort_numbering (p : Nat) (c : PortCfg) (s : State) : (applyPort p c s).numbering = s.numbering := (rfl)

@[simp] theorem applyHouse_numbering (c : PartContent) (s : State) : (applyHouse c s).numbering = s.numbering := by
  unfold applyHouse
  simp only [↓State.numbering_mk, ↓State.numbering_eta]
  split <;> split <;> split <;> split <;> simp [↓State.numbering_mk, ↓State.numbering_eta]

@[simp] theorem startContent_numbering (c : PartContent) (s : State) : (startContent c s).numbering = s.numbering := by
  simp [startContent, ↓State.numbering_mk, ↓State.numbering_eta]

@[simp] theorem beginApply_numbering (s : State) : (beginApply s).numbering = s.numbering := by
  unfold beginApply; split <;> simp

@[simp] theorem waitHost_numbering (s : State) : (waitHost s).numbering = s.numbering := by
  simp [waitHost, ↓State.numbering_mk, ↓State.numbering_eta]

@[simp] theorem reserveFails_numbering (cause : Nat) (s : State) : (reserveFails cause s).numbering = s.numbering := by
  simp [reserveFails, ↓State.numbering_mk, ↓State.numbering_eta]

@[simp] theorem startReserve_numbering (s : State) : (startReserve s).numbering = s.numbering := by
  unfold startReserve
  simp only
  split
  · simp [↓State.numbering_mk, ↓State.numbering_eta]
  · split <;> simp [↓State.numbering_mk, ↓State.numbering_eta]

@[simp] theorem firstFails_numbering (cause : Nat) (s : State) : (firstFails cause s).numbering = s.numbering := by
  simp [firstFails, ↓State.numbering_mk, ↓State.numbering_eta, ↓ite_numbering]

@[simp] theorem chainSend_numbering (sym : List Byte) (s : State) : (chainSend sym s).numbering = s.numbering := by
  simp [chainSend, ↓State.numbering_mk, ↓State.numbering_eta, ↓ite_numbering]

@[simp] theorem headSends_numbering (s : State) : (headSends s).numbering = s.numbering := by
  unfold headSends
  split
  · rfl
  · simp only
    split
    · simp [↓State.numbering_mk, ↓State.numbering_eta]
    · simp only [chainSend_numbering, ↓State.numbering_mk, ↓State.numbering_eta]
      refine (foldl_numbering _ _ _ fun _ _ => foldl_numbering _ _ _ fun _ _ => chainSend_numbering ..).trans ?_
      simp [↓State.numbering_mk, ↓State.numbering_eta]

@[simp] theorem beginLoad_numbering (s : State) : (beginLoad s).numbering = s.numbering := by
  unfold beginLoad
  simp only [↓State.numbering_mk, ↓State.numbering_eta, ↓ite_numbering]
  split_ifs
  · simp [↓State.numbering_mk, ↓State.numbering_eta]
  · simp [↓State.numbering_mk, ↓State.numbering_eta]
  all_goals
    split
    · simp [↓State.numbering_mk, ↓State.numbering_eta]
    · split <;> simp [↓State.numbering_mk, ↓State.numbering_eta]

@[simp] theorem restartStream_numbering (s : State) : (restartStream s).numbering = s.numbering := by
  simp [restartStream, ↓State.numbering_mk, ↓State.numbering_eta, ↓ite_numbering]

@[simp] theorem takeStep_numbering (s : State) : (takeStep s).numbering = s.numbering := by
  simp [takeStep, ↓State.numbering_mk, ↓State.numbering_eta, ↓ite_numbering]

@[simp] theorem startApply_numbering (b : Bay) (c : Option BayContent) (s : State) :
    (startApply b c s).numbering = s.numbering := by
  simp [startApply, ↓ite_numbering]

@[simp] theorem bayApply_numbering (b : Bay) (s : State) : (bayApply b s).numbering = s.numbering := by
  unfold bayApply
  simp only
  split
  · simp [↓State.numbering_mk, ↓State.numbering_eta]
  · simp [↓State.numbering_mk, ↓State.numbering_eta, ↓ite_numbering]

/-! ## Thermal nodes, bands and voltages -/

@[simp] theorem rampVolts_numbering (s : State) : (rampVolts s).numbering = s.numbering := (rfl)

@[simp] theorem sampleSlot_numbering (i : SlotIn) (s : State) : (sampleSlot i s).numbering = s.numbering := (rfl)

@[simp] theorem closeSamples_numbering (s : State) : (closeSamples s).numbering = s.numbering := by
  simp [closeSamples, ↓State.numbering_mk, ↓State.numbering_eta, ↓ite_numbering]

@[simp] theorem sensorRuns_numbering (s : State) : (sensorRuns s).numbering = s.numbering := (rfl)

@[simp] theorem ceilings_numbering (old : NodeSt) (i : Nat) (s : State) : (ceilings old i s).numbering = s.numbering := by
  simp [ceilings, ↓State.numbering_mk, ↓State.numbering_eta, ↓ite_numbering]

@[simp] theorem updateModel_numbering (dt : Nat) (s : State) : (updateModel dt s).numbering = s.numbering := by
  simp [updateModel, ↓State.numbering_mk, ↓State.numbering_eta]

@[simp] theorem thermalTask_numbering (dt : Nat) (s : State) : (thermalTask dt s).numbering = s.numbering := by
  simp [thermalTask, ↓State.numbering_mk, ↓State.numbering_eta, ↓ite_numbering]

@[simp] theorem moveBand_numbering (n b : Nat) (s : State) : (moveBand n b s).numbering = s.numbering := by
  simp [moveBand, ↓ite_numbering]

@[simp] theorem pinSensor_numbering (n kind : Nat) (s : State) : (pinSensor n kind s).numbering = s.numbering := by
  simp [pinSensor, ↓State.numbering_mk, ↓State.numbering_eta]

@[simp] theorem releaseNode_numbering (i : Nat) (s : State) : (releaseNode i s).numbering = s.numbering := by
  simp [releaseNode, ↓State.numbering_mk, ↓State.numbering_eta, ↓ite_numbering]

@[simp] theorem thermalStep5_numbering (s : State) : (thermalStep5 s).numbering = s.numbering := by
  unfold thermalStep5; split <;> simp [↓State.numbering_mk, ↓State.numbering_eta, ↓ite_numbering]

@[simp] theorem startVoltages_numbering (s : State) : (startVoltages s).numbering = s.numbering := by
  simp [startVoltages, ↓ite_numbering]

@[simp] theorem loseFlops_numbering (b : Nat) (s : State) : (loseFlops b s).numbering = s.numbering := by
  simp [loseFlops]

@[simp] theorem ungateRails_numbering (s : State) : (ungateRails s).numbering = s.numbering := by
  simp [ungateRails, ↓State.numbering_mk, ↓State.numbering_eta, ↓ite_numbering]

/-! ## Channels -/

@[simp] theorem takeOver_numbering (s : State) : (takeOver s).numbering = s.numbering := by
  simp [takeOver, ↓State.numbering_mk, ↓State.numbering_eta, ↓ite_numbering]

/-! ## Lanes -/

@[simp] theorem closePoisoned_numbering (p : Nat) (s : State) : (closePoisoned p s).numbering = s.numbering := by
  simp [closePoisoned, ↓ite_numbering]

@[simp] theorem judgeSlot_numbering (p : Nat) (s : State) : (judgeSlot p s).numbering = s.numbering := by
  simp [judgeSlot, ↓ite_numbering]

@[simp] theorem moveTrack_numbering (key : Nat) (d : Int) (s : State) : (moveTrack key d s).numbering = s.numbering := by
  simp [moveTrack, ↓ite_numbering]

/-! ## Bring-up and negotiation of a port -/

@[simp] theorem retarget_numbering (p : Nat) (s : State) : (retarget p s).numbering = s.numbering := (rfl)

@[simp] theorem switchTo_numbering (x : Step) (p : Nat) (s : State) : (switchTo x p s).numbering = s.numbering := by
  simp [switchTo]

@[simp] theorem beginBringUp_numbering (p : Nat) (s : State) : (beginBringUp p s).numbering = s.numbering := by
  simp [beginBringUp, ↓ite_numbering]

@[simp] theorem enterBringUp_numbering (p : Nat) (s : State) : (enterBringUp p s).numbering = s.numbering := by
  simp [enterBringUp]

@[simp] theorem leaveBringUp_numbering (p : Nat) (s : State) : (leaveBringUp p s).numbering = s.numbering := (rfl)

@[simp] theorem checkErrors_numbering (key n : Nat) (s : State) : (checkErrors key n s).numbering = s.numbering := by
  simp [checkErrors, ↓ite_numbering]

@[simp] theorem countSlot_numbering (p : Nat) (s : State) : (countSlot p s).numbering = s.numbering := by
  simp [countSlot, ↓ite_numbering]

@[simp] theorem proposeNext_numbering (p : Nat) (s : State) : (proposeNext p s).numbering = s.numbering := by
  unfold proposeNext
  simp only
  split
  · simp
  · split
    · split <;> simp
    · rfl

@[simp] theorem takePreset_numbering (p : Nat) (s : State) : (takePreset p s).numbering = s.numbering := by
  simp [takePreset, ↓ite_numbering]

@[simp] theorem negStep6_numbering (p : Nat) (s : State) : (negStep6 p s).numbering = s.numbering := by
  unfold negStep6
  simp only
  split_ifs
  · simp
  · simp
  · split
    · simp
    · simp [↓ite_numbering]
    · simp

@[simp] theorem portStep6_numbering (p : Nat) (s : State) : (portStep6 p s).numbering = s.numbering := by
  simp [portStep6, ↓ite_numbering]

/-! ## Egress -/

@[simp] theorem scheduleSlot_numbering (p : Nat) (d : Domain) (s : State) :
    (scheduleSlot p d s).numbering = s.numbering := (rfl)

@[simp] theorem creditSlot_numbering (p : Nat) (s : State) : (creditSlot p s).numbering = s.numbering := by
  simp [creditSlot, ↓ite_numbering]

@[simp] theorem lineSlot_numbering (p : Nat) (d : Domain) (s : State) : (lineSlot p d s).numbering = s.numbering := by
  simp [lineSlot, ↓ite_numbering]

@[simp] theorem slotPort_numbering (p : Nat) (s : State) : (slotPort p s).numbering = s.numbering := by
  simp [slotPort]

@[simp] theorem endSlotPort_numbering (p : Nat) (s : State) : (endSlotPort p s).numbering = s.numbering := by
  simp [endSlotPort]

@[simp] theorem slotPorts_numbering (s : State) : (slotPorts s).numbering = s.numbering := by
  simp [slotPorts]

@[simp] theorem cutQueue_numbering (q : Nat) (s : State) : (cutQueue q s).numbering = s.numbering := by
  simp [cutQueue, ↓ite_numbering]

@[simp] theorem cutOff_numbering (p : Nat) (s : State) : (cutOff p s).numbering = s.numbering := by
  unfold cutOff; split <;> simp [↓ite_numbering]

/-! ## Moves between modes and what they bring (R44, R51 to R64) -/

@[simp] theorem dropRequest_numbering (r : LoadReq) (s : State) : (dropRequest r s).numbering = s.numbering := by
  unfold dropRequest; split <;> simp [↓State.numbering_mk, ↓State.numbering_eta]

@[simp] theorem dropLoads_numbering (b : Nat) (s : State) : (dropLoads b s).numbering = s.numbering := by
  simp [dropLoads]

@[simp] theorem bayBringUp_numbering (b : Nat) (s : State) : (bayBringUp b s).numbering = s.numbering := by
  simp [bayBringUp, ↓State.numbering_mk, ↓State.numbering_eta]

@[simp] theorem haltBay_numbering (b : Nat) (s : State) : (haltBay b s).numbering = s.numbering := by
  simp [haltBay, ↓ite_numbering]

@[simp] theorem bayMoved_numbering (b : Bay) (old new : Mode) (s : State) : (bayMoved b old new s).numbering = s.numbering := by
  unfold bayMoved
  simp only
  split <;> simp [↓ite_numbering]

@[simp] theorem portService_numbering (p : Nat) (s : State) : (portService p s).numbering = s.numbering := by
  simp [portService, ↓ite_numbering]

@[simp] theorem portMoved_numbering (p : Nat) (old new : Mode) (s : State) :
    (portMoved p old new s).numbering = s.numbering := by
  unfold portMoved
  simp only
  split <;> simp [↓ite_numbering]

@[simp] theorem houseIntake_numbering (s : State) : (houseIntake s).numbering = s.numbering := by
  simp [houseIntake, ↓State.numbering_mk, ↓State.numbering_eta]

@[simp] theorem houseMoved_numbering (new : Mode) (s : State) : (houseMoved new s).numbering = s.numbering := by
  unfold houseMoved; split <;> simp [↓State.numbering_mk, ↓State.numbering_eta]

@[simp] theorem leaveClosing_numbering (d : Domain) (s : State) : (leaveClosing d s).numbering = s.numbering := by
  simp [leaveClosing, ↓State.numbering_mk, ↓State.numbering_eta]

@[simp] theorem applyMove_numbering (m : Move) (s : State) : (applyMove m s).numbering = s.numbering := by
  unfold applyMove
  simp only [↓State.numbering_mk, ↓State.numbering_eta, ↓ite_numbering, completeOpt_numbering, ite_self]
  split <;> simp

@[simp] theorem trySlips_numbering (l : List PendMode) (s : State) : (trySlips l s).numbering = s.numbering := by
  induction l generalizing s with
  | nil => rfl
  | cons m rest ih =>
    unfold trySlips
    simp [ih, ↓State.numbering_mk, ↓State.numbering_eta, ↓ite_numbering]

@[simp] theorem loseSlips_numbering (l : List PendMode) (s : State) : (loseSlips l s).numbering = s.numbering := by
  simp [loseSlips]

@[simp] theorem domainStep_numbering (before : State) (forced : Option (Mode × Nat)) (due : List PendMode) (s : State)
    (d : Domain) :
    (domainStep before forced due s d).numbering = s.numbering := by
  unfold domainStep
  simp only
  split
  · simp [↓ite_numbering]
  · split <;> simp

@[simp] theorem houseStep_numbering (before : State) (holds : Bool) (due : List PendMode) (s : State) :
    (houseStep before holds due s).numbering = s.numbering := by
  unfold houseStep; split <;> simp [↓ite_numbering]

@[simp] theorem boundaryStep2_numbering (holds : Bool) (s : State) : (boundaryStep2 holds s).numbering = s.numbering := by
  simp [boundaryStep2, ↓State.numbering_mk, ↓State.numbering_eta, ↓ite_numbering]

@[simp] theorem boundaryHold_numbering (old : Mode) (s : State) : (boundaryHold old s).numbering = s.numbering := by
  unfold boundaryHold
  split
  · rfl
  · split <;> simp [↓State.numbering_mk, ↓State.numbering_eta]

@[simp] theorem setDrained_numbering (d : Domain) (s : State) : (setDrained d s).numbering = s.numbering := (rfl)

@[simp] theorem flushPort_numbering (p : Nat) (s : State) : (flushPort p s).numbering = s.numbering := by
  simp [flushPort, ↓ite_numbering]

@[simp] theorem expireDrain_numbering (d : Domain) (s : State) : (expireDrain d s).numbering = s.numbering := by
  unfold expireDrain
  split
  · simp
  · simp
  · refine foldl_numbering _ _ _ fun s x => ?_
    obtain ⟨p, w⟩ := x
    simp only
    split
    · simp [↓ite_numbering]
    · rfl

@[simp] theorem endDrain_numbering (d : Domain) (s : State) : (endDrain d s).numbering = s.numbering := by
  unfold endDrain; split <;> simp

@[simp] theorem gateClosed_numbering (b : Nat) (s : State) : (gateClosed b s).numbering = s.numbering := by
  simp [gateClosed, ↓State.numbering_mk, ↓State.numbering_eta]

@[simp] theorem completeClosing_numbering (d : Domain) (s : State) : (completeClosing d s).numbering = s.numbering := by
  unfold completeClosing
  split
  · rfl
  · simp only
    split
    · rfl
    · split <;> simp [↓State.numbering_mk, ↓State.numbering_eta]

@[simp] theorem drainFrame_numbering (s : State) (d : Domain) : (drainFrame s d).numbering = s.numbering := by
  unfold drainFrame; split <;> simp [↓State.numbering_mk, ↓State.numbering_eta, ↓ite_numbering]

@[simp] theorem drainFrames_numbering (s : State) : (drainFrames s).numbering = s.numbering := by
  simp [drainFrames]

/-! ## The shelf-reader -/

@[simp] theorem shelfBoundary_numbering (s : State) : (shelfBoundary s).numbering = s.numbering := (rfl)

end Sys2Proof.Machine
end

section
/-! PROOFS. The numbering at a boundary (R31 to R33, R44). -/

namespace Sys2Proof.Machine
open Sys2Proof

/-- What the boundary's own work on the frame leaves of its numbering. -/
def FrameSt.sameNumbers (f g : FrameSt) : Prop :=
  g.number = f.number ∧ g.slot = f.slot ∧ g.frames = f.frames ∧ g.time = f.time ∧ g.pendNumber = f.pendNumber

theorem State.numbering_withFrame (s : State) {f : FrameSt} (h : s.frame.sameNumbers f) :
    ({ s with frame := f } : State).numbering = s.numbering := by
  obtain ⟨h1, h2, h3, h4, h5⟩ := h
  simp [State.numbering, h1, h2, h3, h4, h5]

theorem noteOverruns_same (late : List Bool) (l : List Nat) (f : FrameSt) :
    f.sameNumbers (l.foldl (fun f u => noteOverrun u (late.getD u false) f) f) := by
  induction l generalizing f with
  | nil => exact ⟨rfl, rfl, rfl, rfl, rfl⟩
  | cons u l ih => exact ih (noteOverrun u (late.getD u false) f)

theorem closeWindows_same (slot : Nat) (f : FrameSt) : f.sameNumbers (closeWindows slot f) := by
  have hactive : ∀ c : Prop, [Decidable c] → f.sameNumbers (if c then closeActive f else f) := by
    intro c _
    split <;> exact ⟨rfl, rfl, rfl, rfl, rfl⟩
  unfold closeWindows
  simp only
  split
  · split
    · exact hactive _
    · exact hactive _
  · exact hactive _

/-! ## The steps of a boundary (R44) -/

@[simp] theorem noteOverruns_numbering (s : State) :
    (noteOverruns s).numbering = s.numbering := s.numbering_withFrame (noteOverruns_same _ _ _)

@[simp] theorem clearTold_numbering (s : State) : (clearTold s).numbering = s.numbering := (rfl)

@[simp] theorem freshBudgets_numbering (s : State) : (freshBudgets s).numbering = s.numbering := (rfl)

@[simp] theorem countUnlocks_numbering (s : State) : (countUnlocks s).numbering = s.numbering := (rfl)

@[simp] theorem countWaits_numbering (s : State) : (countWaits s).numbering = s.numbering := (rfl)

@[simp] theorem deliverIrqs_numbering (s : State) : (deliverIrqs s).numbering = s.numbering := (rfl)

@[simp] theorem endSlots_numbering (s : State) : (endSlots s).numbering = s.numbering := by
  simp [endSlots]

@[simp] theorem laneSlot_numbering (i : SlotIn) (s : State) : (laneSlot i s).numbering = s.numbering := by
  simp [laneSlot]

@[simp] theorem slotEnds_numbering (i : SlotIn) (s : State) : (slotEnds i s).numbering = s.numbering := by
  simp [slotEnds]

@[simp] theorem endFrame_numbering (i : FrameIn) (s : State) : (endFrame i s).numbering = s.numbering := by
  simp [endFrame, s.numbering_withFrame (closeWindows_same 0 s.frame)]

@[simp] theorem sourceStep3_numbering (s : State) : (sourceStep3 s).numbering = s.numbering := by
  simp [sourceStep3]

@[simp] theorem finishClosings_numbering (s : State) : (finishClosings s).numbering = s.numbering := by
  simp [finishClosings]

@[simp] theorem slotStep_numbering (i : SlotIn) (s : State) : (slotStep i s).numbering = s.numbering := by
  simp [slotStep]

@[simp] theorem beginFrame_numbering (i : FrameIn) (s : State) : (beginFrame i s).numbering = s.numbering := by
  simp [beginFrame]

/-! ## The boundary itself (R31 to R33) -/

/-- The frame's number moves on by one at a boundary, or begins at 0 at the first; its slots begin again. -/
theorem advanceNumber_numbering (s : State) (h : s.frame.pendNumber = none) :
    (advanceNumber s).numbering =
      { s.numbering with number := if s.cfg.frame0Due then 0 else s.frame.number + 1, slot := 0 } := by
  unfold advanceNumber
  split
  · next hd => simp [State.numbering, hd]
  · next hd => simp [State.numbering, h, hd]

theorem closeBoundary_numbering (s : State) : (closeBoundary s).numbering =
    { s.numbering with frames := s.numbering.frames + 1, time := s.numbering.time + 500, frame0Due := false } := rfl

/-- What the steps of a boundary do besides leaves the numbering alone (R44). -/
theorem boundarySteps_numbering (i : FrameIn) (s : State) :
    (boundarySteps i s).numbering = (advanceNumber (testRotas s)).numbering := by
  simp [boundarySteps]

theorem frameBoundary_numbering (i : FrameIn) (s : State) (h : s.frame.pendNumber = none) :
    (frameBoundary i s).numbering =
      { number := if s.cfg.frame0Due then 0 else s.frame.number + 1, slot := 0, frames := s.frame.frames + 1,
        time := s.frame.time + 500, pendNumber := none, frame0Due := false } := by
  let u := testRotas (if s.cfg.frame0Due then freshBudgets s else endFrame i (slotEnds i.sample s))
  have hu : u.numbering = s.numbering := by
    simp only [u, testRotas_numbering, ite_numbering]
    split <;> simp
  have hp : u.frame.pendNumber = none := (congrArg Numbering.pendNumber hu).trans h
  have hd : u.cfg.frame0Due = s.cfg.frame0Due := congrArg Numbering.frame0Due hu
  have hn : u.frame.number = s.frame.number := congrArg Numbering.number hu
  have e : (frameBoundary i s).numbering = { (advanceNumber u).numbering with
      frames := (advanceNumber u).numbering.frames + 1, time := (advanceNumber u).numbering.time + 500, frame0Due := false } := by
    unfold frameBoundary
    simp only [closeBoundary_numbering, slotStep_numbering, beginFrame_numbering, boundarySteps_numbering]
    rfl
  rw [e, advanceNumber_numbering u hp, hu, hd, hn]
  simp [State.numbering, h]

/-- A slot boundary within the frame opens the next slot. -/
theorem slotBoundary_numbering (i : SlotIn) (s : State) :
    (slotBoundary i s).numbering = { s.numbering with slot := s.frame.slot + 1, time := s.frame.time + 500 } := by
  have hu : (slotEnds i s).numbering = s.numbering := slotEnds_numbering i s
  obtain ⟨hnumber, -, hframes, -, hpend⟩ := closeWindows_same ((slotEnds i s).frame.slot.toNat + 1) (slotEnds i s).frame
  unfold slotBoundary
  refine (slotStep_numbering ..).trans (Numbering.ext ?_ ?_ ?_ ?_ ?_ ?_)
  · exact hnumber.trans (congrArg Numbering.number hu)
  · exact congrArg (Numbering.slot · + 1) hu
  · exact hframes.trans (congrArg Numbering.frames hu)
  · exact congrArg (Numbering.time · + 500) hu
  · exact hpend.trans (congrArg Numbering.pendNumber hu)
  · exact (congrArg Numbering.frame0Due hu :)

/-- Settles O38: the step of each boundary, and that nothing else a boundary does touches its numbering. -/
theorem boundariesCount : Obligations.BoundariesCount := by
  unfold Obligations.BoundariesCount
  refine fun s => ⟨fun i hrun hlast hp => ?_, fun i hrun hslot hd => ?_⟩
  · have hn := frameBoundary_numbering i s hp
    have hdue : s.boundaryDue = true := by
      rcases hlast with h | h <;> simp [State.boundaryDue, hrun, h]
    obtain ⟨hnumber, hslot, hframes, htime, -, hd⟩ := (Numbering.mk.injEq ..).mp hn
    exact ⟨_, run_when hdue _ s, hslot, hnumber, hframes, htime, hd⟩
  · have hn := slotBoundary_numbering i s
    have hdue : s.slotDue = true := by simp [State.slotDue, hrun, hd, hslot]
    obtain ⟨hnumber, hslot, hframes, htime, -, -⟩ := (Numbering.mk.injEq ..).mp hn
    exact ⟨_, run_when hdue _ s, hslot, hnumber, htime, hframes⟩

end Sys2Proof.Machine
end

section
/-! PROOFS. MODE_SET and MODE_QUERY (R62 to R64, R372): what pends, what is answered at once, and where a reply shows each mode. -/

namespace Sys2Proof.Machine
open Sys2Proof

/-! ## Slips that lose their change (R63) -/

theorem loseSlips_eq (l : List PendMode) (s : State) :
    loseSlips l s = { s with slips := (loseSlips l s).slips, log := (loseSlips l s).log } :=
  foldl_keeps (withSlipsLog (loseSlips l s).slips (loseSlips l s).log) _ (fun s m => by rw [complete_eq]; rfl) l s

theorem loseSlips_length (l : List PendMode) (s : State) : (loseSlips l s).slips.chans.length = s.slips.chans.length :=
  foldl_keeps (·.slips.chans.length) _ (fun s m => complete_length m.id St.superseded 0 [] s) l s

theorem loseSlips_ring (l : List PendMode) (s : State) : (loseSlips l s).log.sameRing s.log := by
  have h := foldl_keeps (fun s : State => (s.log.ring, s.log.rptr)) _ (fun s (m : PendMode) =>
    Prod.ext (complete_ring m.id St.superseded 0 [] s).1 (complete_ring m.id St.superseded 0 [] s).2) l s
  exact ⟨congrArg Prod.fst h, congrArg Prod.snd h⟩

theorem cancelDelayed_loses (d : Domain) (s : State) :
    cancelDelayed d s = loseSlips (s.modes.pend.filter fun m => m.dom == d && m.delayed)
      { s with modes.pend := s.modes.pend.filter fun m => !(m.dom == d && m.delayed) } := rfl

/-- What a cancellation changes: the changes that pend, and the record of the slips it ends. -/
theorem cancelDelayed_eq (d : Domain) (s : State) :
    cancelDelayed d s = { s with modes.pend := s.modes.pend.filter fun m => !(m.dom == d && m.delayed),
                                 slips := (cancelDelayed d s).slips, log := (cancelDelayed d s).log } :=
  loseSlips_eq _ _

theorem cancelDelayed_length (d : Domain) (s : State) : (cancelDelayed d s).slips.chans.length = s.slips.chans.length :=
  loseSlips_length _ _

theorem cancelDelayed_ring (d : Domain) (s : State) : (cancelDelayed d s).log.sameRing s.log := loseSlips_ring _ _

/-- Where none waits for a delay, none is cancelled. -/
theorem cancelDelayed_none (d : Domain) (s : State) (h : ∀ m ∈ s.modes.pend, m.dom = d → m.delayed = false) :
    cancelDelayed d s = s := by
  have hgone : (s.modes.pend.filter fun m => m.dom == d && m.delayed) = [] :=
    List.filter_eq_nil_iff.mpr fun m hm => by simpa using h m hm
  have hleft : (s.modes.pend.filter fun m => !(m.dom == d && m.delayed)) = s.modes.pend :=
    List.filter_eq_self.mpr fun m hm => by simpa [imp_iff_not_or] using h m hm
  rw [cancelDelayed_loses, hgone, hleft]
  rfl

/-! ## The body of MODE_SET -/

/-- The change that a MODE_SET asks for. -/
def pendOf (p : List Byte) (ok : Bool) (id : SlipId) (d : Domain) (new : Mode) : PendMode :=
  { dom := d, target := new, delay := arg p 20 2, delayed := arg p 20 2 != 0,
    drain := if arg p 22 2 = 0 then 800 else arg p 22 2, test := arg p 24 2, force := arg p 26 1 == 1, archiveOk := ok, id := id }

/-- MODE_SET, its fields in range: it has ended already, it pends, or it conflicts. -/
theorem modeSetBody_eq (p : List Byte) (ok : Bool) (id : SlipId) (s : State) {d : Domain} {new : Mode}
    (hd : domainOf (arg p 16 1) (arg p 18 2) = some d) (hn : Mode.ofCode (arg p 17 1) = some new)
    (hf : fields [⟨16, 1, arg p 16 1 < 3⟩, ⟨17, 1, arg p 17 1 < 6⟩, ⟨18, 2, true⟩, ⟨20, 2, true⟩, ⟨22, 2, true⟩,
      ⟨24, 2, true⟩, ⟨26, 1, arg p 26 1 < 2⟩] p = .ok ()) :
    modeSetBody p ok id s =
      if s.mode d = new then acceptDone (cancelDelayed d s) St.ok
      else if s.modeAhead d = new ∨ (slipMay d (s.modeAhead d) new = true ∧ (new = .bringUp → s.gatedDom d = false)) then
        let u := cancelDelayed d s
        accept { u with modes.pend := u.modes.pend ++ [pendOf p ok id d new] }
      else .error (fail St.modeConflict) := by
  have hneed : (s.modeAhead d == new || (slipMay d (s.modeAhead d) new && !(new == .bringUp && s.gatedDom d))) =
      decide (s.modeAhead d = new ∨ (slipMay d (s.modeAhead d) new = true ∧ (new = .bringUp → s.gatedDom d = false))) := by
    rw [Bool.eq_iff_iff]
    simp
  unfold modeSetBody
  simp only [hd, hn, hf, Option.isSome_some, Bool.or_true, Option.getD_some, hneed, beq_iff_eq]
  split
  · rfl
  · by_cases h : s.modeAhead d = new ∨ (slipMay d (s.modeAhead d) new = true ∧ (new = .bringUp → s.gatedDom d = false))
    · simp only [h, decide_true, if_true]; rfl
    · simp only [h, decide_false, if_false]; rfl

/-! ## The reply of MODE_QUERY (R64) -/

/-- Values of one width laid side by side are read back one by one. -/
theorem pack_chunk (w : Nat) (l : List Nat) (k : Nat) :
    pack (l.map fun v => (w, v)) / 2 ^ (w * k) % 2 ^ w = l.getD k 0 % 2 ^ w := by
  induction l generalizing k with
  | nil => simp [pack]
  | cons v l ih =>
    have hpos := Nat.two_pow_pos w
    cases k with
    | zero => simp [pack]
    | succ k =>
      have hstep : pack ((v :: l).map fun v => (w, v)) / 2 ^ w = pack (l.map fun v => (w, v)) := by
        rw [List.map_cons, pack, Nat.add_mul_div_left _ _ hpos, Nat.div_eq_of_lt (Nat.mod_lt _ hpos), Nat.zero_add]
      rw [Nat.mul_succ, Nat.add_comm, Nat.pow_add, ← Nat.div_div_eq_div_mul, hstep, ih, List.getD_cons_succ]

@[simp] theorem leBytes_length (n v : Nat) : (leBytes n v).length = n := by
  induction n generalizing v with
  | zero => rfl
  | succ n ih => simp [leBytes, ih]

theorem leBytes_getElem? (n v i : Nat) (h : i < n) : (leBytes n v)[i]? = some (BitVec.ofNat 8 (v / 256 ^ i)) := by
  induction n generalizing v i with
  | zero => omega
  | succ n ih =>
    cases i with
    | zero => simp [leBytes]
    | succ i => rw [leBytes, List.getElem?_cons_succ, ih _ _ (by omega), Nat.div_div_eq_div_mul, Nat.pow_succ']

theorem leAt_byte (l : List Byte) (i : Nat) : leAt l i 1 = (l[i]?.getD 0).toNat := by
  unfold leAt slice
  cases h : l[i]? with
  | none => simp [List.drop_eq_nil_of_le (List.getElem?_eq_none_iff.mp h), ofLe]
  | some b => simp [List.take_one, h, ofLe]

theorem modeQueryResult_length (s : State) : (modeQueryResult s).length = 112 := by simp [modeQueryResult]

theorem Mode.code_lt (m : Mode) : m.code < 6 := by cases m <;> decide

theorem modeQueryResult_house (s : State) : leAt (modeQueryResult s) 0 1 = s.modes.house.code := by
  have hlt := s.modes.house.code_lt
  have hat : (modeQueryResult s)[0]? = some (BitVec.ofNat 8 s.modes.house.code) := rfl
  rw [leAt_byte, hat, Option.getD_some, BitVec.toNat_ofNat]
  omega

/-- The nibble of each bay. -/
theorem modeNibbles_bay (s : State) (b : Bay) :
    modeNibbles s (allBays.map .bay) / 16 ^ b.val % 16 = (s.bayMode b.val).code := by
  have hlt := (s.bayMode b.val).code_lt
  have hc : _ % 16 = _ % 16 := pack_chunk 4 (allBays.map fun b => (s.bayMode b.val).code) b.val
  have hl : modeNibbles s (allBays.map .bay) = pack ((allBays.map fun b => (s.bayMode b.val).code).map fun v => (4, v)) := by
    simp only [modeNibbles, List.map_map]; rfl
  rw [hl, show 16 ^ b.val = 2 ^ (4 * b.val) by rw [Nat.pow_mul], hc]
  have hat : (allBays.map fun b => (s.bayMode b.val).code).getD b.val 0 = (s.bayMode b.val).code := by
    rw [List.getD_eq_getElem _ _ (by simp [allBays])]
    simp [allBays]
  rw [hat]
  omega

theorem modeQueryResult_bay (s : State) (b : Bay) :
    leAt (modeQueryResult s) (1 + b.val / 2) 1 / 16 ^ (b.val % 2) % 16 = (s.bayMode b.val).code := by
  have hb := b.isLt
  have hi : b.val / 2 < 16 := by omega
  have hat : (modeQueryResult s)[1 + b.val / 2]? =
      some (BitVec.ofNat 8 (modeNibbles s (allBays.map .bay) / 256 ^ (b.val / 2))) := by
    rw [modeQueryResult, List.append_assoc, List.append_assoc, List.getElem?_append_right (by simp), leBytes_length,
      Nat.add_sub_cancel_left, List.getElem?_append_left (by simpa using hi), leBytes_getElem? _ _ _ hi]
  have hbyte : ∀ x k : Nat, k < 2 → x % 256 / 16 ^ k % 16 = x / 16 ^ k % 16 := by
    intro x k hk
    interval_cases k <;> omega
  have hpow : 256 ^ (b.val / 2) * 16 ^ (b.val % 2) = 16 ^ b.val := by
    rw [show 256 = 16 ^ 2 from rfl, ← Nat.pow_mul, ← Nat.pow_add, Nat.div_add_mod]
  rw [leAt_byte, hat, Option.getD_some, BitVec.toNat_ofNat, hbyte _ _ (by omega), Nat.div_div_eq_div_mul, hpow, modeNibbles_bay]

/-! ## The obligation -/

/-- A slip's start moves no mode. -/
theorem begun_modes (s : State) (op : BitVec 16) (h : SlipHdr) (p : List Byte) : (s.begun op h p).modes = s.modes :=
  (congrArg State.modes (begun_eq s op h p) :)

theorem modeQuery_replies {s : State} {h : SlipHdr} {p : List Byte} (ht : s.takes 0x0C02 .passable h p)
    (hf : fields [] p = .ok ()) :
    ∃ t, exec (.modeQuery h p) s = .next t ∧ t.answered 0x0C02 h St.ok (modeQueryResult (s.begun 0x0C02 h p)) ∧
      s.sameButSlips t := by
  have hB := begun_eq s 0x0C02 h p
  obtain ⟨t, he, ha, -, ht'⟩ := slip_ok_same (o := { state := s.begun 0x0C02 h p, result := modeQueryResult (s.begun 0x0C02 h p) })
    (body := fun _ s => do fields [] p; okResult s (modeQueryResult s)) ht (by simp only [hf]; rfl) rfl
    (begun_length s 0x0C02 h p) (congrArg State.queues hB :) (congrArg State.flows hB :) (begun_ring s 0x0C02 h p)
  refine ⟨t, he, ha, ?_⟩
  have hfree : t.frame.freeCount = s.frame.freeCount + 1 := (congrArg (·.frame.freeCount) (ht'.trans
    (congrArg (withSlipsLog t.slips t.log) hB)) :)
  unfold State.sameButSlips
  rw [hfree]
  exact ht'.trans (congrArg (withSlipsLog t.slips t.log) hB)

section
variable {s : State} {h : SlipHdr} {p : List Byte} {d : Domain} {new : Mode} (ok : Bool) (ht : s.takes 0x0C01 .ordinary h p)
  (hd : domainOf (arg p 16 1) (arg p 18 2) = some d) (hn : Mode.ofCode (arg p 17 1) = some new)
  (hf : fields [⟨16, 1, arg p 16 1 < 3⟩, ⟨17, 1, arg p 17 1 < 6⟩, ⟨18, 2, true⟩, ⟨20, 2, true⟩, ⟨22, 2, true⟩,
    ⟨24, 2, true⟩, ⟨26, 1, arg p 26 1 < 2⟩] p = .ok ())
include hd hn hf

/-- What the slip's start leaves does not change its case. -/
theorem modeSetBody_begun :
    modeSetBody p ok (slipId s 0x0C01 h .ordinary) (s.begun 0x0C01 h p) =
      if s.mode d = new then acceptDone (cancelDelayed d (s.begun 0x0C01 h p)) St.ok
      else if s.modeAhead d = new ∨ (slipMay d (s.modeAhead d) new = true ∧ (new = .bringUp → s.gatedDom d = false)) then
        let u := cancelDelayed d (s.begun 0x0C01 h p)
        accept { u with modes.pend := u.modes.pend ++ [pendOf p ok (slipId s 0x0C01 h .ordinary) d new] }
      else .error (fail St.modeConflict) := by
  have hB := begun_eq s 0x0C01 h p
  have hmode : (s.begun 0x0C01 h p).mode d = s.mode d := by rw [hB]; rfl
  have hahead : (s.begun 0x0C01 h p).modeAhead d = s.modeAhead d := by rw [hB]; rfl
  have hgated : (s.begun 0x0C01 h p).gatedDom d = s.gatedDom d := by rw [hB]; rfl
  rw [modeSetBody_eq p ok _ _ hd hn hf, hmode, hahead, hgated]

include ht

/-- R62, R372: a legal change pends, and what waited for a delay is given up for it. -/
theorem modeSet_pends (hnew : s.mode d ≠ new) (hmay : slipMay d (s.modeAhead d) new = true)
    (hup : new = .bringUp → s.gatedDom d = false) :
    ∃ t, exec (.modeSet h p ok) s = .next t ∧ t.accepted 0x0C01 h ∧
      t.modes = { s.modes with pend := (s.modes.pend.filter fun m => !(m.dom == d && m.delayed)) ++
        [pendOf p ok (slipId s 0x0C01 h .ordinary) d new] } := by
  have hB := begun_eq s 0x0C01 h p
  have hC := cancelDelayed_eq d (s.begun 0x0C01 h p)
  have hb := modeSetBody_begun (s := s) (h := h) ok hd hn hf
  rw [if_neg hnew, if_pos (.inr ⟨hmay, hup⟩)] at hb
  have hring := cancelDelayed_ring d (s.begun 0x0C01 h p)
  have hring' := begun_ring s 0x0C01 h p
  obtain ⟨t, he, -, hacc, ht'⟩ := slip_ok_same ht hb rfl
    ((cancelDelayed_length d _).trans (begun_length s 0x0C01 h p))
    ((congrArg State.queues hC :).trans (congrArg State.queues hB :))
    ((congrArg State.flows hC :).trans (congrArg State.flows hB :))
    ⟨hring.1.trans hring'.1, hring.2.trans hring'.2⟩
  refine ⟨t, he, hacc rfl rfl, (congrArg State.modes ht' :).trans ?_⟩
  show ({ (cancelDelayed d (s.begun 0x0C01 h p)).modes with
    pend := (cancelDelayed d (s.begun 0x0C01 h p)).modes.pend ++ _ } : ModeSt) = _
  rw [hC, hB]

/-- R63: the mode the domain is in is answered, and its slip ends, at once. -/
theorem modeSet_ends (hnow : s.mode d = new) (hring : s.ringGone (slipId s 0x0C01 h .ordinary) = false)
    (hnone : ∀ m ∈ s.modes.pend, m.dom = d → m.delayed = false) :
    ∃ t, exec (.modeSet h p ok) s = .next t ∧ t.answered 0x0C01 h St.accepted [] ∧
      t.completed (slipId s 0x0C01 h .ordinary) St.ok [] ∧ t.modes = s.modes := by
  have hm := begun_modes s 0x0C01 h p
  have hb := modeSetBody_begun (s := s) (h := h) ok hd hn hf
  rw [if_pos hnow, cancelDelayed_none d _ (by rw [hm]; exact hnone)] at hb
  obtain ⟨t, he, hans, hdone, ht'⟩ := slip_post ht hb rfl rfl (begun_length s 0x0C01 h p)
    ((begun_ringGone s 0x0C01 h p _).trans hring)
  exact ⟨t, he, hans, hdone, (congrArg State.modes ht' :).trans hm⟩

/-- R62: what the table does not give conflicts. -/
theorem modeSet_conflicts (hnew : s.mode d ≠ new) (hfar : s.modeAhead d ≠ new)
    (hmay : slipMay d (s.modeAhead d) new = false) :
    ∃ t, exec (.modeSet h p ok) s = .next t ∧ t.answered 0x0C01 h St.modeConflict [] ∧ s.sameButSlips t := by
  have hb := modeSetBody_begun (s := s) (h := h) ok hd hn hf
  rw [if_neg hnew, if_neg (by simp [hfar, hmay])] at hb
  exact slip_error ht hb rfl (by decide)

end

/-- Settles O13: the three ways a MODE_SET goes, and the place of each mode in the reply (`modeQueryResult_bay`). -/
theorem modeSlips : Obligations.ModeSlips := by
  unfold Obligations.ModeSlips
  refine fun s h p d new ok => ⟨fun ht hd hn hf => ⟨fun hnew _ hmay hup => ?_, modeSet_ends ok ht hd hn hf,
    modeSet_conflicts ok ht hd hn hf⟩, fun ht hf => ?_⟩
  · obtain ⟨t, he, hacc, hm⟩ := modeSet_pends ok ht hd hn hf hnew hmay hup
    refine ⟨t, pendOf p ok (slipId s 0x0C01 h .ordinary) d new, he, hacc, ?_, rfl, rfl, rfl, rfl, rfl, rfl, rfl, rfl, fun e => ?_⟩
    · rw [hm]; exact List.mem_append_right _ (List.mem_singleton_self _)
    · cases e <;> simp only [State.mode, State.bayMode, State.portMode, hm]
  · obtain ⟨t, he, ha, hsame⟩ := modeQuery_replies ht hf
    have hm := begun_modes s 0x0C02 h p
    refine ⟨t, _, he, ha, modeQueryResult_length _, ?_, fun b => ?_, hsame⟩
    · rw [modeQueryResult_house, hm]
    · rw [modeQueryResult_bay, State.bayMode, hm]; rfl

end Sys2Proof.Machine
end

section
/-! PROOFS. What the engines, the store, events and replies leave of the domains: their modes, the fabric, and each port's lanes. -/

namespace Sys2Proof.Machine
open Sys2Proof

/-! ## Modes, fabric and ports

What the ledger, the side store, events and completions leave alone. Of a state written out field by field only these three
count: the rules go before the fields are simplified (`↓`), and what holds by definition is proved by `(rfl)`, so that `simp`
keeps it as a rule about `domains`. -/

@[ext] structure Domains where
  modes : ModeSt
  fab : FabSt
  ports : Sparse PortSt

def State.domains (s : State) : Domains := ⟨s.modes, s.fab, s.ports⟩

section
variable (pkg clk frame modes fab ports xbar queues engines flows mem crypto cfg shelf stock pwr thm regs desk slips log tap pending)

theorem State.domains_mk :
    (State.mk pkg clk frame modes fab ports xbar queues engines flows mem crypto cfg shelf stock pwr thm regs desk slips log
      tap pending).domains = ⟨modes, fab, ports⟩ := (rfl)

end

theorem State.domains_eta (s : State) : Domains.mk s.modes s.fab s.ports = s.domains := (rfl)

theorem ite_domains (c : Prop) [Decidable c] (a b : State) :
    (if c then a else b).domains = if c then a.domains else b.domains := apply_ite _ _ _ _

@[simp] theorem foldl_domains {α : Type} (l : List α) (f : State → α → State) (s : State)
    (h : ∀ s a, (f s a).domains = s.domains) : (l.foldl f s).domains = s.domains := foldl_keeps State.domains f h l s

@[simp] theorem raise_domains (c : EvClass) (code : BitVec 16) (sub : Nat) (d : List (Nat × Nat)) (s : State) :
    (raise c code sub d s).domains = s.domains := by rw [raise_eq c code sub d s]; rfl

@[simp] theorem complete_domains (id : SlipId) (st : BitVec 16) (d : Nat) (l : List Byte) (s : State) :
    (complete id st d l s).domains = s.domains := by rw [complete_eq]; rfl

@[simp] theorem State.modVol_domains (s : State) (v : Nat) (f : VolSt → VolSt) : (s.modVol v f).domains = s.domains := (rfl)

@[simp] theorem State.modLedger_domains (s : State) (k : Nat) (f : LedgerNode → LedgerNode) :
    (s.modLedger k f).domains = s.domains := (rfl)

@[simp] theorem State.modEngine_domains (s : State) (e : Nat) (f : EngineSt → EngineSt) :
    (s.modEngine e f).domains = s.domains := (rfl)

@[simp] theorem countMarker_domains (e : Nat) (s : State) : (countMarker e s).domains = s.domains := (rfl)

@[simp] theorem faultLog_domains (q kind : Nat) (s : State) : (faultLog q kind s).domains = s.domains := (rfl)

@[simp] theorem State.setQueue_domains (s : State) (q : Nat) (d : QueueSt) : (s.setQueue q d).domains = s.domains := (rfl)

@[simp] theorem State.modQueue_domains (s : State) (q : Nat) (f : QueueSt → QueueSt) :
    (s.modQueue q f).domains = s.domains := (rfl)

@[simp] theorem State.modFlow_domains (s : State) (k : Nat) (f : FlowSt → FlowSt) : (s.modFlow k f).domains = s.domains := (rfl)

@[simp] theorem State.setFlow_domains (s : State) (k : Nat) (f : FlowSt) : (s.setFlow k f).domains = s.domains := (rfl)

/-! ### The ledger and the side store (R208, R239 to R247) -/

@[simp] theorem touchNode_domains (k : Nat) (dirty : Bool) (s : State) : (touchNode k dirty s).domains = s.domains := by
  unfold touchNode; split <;> rfl

@[simp] theorem newKey_domains (v : Nat) (s : State) : (newKey v s).domains = s.domains := by
  simp [newKey, info, ↓State.domains_mk, ↓State.domains_eta, ↓ite_domains]

@[simp] theorem triggerRekey_domains (v : Nat) (s : State) : (triggerRekey v s).domains = s.domains := by
  simp [triggerRekey, ↓State.domains_mk, ↓State.domains_eta, ↓ite_domains]

@[simp] theorem countOverflow_domains (s : State) : (countOverflow s).domains = s.domains := (rfl)

@[simp] theorem logNode_domains (k cause : Nat) (s : State) : (logNode k cause s).domains = s.domains := (rfl)

@[simp] theorem bumpParent_domains (k : Nat) (s : State) : (bumpParent k s).domains = s.domains := by
  simp [bumpParent, ↓State.domains_mk, ↓State.domains_eta, ↓ite_domains]

@[simp] theorem evictNode_domains (e : Nat × Bool) (s : State) : (evictNode e s).domains = s.domains := by
  simp [evictNode, ↓State.domains_mk, ↓State.domains_eta, ↓ite_domains]

@[simp] theorem fetchNode_domains (k : Nat) (s : State) : (fetchNode k s).domains = s.domains := by
  unfold fetchNode
  split
  · simp
  · simp only [↓State.domains_mk, ↓State.domains_eta]
    split <;> simp

@[simp] theorem poison_domains (k cause : Nat) (s : State) : (poison k cause s).domains = s.domains := by
  simp [poison, alarm, nonMask, ↓State.domains_mk, ↓State.domains_eta, ↓ite_domains]

@[simp] theorem nodeFinding_domains (k : Nat) (f : NodeFound) (s : State) : (nodeFinding k f s).domains = s.domains := by
  unfold nodeFinding
  split
  · simp [↓State.domains_mk, ↓State.domains_eta, ↓ite_domains]
  · split <;> simp [info, ↓State.domains_mk, ↓State.domains_eta]

@[simp] theorem walkPage_domains (page : Nat) (path : List NodeFound) (s : State) :
    (walkPage page path s).domains = s.domains := by
  unfold walkPage
  simp only [↓ite_domains, State.modLedger_domains, ite_self]
  refine foldl_domains _ _ _ fun s l => ?_
  simp only [fetchNode_domains]
  split <;> simp [↓ite_domains]

@[simp] theorem settleRebuild_domains (page : Nat) (s : State) : (settleRebuild page s).domains = s.domains := by
  simp [settleRebuild, settleAbove, ↓ite_domains]

theorem bumpBlock_domains {block : Nat} {s t : State} (h : bumpBlock block s = some t) : t.domains = s.domains := by
  simp only [bumpBlock] at h
  split_ifs at h <;> cases h <;> simp

@[simp] theorem storeBlock_domains (req block addr : Nat) (l : List Byte) (s : State) :
    (storeBlock req block addr l s).domains = s.domains := by
  unfold storeBlock
  split
  · next h => exact (bumpBlock_domains h :)
  · exact triggerRekey_domains ..

@[simp] theorem dlStore_domains (f : FlowSt) (p : Nat) (w : Line) (s : State) : (dlStore f p w s).domains = s.domains := by
  simp [dlStore]

/-! ## What is kept of the lanes -/

/-- Modes and fabric stand as they were, and of each port's lane what f reads. -/
structure State.KeepsLanes {α : Type} (f : LaneSt → α) (s t : State) : Prop where
  modes : t.modes = s.modes
  fab : t.fab = s.fab
  rises : Sparse.rises s.ports = true → Sparse.rises t.ports = true
  lanes : Sparse.rises s.ports = true → ∀ p, f (t.port p).lane = f (s.port p).lane

namespace State.KeepsLanes
variable {α : Type} {f : LaneSt → α} {s t u : State}

theorem of_domains (h : t.domains = s.domains) : s.KeepsLanes f t := by
  obtain ⟨hm, hf, hp⟩ := (Domains.mk.injEq ..).mp h
  have hport : ∀ p, t.port p = s.port p := fun p => by rw [State.port, hp]; rfl
  exact ⟨hm, hf, fun h => hp ▸ h, fun _ p => by rw [hport]⟩

theorem refl (s : State) : s.KeepsLanes f s := of_domains rfl

theorem trans (h : s.KeepsLanes f t) (g : t.KeepsLanes f u) : s.KeepsLanes f u :=
  ⟨g.modes.trans h.modes, g.fab.trans h.fab, fun r => g.rises (h.rises r),
    fun r p => (g.lanes (h.rises r) p).trans (h.lanes r p)⟩

theorem same (h : s.KeepsLanes f t) (e : u.domains = t.domains) : s.KeepsLanes f u := h.trans (of_domains e)

theorem foldl {β : Type} {step : State → β → State} (hstep : ∀ t b, s.KeepsLanes f t → s.KeepsLanes f (step t b)) (l : List β)
    (h : s.KeepsLanes f t) : s.KeepsLanes f (l.foldl step t) := by
  induction l generalizing t with
  | nil => exact h
  | cons b l ih => exact ih (hstep t b h)

theorem modPort (h : s.KeepsLanes f t) (p : Nat) (g : PortSt → PortSt) (hg : ∀ x, f (g x).lane = f x.lane) :
    s.KeepsLanes f (t.modPort p g) := by
  refine h.trans ⟨rfl, rfl, Sparse.rises_put _ _ _ _, fun h q => ?_⟩
  rw [State.modPort_port t p g q h]
  split
  · subst_vars; exact hg _
  · rfl

theorem modLane (h : s.KeepsLanes f t) (p : Nat) (g : LaneSt → LaneSt) (hg : ∀ l, f (g l) = f l) :
    s.KeepsLanes f (t.modLane p g) := h.modPort p _ fun _ => hg _

theorem modEgress (h : s.KeepsLanes f t) (p : Nat) (g : EgressSt → EgressSt) : s.KeepsLanes f (t.modEgress p g) :=
  h.modPort p _ fun _ => rfl

end State.KeepsLanes

/-! ## An item that ends at its queue or its flow (R172, R177, R182, R189, R208) -/

section
variable {α : Type} {f : LaneSt → α} {s t u : State}
open State.KeepsLanes

theorem freeCredit_keepsLanes (c : Option (Nat × Nat × Nat)) (h : s.KeepsLanes f t) : s.KeepsLanes f (freeCredit c t) := by
  cases c with
  | none => exact h
  | some c => exact h.modPort c.1 (fun x => { x with credit := _ }) fun _ => rfl

theorem freeStored_keepsLanes (q : Nat) (h : s.KeepsLanes f t) : s.KeepsLanes f (freeStored q t) :=
  freeCredit_keepsLanes _ (h.foldl (fun _ _ h => freeCredit_keepsLanes _ h) _)

/-- The slips of a flush complete, and an alarm tells of its fault. -/
theorem faultTold_keepsLanes (r : List Byte) (ids : List SlipId) (code : BitVec 16) (sub : Nat) (d : List (Nat × Nat))
    (h : s.KeepsLanes f t) :
    s.KeepsLanes f (alarm code sub d (ids.foldl (fun s id => complete id St.ok 0 r s) t)) :=
  (h.foldl (fun _ _ h => h.same (complete_domains ..)) _).same (raise_domains ..)

theorem resetQueue_keepsLanes (q kind : Nat) (rd : BitVec 17 × BitVec 17 × BitVec 17 × BitVec 17) (h : s.KeepsLanes f t) :
    s.KeepsLanes f (resetQueue q kind rd t) := by
  unfold resetQueue
  exact faultTold_keepsLanes _ _ _ _ _ ((freeStored_keepsLanes q h).same (by simp))

theorem descFault_keepsLanes (q : Nat) (h : s.KeepsLanes f t) : s.KeepsLanes f (descFault q t) := by
  unfold descFault
  exact faultTold_keepsLanes _ _ _ _ _ ((freeStored_keepsLanes q h).same (by simp))

theorem useQueue_keepsLanes {q : Nat} (hu : useQueue q t = some u) (h : s.KeepsLanes f t) : s.KeepsLanes f u := by
  simp only [useQueue] at hu
  split_ifs at hu <;> rw [← Option.some.inj hu]
  · exact descFault_keepsLanes q h
  · exact resetQueue_keepsLanes _ _ _ h
  · exact resetQueue_keepsLanes _ _ _ h

theorem markLoss_keepsLanes (q : Nat) (l : Loss) (h : s.KeepsLanes f t) : s.KeepsLanes f (markLoss q l t) := by
  unfold markLoss
  simp only
  split
  · next hu => exact useQueue_keepsLanes hu h
  · split <;> exact h.same (by simp)

theorem dropItem_keepsLanes (q : Nat) (hdr : Line) (cause : Byte) (c : Option (Nat × Nat × Nat)) (h : s.KeepsLanes f t) :
    s.KeepsLanes f (dropItem q hdr cause c t) := by
  unfold dropItem
  exact freeCredit_keepsLanes _ (markLoss_keepsLanes _ _ (h.same (by simp)))

theorem poisonItem_keepsLanes (q : Nat) (h : s.KeepsLanes f t) : s.KeepsLanes f (poisonItem q t) := by
  unfold poisonItem
  simp only
  split
  · exact h.same (by simp)
  · exact dropItem_keepsLanes _ _ _ _ (h.same (by simp))

theorem dlReset_keepsLanes (k : Nat) (h : s.KeepsLanes f t) : s.KeepsLanes f (dlReset k t) := by
  have hfreed := h.foldl (step := fun s (i : HeldItem) => freeCredit i.charge s)
    (fun _ _ h => freeCredit_keepsLanes _ h) (t.flow k).dl
  unfold dlReset
  simp only
  refine State.KeepsLanes.same ?_ (raise_domains ..)
  exact hfreed.same (by simp)

theorem useLine_keepsLanes {k : Nat} (hu : useLine k t = some u) (h : s.KeepsLanes f t) : s.KeepsLanes f u := by
  simp only [useLine] at hu
  split_ifs at hu
  rw [← Option.some.inj hu]
  exact dlReset_keepsLanes k h

theorem dlMark_keepsLanes (k : Nat) (l : Loss) (h : s.KeepsLanes f t) : s.KeepsLanes f (dlMark k l t) := by
  have hadd : ∀ x, s.KeepsLanes f (dlMark.add k l t x) := fun x => h.same (by simp [dlMark.add])
  unfold dlMark
  simp only
  split
  · next hu => exact useLine_keepsLanes hu h
  · split
    · exact h.same (by simp)
    · exact hadd _
  · exact hadd _

theorem dlDrop_keepsLanes (k : Nat) (hdr : Line) (cause : Byte) (c : Option (Nat × Nat × Nat)) (h : s.KeepsLanes f t) :
    s.KeepsLanes f (dlDrop k hdr cause c t) := freeCredit_keepsLanes _ (dlMark_keepsLanes _ _ h)

theorem arrivalEnds_keepsLanes (k : Nat) (poisoned : Bool) (h : s.KeepsLanes f t) :
    s.KeepsLanes f (arrivalEnds k poisoned t) := by
  unfold arrivalEnds
  simp only
  split
  · split
    · exact h.same (by simp)
    · split
      · exact h.same (by simp)
      · split
        · split
          · next hu => exact (useLine_keepsLanes hu h).same (by simp)
          · exact dlDrop_keepsLanes _ _ _ _ (h.same (by simp))
        · exact h.same (by simp)
  · exact h.same (by simp)

theorem endWritten_keepsLanes (q : Nat) (poisoned : Bool) (h : s.KeepsLanes f t) :
    s.KeepsLanes f (endWritten q poisoned t) := by
  unfold endWritten
  simp only
  split
  · exact h.same (by simp)
  · split
    · exact (arrivalEnds_keepsLanes _ _ h).same (State.modQueue_domains ..)
    · split
      · exact h.same (by simp)
      · split
        · split
          · split
            · next hu => exact (useQueue_keepsLanes hu h).same (by simp)
            · exact poisonItem_keepsLanes q h
          · exact h.same (by simp)
        · exact h

theorem itemEnds_keepsLanes (q : Nat) (poisoned : Bool) (h : s.KeepsLanes f t) : s.KeepsLanes f (itemEnds q poisoned t) := by
  rw [itemEnds_eq]
  exact (endWritten_keepsLanes _ _ h).same (State.modQueue_domains ..)

/-- R128, R182: an item that ends poisoned changes queues, credits and events, but no mode, no binding and no lane. -/
theorem poisonFrom_keepsLanes (p : Nat) (h : s.KeepsLanes f t) : s.KeepsLanes f (poisonFrom p t) := by
  unfold poisonFrom
  refine State.KeepsLanes.foldl (fun _ q h => itemEnds_keepsLanes q true h) _ (h.same ?_)
  simp only [↓State.domains_mk, ↓State.domains_eta]

theorem closePoisoned_keepsLanes (p : Nat) (hf : ∀ l : LaneSt, f { l with itemOpen := false } = f l) (h : s.KeepsLanes f t) :
    s.KeepsLanes f (closePoisoned p t) := by
  unfold closePoisoned
  split
  · exact poisonFrom_keepsLanes p (h.modLane p _ hf)
  · exact h

end

end Sys2Proof.Machine
end

section
/-! PROOFS. A command that writes one port's entry, and the line's and the items' way through it (R56, R106, R136, R204). -/

namespace Sys2Proof.Machine
open Sys2Proof

/-! ## One port's entry -/

/-- t is s with port p's entry x. -/
structure State.SetsPort (s : State) (p : Nat) (x : PortSt) (t : State) : Prop where
  frame : t = { s with ports := t.ports }
  here : t.port p = x
  other : ∀ q, q ≠ p → t.port q = s.port q
  rises : Sparse.rises t.ports = true

namespace State.SetsPort
variable {s t : State} {p : Nat} {x : PortSt}

theorem refl (p : Nat) (hs : s.wf = true) : s.SetsPort p (s.port p) s := ⟨rfl, rfl, fun _ _ => rfl, s.wf_ports hs⟩

theorem modPort (h : s.SetsPort p x t) (f : PortSt → PortSt) : s.SetsPort p (f x) (t.modPort p f) := by
  obtain ⟨hframe, hhere, hother, hrises⟩ := h
  refine ⟨?_, ?_, fun q hq => ?_, Sparse.rises_put _ _ _ _ hrises⟩
  · exact congrArg (fun u : State => { u with ports := (t.modPort p f).ports }) hframe
  · rw [State.modPort_port t p f p hrises, if_pos rfl, hhere]
  · rw [State.modPort_port t p f q hrises, if_neg hq, hother q hq]

theorem modLane (h : s.SetsPort p x t) (f : LaneSt → LaneSt) : s.SetsPort p { x with lane := f x.lane } (t.modLane p f) :=
  h.modPort fun y => { y with lane := f y.lane }

theorem modEgress (h : s.SetsPort p x t) (f : EgressSt → EgressSt) :
    s.SetsPort p { x with egress := f x.egress } (t.modEgress p f) :=
  h.modPort fun y => { y with egress := f y.egress }

theorem modTx (h : s.SetsPort p x t) (f : TxSt → TxSt) : s.SetsPort p { x with tx := f x.tx } (t.modTx p f) :=
  h.modPort fun y => { y with tx := f y.tx }

theorem modNeg (h : s.SetsPort p x t) (f : NegSt → NegSt) : s.SetsPort p { x with neg := f x.neg } (t.modNeg p f) :=
  h.modPort fun y => { y with neg := f y.neg }

theorem onlyPort (h : s.SetsPort p x t) : s.onlyPort t p := ⟨h.frame, h.other⟩

/-- A command that raises nothing and writes one port's entry does that alone. -/
theorem run {f : State → State} (h : s.SetsPort p x (f s)) : run f s = .next (f s) :=
  run_quiet f s (congrArg State.queues h.frame :) (congrArg State.flows h.frame :) (congrArg State.log h.frame :)

end State.SetsPort

/-! ## The line side (R56, R106, R136) -/

/-- The modes in which a port's line runs. -/
theorem modeIn_line {m : Mode} (h : m = .service ∨ m = .holdover) : modeIn m [.service, .holdover, .closing] = true := by
  rcases h with rfl | rfl <;> rfl

theorem lineIngress_fits {s : State} {p : Nat} {l : List (Byte × Bool)} (hnat : s.native p = false)
    (hm : s.portMode p = .service ∨ s.portMode p = .holdover) (ht : s.takesIngress p = true)
    (hroom : (s.port p).egress.liBuf.length + l.length ≤ 2048) :
    lineIngress p l s = s.modEgress p fun e => { e with liBuf := e.liBuf ++ l } := by
  have hcl : (s.portMode p == .closing) = false := by rcases hm with h | h <;> rw [h] <;> rfl
  have htake : l.take (attachRoom - (s.port p).egress.liBuf.length) = l := List.take_of_length_le (by unfold attachRoom; omega)
  have hall : ¬ attachRoom - (s.port p).egress.liBuf.length < l.length := by unfold attachRoom; omega
  unfold lineIngress
  simp only [modeIn_line hm, hnat, hcl, ht, htake, hall, Bool.not_true, Bool.or_self, Bool.false_eq_true, if_false]

/-- The egress once a take has been answered: with eight bytes, if they are there. -/
def EgressSt.lineTaken (e : EgressSt) : EgressSt :=
  if 8 ≤ e.liBuf.length then { e with liOut := some (liWord (e.liBuf.take 8)), liBuf := e.liBuf.drop 8 }
  else { e with liOut := none }

theorem lineTake_served {s : State} {p : Nat} {w : BindSt} {succ : Bool} (hb : s.bind? p = some w)
    (he : s.emits (s.server w (w.old.isSome && !succ) true) = true) (hv : servesPath w (·.li) succ = true) :
    lineTake p succ s = s.modEgress p EgressSt.lineTaken := by
  simp only [lineTake, hb, he, hv, Bool.not_true, Bool.false_eq_true, if_false, Bool.true_and, decide_eq_true_eq]
  rfl

/-- The bytes of LO_DATA, each with its flag of LO_K. -/
def sendBytes (data : BitVec 64) (k : BitVec 8) : List (Byte × Bool) :=
  (List.range 8).map fun i => (BitVec.ofNat 8 (data.toNat / 256 ^ i), k.getLsbD i)

/-- The egress with bytes more that were sent, but for what belongs to a packet being given up. -/
def EgressSt.lineSent (l : List (Byte × Bool)) (e : EgressSt) : EgressSt :=
  { (dropPacket e l).1 with loBuf := e.loBuf ++ (dropPacket e l).2 }

theorem lineSend_fits {s : State} {p : Nat} {w : BindSt} {succ : Bool} (data : BitVec 64) (k : BitVec 8)
    (hb : s.bind? p = some w) (hnat : s.native p = false) (he : s.emits (s.server w (w.old.isSome && !succ) true) = true)
    (hv : servesPath w (·.lo) succ = true) (hm : modeIn (s.portMode p) [.service, .holdover, .closing] = true)
    (hroom : (s.port p).egress.loBuf.length + 8 ≤ 2048) :
    lineSend p succ data k s = s.modEgress p (·.lineSent (sendBytes data k)) := by
  have hfits : ¬ attachRoom < (s.port p).egress.loBuf.length + 8 := by unfold attachRoom; omega
  simp only [lineSend, hb, hnat, he, hv, hm, hfits, Bool.not_true, Bool.or_self, decide_false, Bool.false_eq_true, if_false]
  rfl

/-- Where no packet is being given up, nothing is dropped. -/
theorem dropPacket_none {e : EgressSt} (h : e.txDrop = false) (l : List (Byte × Bool)) : dropPacket e l = (e, l) := by
  simp [dropPacket, h]

/-- The line takes the whole buffer where it has room for it. -/
theorem drainLine_all {n : Nat} {e : EgressSt} (h : e.loBuf.length ≤ n) :
    drainLine n e = { e with loBuf := [], txPacket := packetOpen e.txPacket e.loBuf } := by
  rw [drainLine, List.drop_eq_nil_of_le h, List.take_of_length_le h]

/-- What the line sends leaves the port's lanes and its egress alone. -/
theorem sendData_sets {s t : State} {p : Nat} {x : PortSt} (l : List Sym) (h : s.SetsPort p x t) :
    ∃ y, s.SetsPort p y (sendData p l t) ∧ y.lane = x.lane ∧ y.egress = x.egress :=
  ⟨_, h.modTx _, rfl, rfl⟩

theorem lineFill_sets {s t : State} {p : Nat} {x : PortSt} (h : s.SetsPort p x t) :
    ∃ y, s.SetsPort p y (lineFill p t) ∧ y.lane = x.lane ∧ y.egress = drainLine (t.lineRoom p) x.egress :=
  sendData_sets _ (h.modEgress (drainLine (t.lineRoom p)))

/-- Counting an underrun leaves the line the room it has. -/
theorem lineRoom_underrun (s : State) (p : Nat) (f : LaneSt → LaneSt) (hs : s.wf = true) :
    (s.modLane p f).lineRoom p = s.lineRoom p := by
  simp only [State.lineRoom, State.slotColumns, State.usedColumns, ((State.SetsPort.refl p hs).modLane f).here]

/-- R106, R136: the buffer runs empty. An open packet on a foreign line is broken off, and its rest given up. -/
theorem egressUnderrun_sets {s : State} {p : Nat} (hs : s.wf = true) (hnat : s.native p = false)
    (hm : modeIn (s.portMode p) [.service, .holdover, .closing] = true)
    (hroom : (s.port p).egress.loBuf.length ≤ s.lineRoom p) :
    ∃ x, s.SetsPort p x (egressUnderrun p s) ∧ x.egress.loBuf = [] ∧
      x.lane.underrun = min 65535 ((s.port p).lane.underrun + 1) ∧
      x.egress.txDrop = ((s.port p).egress.txDrop ||
        (foreign (s.port p).cfg && packetOpen (s.port p).egress.txPacket (s.port p).egress.loBuf)) := by
  obtain ⟨y, hy, hlane, heg⟩ := lineFill_sets
    ((State.SetsPort.refl p hs).modLane fun l => { l with underrun := sat 0xFFFF l.underrun 1 })
  rw [lineRoom_underrun s p _ hs, drainLine_all hroom] at heg
  unfold egressUnderrun
  simp only [hnat, hm, Nat.not_lt.mpr hroom, Bool.not_true, Bool.or_self, decide_false, Bool.false_eq_true, if_false,
    hy.here, heg]
  cases hopen : foreign (s.port p).cfg && packetOpen (s.port p).egress.txPacket (s.port p).egress.loBuf with
  | false =>
    refine ⟨y, ?_, ?_, ?_, ?_⟩
    · simpa using hy
    · rw [heg]
    · rw [hlane]; rfl
    · rw [heg]; simp
  | true =>
    obtain ⟨z, hz, hzl, hze⟩ := sendData_sets [k307] ((hy.modEgress fun e => { e with txPacket := false, txDrop := true }).modLane
      fun l => { l with discEg := sat 0xFFFF l.discEg 1 })
    refine ⟨z, ?_, ?_, ?_, ?_⟩
    · simpa [countEgress] using hz
    · rw [hze]; simp [heg]
    · rw [hzl]; simp [hlane, sat]
    · rw [hze]; simp

/-! ## The item side (R106, R204) -/

/-- A beat has its place in the lookup stage. -/
def EgressSt.hasRoom (e : EgressSt) : Prop := e.ixSkip = 0 ∧ e.ixLost = false ∧ e.stageBeats < stageRoom

def EgressSt.addBeat (beat : BitVec 64) (e : EgressSt) : EgressSt := { e with ixBeats := e.ixBeats ++ [beat] }

/-- One beat more has been offered, which may complete a word. -/
def EgressSt.countBeat (e : EgressSt) : EgressSt :=
  if e.ixOffered + 1 < 4 then { e with ixOffered := e.ixOffered + 1 } else wordOffered e

/-- The egress with one beat more. -/
def EgressSt.beatTaken (beat : BitVec 64) (e : EgressSt) : EgressSt := (e.addBeat beat).countBeat

theorem itemBeat_room {s : State} {p : Nat} {w : BindSt} {succ : Bool} (beat : BitVec 64) (hs : s.wf = true)
    (hb : s.bind? p = some w) (hnat : s.native p = false)
    (he : s.emits (s.server w (w.old.isSome && !succ) false) = true) (hv : servesPath w (·.ix) succ = true)
    (hroom : (s.port p).egress.hasRoom) :
    ∃ u, s.SetsPort p { s.port p with egress := (s.port p).egress.beatTaken beat } u ∧
      itemBeat p succ beat s = if ((s.port p).egress.beatTaken beat).ixOffered = 0 ∧
        ((s.port p).egress.beatTaken beat).ixLeft = 0 then closeFrom p u else u := by
  obtain ⟨hskip, hlost, hstage⟩ := hroom
  have hu := ((State.SetsPort.refl p hs).modEgress (·.addBeat beat)).modEgress EgressSt.countBeat
  refine ⟨_, hu, ?_⟩
  have hbeat : itemBeat p succ beat s =
      let u := (s.modEgress p (·.addBeat beat)).modEgress p EgressSt.countBeat
      if (u.port p).egress.ixOffered = 0 && (u.port p).egress.ixLeft = 0 then closeFrom p u else u := by
    simp only [itemBeat, hb, hnat, he, hv, hskip, hlost, Nat.not_le.mpr hstage, Nat.lt_irrefl, Bool.not_true, Bool.or_self,
      decide_false, Bool.false_eq_true, if_false]
    rfl
  simp only [hbeat, hu.here, Bool.and_eq_true, decide_eq_true_eq]
  rfl

/-- A beat that does not complete its word. -/
theorem beatTaken_part {e : EgressSt} (beat : BitVec 64) (h : e.ixOffered < 3) :
    e.beatTaken beat = { e with ixBeats := e.ixBeats ++ [beat], ixOffered := e.ixOffered + 1 } := by
  simp only [EgressSt.beatTaken, EgressSt.addBeat, EgressSt.countBeat, show e.ixOffered + 1 < 4 by omega, if_true]

theorem toNat_append_add {m n : Nat} (a : BitVec m) (b : BitVec n) : (a ++ b).toNat = a.toNat * 2 ^ n + b.toNat := by
  rw [BitVec.toNat_append, ← Nat.shiftLeft_add_eq_or_of_lt b.isLt, Nat.shiftLeft_eq]

/-- Four beats laid side by side, the first lowest. -/
theorem ofNat_pack_beats (b0 b1 b2 b3 : BitVec 64) :
    BitVec.ofNat 256 (pack ([b0, b1, b2, b3].map fun b => (64, b.toNat))) = (b3 ++ b2 ++ b1 ++ b0 : Line) := by
  have h0 := b0.isLt
  have h1 := b1.isLt
  have h2 := b2.isLt
  have h3 := b3.isLt
  refine BitVec.eq_of_toNat_eq ?_
  simp only [toNat_append_add, BitVec.toNat_ofNat, List.map_cons, List.map_nil, pack]
  omega

/-- The fourth beat of a word that none of has been lost: the word stands in the stage. -/
theorem beatTaken_word {e : EgressSt} (beat b0 b1 b2 : BitVec 64) (h : e.hasRoom) (ho : e.ixOffered = 3)
    (hbeats : e.ixBeats = [b0, b1, b2]) :
    let word : Line := beat ++ b2 ++ b1 ++ b0
    (e.beatTaken beat).ixBeats = [] ∧ (e.beatTaken beat).ixWords = e.ixWords ++ [(word, false)] ∧
      (e.beatTaken beat).ixLeft = (if e.ixLeft = 0 then hdrLen word else e.ixLeft) - 1 := by
  obtain ⟨hskip, hlost, -⟩ := h
  have hword := ofNat_pack_beats b0 b1 b2 beat
  simp only [EgressSt.beatTaken, EgressSt.addBeat, EgressSt.countBeat, wordOffered, ho, hskip, hlost, hbeats, List.cons_append, List.nil_append, hword]
  by_cases hl : e.ixLeft = 0 <;> simp [hl]

theorem Sparse.look_map {α : Type} (m : Sparse α) (f : α → α) (k : Nat) :
    Sparse.look (m.map fun x => (x.1, f x.2)) k = (Sparse.look m k).map f := by
  induction m with
  | nil => rfl
  | cons x r ih =>
    simp only [List.map_cons, Sparse.look]
    split
    · rfl
    · exact ih

/-- A queue whose producer waits for port p has all that is to come. -/
def QueueSt.closedFrom (p : Nat) (d : QueueSt) : QueueSt := if d.prodPort = some p then { d with prodOpen := false } else d

theorem closeFrom_queues (p : Nat) (s : State) :
    (closeFrom p s).queues = s.queues.map fun x => (x.1, x.2.closedFrom p) := rfl

/-- An item closed at its port changes no stored word. -/
theorem closeFrom_sameStore (p : Nat) (s : State) (q : Nat) : (s.queue q).sameStore ((closeFrom p s).queue q) := by
  have hd : ∀ d : QueueSt, d.sameStore (d.closedFrom p) := by
    intro d
    unfold QueueSt.closedFrom
    split <;> exact ⟨rfl, rfl, rfl⟩
  simp only [State.queue, Sparse.get, closeFrom_queues, Sparse.look_map]
  cases Sparse.look s.queues q with
  | none => exact ⟨rfl, rfl, rfl⟩
  | some d => exact hd d

/-- A command that writes one port's entry and closes the item open there does that alone. -/
theorem run_closeFrom {f : State → State} {s u : State} {p : Nat} {x : PortSt} (hs : s.wf = true) (hu : s.SetsPort p x u)
    (hf : f s = closeFrom p u) : run f s = .next (closeFrom p u) := by
  have hq : u.queues = s.queues := (congrArg State.queues hu.frame :)
  have hfl : u.flows = s.flows := (congrArg State.flows hu.frame :)
  have hl : u.log = s.log := (congrArg State.log hu.frame :)
  rw [← hf]
  refine run_sameStore f s hs ?_ (fun q => ?_) (by rw [hf]; exact hfl) (by rw [hf]; exact hl)
  · rw [hf, closeFrom_queues, hq]
    exact Sparse.rises_map _ _ (fun _ => rfl) (s.wf_queues hs)
  · have := closeFrom_sameStore p u q
    rw [State.queue, hq] at this
    rw [hf]
    exact this

/-- What a beat leaves that has room in the stage: the port's egress, and its item closed with its last word. -/
theorem itemAttachBeat_takes {s : State} {p : Port} {w : BindSt} {succ : Bool} (beat : BitVec 64) (hs : s.wf = true)
    (hb : s.bind? p.val = some w) (hnat : s.native p.val = false)
    (he : s.emits (s.server w (w.old.isSome && !succ) false) = true) (hv : servesPath w (·.ix) succ = true)
    (hroom : (s.port p.val).egress.hasRoom) :
    ∃ t, exec (.itemAttachBeat p succ beat) s = .next t ∧ (t.port p.val).egress = (s.port p.val).egress.beatTaken beat ∧
      (∀ q, q ≠ p.val → t.port q = s.port q) ∧ t = { s with ports := t.ports, xbar := t.xbar, queues := t.queues } ∧
      (((s.port p.val).egress.beatTaken beat).ixOffered ≠ 0 → t = { s with ports := t.ports }) := by
  obtain ⟨u, hu, hbeat⟩ := itemBeat_room beat hs hb hnat he hv hroom
  by_cases hlast : ((s.port p.val).egress.beatTaken beat).ixOffered = 0 ∧ ((s.port p.val).egress.beatTaken beat).ixLeft = 0
  · rw [if_pos hlast] at hbeat
    refine ⟨_, run_closeFrom hs hu hbeat, congrArg PortSt.egress hu.here, hu.other, ?_, fun h => absurd hlast.1 h⟩
    exact congrArg (fun t : State => { t with xbar := (closeFrom p.val u).xbar, queues := (closeFrom p.val u).queues }) hu.frame
  · rw [if_neg hlast] at hbeat
    have hrun : exec (.itemAttachBeat p succ beat) s = .next u :=
      ((hbeat ▸ hu : s.SetsPort p.val _ (itemBeat p.val succ beat s)).run).trans (by rw [hbeat])
    exact ⟨u, hrun, congrArg PortSt.egress hu.here, hu.other,
      congrArg (fun t : State => { t with xbar := u.xbar, queues := u.queues }) hu.frame, fun _ => hu.frame⟩

/-! ### Takes of an egress item -/

/-- A take that stands until the next grants. -/
def EgressSt.takeStands (new : Bool) (e : EgressSt) : EgressSt :=
  { e with exTaken := none, exTakes := if new then e.exTakes else e.exTakes + 1,
           exTakesNew := if new then e.exTakesNew + 1 else e.exTakesNew }

/-- A take is answered by the beat at the head, if it is this edition's. -/
def EgressSt.takeMade (new : Bool) (e : EgressSt) : EgressSt :=
  match e.exOut with
  | (tag, b) :: rest => if tag == new then { e with exOut := rest, exTaken := some b } else e.takeStands new
  | [] => e.takeStands new

theorem egressTake_eq {s : State} {p : Nat} {w : BindSt} {succ : Bool} (hb : s.bind? p = some w) (hnat : s.native p = false)
    (he : s.emits (s.server w (w.old.isSome && !succ) false) = true) :
    egressTake p succ s = s.modEgress p (·.takeMade (succ && w.old.isSome)) := by
  simp only [egressTake, hb, hnat, he, Bool.not_true, Bool.or_self, Bool.false_eq_true, if_false]
  rfl

section
variable {s : State} {p : Nat} {w : BindSt} {succ : Bool} (hs : s.wf = true) (hb : s.bind? p = some w) (hnat : s.native p = false)
  (he : s.emits (s.server w (w.old.isSome && !succ) false) = true)
include hs hb hnat he

theorem egressTake_answered {v : BitVec 64} {rest : List (Bool × BitVec 64)}
    (h : (s.port p).egress.exOut = (succ && w.old.isSome, v) :: rest) :
    ∃ x, s.SetsPort p x (egressTake p succ s) ∧ x.egress.exTaken = some v ∧ x.egress.exOut = rest := by
  rw [egressTake_eq hb hnat he]
  refine ⟨_, (State.SetsPort.refl p hs).modEgress _, ?_, ?_⟩ <;> simp [EgressSt.takeMade, h]

theorem egressTake_stands (h : (s.port p).egress.exOut.head?.map (·.1) ≠ some (succ && w.old.isSome)) :
    ∃ x, s.SetsPort p x (egressTake p succ s) ∧ x.egress = (s.port p).egress.takeStands (succ && w.old.isSome) := by
  rw [egressTake_eq hb hnat he]
  refine ⟨_, (State.SetsPort.refl p hs).modEgress _, ?_⟩
  unfold EgressSt.takeMade
  split
  · next tag b rest ho =>
    have hne : (tag == (succ && w.old.isSome)) = false := by simpa [ho] using h
    simp only [hne, Bool.false_eq_true, if_false]
  · rfl

end

theorem EgressSt.takeStands_takes (new : Bool) (e : EgressSt) :
    (e.takeStands new).exTakes + (e.takeStands new).exTakesNew = e.exTakes + e.exTakesNew + 1 ∧
      (e.takeStands new).exTakesNew = e.exTakesNew + bitOf new := by
  cases new <;> simp [takeStands, bitOf] <;> omega

/-! ## Releases of a switch (R110, R111, R442) -/

/-- What the end of a switch's slips leaves. -/
theorem endSwitches_keeps (s : State) : (endSwitches s).modes = s.modes ∧ (endSwitches s).fab.binds = s.fab.binds := by
  have h := foldl_domains (s.fab.switches.filter fun x => x.2.isEmpty) (fun s x => complete x.1 St.ok 0 [] s)
    { s with fab.switches := s.fab.switches.filter fun x => !x.2.isEmpty } fun _ _ => complete_domains ..
  exact ⟨congrArg Domains.modes h, congrArg (·.fab.binds) h⟩

theorem endSwitch_keeps {s : State} {p : Nat} {w : BindSt} (hb : s.bind? p = some w) :
    (endSwitch p s).modes = s.modes ∧ (endSwitch p s).bind? p = some { w with old := none } := by
  obtain ⟨hm, hf⟩ := endSwitches_keeps
    (leaveSwitches [p] { s with fab.binds := Sparse.ins s.fab.binds p { w with old := none } })
  have he : endSwitch p s = joinTakes p (endSwitches
      (leaveSwitches [p] { s with fab.binds := Sparse.ins s.fab.binds p { w with old := none } })) := by
    simp only [endSwitch, hb]
  rw [he]
  refine ⟨hm, ?_⟩
  show Sparse.look (endSwitches _).fab.binds p = _
  rw [hf]
  exact (Sparse.look_ins ..).trans (if_pos rfl)

/-- A release takes the old edition's path; with the third the binding is the successor's alone. -/
theorem release_keeps {s : State} {p : Nat} {w : BindSt} {o : SwitchBind} (g : SwitchBind → SwitchBind)
    (hb : s.bind? p = some w) (ho : w.old = some o) :
    (release p g s).modes = s.modes ∧ (release p g s).bind? p =
      some { w with old := if (g o).li && (g o).lo && (g o).ix then none else some (g o) } := by
  have hnoted : ({ s with fab.binds := Sparse.ins s.fab.binds p { w with old := some (g o) } } : State).bind? p =
      some { w with old := some (g o) } := (Sparse.look_ins ..).trans (if_pos rfl)
  simp only [release, hb, ho]
  cases (g o).li && (g o).lo && (g o).ix with
  | false => exact ⟨rfl, hnoted⟩
  | true => exact (endSwitch_keeps hnoted :)

/-- A release at the line or item attach, as its command makes it, noted by f where bays in Closing wait for it. -/
theorem run_release {s : State} {p : Nat} {w : BindSt} {o : SwitchBind} {c : Bool} (hc : c = true) (f : State → State)
    (g : SwitchBind → SwitchBind) (hf : (f s).fab = s.fab) (hb : s.bind? p = some w) (ho : w.old = some o) :
    ∃ t, run (when c fun s => release p g (f s)) s = .next t ∧ t.modes = (f s).modes ∧
      t.bind? p = some { w with old := if (g o).li && (g o).lo && (g o).ix then none else some (g o) } := by
  obtain ⟨hm, hbind⟩ := release_keeps (s := f s) g (by rw [State.bind?, hf]; exact hb) ho
  exact ⟨_, run_when hc _ s, hm, hbind⟩

/-- A bay in Closing that holds the edition notes its release. -/
theorem noteRelease_notes {s : State} {p : Nat} {w : BindSt} (line : Bool) (hb : s.bind? p = some w) {cl : ClosingSt} {b : Bay}
    (hcl : cl ∈ s.modes.closing) (hd : cl.dom = .bay b) (hin : s.editionIn w.releaser b.val = true) :
    (if line then { cl with lo := (p, w.releaser) :: cl.lo } else { cl with ix := (p, w.releaser) :: cl.ix }) ∈
      (noteRelease p line s).modes.closing := by
  simp only [noteRelease, hb]
  refine List.mem_map.mpr ⟨cl, hcl, ?_⟩
  simp only [hd, hin, Bool.not_true, Bool.false_eq_true, if_false]

theorem noteRelease_fab (p : Nat) (line : Bool) (s : State) : (noteRelease p line s).fab = s.fab := by
  unfold noteRelease
  split <;> rfl

/-! ### A switch that is forced (R111) -/

theorem poisonPart_fab (p : Nat) (s : State) : (poisonPart p s).fab = s.fab := by
  have h : s.KeepsLanes id (poisonPart p s) := by
    unfold poisonPart
    simp only
    split_ifs
    · exact .refl s
    · exact (State.KeepsLanes.refl s).modEgress _ _
    · exact poisonFrom_keepsLanes p (.refl s)
  exact h.fab

theorem poisonAttach_fab (p : Nat) (s : State) : (poisonAttach p s).fab = s.fab := by
  unfold poisonAttach
  simp only [State.modEgress_fab]
  split
  · exact poisonPart_fab p s
  · rfl

theorem forceSwitch_late {s : State} {p : Nat} {w : BindSt} {o : SwitchBind} (hb : s.bind? p = some w) (ho : w.old = some o)
    (hlate : 8 ≤ o.frames) :
    forceSwitch p s = warn 0x0402 p [(16, p)] (endSwitch p (if o.ix then s else poisonAttach p s)) := by
  simp only [forceSwitch, hb, ho, hlate, decide_true, Bool.true_or, if_true]

theorem editionSwitchForced_ends {s : State} {p : Port} {w : BindSt} {o : SwitchBind} (hb : s.bind? p.val = some w)
    (ho : w.old = some o) (hlate : 8 ≤ o.frames) :
    ∃ t, exec (.editionSwitchForced p) s = .next t ∧ t.bind? p.val = some { w with old := none } ∧
      t.told .warning 0x0402 p.val := by
  have hkept : (if o.ix then s else poisonAttach p.val s).bind? p.val = some w := by
    split
    · exact hb
    · rw [State.bind?, poisonAttach_fab]; exact hb
  have hend := (endSwitch_keeps hkept).2
  have hforce := forceSwitch_late hb ho hlate
  refine ⟨_, rfl, ?_, mirror_told _ _ _ _ _ (by rw [hforce]; exact raise_told ..)⟩
  show (forceSwitch p.val s).bind? p.val = _
  rw [hforce, warn, raise_eq]
  exact hend

/-! ## The obligation -/

/-- Settles O16: byte by byte and beat by beat what the port's egress becomes, and what a release makes of its binding. -/
theorem attachesMove : Obligations.AttachesMove := by
  unfold Obligations.AttachesMove
  refine ⟨fun s p succ l w data kk hs hb hnat => ⟨fun hm ht hroom => ?_, fun he hv h8 => ?_, fun he hv hm hdrop hroom => ?_,
      fun hm hroom => ?_⟩,
    fun s p succ w beat hs hb hnat he => ⟨fun hv hroom ho => ?_, fun b0 b1 b2 hv hroom ho hbeats => ?_, fun v rest ho => ?_,
      fun ho => ?_⟩,
    fun s p w o hs hb ho => ⟨fun hr => ?_, fun hr => ?_, fun hr => ?_, editionSwitchForced_ends hb ho⟩⟩
  · have hset := (State.SetsPort.refl p.val hs).modEgress fun e => { e with liBuf := e.liBuf ++ l }
    rw [← lineIngress_fits hnat hm ht hroom] at hset
    exact ⟨_, rfl, by rw [hset.here], hset.other, hset.frame⟩
  · have hset := (State.SetsPort.refl p.val hs).modEgress EgressSt.lineTaken
    rw [← lineTake_served hb he hv] at hset
    refine ⟨_, rfl, ?_, ?_, hset.other, hset.frame⟩ <;> simp [hset.here, EgressSt.lineTaken, h8]
  · have hset := (State.SetsPort.refl p.val hs).modEgress (·.lineSent (sendBytes data kk))
    rw [← lineSend_fits data kk hb hnat he hv hm hroom] at hset
    refine ⟨_, rfl, ?_, hset.other, hset.frame⟩
    simp only [hset.here, EgressSt.lineSent, dropPacket_none hdrop, sendBytes]
  · obtain ⟨x, hset, hbuf, hcount, hrest⟩ := egressUnderrun_sets hs hnat hm hroom
    refine ⟨_, rfl, ?_, ?_, ?_, hset.other⟩ <;> rw [hset.here] <;> assumption
  · obtain ⟨t, ht, heg, hother, -, hframe⟩ := itemAttachBeat_takes beat hs hb hnat he hv hroom
    rw [beatTaken_part beat ho] at heg hframe
    exact ⟨t, ht, by rw [heg], by rw [heg], hother, hframe (Nat.succ_ne_zero _)⟩
  · obtain ⟨t, ht, heg, hother, hframe, -⟩ := itemAttachBeat_takes beat hs hb hnat he hv hroom
    obtain ⟨hnone, hword, hleft⟩ := beatTaken_word beat b0 b1 b2 hroom ho hbeats
    exact ⟨t, ht, heg ▸ hnone, heg ▸ hword, heg ▸ hleft, hother, hframe⟩
  · obtain ⟨x, hset, htaken, hout⟩ := egressTake_answered hs hb hnat he ho
    exact ⟨_, rfl, by rw [hset.here, htaken], by rw [hset.here, hout], hset.other, hset.frame⟩
  · obtain ⟨x, hset, heg⟩ := egressTake_stands hs hb hnat he ho
    obtain ⟨hsum, hnew⟩ := (s.port p.val).egress.takeStands_takes (succ && w.old.isSome)
    refine ⟨_, rfl, ?_, ?_, ?_, hset.other, hset.frame⟩ <;> rw [hset.here, heg]
    · rfl
    · exact hsum
    · exact hnew
  · obtain ⟨t, ht, -, hbind⟩ := run_release hr id (fun o => { o with li := true }) rfl hb ho
    exact ⟨t, ht, by simpa using hbind⟩
  · obtain ⟨t, ht, hm, hbind⟩ := run_release hr (noteRelease p.val true) (fun o => { o with lo := true })
      (noteRelease_fab ..) hb ho
    exact ⟨t, ht, fun cl hcl b hd hin => hm ▸ noteRelease_notes true hb hcl hd hin, by simpa using hbind⟩
  · obtain ⟨t, ht, hm, hbind⟩ := run_release hr (noteRelease p.val false) (fun o => { o with ix := true })
      (noteRelease_fab ..) hb ho
    exact ⟨t, ht, fun cl hcl b hd hin => hm ▸ noteRelease_notes false hb hcl hd hin, by simpa using hbind⟩

end Sys2Proof.Machine
end

section
/-! PROOFS. Runs of slot marks, items on native trunks, checkers and error injection (R52, R128, R137 to R139, R151). -/

namespace Sys2Proof.Machine
open Sys2Proof

/-! ## Items on a native trunk (R128) -/

/-- A native trunk that listens hears items in the modes in which they come. -/
theorem hearsItems_of {s : State} {p : Nat} (hl : s.listens p = true) (hn : s.native p = true)
    (hm : modeIn (s.portMode p) [.service, .holdover, .closing] = true) : s.hearsItems p = true := by
  have hb : s.portMode p ≠ .bindery := by
    intro h
    rw [h] at hm
    exact absurd hm (by decide)
  simp [State.hearsItems, State.hearsPins, State.nearEnd, hl, hn, hm, hb]

/-- Where no item is open, none is closed. -/
theorem closePoisoned_shut {s : State} {p : Nat} (h : (s.port p).lane.itemOpen = false) : closePoisoned p s = s := by
  simp [closePoisoned, h]

theorem closePoisoned_domains (p : Nat) (s : State) : s.KeepsLanes (fun _ => ()) (closePoisoned p s) :=
  closePoisoned_keepsLanes p (fun _ => rfl) (.refl s)

/-- No item is open once what was open has been closed. -/
theorem closePoisoned_itemOpen {s : State} {p : Nat} (hs : s.wf = true) : ((closePoisoned p s).port p).lane.itemOpen = false := by
  cases hopen : (s.port p).lane.itemOpen with
  | false => rw [closePoisoned_shut hopen, hopen]
  | true =>
    have hset := (State.SetsPort.refl p hs).modLane fun l => { l with itemOpen := false }
    have hkeep := poisonFrom_keepsLanes (f := LaneSt.itemOpen) p (.refl (s.modLane p fun l => { l with itemOpen := false }))
    simp only [closePoisoned, hopen, if_true]
    rw [hkeep.lanes hset.rises, hset.here]

/-- What a command that only sorts its events leaves at the ports. -/
theorem run_when_ports {c : Bool} (hc : c = true) (f : State → State) (s : State) :
    ∃ t, run (when c f) s = .next t ∧ ∀ q, t.port q = (f s).port q := ⟨_, run_when hc f s, fun _ => rfl⟩

/-- A command that writes one port's entry alone. -/
theorem run_when_sets {c : Bool} {f : State → State} {s : State} {p : Nat} {x : PortSt} (hc : c = true)
    (h : s.SetsPort p x (f s)) : run (when c f) s = .next (f s) := by
  subst hc
  exact h.run

section
variable {s : State} {p : Port} (hs : s.wf = true) (hear : s.hearsItems p.val = true)
include hs hear

/-- An item that starts in Service or Holdover is open. -/
theorem itemStartReceived_opens (hm : s.portMode p.val ≠ .closing) :
    ∃ t, exec (.itemStartReceived p) s = .next t ∧
      (t.port p.val).lane.itemOpen = true ∧ (t.port p.val).lane.discardRun = false ∧
      ((s.port p.val).lane.itemOpen = false →
        (t.port p.val).lane = { (s.port p.val).lane with itemOpen := true, discardRun := false } ∧ s.onlyPort t p.val) := by
  have hkeep := closePoisoned_domains p.val s
  have hmode : ((closePoisoned p.val s).portMode p.val == .closing) = false := by
    rw [State.portMode, hkeep.modes]; simpa [State.portMode] using hm
  have hstart : itemStart p.val s =
      (closePoisoned p.val s).modLane p.val fun l => { l with itemOpen := true, discardRun := false } := by
    simp only [itemStart, hmode, Bool.false_eq_true, if_false]
  cases hopen : (s.port p.val).lane.itemOpen with
  | false =>
    have hset := (State.SetsPort.refl p.val hs).modLane fun l => { l with itemOpen := true, discardRun := false }
    rw [closePoisoned_shut hopen] at hstart
    rw [← hstart] at hset
    refine ⟨_, run_when_sets hear hset, ?_, ?_, fun _ => ⟨by rw [hset.here], hset.onlyPort⟩⟩ <;> rw [hset.here]
  | true =>
    obtain ⟨t, ht, hport⟩ := run_when_ports hear (itemStart p.val) s
    have hlane := State.modLane_port (closePoisoned p.val s) p.val
      (fun l => { l with itemOpen := true, discardRun := false }) p.val (hkeep.rises (s.wf_ports hs))
    rw [if_pos rfl, ← hstart, ← hport] at hlane
    refine ⟨t, ht, ?_, ?_, fun h => nomatch h⟩ <;> rw [hlane]

/-- R61: in Closing it is discarded, and counted. -/
theorem itemStartReceived_discards (hm : s.portMode p.val = .closing) :
    ∃ t, exec (.itemStartReceived p) s = .next t ∧
      (t.port p.val).lane.itemOpen = false ∧ (t.port p.val).lane.discardRun = true ∧
      ((s.port p.val).lane.itemOpen = false → (t.port p.val).lane =
        { (s.port p.val).lane with discardRun := true, discIn := min 65535 ((s.port p.val).lane.discIn + 1) } ∧
        s.onlyPort t p.val) := by
  have hkeep := closePoisoned_domains p.val s
  have hmode : ((closePoisoned p.val s).portMode p.val == .closing) = true := by
    rw [State.portMode, hkeep.modes]; simpa [State.portMode] using hm
  have hstart : itemStart p.val s = ((closePoisoned p.val s).modLane p.val fun l => { l with discardRun := true }).modLane p.val
      fun l => { l with discIn := sat 0xFFFF l.discIn 1 } := by
    simp only [itemStart, hmode, if_true]
    rfl
  cases hopen : (s.port p.val).lane.itemOpen with
  | false =>
    have hset := ((State.SetsPort.refl p.val hs).modLane fun l => { l with discardRun := true }).modLane
      fun l => { l with discIn := sat 0xFFFF l.discIn 1 }
    rw [closePoisoned_shut hopen] at hstart
    rw [← hstart] at hset
    refine ⟨_, run_when_sets hear hset, ?_, ?_, fun _ => ⟨by rw [hset.here]; rfl, hset.onlyPort⟩⟩ <;> rw [hset.here]
    exact hopen
  | true =>
    have hrises := hkeep.rises (s.wf_ports hs)
    obtain ⟨t, ht, hport⟩ := run_when_ports hear (itemStart p.val) s
    have hlane := congrArg PortSt.lane (hport p.val)
    rw [hstart, State.modLane_port _ _ _ _ (Sparse.rises_put _ _ _ _ hrises), if_pos rfl, State.modLane_port _ _ _ _ hrises,
      if_pos rfl] at hlane
    refine ⟨t, ht, ?_, ?_, fun h => nomatch h⟩ <;> rw [hlane]
    exact closePoisoned_itemOpen hs

end

/-- R182: an item's last symbol ends what was open and a run of discarded symbols, and does nothing more at its port. -/
theorem endRun_ends {s : State} {p : Nat} {f u : State → State} (hear : s.hearsItems p = true)
    (hf : ∀ s, f s = endRun p (u s)) (hu : Sparse.rises (u s).ports = true) :
    ∃ t, run (when (s.hearsItems p) f) s = .next t ∧
      (t.port p).lane.itemOpen = false ∧ (t.port p).lane.discardRun = false := by
  obtain ⟨t, ht, hport⟩ := run_when_ports hear f s
  have hlane := congrArg PortSt.lane (hport p)
  rw [hf, endRun, State.modLane_port _ _ _ _ hu, if_pos rfl] at hlane
  refine ⟨t, ht, ?_, ?_⟩ <;> rw [hlane]

/-- Nothing that an engine takes from port p is open once its item has been closed. -/
theorem closeFrom_shut (p : Nat) (s : State) :
    (∀ x ∈ (closeFrom p s).xbar, x.port = p → x.isOpen = false) ∧
    ∀ x ∈ (closeFrom p s).queues, x.2.prodPort = some p → x.2.prodOpen = false := by
  constructor <;> intro x hx <;> obtain ⟨y, -, rfl⟩ := List.mem_map.mp hx
  · split
    · exact fun _ => rfl
    · exact fun h => absurd h ‹_›
  · dsimp only
    split
    · exact fun _ => rfl
    · exact fun h => absurd h ‹_›

section
variable {s : State} {p : Port} (hs : s.wf = true) (hear : s.hearsItems p.val = true)
include hs hear

/-- R128: an item that ends in whole words is whole, at its port and in the engines. -/
theorem itemEndReceived_whole {n : Nat} (hopen : (s.port p.val).lane.itemOpen = true) (hn : n % 32 = 0) :
    ∃ t, exec (.itemEndReceived p n) s = .next t ∧
      (∀ x ∈ t.xbar, x.port = p.val → x.isOpen = false) ∧
      (∀ x ∈ t.queues, x.2.prodPort = some p.val → x.2.prodOpen = false) ∧
      (t.port p.val).lane = { (s.port p.val).lane with itemOpen := false, discardRun := false } ∧
      t = { s with ports := t.ports, xbar := t.xbar, queues := t.queues } := by
  have hset := (State.SetsPort.refl p.val hs).modLane fun l => { l with itemOpen := false, discardRun := false }
  have hend : when (s.hearsItems p.val) (itemEnd p.val n) s = closeFrom p.val (endRun p.val s) := by
    simp only [when, hear, itemEnd, hopen, hn, Bool.not_true, Bool.false_eq_true, if_false, if_true]
    rfl
  obtain ⟨hxbar, hqueues⟩ := closeFrom_shut p.val (endRun p.val s)
  refine ⟨_, run_closeFrom hs hset hend, hxbar, hqueues, congrArg PortSt.lane hset.here, ?_⟩
  exact congrArg (fun t : State =>
    { t with xbar := (closeFrom p.val (endRun p.val s)).xbar, queues := (closeFrom p.val (endRun p.val s)).queues }) hset.frame

/-- R128: whatever was open, and however it ends, nothing is open when an item has ended. -/
theorem itemEndReceived_ends (n : Nat) :
    ∃ t, exec (.itemEndReceived p n) s = .next t ∧
      (t.port p.val).lane.itemOpen = false ∧ (t.port p.val).lane.discardRun = false := by
  refine endRun_ends hear (f := itemEnd p.val n) (fun _ => rfl) ?_
  split_ifs
  · exact s.wf_ports hs
  · exact s.wf_ports hs
  · exact (closePoisoned_domains p.val s).rises (s.wf_ports hs)

theorem itemPoisonReceived_ends :
    ∃ t, exec (.itemPoisonReceived p) s = .next t ∧
      (t.port p.val).lane.itemOpen = false ∧ (t.port p.val).lane.discardRun = false ∧
      ((s.port p.val).lane.itemOpen = false →
        (t.port p.val).lane = { (s.port p.val).lane with discardRun := false } ∧ s.onlyPort t p.val) := by
  cases hopen : (s.port p.val).lane.itemOpen with
  | false =>
    have hset := (State.SetsPort.refl p.val hs).modLane fun l => { l with itemOpen := false, discardRun := false }
    have hclosed : s.modLane p.val (fun l => { l with itemOpen := false, discardRun := false }) =
        endRun p.val (closePoisoned p.val s) := by rw [closePoisoned_shut hopen]; rfl
    rw [hclosed] at hset
    refine ⟨_, run_when_sets hear hset, ?_, ?_, fun _ => ⟨?_, hset.onlyPort⟩⟩ <;> rw [hset.here]
    rw [← hopen]
  | true =>
    obtain ⟨t, ht, hshut, hrun⟩ := endRun_ends hear (f := fun s => endRun p.val (closePoisoned p.val s)) (fun _ => rfl)
      ((closePoisoned_domains p.val s).rises (s.wf_ports hs))
    exact ⟨t, ht, hshut, hrun, fun h => nomatch h⟩

end

/-! ## Checkers (R138, R151) -/

theorem openWindow_sets {s t : State} {p : Nat} {x : PortSt} (h : s.SetsPort p x t) :
    ∃ y, s.SetsPort p y (openWindow p t) ∧ y.lane = x.lane := ⟨_, (h.modNeg _).modTx _, rfl⟩

/-- A checker that locks is marked so; bring-up's window is no fact of the lanes. -/
theorem checkerLock_sets {s : State} (p k : Nat) (hs : s.wf = true) :
    ∃ x, s.SetsPort p x (checkerLock p k s) ∧
      x.lane = { (s.port p).lane with chkLock := setBit (s.port p).lane.chkLock k true } := by
  have hlock := (State.SetsPort.refl p hs).modLane fun l => { l with chkLock := setBit l.chkLock k true }
  have hcheck := hlock.modNeg fun n => { n with checked := n.checked.set k 0 }
  unfold checkerLock
  simp only
  split
  · exact ⟨_, hlock, rfl⟩
  · split
    · exact openWindow_sets hcheck
    · exact ⟨_, hcheck, rfl⟩

/-- The lane once a checker has lost its lock, with n errors counted. -/
def LaneSt.unlocked (k : Nat) (up : Bool) (n : Nat) (l : LaneSt) : LaneSt :=
  { l with
    chkLock := setBit l.chkLock k false, lockLost := setBit l.lockLost k true
    prbsErr := if up then l.prbsErr else l.prbsErr.modify k fun m => sat 0xFFFFFFFF m n }

theorem lockLost_sets {s : State} (p k n : Nat) (hs : s.wf = true) :
    ∃ x, s.SetsPort p x (lockLost p k n s) ∧ x.lane = (s.port p).lane.unlocked k (s.portMode p == .bringUp) n ∧
      (s.portMode p = .bringUp → x.neg.checkBad = setBit (s.port p).neg.checkBad k true) := by
  have hlost := (State.SetsPort.refl p hs).modLane (·.unlocked k (s.portMode p == .bringUp) n)
  by_cases hup : s.portMode p = .bringUp
  · have hf : lockLost p k n s = (s.modLane p (·.unlocked k (s.portMode p == .bringUp) n)).modNeg p
        fun m => { m with checkBad := setBit m.checkBad k true } := by
      simp only [lockLost, hup]
      rfl
    exact ⟨_, hf ▸ hlost.modNeg _, rfl, fun _ => rfl⟩
  · have hf : lockLost p k n s = s.modLane p (·.unlocked k (s.portMode p == .bringUp) n) := by
      simp only [lockLost, beq_eq_false_iff_ne.mpr hup]
      rfl
    exact ⟨_, hf ▸ hlost, rfl, fun h => absurd h hup⟩

/-! ## Injection (R139, R140)

In a near-end loopback the lane hears what was injected: that may poison an item and discard bytes, but counts no injection
and writes no control. -/

/-- What injection keeps of its own at a port: how many there were of each lane, and the lanes' controls. -/
def LaneSt.injection (l : LaneSt) : List Nat × List Word := (l.injCount, l.testCtrl)

section
variable {s t : State} {p : Nat} (h : s.KeepsLanes LaneSt.injection t)
include h

theorem codedErrors_injection (k n : Nat) : s.KeepsLanes LaneSt.injection (codedErrors p k n t) := by
  unfold codedErrors
  simp only
  split
  · exact h.modLane p _ fun _ => rfl
  · exact h

theorem countIngress_injection : s.KeepsLanes LaneSt.injection (countIngress p t) := h.modLane p _ fun _ => rfl

theorem poisonOpen_injection : s.KeepsLanes LaneSt.injection (poisonOpen p t) := by
  have hclosed := closePoisoned_keepsLanes p (fun _ => rfl) h
  unfold poisonOpen
  split
  · exact countIngress_injection (hclosed.modLane p _ fun _ => rfl)
  · exact h

theorem strayData_injection : s.KeepsLanes LaneSt.injection (strayData p t) := by
  unfold strayData
  simp only
  split
  · exact h
  · exact countIngress_injection (h.modLane p _ fun _ => rfl)

theorem lineIngress_injection (l : List (Byte × Bool)) : s.KeepsLanes LaneSt.injection (lineIngress p l t) := by
  unfold lineIngress
  simp only
  split
  · exact h
  · split
    · exact strayData_injection h
    · split
      · exact countIngress_injection h
      · split
        · exact countIngress_injection (h.modEgress p _)
        · exact h.modEgress p _

theorem deliverSym_injection (y : Sym) : s.KeepsLanes LaneSt.injection (deliverSym p y t) := by
  unfold deliverSym
  split
  · exact h
  · split
    · split
      · exact poisonOpen_injection h
      · exact h
    · exact lineIngress_injection h _

theorem codeError_injection (k : Nat) : s.KeepsLanes LaneSt.injection (codeError p k t) := by
  have hcount := h.modLane p (fun l => { l with codeViol := bump 0xFFFF l.codeViol k }) fun _ => rfl
  unfold codeError
  exact codedErrors_injection (deliverSym_injection hcount k307) k 1

theorem invalidSymbol_injection (k : Nat) (b : BadSymbol) : s.KeepsLanes LaneSt.injection (invalidSymbol p k b t) := by
  cases b with
  | misplacedComma => exact codeError_injection h k
  | group g positive =>
    have hg := h.modLane p (fun l => { l with rxPositive := setBit l.rxPositive k (groupDisparity g.toNat positive) })
      fun _ => rfl
    have hcount := hg.modLane p (fun l => { l with disparity := bump 0xFFFF l.disparity k }) fun _ => rfl
    unfold invalidSymbol
    simp only
    split
    · exact codeError_injection hg k
    · split
      · exact codeError_injection hg k
      · exact hg
    · split
      · exact codeError_injection hg k
      · exact deliverSym_injection hcount _

end

theorem hearGroups_injection {s t : State} {p : Nat} (k : Nat) (positive : Bool) (l : List Nat)
    (h : s.KeepsLanes LaneSt.injection t) : s.KeepsLanes LaneSt.injection (hearGroups p k positive l t) := by
  unfold hearGroups
  induction l generalizing t positive with
  | nil => exact h
  | cons g l ih =>
    refine ih _ ?_
    dsimp only
    split
    · split
      · exact h
      · split
        · exact codeError_injection h k
        · exact codedErrors_injection h k 1
    · exact invalidSymbol_injection h k _

theorem hearInjected_injection {s t : State} {p : Nat} (k : Nat) (c : Word) (h : s.KeepsLanes LaneSt.injection t) :
    s.KeepsLanes LaneSt.injection (hearInjected p k c t) := by
  unfold hearInjected
  split
  · exact h
  · split
    · exact h.modLane p _ fun _ => rfl
    · split
      · exact codeError_injection h k
      · exact hearGroups_injection k _ _ (h.same rfl)

/-- The lane with one injection more, and n errors of it that its checker finds. -/
def LaneSt.injected (k n : Nat) (l : LaneSt) : LaneSt :=
  { l with injCount := bump 0xFFFFFF l.injCount k, prbsErr := l.prbsErr.modify k fun m => sat 0xFFFFFFFF m n }

theorem inject_kind {s : State} {p k : Nat} (hkind : ctrlKind (s.testCtrl p k) ≠ 0) :
    inject p k s = hearInjected p k (s.testCtrl p k)
      (s.modLane p (·.injected k (injectedErrors p k (s.testCtrl p k) s))) := by
  simp only [inject, hkind, if_false]
  rfl

/-- R139: an injection of the kind set is counted, and the controls stand. -/
theorem inject_counts {s : State} {p k : Nat} (hs : s.wf = true) (hkind : ctrlKind (s.testCtrl p k) ≠ 0) :
    Sparse.rises (inject p k s).ports = true ∧
    ((inject p k s).port p).lane.injCount = (s.port p).lane.injCount.modify k (fun n => min 0xFFFFFF (n + 1)) ∧
    ((inject p k s).port p).lane.testCtrl = (s.port p).lane.testCtrl := by
  have hset := (State.SetsPort.refl p hs).modLane (·.injected k (injectedErrors p k (s.testCtrl p k) s))
  have hkeep := hearInjected_injection (p := p) k (s.testCtrl p k)
    (.refl (s.modLane p (·.injected k (injectedErrors p k (s.testCtrl p k) s))))
  have hlane := hkeep.lanes hset.rises p
  rw [← inject_kind hkind, hset.here] at hlane
  exact ⟨inject_kind hkind ▸ hkeep.rises hset.rises, congrArg Prod.fst hlane, congrArg Prod.snd hlane⟩

/-- R140: where the lane does not hear itself, an injection writes its port alone. -/
theorem inject_sets {s : State} {p k : Nat} (hs : s.wf = true) (hkind : ctrlKind (s.testCtrl p k) ≠ 0)
    (hpins : s.nearEnd p = false) : ∃ x, s.SetsPort p x (inject p k s) := by
  have hset := (State.SetsPort.refl p hs).modLane (·.injected k (injectedErrors p k (s.testCtrl p k) s))
  have hdeaf : (s.modLane p (·.injected k (injectedErrors p k (s.testCtrl p k) s))).nearEnd p = false := by
    simp only [State.nearEnd, hset.here]
    exact hpins
  rw [inject_kind hkind, hearInjected, hdeaf]
  exact ⟨_, hset⟩

/-! ## The obligation -/

/-- Settles O27: marks note the mode that follows; each item's end is traced through its port; an injection that the lane hears
itself keeps the counts and controls. -/
theorem marksItemsAndCheckers : Obligations.MarksItemsAndCheckers := by
  unfold Obligations.MarksItemsAndCheckers
  refine ⟨fun s p n hs hl => ⟨fun hm hlost => ?_, fun hm hgood => ?_, fun hm hnone => ?_, fun ⟨hn, hm⟩ => ?_, fun hn hm => ?_,
      fun hruns => ?_⟩,
    fun s p k errors hs hl hw => ⟨fun hon => ?_, fun hon hlock => ?_, fun hm hrate hkind => ?_, fun hm honce hkind => ?_⟩⟩
  · exact done_when (by simp [hl, hm, hlost]) _ s
  · exact done_when (by simp [hl, hm, hgood]) _ s
  · exact done_when (by simp [hl, hm, hnone]) _ s
  · refine itemStartReceived_opens hs (hearsItems_of hl hn ?_) ?_ <;> rcases hm with hm | hm <;> rw [hm] <;> decide
  · exact itemStartReceived_discards hs (hearsItems_of hl hn (by rw [hm]; rfl)) hm
  · have hear : s.hearsItems p.val = true := by
      rcases hruns with ⟨hn, hm | hm⟩ | ⟨hn, hm⟩ <;> exact hearsItems_of hl hn (by rw [hm]; rfl)
    refine ⟨?_, itemPoisonReceived_ends hs hear⟩
    by_cases hwhole : (s.port p.val).lane.itemOpen = true ∧ n % 32 = 0
    · obtain ⟨t, ht, hxbar, hqueues, hlane, hframe⟩ := itemEndReceived_whole hs hear hwhole.1 hwhole.2
      exact ⟨t, ht, by rw [hlane], by rw [hlane], fun _ _ => ⟨hxbar, hqueues, hlane, hframe⟩⟩
    · obtain ⟨t, ht, hshut, hrun⟩ := itemEndReceived_ends hs hear n
      exact ⟨t, ht, hshut, hrun, fun hopen hn => absurd ⟨hopen, hn⟩ hwhole⟩
  · obtain ⟨x, hset, hlane⟩ := checkerLock_sets p.val k.val hs
    exact ⟨_, done_when (by simp [hl, hw, hon]) _ s, by rw [hset.here, hlane], hset.onlyPort⟩
  · obtain ⟨x, hset, hlane, hbad⟩ := lockLost_sets p.val k.val errors hs
    refine ⟨_, done_when (by simp [hl, hon, hlock]) _ s, ?_, ?_, fun hm => ⟨?_, ?_⟩, fun hm => ?_, hset.onlyPort⟩ <;>
      rw [hset.here]
    · rw [hlane]; rfl
    · rw [hlane]; rfl
    · rw [hlane]; simp [LaneSt.unlocked, hm]
    · exact hbad hm
    · rw [hlane]; simp [LaneSt.unlocked, hm, sat]
  · obtain ⟨-, hcount, hctrl⟩ := inject_counts hs hkind
    refine ⟨_, done_when (by simp [State.injects, hl, hw, hm, hrate]) _ s, hcount, hctrl, fun hpins => ?_⟩
    obtain ⟨x, hset⟩ := inject_sets hs hkind hpins
    exact hset.onlyPort
  · obtain ⟨hrises, hcount, hctrl⟩ := inject_counts hs hkind
    have hlane := State.modLane_port (inject p.val k.val s) p.val
      (fun l => { l with testCtrl := l.testCtrl.modify k.val fun c => setBit c 31 false }) p.val hrises
    rw [if_pos rfl] at hlane
    refine ⟨_, done_when (by simp [State.injects, hl, hw, hm, honce]) _ s, ?_, ?_, fun hpins => ?_⟩
    · exact (congrArg (·.lane.injCount) hlane).trans hcount
    · exact (congrArg (·.lane.testCtrl) hlane).trans (congrArg (·.modify k.val fun c => setBit c 31 false) hctrl)
    · obtain ⟨x, hset⟩ := inject_sets hs hkind hpins
      exact (hset.modLane _).onlyPort

end Sys2Proof.Machine
end

section
/-! PROOFS. Readiness in Bring-up, and what the completion of a Closing leaves (R51, R52, R60, R61, R63, R442). -/

namespace Sys2Proof.Machine
open Sys2Proof

/-! ## A bit set -/

theorem getBit_setBit_self {w : Nat} (v : BitVec w) {i : Nat} (h : i < w) : getBit (setBit v i true) i = true := by
  simp only [getBit, setBit, if_true, BitVec.getLsbD_or, BitVec.getLsbD_ofNat, Nat.testBit_two_pow_self, h, decide_true,
    Bool.and_self, Bool.or_true]

theorem getBit_setBit_of_ne {w : Nat} (v : BitVec w) {i j : Nat} (h : j ≠ i) : getBit (setBit v i true) j = getBit v j := by
  simp only [getBit, setBit, if_true, BitVec.getLsbD_or, BitVec.getLsbD_ofNat, Nat.testBit_two_pow, h.symm, decide_false,
    Bool.and_false, Bool.or_false]

/-! ## Readiness (R51, R52) -/

theorem Sparse.look_mapKey {α : Type} (m : Sparse α) (f : Nat → α → α) (k : Nat) :
    Sparse.look (m.map fun x => (x.1, f x.1 x.2)) k = (Sparse.look m k).map (f k) := by
  induction m with
  | nil => rfl
  | cons x r ih =>
    simp only [List.map_cons, Sparse.look]
    split
    · subst_vars
      rfl
    · exact ih

/-- The editions named are ready; the others stand. -/
theorem raiseReady_edition {s : State} {n : Nat} {e : EditionSt} (ns : List Nat) (he : s.edition n = some e) :
    (raiseReady ns s).edition n = some (if n ∈ ns then { e with ready := true } else e) := by
  have hlook := Sparse.look_mapKey s.fab.editions (fun n e => if ns.contains n then { e with ready := true } else e) n
  simp only [State.edition] at he
  rw [he, Option.map_some] at hlook
  exact hlook.trans (by simp only [List.contains_iff_mem])

theorem editionReady_readies {s : State} {b : Bay} (hm : s.bayMode b.val = .bringUp)
    (hcan : ∀ n ∈ s.boundIn b.val, s.canBeReady n = true) :
    exec (.editionReady b) s =
      .next { raiseReady (s.boundIn b.val) s with modes.ready := setBit s.modes.ready b.val true } :=
  done_when (by simpa [hm] using hcan) _ s

/-- The warning changes no mode, and the bay is marked told. -/
theorem bayNotReady_tells {s : State} {b : Bay} (hm : s.bayMode b.val = .bringUp) (hready : s.bayReady b.val = false)
    (hlate : 8000 ≤ Sparse.get 0 s.modes.bringUpFrames b.val) (htold : getBit s.modes.notReadyTold b.val = false) :
    ∃ t, exec (.bayNotReady b) s = .next t ∧ t.told .warning 0x0403 b.val ∧
      t.modes = { s.modes with notReadyTold := setBit s.modes.notReadyTold b.val true } := by
  have hc : (s.bayMode b.val == .bringUp && !s.bayReady b.val && 8000 ≤ Sparse.get 0 s.modes.bringUpFrames b.val &&
      !getBit s.modes.notReadyTold b.val) = true := by simp [hm, hready, hlate, htold]
  exact ⟨_, run_when hc _ s, mirror_told _ _ _ _ _ (raise_told ..), congrArg Domains.modes (raise_domains ..)⟩

/-! ## A Closing's completion (R63, R442) -/

@[simp] theorem completeOpt_domains (id : Option SlipId) (st : BitVec 16) (s : State) :
    (completeOpt id st s).domains = s.domains := by
  cases id with
  | none => rfl
  | some id => exact complete_domains ..

/-- What a domain gives up with its Closing: a port's line goes idle, a bay's rail and clock go, the house's link goes down. -/
def quiesce (d : Domain) (s : State) : State :=
  match d with
  | .port p => idleTx p.val s
  | .bay b => gateClosed b.val s
  | .house => writeTail { s with pkg.frameOut := false, pkg.pcieUp := false }

/-- The flip-flops lost with a rail are of the fabric alone. -/
theorem loseFlops_keeps (b : Nat) (s : State) :
    (loseFlops b s).modes = s.modes ∧ (loseFlops b s).slips = s.slips ∧ (loseFlops b s).pwr = s.pwr ∧
      (loseFlops b s).clk = s.clk := by
  have h := foldl_keeps (fun s : State => (s.modes, s.slips, s.pwr, s.clk))
    (fun s c => s.useFree.modCarrel (ckey b c) fun t => { t with live := Config.lostFlops s.frame.freeCount })
    (fun _ _ => rfl) (List.range 36) s
  obtain ⟨hm, hr⟩ := Prod.mk.inj h
  obtain ⟨hs, hr⟩ := Prod.mk.inj hr
  obtain ⟨hp, hc⟩ := Prod.mk.inj hr
  exact ⟨hm, hs, hp, hc⟩

theorem quiesce_keeps (d : Domain) (s : State) : (quiesce d s).modes = s.modes ∧ (quiesce d s).slips = s.slips := by
  cases d with
  | bay b =>
    obtain ⟨hm, hs, -, -⟩ := loseFlops_keeps b.val
      { s with pwr.offBay := setBit s.pwr.offBay b.val true, clk.gatedBay := setBit s.clk.gatedBay b.val true }
    exact ⟨hm, hs⟩
  | port p => exact ⟨rfl, rfl⟩
  | house => exact ⟨rfl, rfl⟩

/-- A drained Closing that no test holds up completes. -/
theorem completeClosing_ends {s : State} {d : Domain} {c : ClosingSt}
    (hfind : s.modes.closing.find? (fun x => x.dom == d) = some c) (hdrained : c.drained = true)
    (htest : s.testsDone c = true) (hwait : s.testWaits d = false) (hopen : s.modes.closed.contains d = false) :
    ∃ m : ModeSt, m.closed = s.modes.closed ++ [d] ∧
      completeClosing d s = quiesce d (completeOpt c.id St.ok { s with modes := m }) := by
  refine ⟨{ s.modes with closing := s.modes.closing.map fun x => if x.dom = d then { x with id := none } else x,
                         closed := s.modes.closed ++ [d] }, rfl, ?_⟩
  simp only [completeClosing, hfind, hdrained, htest, hwait, hopen, Bool.not_true, Bool.or_self, Bool.false_eq_true, if_false]
  cases d <;> rfl

/-- The Closing found is the same one, drained. -/
theorem setDrained_find {s : State} {d : Domain} {c : ClosingSt} (hfind : s.modes.closing.find? (fun x => x.dom == d) = some c) :
    (setDrained d s).modes.closing.find? (fun x => x.dom == d) = some { c with drained := true } := by
  have hsame : ((fun x : ClosingSt => x.dom == d) ∘ fun x => if x.dom = d then { x with drained := true } else x) =
      fun x => x.dom == d := by
    funext x
    by_cases hx : x.dom = d <;> simp [hx]
  have hd : c.dom = d := by simpa using List.find?_some hfind
  simp only [setDrained, List.find?_map, hsame, hfind, Option.map_some, hd, if_true]

/-- The slip that asked for the Closing, where one did and its channel stands, has ended OK. -/
def State.slipEnded (s : State) (c : ClosingSt) (t : State) : Prop :=
  ∀ id, c.id = some id → s.ringGone id = false → id.ch.val < s.slips.chans.length → id.noReply = false →
    t.completed id St.ok []

section
variable {s : State} {d : Domain} {c : ClosingSt} (hfind : s.modes.closing.find? (fun x => x.dom == d) = some c)
  (hdrain : c.drained = true ∨ s.hasDrained c = true ∧ ∀ b, d ≠ .bay b) (htest : s.testsDone c = true)
  (hwait : s.testWaits d = false) (hopen : s.modes.closed.contains d = false)
include hfind hdrain htest hwait hopen

/-- A drain that has ended, or that a port or the house ends as its condition stands, completes a Closing. -/
theorem drainEnd_ends :
    ∃ m : ModeSt, m.closed = s.modes.closed ++ [d] ∧
      drainEnd d s = quiesce d (completeOpt c.id St.ok { s with modes := m }) := by
  cases hdrained : c.drained with
  | true =>
    have hend : drainEnd d s = completeClosing d s := by
      cases d <;> simp [drainEnd, hfind, hdrained]
    rw [hend]
    exact completeClosing_ends hfind hdrained htest hwait hopen
  | false =>
    obtain ⟨hhas, hbay⟩ := hdrain.resolve_left (by simp [hdrained])
    have hend : drainEnd d s = completeClosing d (setDrained d s) := by
      cases d with
      | bay b => exact absurd rfl (hbay b)
      | port p => simp [drainEnd, hfind, hdrained, hhas, endDrain]
      | house => simp [drainEnd, hfind, hdrained, hhas, endDrain]
    rw [hend]
    have hwait' : (setDrained d s).testWaits d = false := by
      cases d with
      | bay b => exact absurd rfl (hbay b)
      | port p => rfl
      | house => rfl
    exact completeClosing_ends (s := setDrained d s) (c := { c with drained := true }) (setDrained_find hfind) rfl
      htest hwait' hopen

/-- What CLOSING_DRAIN_END leaves of a Closing that completes: the domain is closed, the slip has ended, and what the domain
gives up is gone. -/
theorem closingDrainEnd_completes (hup : s.awake = true) :
    ∃ t u, exec (.closingDrainEnd d) s = .next t ∧ t = { quiesce d u with mem := t.mem, log := t.log } ∧
      u.ports = s.ports ∧ t.modes.closed = s.modes.closed ++ [d] ∧ s.slipEnded c t := by
  obtain ⟨m, hclosed, hend⟩ := drainEnd_ends hfind hdrain htest hwait hopen
  obtain ⟨hmodes, hslips⟩ := quiesce_keeps d (completeOpt c.id St.ok { s with modes := m })
  have hdom := completeOpt_domains c.id St.ok { s with modes := m }
  have hrun : when s.awake (drainEnd d) s = quiesce d (completeOpt c.id St.ok { s with modes := m }) := by
    rw [hup, ← hend]; rfl
  refine ⟨_, completeOpt c.id St.ok { s with modes := m }, rfl, ?_, congrArg Domains.ports hdom, ?_,
    fun id hid hgone hlen hreply => ?_⟩
  · rw [← hrun]; rfl
  · refine (congrArg ModeSt.closed (?_ : _ = m)).trans hclosed
    exact (congrArg State.modes hrun).trans (hmodes.trans (congrArg Domains.modes hdom))
  · have hdone : (completeOpt c.id St.ok { s with modes := m }).completed id St.ok [] := by
      rw [hid]
      exact complete_completed id St.ok 0 [] { s with modes := m } hgone (by simp [SlipId.writes, hreply]) hlen
    have hsl : (when s.awake (drainEnd d) s).slips = (completeOpt c.id St.ok { s with modes := m }).slips :=
      (congrArg State.slips hrun).trans hslips
    unfold State.completed State.chan at hdone ⊢
    rw [← hsl] at hdone
    exact hdone

end

/-- R61: the port's line is idle, and no other port is touched. -/
theorem idleTx_sets {u : State} (p : Nat) (h : Sparse.rises u.ports = true) :
    ((idleTx p u).port p).lane.txIdle = true ∧ ∀ q, q ≠ p → (idleTx p u).port q = u.port q := by
  have hset := ((⟨rfl, rfl, fun _ _ => rfl, h⟩ : u.SetsPort p (u.port p) u).modLane fun l => { l with txIdle := true }).modTx
    fun x => { x with units := [], positive := 0, part := 0, sinceSkip := 0, nextSets := 0 }
  exact ⟨congrArg (·.lane.txIdle) hset.here, hset.other⟩

theorem quiesce_bay_gates (b : Bay) (u : State) :
    getBit (quiesce (.bay b) u).pwr.offBay b.val = true ∧ getBit (quiesce (.bay b) u).clk.gatedBay b.val = true := by
  obtain ⟨-, -, hpwr, hclk⟩ := loseFlops_keeps b.val
    { u with pwr.offBay := setBit u.pwr.offBay b.val true, clk.gatedBay := setBit u.clk.gatedBay b.val true }
  simp only [quiesce, gateClosed]
  rw [hpwr, hclk]
  exact ⟨getBit_setBit_self _ b.isLt, getBit_setBit_self _ b.isLt⟩

theorem closingDrainEnd_port {s : State} {p : Port} {c : ClosingSt} (hs : s.wf = true) (hup : s.awake = true)
    (hfind : s.modes.closing.find? (fun x => x.dom == .port p) = some c)
    (hdrain : c.drained = true ∨ s.portDrained p.val = true) (hopen : s.modes.closed.contains (.port p) = false) :
    ∃ t, exec (.closingDrainEnd (.port p)) s = .next t ∧ t.modes.closed = s.modes.closed ++ [.port p] ∧
      (t.port p.val).lane.txIdle = true ∧ (∀ q, q ≠ p.val → t.port q = s.port q) ∧ s.slipEnded c t := by
  have hdom : c.dom = .port p := by simpa using List.find?_some hfind
  obtain ⟨t, u, ht, hq, hports, hclosed, hdone⟩ := closingDrainEnd_completes hfind
    (hdrain.imp_right fun h => ⟨by simpa [State.hasDrained, hdom] using h, fun _ h => nomatch h⟩)
    (by simp [State.testsDone, hdom]) rfl hopen hup
  obtain ⟨hidle, hother⟩ := idleTx_sets (u := u) p.val (hports ▸ s.wf_ports hs)
  have hport : ∀ q, t.port q = (idleTx p.val u).port q := fun q => congrArg (·.port q) hq
  refine ⟨t, ht, hclosed, by rw [hport, hidle], fun q hne => ?_, hdone⟩
  rw [hport, hother q hne, State.port, hports]
  rfl

theorem closingDrainEnd_bay {s : State} {b : Bay} {c : ClosingSt} (hup : s.awake = true)
    (hfind : s.modes.closing.find? (fun x => x.dom == .bay b) = some c) (hdrained : c.drained = true) (hdom : c.dom = .bay b)
    (htest : c.test = 0 ∨ c.tested.contains b.val = true) (hwait : s.testWaits (.bay b) = false)
    (hopen : s.modes.closed.contains (.bay b) = false) :
    ∃ t, exec (.closingDrainEnd (.bay b)) s = .next t ∧ t.modes.closed = s.modes.closed ++ [.bay b] ∧
      getBit t.pwr.offBay b.val = true ∧ getBit t.clk.gatedBay b.val = true ∧ s.slipEnded c t := by
  obtain ⟨t, u, ht, hq, -, hclosed, hdone⟩ := closingDrainEnd_completes hfind (.inl hdrained)
    (by rcases htest with h | h <;> simp_all [State.testsDone]) hwait hopen hup
  obtain ⟨hoff, hgated⟩ := quiesce_bay_gates b u
  exact ⟨t, ht, hclosed, (congrArg (fun t : State => getBit t.pwr.offBay b.val) hq).trans hoff,
    (congrArg (fun t : State => getBit t.clk.gatedBay b.val) hq).trans hgated, hdone⟩

theorem closingDrainEnd_house {s : State} {c : ClosingSt} (hup : s.awake = true)
    (hfind : s.modes.closing.find? (fun x => x.dom == .house) = some c) (hdom : c.dom = .house)
    (hdrain : c.drained = true ∨ s.othersDrained = true)
    (htest : c.test = 0 ∨ (List.range 32).all (fun i => c.tested.contains i) = true)
    (hopen : s.modes.closed.contains .house = false) :
    ∃ t, exec (.closingDrainEnd .house) s = .next t ∧ t.modes.closed = s.modes.closed ++ [.house] ∧ t.pkg.pcieUp = false ∧
      t.pkg.frameOut = false ∧ s.slipEnded c t := by
  obtain ⟨t, u, ht, hq, -, hclosed, hdone⟩ := closingDrainEnd_completes hfind
    (hdrain.imp_right fun h => ⟨by simpa [State.hasDrained, hdom] using h, fun _ h => nomatch h⟩)
    (by rcases htest with h | h <;> simp_all [State.testsDone]) rfl hopen hup
  exact ⟨t, ht, hclosed, congrArg (·.pkg.pcieUp) hq, congrArg (·.pkg.frameOut) hq, hdone⟩

/-- R63: a domain that is not in Closing has no drain to end. -/
theorem closingDrainEnd_idle {s : State} {d : Domain} (hup : s.awake = true)
    (hfind : s.modes.closing.find? (fun x => x.dom == d) = none) : exec (.closingDrainEnd d) s = .next s := by
  have hstands : when s.awake (drainEnd d) s = s := by
    simp only [when, hup, drainEnd, hfind, if_true]
  refine (run_quiet (when s.awake (drainEnd d)) s ?_ ?_ ?_).trans (by rw [hstands]) <;> rw [hstands]

/-! ## The obligation -/

/-- Settles O39: readiness bit by bit, and every Closing through what CLOSING_DRAIN_END leaves of one that completes. -/
theorem readinessAndClosing : Obligations.ReadinessAndClosing := by
  unfold Obligations.ReadinessAndClosing
  refine fun s b p c hs => ⟨fun hm hcan => ?_, fun hm hready hlate htold => ?_, closingDrainEnd_port hs, closingDrainEnd_bay,
    closingDrainEnd_house, fun hup hfind => ⟨s, closingDrainEnd_idle hup hfind, rfl⟩⟩
  · refine ⟨_, editionReady_readies hm hcan, ?_, rfl, fun j hj => ?_, fun n e he => raiseReady_edition _ he⟩
    · have hbit := getBit_setBit_self s.modes.ready b.isLt
      have hmode : (raiseReady (s.boundIn b.val) s).bayMode b.val = .bringUp := hm
      simp only [State.bayReady, hbit, Bool.or_true, Bool.and_true, beq_iff_eq]
      exact hmode
    · exact getBit_setBit_of_ne _ fun h => hj (Fin.ext h)
  · obtain ⟨t, ht, htells, hmodes⟩ := bayNotReady_tells hm hready hlate htold
    refine ⟨t, ht, htells, ?_, ?_⟩
    · rw [hmodes]
      exact getBit_setBit_self _ b.isLt
    · rw [State.bayMode, hmodes]
      exact hm

end Sys2Proof.Machine
end

section
/-! PROOFS. The carrel-folios: where their stores stand, and what leaves them as they are (R11, R23, R69). -/

namespace Sys2Proof.Machine
open Sys2Proof

/-! ## Where a store stands (R11, R23) -/

theorem State.phys_lt (s : State) (b : Nat) {c : Nat} (hc : c < 36) : s.phys b c < 38 := by
  unfold State.phys
  split_ifs <;> omega

/-- Positions of a bay are served by different carrels: no carrel serves two, and C36 and C37 serve as no other's own. -/
theorem State.phys_inj (s : State) (b : Nat) {c d : Nat} (hc : c < 36) (hd : d < 36) (h : s.phys b c = s.phys b d) : c = d := by
  unfold State.phys at h
  grind

/-- Each carrel-folio has a store of its own. -/
theorem State.storeKey_inj (s : State) {j k : Nat} (h : s.storeKey j = s.storeKey k) : j = k := by
  have hpos : ∀ n, keyPos n < 36 := fun n => Nat.mod_lt _ (by decide)
  have hj := s.phys_lt (keyBay j) (hpos j)
  have hk := s.phys_lt (keyBay k) (hpos k)
  have hbay : keyBay j = keyBay k := by simp only [State.storeKey, pkey, keyFolio] at h; omega
  have hfolio : keyFolio j = keyFolio k := by simp only [State.storeKey, pkey, keyFolio] at h ⊢; omega
  have hphys : s.phys (keyBay k) (keyPos j) = s.phys (keyBay k) (keyPos k) := by
    simp only [State.storeKey, pkey, hbay, hfolio] at h; omega
  have hpos := s.phys_inj _ (hpos j) (hpos k) hphys
  simp only [keyBay, keyPos, keyFolio] at hbay hpos hfolio
  omega

theorem State.folio_modFolio (s : State) (k : Nat) (f : FolioSt → FolioSt) (j : Nat) (h : Sparse.rises s.fab.folios = true) :
    (s.modFolio k f).folio j = if j = k then f (s.folio k) else s.folio j := by
  rw [s.modFolio_folio k f j h]
  exact if_congr ⟨s.storeKey_inj, congrArg s.storeKey⟩ rfl rfl

/-- The folio table, and which carrel serves each position, decide what every carrel-folio holds. -/
theorem State.folio_congr {s t : State} (hf : t.fab.folios = s.fab.folios) (hp : ∀ b c, t.phys b c = s.phys b c) (k : Nat) :
    t.folio k = s.folio k := by
  simp only [State.folio, State.storeKey, hf, hp]

theorem State.phys_of_bays {s t : State} (h : t.fab.bays = s.fab.bays) (b c : Nat) : t.phys b c = s.phys b c := by
  unfold State.phys State.bay
  rw [h]

theorem State.folio_of_fab {s t : State} (h : t.fab = s.fab) (k : Nat) : t.folio k = s.folio k :=
  State.folio_congr (congrArg FabSt.folios h) (State.phys_of_bays (congrArg FabSt.bays h)) k

/-- Sorting its events and mirroring the pool's bytes leave the fabric as the command left it. -/
theorem mirror_inOneCycle_fab (f : State → State) (s : State) : (mirror s (inOneCycle f s)).fab = (f s).fab := rfl

/-! ## What leaves every carrel-folio as it is -/

/-- The folio table stands as it was, and each position is served by the carrel that served it. -/
structure State.KeepsFolios (s t : State) : Prop where
  folios : t.fab.folios = s.fab.folios
  rises : Sparse.rises s.fab.bays = true → Sparse.rises t.fab.bays = true
  phys : Sparse.rises s.fab.bays = true → ∀ b c, t.phys b c = s.phys b c

namespace State.KeepsFolios
variable {s t u : State}

theorem of_tables (hf : t.fab.folios = s.fab.folios) (hb : t.fab.bays = s.fab.bays) : s.KeepsFolios t :=
  ⟨hf, fun h => hb ▸ h, fun _ => State.phys_of_bays hb⟩

theorem refl (s : State) : s.KeepsFolios s := of_tables rfl rfl

theorem trans (h : s.KeepsFolios t) (g : t.KeepsFolios u) : s.KeepsFolios u :=
  ⟨g.folios.trans h.folios, fun r => g.rises (h.rises r), fun r b c => (g.phys (h.rises r) b c).trans (h.phys r b c)⟩

theorem foldl {α : Type} {step : State → α → State} (hstep : ∀ (t : State) a, t.KeepsFolios (step t a)) (l : List α) (s : State) :
    s.KeepsFolios (l.foldl step s) := by
  induction l generalizing s with
  | nil => exact refl s
  | cons a l ih => exact (hstep s a).trans (ih _)

/-- A change of a bay's entry that leaves its map leaves the folios. -/
theorem modBay (s : State) (b : Nat) (f : BaySt → BaySt) (h36 : ∀ x, (f x).c36 = x.c36) (h37 : ∀ x, (f x).c37 = x.c37) :
    s.KeepsFolios (s.modBay b f) := by
  refine ⟨rfl, Sparse.rises_put _ _ _ _, fun h a c => ?_⟩
  simp only [State.phys, s.modBay_bay b f a h]
  split_ifs <;> simp_all

theorem folio (h : s.KeepsFolios t) (hb : Sparse.rises s.fab.bays = true) (k : Nat) : t.folio k = s.folio k :=
  State.folio_congr h.folios (h.phys hb) k

end State.KeepsFolios

/-- R98: freeing a folio's channels leaves what the folios hold. -/
theorem freeChannels_keepsFolios (k : Nat) (s : State) : s.KeepsFolios (freeChannels k s) :=
  (State.KeepsFolios.of_tables rfl rfl : s.KeepsFolios (clearChannels k (s.channelsOf k) s)).trans
    (.modBay _ _ _ (fun _ => rfl) fun _ => rfl)

theorem complete_keepsFolios (id : SlipId) (st : BitVec 16) (d : Nat) (l : List Byte) (s : State) :
    s.KeepsFolios (complete id st d l s) := by
  rw [complete_eq]
  exact .of_tables rfl rfl

theorem completeOpt_keepsFolios (id : Option SlipId) (st : BitVec 16) (s : State) : s.KeepsFolios (completeOpt id st s) := by
  cases id with
  | none => exact .refl s
  | some id => exact complete_keepsFolios id st 0 [] s

end Sys2Proof.Machine
end

section
/-! PROOFS. The loader's writes, rewrites and failures (R69, R71, R72, R89, R277). -/

namespace Sys2Proof.Machine
open Sys2Proof

/-! ## The blocks of a copy are read: the loader's own record and the fabric stand (R239 to R244, R262) -/

@[simp] theorem raise_cfg (c : EvClass) (code : BitVec 16) (sub : Nat) (d : List (Nat × Nat)) (s : State) :
    (raise c code sub d s).cfg = s.cfg := by rw [raise_eq c code sub d s]

@[simp] theorem touchNode_cfg (k : Nat) (dirty : Bool) (s : State) : (touchNode k dirty s).cfg = s.cfg := by
  unfold touchNode; split <;> rfl

@[simp] theorem newKey_cfg (v : Nat) (s : State) : (newKey v s).cfg = s.cfg := by
  simp [newKey, info, apply_ite State.cfg]

@[simp] theorem triggerRekey_cfg (v : Nat) (s : State) : (triggerRekey v s).cfg = s.cfg := by
  simp [triggerRekey, apply_ite State.cfg]

@[simp] theorem bumpParent_cfg (k : Nat) (s : State) : (bumpParent k s).cfg = s.cfg := by
  simp [bumpParent, countOverflow, apply_ite State.cfg]

@[simp] theorem evictNode_cfg (e : Nat × Bool) (s : State) : (evictNode e s).cfg = s.cfg := by
  simp [evictNode, apply_ite State.cfg]

@[simp] theorem fetchNode_cfg (k : Nat) (s : State) : (fetchNode k s).cfg = s.cfg := by
  unfold fetchNode
  split
  · exact touchNode_cfg ..
  · dsimp only
    split
    · exact evictNode_cfg ..
    · rfl

theorem walkPage_cfg (page : Nat) (s : State) : (walkPage page [] s).cfg = s.cfg := by
  simp only [walkPage, apply_ite State.cfg, State.modLedger_cfg, ite_self]
  exact foldl_keeps State.cfg _ (fun s l => fetchNode_cfg (nodeOver l page) s) _ s

theorem fetchCopy_cfg (im : FolioImage) (s : State) : (fetchCopy im s).cfg = s.cfg :=
  foldl_keeps State.cfg _ (fun s b => walkPage_cfg (b / 64) s) im.blocks s

theorem fetchCopy_fab (im : FolioImage) (s : State) : (fetchCopy im s).fab = s.fab :=
  congrArg Domains.fab (foldl_domains im.blocks _ s fun s b => walkPage_domains (b / 64) [] s)

/-! ## The end of a write (R69, R71, R89) -/

/-- A carrel-folio whose write from a copy has ended: a reload, or one that keeps the store, is told to the design; a load
initialises the store. `after` gives the state it passes to. -/
def FolioSt.written (c : FolioImage × Option (List Nat)) (keep : Bool) (after : Bool → FolioState) (t : FolioSt) : FolioSt :=
  let u := { t with config := c.1.config, init := c.1.init, struck := [], catalogue := c.2 }
  if t.state == .reloading || keep then { u with state := after (t.state == .reloading), reloaded := true }
  else { u.save c.1.init with state := after false, missed := 0, reloaded := false, faultMask := 0 }

theorem FolioSt.written_sets (c : FolioImage × Option (List Nat)) (keep : Bool) (after : Bool → FolioState) (t : FolioSt) :
    (t.written c keep after).config = c.1.config ∧ (t.written c keep after).init = c.1.init ∧ (t.written c keep after).struck = [] ∧
      (t.written c keep after).state = after (t.state == .reloading) := by
  unfold FolioSt.written
  by_cases h : (t.state == .reloading) = true
  · simp [h]
  · rw [Bool.not_eq_true] at h
    cases keep <;> simp [h, FolioSt.save]

theorem FolioSt.written_reloads (c : FolioImage × Option (List Nat)) {keep : Bool} (after : Bool → FolioState) {t : FolioSt}
    (h : t.state = .reloading ∨ keep = true) :
    (t.written c keep after).store = t.store ∧ (t.written c keep after).reloaded = true := by
  have hc : (t.state == .reloading || keep) = true := by simpa using h
  simp [FolioSt.written, hc]

theorem FolioSt.written_loads (c : FolioImage × Option (List Nat)) {keep : Bool} (after : Bool → FolioState) {t : FolioSt}
    (h : t.state ≠ .reloading) (hk : keep = false) :
    (t.written c keep after).store = c.1.init ∧ (t.written c keep after).parity = stateParity c.1.init ∧
      (t.written c keep after).missed = 0 := by
  simp [FolioSt.written, h, hk, FolioSt.save]

/-- The write's own end, before what it may end besides: its request, and with it an edition's load or a bay's apply. -/
def State.wrote (s : State) (it : LoadItem) (c : FolioImage × Option (List Nat)) : State :=
  let u := (keepCopy it.key c (fetchCopy c.1 s)).modFolio it.key (FolioSt.written c it.keep (s.writtenState it.key))
  { u with
    fab.loads := u.fab.loads.filter fun x => x.key != it.key
    fab.loadsThisFrame := u.fab.loadsThisFrame + u.loadCost (keyBay it.key) }

theorem writeFolio_eq {s : State} {it : LoadItem} {c : FolioImage × Option (List Nat)} (hc : s.copyFor it = some c) :
    writeFolio it s = match (s.wrote it c).fab.reqs.find? (fun r => r.num == it.request) with
      | some r => if (s.wrote it c).fab.loads.any (fun x => x.request == it.request) then s.wrote it c
        else endRequest r (s.wrote it c)
      | none => s.wrote it c := by
  unfold writeFolio
  rw [hc]
  rfl

section
variable (s : State) (it : LoadItem) (c : FolioImage × Option (List Nat))

theorem State.wrote_reqs : (s.wrote it c).fab.reqs = s.fab.reqs := (congrArg FabSt.reqs (fetchCopy_fab c.1 s) :)

theorem State.wrote_loads : (s.wrote it c).fab.loads = s.fab.loads.filter fun x => x.key != it.key :=
  (congrArg (fun f : FabSt => f.loads.filter fun x : LoadItem => x.key != it.key) (fetchCopy_fab c.1 s) :)

theorem State.wrote_bays : (s.wrote it c).fab.bays = s.fab.bays := (congrArg FabSt.bays (fetchCopy_fab c.1 s) :)

theorem State.wrote_phase : (s.wrote it c).cfg.phase = s.cfg.phase := (congrArg CfgSt.phase (fetchCopy_cfg c.1 s) :)

theorem State.wrote_folio (h : Sparse.rises s.fab.folios = true) :
    (s.wrote it c).folio it.key = (s.folio it.key).written c it.keep (s.writtenState it.key) := by
  have hfab : (keepCopy it.key c (fetchCopy c.1 s)).fab = s.fab := fetchCopy_fab c.1 s
  rw [← State.folio_of_fab hfab it.key]
  exact (State.folio_modFolio _ _ _ _ (hfab ▸ h)).trans (if_pos rfl)

end

/-! ## What a request's end leaves of the folios (R267, R377) -/

theorem modCarrel_keepsFolios (k : Nat) (f : CarrelSt → CarrelSt) (s : State) : s.KeepsFolios (s.modCarrel k f) :=
  .of_tables rfl rfl

theorem installRota_keepsFolios (r : RotaRec) (s : State) : s.KeepsFolios (installRota r s) := .of_tables rfl rfl

theorem layerWrite_keepsFolios (a : Nat) (l : List Byte) (s : State) : s.KeepsFolios (layerWrite a l s) := by
  rw [(layerWrite_onlyLayer a l s).1]
  exact .of_tables rfl rfl

theorem applyBaySettings_keepsFolios (b : Nat) (c : BayContent) (s : State) : s.KeepsFolios (applyBaySettings b c s) := by
  unfold applyBaySettings
  extract_lets bay other src banked unset set nums named binds src' bound
  have hbay : s.KeepsFolios bay := .modBay s b _ (fun _ => rfl) fun _ => rfl
  have hbanked : bay.KeepsFolios banked := .of_tables rfl rfl
  have hunset : banked.KeepsFolios unset := .foldl (fun t _ => modCarrel_keepsFolios _ _ t) (List.range 36) banked
  clear_value unset
  have hset : unset.KeepsFolios set := .foldl (fun t r => installRota_keepsFolios r t) c.rotas unset
  clear_value set
  have hbound : set.KeepsFolios bound :=
    .of_tables (by simp only [bound, src', named, addEditions]) (by simp only [bound, src', named, addEditions])
  exact ((((hbay.trans hbanked).trans hunset).trans hset).trans hbound).trans
    (.foldl (fun t _ => layerWrite_keepsFolios _ _ t) c.userInit bound)

theorem layerWrite_cfg (a : Nat) (l : List Byte) (s : State) : (layerWrite a l s).cfg = s.cfg := by
  rw [(layerWrite_onlyLayer a l s).1]

theorem foldl_cfg {α : Type} (l : List α) (f : State → α → State) (s : State) (h : ∀ s a, (f s a).cfg = s.cfg) :
    (l.foldl f s).cfg = s.cfg := foldl_keeps State.cfg f h l s

theorem applyBaySettings_cfg (b : Nat) (c : BayContent) (s : State) : (applyBaySettings b c s).cfg = s.cfg := by
  have hunset : ∀ s : State, ((List.range 36).foldl (fun s p => s.modCarrel (ckey b p) fun t =>
      { t with rota := ⟨false, []⟩, acc := [], cur := 0 }) s).cfg = s.cfg := fun s => foldl_cfg _ _ s fun _ _ => rfl
  have hset : ∀ s : State, (c.rotas.foldl (fun s r => installRota r s) s).cfg = s.cfg :=
    fun s => foldl_cfg _ _ s fun _ _ => rfl
  simp [applyBaySettings, addEditions, foldl_cfg, layerWrite_cfg, hunset, hset]

theorem completeOpt_cfg (id : Option SlipId) (st : BitVec 16) (s : State) : (completeOpt id st s).cfg = s.cfg := by
  cases id with
  | none => rfl
  | some id => exact (congrArg State.cfg (complete_eq id st 0 [] s) :)

/-- The settings of a bay's segments, where its part came with them (R268). -/
def settleBay (b : Bay) (c : Option BayContent) (s : State) : State := c.elim s fun c => applyBaySettings b.val c s

theorem settleBay_keeps (b : Bay) (c : Option BayContent) (s : State) :
    s.KeepsFolios (settleBay b c s) ∧ (settleBay b c s).cfg = s.cfg := by
  cases c with
  | none => exact ⟨.refl s, rfl⟩
  | some c => exact ⟨applyBaySettings_keepsFolios b.val c s, applyBaySettings_cfg b.val c s⟩

/-- The request leaves the loader's list. -/
def LoadReq.drop (r : LoadReq) (s : State) : State := { s with fab.reqs := s.fab.reqs.filter fun x => x.num != r.num }

theorem LoadReq.drop_keepsFolios (r : LoadReq) (s : State) : s.KeepsFolios (r.drop s) := .of_tables rfl rfl

/-- R268: at run time a bay's apply ends with its settings. -/
theorem endRequest_apply {r : LoadReq} {s : State} {b : Bay} {c : Option BayContent} (hk : r.kind = .apply b c)
    (hphase : s.cfg.phase ≠ 4) : endRequest r s = completeOpt r.id St.ok (settleBay b c (r.drop s)) := by
  have hcfg : (completeOpt r.id St.ok (settleBay b c (r.drop s))).cfg.phase ≠ 4 := by
    rw [completeOpt_cfg, (settleBay_keeps b c (r.drop s)).2]
    exact hphase
  have hend : endRequest r s = if (completeOpt r.id St.ok (settleBay b c (r.drop s))).cfg.phase = 4 then
      beginBays (completeOpt r.id St.ok (settleBay b c (r.drop s))).cfg.applyRest
        (completeOpt r.id St.ok (settleBay b c (r.drop s)))
      else completeOpt r.id St.ok (settleBay b c (r.drop s)) := by
    unfold endRequest
    rw [hk]
    cases c <;> rfl
  rw [hend, if_neg hcfg]

/-- The end of a request, unless it goes on with a stream's next bay, leaves every folio. -/
theorem endRequest_keepsFolios {r : LoadReq} {s : State} (h : s.cfg.phase ≠ 4 ∨ ∀ b c, r.kind ≠ .apply b c) :
    s.KeepsFolios (endRequest r s) := by
  have hdrop := r.drop_keepsFolios s
  cases hk : r.kind with
  | apply b c =>
    rw [endRequest_apply hk (h.resolve_right fun h => h b c hk)]
    exact (hdrop.trans (settleBay_keeps b c _).1).trans (completeOpt_keepsFolios ..)
  | folios =>
    unfold endRequest
    rw [hk]
    exact hdrop.trans (completeOpt_keepsFolios ..)
  | edition n =>
    unfold endRequest
    rw [hk]
    dsimp only
    split
    · exact hdrop.trans (completeOpt_keepsFolios ..)
    · split
      · refine .trans ?_ (complete_keepsFolios ..)
        exact .of_tables rfl rfl
      · exact .of_tables rfl rfl

theorem writeFolio_folio {s : State} {it : LoadItem} {c : FolioImage × Option (List Nat)} (hs : s.wf = true)
    (hc : s.copyFor it = some c)
    (hend : s.cfg.phase ≠ 4 ∨ (∃ x ∈ s.fab.loads, x.request = it.request ∧ x.key ≠ it.key) ∨
      ∀ r ∈ s.fab.reqs, r.num = it.request → ∀ b c, r.kind ≠ .apply b c) :
    (writeFolio it s).folio it.key = (s.folio it.key).written c it.keep (s.writtenState it.key) := by
  rw [writeFolio_eq hc, ← s.wrote_folio it c (s.wf_fab_folios hs)]
  split
  · next r hr =>
    split
    · rfl
    · next hlast =>
      refine (endRequest_keepsFolios ?_).folio (by rw [State.wrote_bays]; exact s.wf_fab_bays hs) _
      rw [State.wrote_phase]
      rw [State.wrote_reqs] at hr
      rw [State.wrote_loads] at hlast
      refine hend.imp_right fun h => ?_
      rcases h with ⟨x, hx, hreq, hkey⟩ | h
      · exact absurd (List.any_eq_true.mpr ⟨x, List.mem_filter.mpr ⟨hx, by simpa using hkey⟩, by simpa using hreq⟩) hlast
      · exact h r (List.mem_of_find?_eq_some hr) (by simpa using List.find?_some hr)
  · rfl

/-! ## A copy that cannot be read (R228, R277) -/

/-- What the slips and the log hold, and the loader's lists. -/
def State.loaderLists (s : State) : SlipSt × LogSt × List LoadItem × List LoadReq := (s.slips, s.log, s.fab.loads, s.fab.reqs)

theorem returnFolios_lists (num : Nat) (s : State) : (returnFolios num s).loaderLists =
    (s.slips, s.log, s.fab.loads.filter (fun x => x.request != num), s.fab.reqs) :=
  foldl_keeps State.loaderLists (fun s (x : LoadItem) => s.modFolio x.key fun t => { t with state := x.prior })
    (fun _ _ => rfl) _ _

theorem unloadEdition_lists (n : Nat) (s : State) : (unloadEdition n s).loaderLists = s.loaderLists := by
  unfold unloadEdition
  split
  · rfl
  · exact foldl_keeps State.loaderLists (fun s k => freeChannels k s) (fun _ _ => rfl) _ _

/-- What a load that ends early undoes besides its folios: its edition is archived again. -/
def LoadKind.unload (k : LoadKind) (s : State) : State :=
  match k with
  | .edition n => unloadEdition n s
  | _ => s

theorem LoadKind.unload_lists (k : LoadKind) (s : State) : (k.unload s).loaderLists = s.loaderLists := by
  cases k with
  | edition n => exact unloadEdition_lists n s
  | folios => rfl
  | apply b c => rfl

/-- The bus error as the store reports it. -/
def State.copyFails (s : State) (b : Bay) : State :=
  let free := Config.freeValue s.frame.freeCount
  sideUncorrectable 0x38 (0x1F000000 + free.toNat % 2 ^ 23) (free.toNat / 2 ^ 32 % 256) false
    { s.useFree with
      modes.autos := s.modes.autos ++ if s.bayMode b.val == Mode.service then [(.bay b, .holdover)] else [] }

theorem State.copyFails_told (s : State) (b : Bay) : (s.copyFails b).told .alarm 0x0802 0x38 := raise_told ..

theorem State.copyFails_fab (s : State) (b : Bay) : (s.copyFails b).fab = s.fab :=
  (congrArg Domains.fab (raise_domains ..) :)

/-- The report leaves every channel and every ring. -/
theorem State.copyFails_slips (s : State) (b : Bay) :
    (s.copyFails b).slips = { s.slips with msix := (s.copyFails b).slips.msix } :=
  (congrArg State.slips (raise_eq ..) :)

/-- The slip of a request whose copy cannot be read completes once the request and its loads are gone from the lists. -/
theorem archiveError_completes {s : State} {b : Bay} {it : LoadItem} {r : LoadReq} {id : SlipId}
    (hr : s.fab.reqs.find? (fun r => r.num == it.request) = some r) (hid : r.id = some id) :
    ∃ u : State, archiveError b it s = complete id St.uncorrectable 0 [] u ∧ u.loaderLists =
      ((s.copyFails b).slips, (s.copyFails b).log, s.fab.loads.filter (fun x => x.request != r.num),
        s.fab.reqs.filter fun x => x.num != r.num) := by
  have hfab := s.copyFails_fab b
  have hlists := returnFolios_lists r.num (r.drop (s.copyFails b))
  have hdrop : (r.drop (s.copyFails b)).fab = { s.fab with reqs := s.fab.reqs.filter fun x => x.num != r.num } := by
    simp only [LoadReq.drop, hfab]
  rw [hdrop] at hlists
  have hfind : (s.copyFails b).fab.reqs.find? (fun r => r.num == it.request) = some r := by rw [hfab]; exact hr
  refine ⟨r.kind.unload (returnFolios r.num (r.drop (s.copyFails b))), ?_, (LoadKind.unload_lists ..).trans hlists⟩
  unfold archiveError
  change (match (s.copyFails b).fab.reqs.find? (fun r => r.num == it.request) with
    | none => _
    | some r => _) = _
  rw [hfind]
  simp only [hid]
  rfl

theorem complete_log (id : SlipId) (st : BitVec 16) (d : Nat) (l : List Byte) (s : State) (h : s.ringGone id = false) :
    (complete id st d l s).log = s.log := by
  have hr : ∀ f, (s.modChan id.ch.val f).ringGone id = false := fun _ => h
  unfold complete
  simp only [hr, Bool.false_eq_true, if_false]
  rw [queueReply_eq]
  rfl

/-- What a command completed has completed when it has ended. -/
theorem mirror_completed (f : State → State) (s : State) (id : SlipId) (st : BitVec 16) (l : List Byte)
    (h : (f s).completed id st l) : (mirror s (inOneCycle f s)).completed id st l := h

/-- R277: the request is gone with its loads, its slip has completed UNCORRECTABLE, and the store's alarm tells of it. -/
theorem archiveReadError_completes {s : State} {b : Bay} {it : LoadItem} {r : LoadReq} {id : SlipId} (hs : s.wf = true)
    (hit : s.fab.loads.find? (fun x => keyBay x.key == b.val) = some it)
    (hr : s.fab.reqs.find? (fun r => r.num == it.request) = some r) (hid : r.id = some id) (hring : s.ringGone id = false) :
    ∃ t, exec (.archiveReadError b) s = .next t ∧ t.completed id St.uncorrectable [] ∧ t.told .alarm 0x0802 0x38 ∧
      (∀ x ∈ t.fab.loads, x.request ≠ it.request) ∧ ∀ x ∈ t.fab.reqs, x.num ≠ it.request := by
  obtain ⟨u, he, hu⟩ := archiveError_completes (b := b) hr hid
  obtain ⟨hslips, hu⟩ := Prod.mk.inj hu
  obtain ⟨hlog, hu⟩ := Prod.mk.inj hu
  obtain ⟨hloads, hreqs⟩ := Prod.mk.inj hu
  rw [s.copyFails_slips b] at hslips
  have hgone : u.ringGone id = false := by
    unfold State.ringGone State.ring
    rw [hslips]
    exact hring
  have hlen : id.ch.val < u.slips.chans.length := by
    rw [hslips]
    exact (s.wf_slips_chans hs).symm ▸ id.ch.isLt
  have hnum : r.num = it.request := by simpa using List.find?_some hr
  let f : State → State := archiveError b it
  have hdone : (f s).completed id St.uncorrectable [] := by
    simp only [f, he]
    exact complete_completed id _ 0 [] u hgone (by simp [SlipId.writes, St.uncorrectable, St.ok, St.accepted]) hlen
  have htold : (f s).told .alarm 0x0802 0x38 := by
    simp only [f, he, State.told, complete_log _ _ _ _ _ hgone, hlog]
    exact s.copyFails_told b
  have hfab : (f s).fab = u.fab := by
    simp only [f, he]
    exact congrArg Domains.fab (complete_domains ..)
  refine ⟨mirror s (inOneCycle f s), ?_, mirror_completed f s _ _ _ hdone, mirror_told f s _ _ _ htold, fun x hx => ?_, fun x hx => ?_⟩
  · show execArchiveReadError b s = _
    unfold execArchiveReadError
    rw [hit]
    rfl
  · rw [mirror_inOneCycle_fab, hfab, hloads] at hx
    simpa [hnum] using (List.mem_filter.mp hx).2
  · rw [mirror_inOneCycle_fab, hfab, hreqs] at hx
    simpa [hnum] using (List.mem_filter.mp hx).2

/-! ## The obligation -/

/-- R46, R71: the write of the folio that the loader is at ends as `writeFolio` gives it. -/
theorem folioWriteComplete_writes {s : State} {b : Bay} {c : Pos} {f : Folio} {it : LoadItem}
    (hnext : s.loadNext = some it) (hkey : it.key = fkey b.val c.val f.val) (hwait : it.waiting = false)
    (hfits : s.loadFits it.key = true) (hlost : s.copyLost it = false) :
    exec (.folioWriteComplete b c f) s = .next (mirror s (inOneCycle (writeFolio it) s)) := by
  have hgo : (it.key == fkey b.val c.val f.val && !it.waiting && s.loadFits it.key) = true := by simp [hwait, hfits, ← hkey]
  have hwritten : folioWritten b it s = writeFolio it s := by simp [folioWritten, hlost]
  show execFolioWriteComplete b c f s = _
  unfold execFolioWriteComplete
  rw [hnext]
  refine (run_when hgo _ s).trans ?_
  unfold inOneCycle
  rw [hwritten]

/-- R89: the folio no longer waits, and nothing else is touched. -/
theorem reloadRewriteStart_begins {s : State} {b : Bay} {c : Pos} {f : Folio}
    (h : s.folioActive (fkey b.val c.val f.val) = false) :
    ∃ t, exec (.reloadRewriteStart b c f) s = .next t ∧
      (∀ x ∈ t.fab.loads, x.key = fkey b.val c.val f.val → x.waiting = false) ∧ t = { s with fab.loads := t.fab.loads } := by
  refine ⟨_, done_when (by simp [h]) _ s, fun x hx hkey => ?_, rfl⟩
  obtain ⟨y, -, rfl⟩ := List.mem_map.mp hx
  split_ifs at hkey ⊢
  · rfl
  · contradiction

/-- Settles O15: a write's folio is read back from the state it leaves, past the end of its request (`writeFolio_folio`); a failure
completes its slip once the request and its loads are off the lists (`archiveReadError_completes`). -/
theorem loaderWrites : Obligations.LoaderWrites := by
  unfold Obligations.LoaderWrites
  refine fun s b c f hs => ⟨fun it im cat hnext hkey hwait hfits hlost hcopy hend => ?_, reloadRewriteStart_begins,
    fun it r id hit hr hid hring => archiveReadError_completes hs hit hr hid hring⟩
  have hfolio := writeFolio_folio hs hcopy hend
  obtain ⟨hconfig, hinit, hstruck, hstate⟩ :=
    FolioSt.written_sets (im, cat) it.keep (s.writtenState it.key) (s.folio it.key)
  refine ⟨_, folioWriteComplete_writes hnext hkey hwait hfits hlost, ?_⟩
  rw [State.folio_of_fab (mirror_inOneCycle_fab ..), hfolio]
  exact ⟨hconfig, hinit, hstruck, hstate, FolioSt.written_reloads _ _, FolioSt.written_loads _ _⟩

end Sys2Proof.Machine
end

section
/-! PROOFS. FOLIO_LOAD, EDITION_LOAD and EDITION_RETIRE (R71, R72, R98, R103, R109, R388). -/

namespace Sys2Proof.Machine
open Sys2Proof

/-! ## A slip that changes the fabric and the loader's record -/

/-- t is s but for the fabric, the shelf-reader's record and the loader's. -/
def State.onlyFabric (s t : State) : Prop := t = { s with fab := t.fab, shelf := t.shelf, cfg := t.cfg }

namespace State.onlyFabric
variable {s t u : State}

theorem refl (s : State) : s.onlyFabric s := rfl

theorem trans (h : s.onlyFabric t) (g : t.onlyFabric u) : s.onlyFabric u := by
  unfold State.onlyFabric at *
  rw [g, h]

theorem foldl {α : Type} {step : State → α → State} (hstep : ∀ (t : State) a, t.onlyFabric (step t a)) (l : List α) (s : State) :
    s.onlyFabric (l.foldl step s) := by
  induction l generalizing s with
  | nil => exact refl s
  | cons a l ih => exact (hstep s a).trans (ih _)

end State.onlyFabric

/-- What a slip's start leaves: all that a check of the fabric reads. -/
theorem begun_reads (s : State) (op : BitVec 16) (h : SlipHdr) (p : List Byte) :
    ∃ x g n, s.begun op h p = { s with slips := x, log := g, frame.freeCount := n } := ⟨_, _, _, begun_eq s op h p⟩

/-- A slip that is taken and whose body commits a change of the fabric. -/
theorem slip_fabric {op : BitVec 16} {c : OrdClass} {h : SlipHdr} {p : List Byte} {body : SlipId → State → SlipOut} {s u : State}
    {st : BitVec 16} (ht : s.takes op c h p)
    (hb : body (slipId s op h c) (s.begun op h p) = .ok { state := u, status := st })
    (hu : (s.begun op h p).onlyFabric u) :
    ∃ t, slip op c h p body s = .next t ∧ t.answered op h st [] ∧ (st = St.accepted → t.accepted op h) ∧ t.fab = u.fab ∧
      t.cfg = u.cfg := by
  have hB := begun_eq s op h p
  have hlog : u.log = (s.begun op h p).log := (congrArg State.log hu :)
  obtain ⟨t, he, ha, hacc, ht'⟩ := slip_ok_same ht hb rfl
    ((congrArg (fun s : State => s.slips.chans.length) hu).trans (begun_length s op h p))
    ((congrArg State.queues hu :).trans (congrArg State.queues hB :))
    ((congrArg State.flows hu :).trans (congrArg State.flows hB :))
    (hlog ▸ begun_ring s op h p)
  exact ⟨t, he, ha, fun h => hacc h rfl, (congrArg State.fab ht' :), (congrArg State.cfg ht' :)⟩

/-! ## The loader takes folios for a request (R72, R89) -/

/-- A carrel-folio as the loader takes it. -/
def FolioSt.taken (t : FolioSt) : FolioSt := { t with state := if t.state == .inRota then .reloading else .loading }

section
variable (num : Nat) (keep : Bool)

theorem takeFolio_onlyFabric (k : Nat) (s : State) : s.onlyFabric (takeFolio num keep k s) := rfl

theorem takeFolio_rises (k : Nat) (s : State) (h : Sparse.rises s.fab.folios = true) :
    Sparse.rises (takeFolio num keep k s).fab.folios = true := Sparse.rises_put _ _ _ _ h

theorem takeFolio_folio (k : Nat) (s : State) (j : Nat) (h : Sparse.rises s.fab.folios = true) :
    (takeFolio num keep k s).folio j = if j = k then (s.folio k).taken else s.folio j :=
  s.folio_modFolio k FolioSt.taken j h

/-- The requests and the editions stand. -/
theorem takeFolios_keeps (keys : List Nat) (s : State) :
    (keys.foldl (fun s k => takeFolio num keep k s) s).fab.reqs = s.fab.reqs ∧
    (keys.foldl (fun s k => takeFolio num keep k s) s).fab.editions = s.fab.editions :=
  Prod.mk.inj (foldl_keeps (fun s : State => (s.fab.reqs, s.fab.editions)) (fun s k => takeFolio num keep k s)
    (fun _ _ => rfl) keys s)

/-- A folio named once is taken once; one not named is left. -/
theorem takeFolios_folio (keys : List Nat) (s : State) (h : Sparse.rises s.fab.folios = true) (j : Nat) :
    (keys.foldl (fun s k => takeFolio num keep k s) s).folio j = FolioSt.taken^[keys.count j] (s.folio j) := by
  induction keys generalizing s with
  | nil => rfl
  | cons k keys ih =>
    rw [List.foldl_cons, ih _ (takeFolio_rises num keep k s h), takeFolio_folio num keep k s j h, List.count_cons]
    by_cases hj : j = k
    · subst hj
      simp [Function.iterate_succ_apply]
    · simp [hj, Ne.symm hj]

/-- The loader's list holds each folio taken, with its former state. -/
theorem takeFolios_loads (keys : List Nat) (s : State) (h : Sparse.rises s.fab.folios = true) (hd : keys.Nodup) :
    (∀ x ∈ s.fab.loads, x ∈ (keys.foldl (fun s k => takeFolio num keep k s) s).fab.loads) ∧
    ∀ k ∈ keys, ∃ x ∈ (keys.foldl (fun s k => takeFolio num keep k s) s).fab.loads,
      x.key = k ∧ x.prior = (s.folio k).state ∧ x.request = num := by
  induction keys generalizing s with
  | nil => exact ⟨fun _ hx => hx, fun _ hk => nomatch hk⟩
  | cons a keys ih =>
    obtain ⟨hnot, hd⟩ := List.nodup_cons.mp hd
    obtain ⟨hold, hnew⟩ := ih (takeFolio num keep a s) (takeFolio_rises num keep a s h) hd
    refine ⟨fun x hx => hold x (List.mem_append_left _ hx), fun k hk => ?_⟩
    rcases List.mem_cons.mp hk with rfl | hk
    · exact ⟨_, hold _ (List.mem_append_right _ (List.mem_singleton_self _)), rfl, rfl, rfl⟩
    · have hne : k ≠ a := fun e => hnot (e ▸ hk)
      rw [← (takeFolio_folio num keep a s k h).trans (if_neg hne)]
      exact hnew k hk

end

/-! ## A request and its folios -/

/-- Keys of which repeats are dropped stand once each (log entry 78). -/
theorem nodup_eraseDups (l : List Nat) : l.eraseDups.Nodup := by
  induction hn : l.length using Nat.strong_induction_on generalizing l with
  | _ n ih =>
    cases l with
    | nil => exact List.nodup_nil
    | cons a l =>
      rw [List.eraseDups_cons, List.nodup_cons]
      have hlen : (l.filter fun b => !b == a).length < n := by
        have := l.length_filter_le fun b => !b == a
        simp only [List.length_cons] at hn
        omega
      exact ⟨by simp, ih _ hlen _ rfl⟩

section
variable (kind : LoadKind) (id : Option SlipId) (keys : List Nat) (s : State)

/-- The request joins the loader's list. -/
def State.requested : State :=
  { s with fab.nextReq := s.fab.nextReq + 1, fab.reqs := s.fab.reqs ++ [{ num := s.fab.nextReq, kind := kind, id := id }] }

theorem startLoad_eq : startLoad kind id keys s =
    keys.foldl (fun t k => takeFolio s.fab.nextReq false k t) (s.requested kind id) := rfl

theorem startLoad_onlyFabric : s.onlyFabric (startLoad kind id keys s) := by
  rw [startLoad_eq]
  exact .trans (t := s.requested kind id) rfl (.foldl (fun t k => takeFolio_onlyFabric _ _ k t) keys _)

theorem startLoad_reqs : ∃ r ∈ (startLoad kind id keys s).fab.reqs, r.num = s.fab.nextReq ∧ r.kind = kind := by
  refine ⟨{ num := s.fab.nextReq, kind := kind, id := id }, ?_, rfl, rfl⟩
  rw [startLoad_eq, (takeFolios_keeps ..).1]
  exact List.mem_append_right _ (List.mem_singleton_self _)

theorem startLoad_editions : (startLoad kind id keys s).fab.editions = s.fab.editions := by
  rw [startLoad_eq, (takeFolios_keeps ..).2]
  rfl

variable (h : Sparse.rises s.fab.folios = true)
include h

theorem startLoad_folio (k : Nat) : (startLoad kind id keys s).folio k = FolioSt.taken^[keys.count k] (s.folio k) := by
  rw [startLoad_eq]
  exact takeFolios_folio _ false keys (s.requested kind id) h k

theorem startLoad_loads (hd : keys.Nodup) : ∀ k ∈ keys, ∃ x ∈ (startLoad kind id keys s).fab.loads,
    x.key = k ∧ x.prior = (s.folio k).state ∧ x.request = s.fab.nextReq := by
  rw [startLoad_eq]
  exact (takeFolios_loads s.fab.nextReq false keys (s.requested kind id) h hd).2

end

theorem FolioSt.taken_state (t : FolioSt) : t.taken.state = if t.state = .inRota then .reloading else .loading := by
  unfold FolioSt.taken
  simp

/-- However often it is taken, a folio that was not in rota loads. -/
theorem FolioSt.taken_iterate_state (n : Nat) (t : FolioSt) (h : t.state ≠ .inRota) (hn : 0 < n) :
    (FolioSt.taken^[n] t).state = .loading := by
  induction n generalizing t with
  | zero => omega
  | succ n ih =>
    have hstate : t.taken.state = .loading := by rw [FolioSt.taken_state, if_neg h]
    rw [Function.iterate_succ_apply]
    cases n with
    | zero => exact hstate
    | succ n => exact ih _ (by rw [hstate]; decide) (Nat.succ_pos n)

/-! ## FOLIO_LOAD -/

theorem baysIn_ok {s : State} {l : List Nat} (h : ∀ b ∈ l, modeIn (s.bayMode b) fabricModes = true) : baysIn s l = .ok () := by
  have hall : (l.all fun b => 32 ≤ b || modeIn (s.bayMode b) fabricModes) = true :=
    List.all_eq_true.mpr fun b hb => by simp [h b hb]
  simp [baysIn, need, hall]

theorem need_ok {c : Bool} (h : c = true) (e : SlipErr) : need c e = .ok () := by simp [need, h]

/-- The folios that FOLIO_LOAD names. -/
def namedKeys (p : List Byte) : List Nat :=
  (((List.range (fit p 20 4 (arg p 16 2))).map fun i => 20 + 4 * i).map fun o =>
    fkey (arg p o 1) (arg p (o + 1) 1) (arg p (o + 2) 1)).eraseDups

/-- R70: a folio is reported in the state it holds, or as absent. -/
theorem State.folioState_ne {s : State} {k : Nat} {x : FolioState} (h : (s.folio k).state ≠ x) (hx : x ≠ .absent) :
    s.folioState k ≠ x := by
  unfold State.folioState
  split
  · exact hx.symm
  · exact h

theorem folioLoadBody_ok {p : List Byte} {s : State} (id : SlipId)
    (hmode : ∀ o ∈ (List.range (fit p 20 4 (arg p 16 2))).map (fun i => 20 + 4 * i),
      modeIn (s.bayMode (arg p o 1)) fabricModes = true)
    (hfields : fieldsTo [⟨16, 2, 1 ≤ arg p 16 2 && arg p 16 2 ≤ 1000⟩] 20 p = .ok ())
    (hcount : counted p 16 (arg p 16 2) 1 1000 20 4 = .ok ())
    (hentries : entriesOk 20 4 (arg p 16 2) (fun o => firstBad [(o, arg p o 1 < 32), (o + 1, arg p (o + 1) 1 < 36),
      (o + 2, arg p (o + 2) 1 < 8), (o + 3, arg p (o + 3) 1 == 0)]) = .ok ())
    (hzero : zeroFrom (20 + 4 * arg p 16 2) p = .ok ())
    (hkeys : ∀ k ∈ namedKeys p, (s.folio k).state ≠ .loading ∧ (s.folio k).state ≠ .reloading ∧
      (Sparse.look s.cfg.archive k).isSome = true ∧ s.folioState k ≠ .absent) :
    folioLoadBody p id s = accept (startLoad .folios (some id) (namedKeys p) s) := by
  have hbays : baysIn s (((List.range (fit p 20 4 (arg p 16 2))).map fun i => 20 + 4 * i).map fun o => arg p o 1) = .ok () :=
    baysIn_ok fun b hb => by
      obtain ⟨o, ho, rfl⟩ := List.mem_map.mp hb
      exact hmode o ho
  have hfree : need ((namedKeys p).all fun k => s.folioState k != .loading && s.folioState k != .reloading)
      (fail St.folioBusy) = .ok () := need_ok (List.all_eq_true.mpr fun k hk => by
    obtain ⟨hload, hreload, -, -⟩ := hkeys k hk
    simp [State.folioState_ne hload (by decide), State.folioState_ne hreload (by decide)]) _
  have hcopy : need ((namedKeys p).all fun k => (Sparse.look s.cfg.archive k).isSome && s.folioState k != .absent)
      (fail St.archiveBad) = .ok () := need_ok (List.all_eq_true.mpr fun k hk => by
    obtain ⟨-, -, hsome, habsent⟩ := hkeys k hk
    simp [hsome, habsent]) _
  unfold namedKeys at hfree hcopy
  unfold folioLoadBody
  simp only [hbays, hfields, hcount, hentries, hzero, hfree, hcopy]
  rfl

theorem begun_fab (s : State) (op : BitVec 16) (h : SlipHdr) (p : List Byte) : (s.begun op h p).fab = s.fab :=
  (congrArg State.fab (begun_eq s op h p) :)

/-- R71, R72: each folio named is taken once, and noted with the state it had. -/
theorem folioLoad_takes {s : State} {h : SlipHdr} {p : List Byte} (hs : s.wf = true) (ht : s.takes 0x0403 .ordinary h p)
    (hb : folioLoadBody p (slipId s 0x0403 h .ordinary) (s.begun 0x0403 h p) =
      accept (startLoad .folios (some (slipId s 0x0403 h .ordinary)) (namedKeys p) (s.begun 0x0403 h p))) :
    ∃ t, exec (.folioLoad h p) s = .next t ∧ t.accepted 0x0403 h ∧
      (∀ k ∈ namedKeys p, (t.folio k).state = (if (s.folio k).state = .inRota then .reloading else .loading) ∧
        ∃ x ∈ t.fab.loads, x.key = k ∧ x.prior = (s.folio k).state ∧ x.request = s.fab.nextReq) ∧
      (∃ r ∈ t.fab.reqs, r.num = s.fab.nextReq ∧ r.kind = .folios) ∧ ∀ k, k ∉ namedKeys p → t.folio k = s.folio k := by
  have hfab := begun_fab s 0x0403 h p
  have hrises : Sparse.rises (s.begun 0x0403 h p).fab.folios = true := by rw [hfab]; exact s.wf_fab_folios hs
  have hnodup : (namedKeys p).Nodup := nodup_eraseDups _
  obtain ⟨t, he, -, hacc, htfab, -⟩ := slip_fabric ht hb (startLoad_onlyFabric ..)
  have hfolio : ∀ k, t.folio k = FolioSt.taken^[(namedKeys p).count k] (s.folio k) := fun k => by
    rw [State.folio_of_fab htfab, startLoad_folio _ _ _ _ hrises, State.folio_of_fab hfab]
  refine ⟨t, he, hacc rfl, fun k hk => ⟨?_, ?_⟩, ?_, fun k hk => ?_⟩
  · rw [hfolio, List.count_eq_one_of_mem hnodup hk]
    exact FolioSt.taken_state _
  · have hload := startLoad_loads .folios (some (slipId s 0x0403 h .ordinary)) _ _ hrises hnodup k hk
    rw [State.folio_of_fab hfab, hfab] at hload
    rw [htfab]
    exact hload
  · have hreq := startLoad_reqs .folios (some (slipId s 0x0403 h .ordinary)) (namedKeys p) (s.begun 0x0403 h p)
    rw [hfab] at hreq
    rw [htfab]
    exact hreq
  · rw [hfolio, List.count_eq_zero_of_not_mem hk]
    rfl

/-! ## EDITION_LOAD -/

/-- One entry of a channel allocation comes into force. -/
def grantEntry (s : State) (a : ChanAlloc) : State :=
  (clearChannels a.folioKey a.chans (freeChannels a.folioKey s)).modBay (keyBay a.folioKey) fun t =>
    { t with channels := t.channels ++ [{ a with carries := false }] }

theorem grantChannels_eq (l : List ChanAlloc) (s : State) : grantChannels l s = l.foldl grantEntry s := rfl

theorem grantEntry_keepsFolios (s : State) (a : ChanAlloc) : s.KeepsFolios (grantEntry s a) := by
  have hcleared : (freeChannels a.folioKey s).KeepsFolios (clearChannels a.folioKey a.chans (freeChannels a.folioKey s)) :=
    .of_tables rfl rfl
  exact ((freeChannels_keepsFolios a.folioKey s).trans hcleared).trans (.modBay _ _ _ (fun _ => rfl) fun _ => rfl)

theorem grantEntry_onlyFabric (s : State) (a : ChanAlloc) : s.onlyFabric (grantEntry s a) := by
  have hfreed : s.onlyFabric (freeChannels a.folioKey s) := rfl
  have hcleared : (freeChannels a.folioKey s).onlyFabric (clearChannels a.folioKey a.chans (freeChannels a.folioKey s)) := rfl
  exact (hfreed.trans hcleared).trans rfl

/-- R98: the grant of an edition's channels changes the fabric alone, and leaves every folio and the loader's count. -/
theorem grantChannels_keeps (l : List ChanAlloc) (s : State) : s.KeepsFolios (grantChannels l s) ∧
    s.onlyFabric (grantChannels l s) ∧ (grantChannels l s).fab.nextReq = s.fab.nextReq := by
  rw [grantChannels_eq]
  exact ⟨.foldl grantEntry_keepsFolios l s, .foldl grantEntry_onlyFabric l s,
    foldl_keeps (fun s : State => s.fab.nextReq) grantEntry (fun _ _ => rfl) l s⟩

/-- An edition whose load begins: its channels are granted, and those that share a folio with it are archived again. -/
def State.loadingEdition (s : State) (n : Nat) (e : EditionSt) : State :=
  let u := displace n (s.editionKeys n) (grantChannels e.channels s)
  { u with fab.editions := Sparse.ins u.fab.editions n { e with state := 1 } }

theorem State.loadingEdition_keeps (s : State) (n : Nat) (e : EditionSt) : s.KeepsFolios (s.loadingEdition n e) ∧
    s.onlyFabric (s.loadingEdition n e) ∧ (s.loadingEdition n e).fab.nextReq = s.fab.nextReq := by
  obtain ⟨hkeeps, honly, hnext⟩ := grantChannels_keeps e.channels s
  exact ⟨hkeeps.trans (.of_tables rfl rfl), honly.trans rfl, hnext⟩

theorem State.loadingEdition_edition (s : State) (n : Nat) (e : EditionSt) :
    (s.loadingEdition n e).edition n = some { e with state := 1 } :=
  (Sparse.look_ins _ _ _ _).trans (if_pos rfl)

theorem editionLoadBody_ok {p : List Byte} {s : State} {e : EditionSt} (id : SlipId)
    (hfields : fields [⟨16, 2, arg p 16 2 < 1024⟩] p = .ok ()) (he : s.edition (arg p 16 2) = some e)
    (hmode : ∀ b ∈ s.editionBays (arg p 16 2), modeIn (s.bayMode b) fabricModes = true)
    (hkeys : ∀ k ∈ s.editionKeys (arg p 16 2), (s.folioState k = .empty ∨ s.folioState k = .loaded) ∧ s.inARota k = false ∧
      ((Sparse.look e.copies k).isSome = true ∨ (Sparse.look s.cfg.archive k).isSome = true))
    (hclash : s.channelsClash e.channels = false) :
    editionLoadBody p id s = accept (startLoad (.edition (arg p 16 2)) (some id) (s.editionKeys (arg p 16 2))
      (s.loadingEdition (arg p 16 2) e)) := by
  have hfree : need ((s.editionKeys (arg p 16 2)).all fun k =>
      (s.folioState k == .empty || s.folioState k == .loaded) && !s.inARota k) (fail St.folioBusy) = .ok () :=
    need_ok (List.all_eq_true.mpr fun k hk => by
      obtain ⟨hstate, hrota, -⟩ := hkeys k hk
      simpa [hrota] using hstate) _
  have hcopy : need ((s.editionKeys (arg p 16 2)).all fun k =>
      (Sparse.look e.copies k).isSome || (Sparse.look s.cfg.archive k).isSome) (fail St.archiveBad) = .ok () :=
    need_ok (List.all_eq_true.mpr fun k hk => by
      obtain ⟨-, -, hcopy⟩ := hkeys k hk
      simpa using hcopy) _
  have hchan : need (!s.channelsClash e.channels) (fail St.channelsBusy) = .ok () := need_ok (by simp [hclash]) _
  unfold editionLoadBody
  simp only [baysIn_ok hmode, hfields, he, hfree, hchan, hcopy]
  rfl

/-- R71, R103: the edition and all its folios load. -/
theorem editionLoad_takes {s : State} {h : SlipHdr} {p : List Byte} {e : EditionSt} (hs : s.wf = true)
    (ht : s.takes 0x0404 .ordinary h p)
    (hstates : ∀ k ∈ s.editionKeys (arg p 16 2), s.folioState k = .empty ∨ s.folioState k = .loaded)
    (hb : editionLoadBody p (slipId s 0x0404 h .ordinary) (s.begun 0x0404 h p) =
      accept (startLoad (.edition (arg p 16 2)) (some (slipId s 0x0404 h .ordinary)) (s.editionKeys (arg p 16 2))
        ((s.begun 0x0404 h p).loadingEdition (arg p 16 2) e))) :
    ∃ t, exec (.editionLoad h p) s = .next t ∧ t.accepted 0x0404 h ∧
      (t.edition (arg p 16 2)).map (·.state) = some 1 ∧
      (∀ k ∈ s.editionKeys (arg p 16 2), (t.folio k).state = .loading) ∧
      ∃ r ∈ t.fab.reqs, r.num = s.fab.nextReq ∧ r.kind = .edition (arg p 16 2) := by
  have hfab := begun_fab s 0x0404 h p
  obtain ⟨hkeeps, honly, hnext⟩ := (s.begun 0x0404 h p).loadingEdition_keeps (arg p 16 2) e
  obtain ⟨t, he, -, hacc, htfab, -⟩ := slip_fabric ht hb (honly.trans (startLoad_onlyFabric ..))
  refine ⟨t, he, hacc rfl, ?_, fun k hk => ?_, ?_⟩
  · have hed : t.edition (arg p 16 2) = some { e with state := 1 } := by
      rw [State.edition, htfab, startLoad_editions]
      exact State.loadingEdition_edition ..
    rw [hed]
    rfl
  · have hrises : Sparse.rises ((s.begun 0x0404 h p).loadingEdition (arg p 16 2) e).fab.folios = true := by
      rw [hkeeps.folios, hfab]
      exact s.wf_fab_folios hs
    rw [State.folio_of_fab htfab, startLoad_folio _ _ _ _ hrises,
      hkeeps.folio (by rw [hfab]; exact s.wf_fab_bays hs), State.folio_of_fab hfab]
    refine FolioSt.taken_iterate_state _ _ (fun hrota => ?_) (List.count_pos_iff.mpr hk)
    have hne := hstates k hk
    unfold State.folioState at hne
    split at hne <;> simp_all
  · have hreq := startLoad_reqs (.edition (arg p 16 2)) (some (slipId s 0x0404 h .ordinary)) (s.editionKeys (arg p 16 2))
      ((s.begun 0x0404 h p).loadingEdition (arg p 16 2) e)
    rw [hnext, hfab] at hreq
    rw [htfab]
    exact hreq

/-! ## EDITION_RETIRE -/

/-- A carrel-folio gives up its channels and holds what is given: `emptyFolio` with the value of an empty folio left open, whose
configuration bits no proof need compare. -/
def State.vacate (d : FolioSt) (s : State) (k : Nat) : State := freeChannels k (s.modFolio k fun _ => d)

theorem emptyFolios_eq (keys : List Nat) (s : State) : emptyFolios keys s = keys.foldl (State.vacate .dflt) s := rfl

section
variable (d : FolioSt) (s : State)

theorem State.vacate_folio (k j : Nat) (hf : Sparse.rises s.fab.folios = true) (hb : Sparse.rises s.fab.bays = true) :
    (s.vacate d k).folio j = if j = k then d else s.folio j :=
  ((freeChannels_keepsFolios k (s.modFolio k fun _ => d)).folio hb j).trans (s.folio_modFolio k _ j hf)

theorem State.vacate_rises (k : Nat) :
    (Sparse.rises s.fab.folios = true → Sparse.rises (s.vacate d k).fab.folios = true) ∧
    (Sparse.rises s.fab.bays = true → Sparse.rises (s.vacate d k).fab.bays = true) :=
  ⟨Sparse.rises_put _ _ _ _, (freeChannels_keepsFolios k (s.modFolio k fun _ => d)).rises⟩

/-- R98, R109: the folios named hold what is given, and no other is touched. -/
theorem State.vacateAll_folio (keys : List Nat) (hf : Sparse.rises s.fab.folios = true) (hb : Sparse.rises s.fab.bays = true)
    (j : Nat) : (keys.foldl (State.vacate d) s).folio j = if j ∈ keys then d else s.folio j := by
  induction keys generalizing s with
  | nil => rfl
  | cons k keys ih =>
    obtain ⟨hf', hb'⟩ := s.vacate_rises d k
    rw [List.foldl_cons, ih _ (hf' hf) (hb' hb), s.vacate_folio d k j hf hb]
    by_cases hj : j = k <;> simp [hj]

theorem State.vacateAll_keeps (keys : List Nat) : s.onlyFabric (keys.foldl (State.vacate d) s) ∧
    (keys.foldl (State.vacate d) s).fab.editions = s.fab.editions ∧ (keys.foldl (State.vacate d) s).cfg = s.cfg := by
  have h := foldl_keeps (fun s : State => (s.fab.editions, s.cfg)) (State.vacate d) (fun _ _ => rfl) keys s
  exact ⟨.foldl (step := State.vacate d) (fun _ _ => rfl) keys s, Prod.mk.inj h⟩

end

/-- The folios of an edition that is loaded become empty as it is retired. -/
def State.unloaded (s : State) (n : Nat) (e : EditionSt) : State :=
  if e.state == 2 then emptyFolios (s.editionKeys n) s else s

/-- The edition leaves the archive with its copies, or stays in it as archived. -/
def State.retired (s : State) (n : Nat) (e : EditionSt) (gone : Bool) : State :=
  let u := s.unloaded n e
  if gone then { u with
    fab.editions := Sparse.del u.fab.editions n
    cfg.archive := u.cfg.archive.filter fun (k, _) => !(s.editionKeys n).contains k }
  else { u with fab.editions := Sparse.ins u.fab.editions n { e with state := 0, replaced := [] } }

section
variable (s : State) (n : Nat) (e : EditionSt)

theorem State.unloaded_keeps : s.onlyFabric (s.unloaded n e) ∧ (s.unloaded n e).fab.editions = s.fab.editions ∧
    (s.unloaded n e).cfg = s.cfg := by
  unfold State.unloaded
  split
  · rw [emptyFolios_eq]
    exact s.vacateAll_keeps .dflt _
  · exact ⟨.refl s, rfl, rfl⟩

theorem State.retired_onlyFabric (gone : Bool) : s.onlyFabric (s.retired n e gone) := by
  obtain ⟨honly, -, -⟩ := s.unloaded_keeps n e
  cases gone <;> exact honly.trans rfl

/-- With its copies, the edition leaves the archive. -/
theorem State.retired_gone (h : Sparse.rises s.fab.editions = true) : (s.retired n e true).edition n = none ∧
    ∀ k ∈ s.editionKeys n, ∀ x ∈ (s.retired n e true).cfg.archive, x.1 ≠ k := by
  obtain ⟨-, heditions, -⟩ := s.unloaded_keeps n e
  refine ⟨(Sparse.look_del _ n n (heditions ▸ h)).trans (if_pos rfl), fun k hk x hx hkey => ?_⟩
  have hout : (!(s.editionKeys n).contains x.1) = true := (List.mem_filter.mp hx).2
  simp [hkey, hk] at hout

/-- Without them, it is archived. -/
theorem State.retired_archived : ((s.retired n e false).edition n).map (·.state) = some 0 ∧
    (s.retired n e false).cfg.archive = s.cfg.archive := by
  obtain ⟨-, -, hcfg⟩ := s.unloaded_keeps n e
  refine ⟨?_, congrArg CfgSt.archive hcfg⟩
  have hed : (s.retired n e false).edition n = some { e with state := 0, replaced := [] } :=
    (Sparse.look_ins _ _ _ _).trans (if_pos rfl)
  rw [hed]
  rfl

theorem State.retired_folio (gone : Bool) (hf : Sparse.rises s.fab.folios = true) (hb : Sparse.rises s.fab.bays = true)
    (hloaded : e.state = 2) {k : Nat} (hk : k ∈ s.editionKeys n) : (s.retired n e gone).folio k = .dflt := by
  have hempty : (s.unloaded n e).folio k = .dflt := by
    rw [State.unloaded, if_pos (by simp [hloaded]), emptyFolios_eq, s.vacateAll_folio .dflt _ hf hb, if_pos hk]
  cases gone <;> exact hempty

end

/-- An archived edition retires, and a loaded one that no port and no rota holds (R109). -/
theorem editionRetireBody_ok {p : List Byte} {s : State} {e : EditionSt}
    (hfields : fields [⟨16, 2, arg p 16 2 < 1024⟩, ⟨18, 1, arg p 18 1 < 2⟩] p = .ok ())
    (he : s.edition (arg p 16 2) = some e)
    (hmode : ∀ b ∈ s.editionBays (arg p 16 2), modeIn (s.bayMode b) fabricModes = true)
    (hfree : e.state = 0 ∨ (e.state = 2 ∧ (∀ x ∈ s.bindsAhead [], x.2.edition ≠ arg p 16 2 ∧
      x.2.old.map (·.edition) ≠ some (arg p 16 2)) ∧ ∀ k ∈ s.editionKeys (arg p 16 2), s.inARota k = false)) :
    editionRetireBody p s = okSlip (s.retired (arg p 16 2) e (arg p 18 1 == 1)) := by
  have hneed : need (e.state != 1 && (e.state == 0 || (!((s.bindsAhead []).any fun x =>
      x.2.edition == arg p 16 2 || (x.2.old.map (·.edition)) == some (arg p 16 2)) &&
      (s.editionKeys (arg p 16 2)).all fun k => !s.inARota k))) (fail St.folioBusy) = .ok () := by
    refine need_ok ?_ _
    rcases hfree with h0 | ⟨h2, hbinds, hrota⟩
    · simp [h0]
    · have hunbound : ((s.bindsAhead []).any fun x =>
          x.2.edition == arg p 16 2 || (x.2.old.map (·.edition)) == some (arg p 16 2)) = false :=
        List.any_eq_false.mpr fun x hx => by simpa using hbinds x hx
      have hout : ((s.editionKeys (arg p 16 2)).all fun k => !s.inARota k) = true :=
        List.all_eq_true.mpr fun k hk => by simp [hrota k hk]
      simp [h2, hunbound, hout]
  unfold editionRetireBody
  simp only [baysIn_ok hmode, he, Option.isSome_some, Bool.and_true, hfields, hneed]
  by_cases hg : arg p 18 1 = 1
  · rw [beq_iff_eq.mpr hg]
    exact if_pos hg
  · rw [beq_eq_false_iff_ne.mpr hg]
    exact if_neg hg

/-- R109: what a retirement leaves of the edition, of the copies and of the folios. -/
theorem editionRetire_retires {s : State} {h : SlipHdr} {p : List Byte} {e : EditionSt} (hs : s.wf = true)
    (ht : s.takes 0x040A .ordinary h p)
    (hb : editionRetireBody p (s.begun 0x040A h p) =
      okSlip ((s.begun 0x040A h p).retired (arg p 16 2) e (arg p 18 1 == 1))) :
    ∃ t, exec (.editionRetire h p) s = .next t ∧ t.answered 0x040A h St.ok [] ∧
      (arg p 18 1 = 1 → t.edition (arg p 16 2) = none ∧
        ∀ k ∈ s.editionKeys (arg p 16 2), ∀ x ∈ t.cfg.archive, x.1 ≠ k) ∧
      (arg p 18 1 = 0 → (t.edition (arg p 16 2)).map (·.state) = some 0 ∧ t.cfg.archive = s.cfg.archive) ∧
      (e.state = 2 → ∀ k ∈ s.editionKeys (arg p 16 2), t.folio k = .dflt) := by
  have hfab := begun_fab s 0x040A h p
  have hcfg : (s.begun 0x040A h p).cfg = s.cfg := (congrArg State.cfg (begun_eq s 0x040A h p) :)
  have hkeys : (s.begun 0x040A h p).editionKeys (arg p 16 2) = s.editionKeys (arg p 16 2) := by
    simp only [State.editionKeys, State.edition, hfab]
  obtain ⟨t, he, ha, -, htfab, htcfg⟩ := slip_fabric (body := fun _ => editionRetireBody p) ht hb
    (State.retired_onlyFabric ..)
  have hed : t.edition (arg p 16 2) = _ := (congrArg (fun f : FabSt => Sparse.look f.editions (arg p 16 2)) htfab :)
  rw [← hkeys]
  refine ⟨t, he, ha, fun h1 => ?_, fun h0 => ?_, fun hloaded k hk => ?_⟩
  · rw [hed, htcfg, h1]
    exact State.retired_gone _ _ _ (by rw [hfab]; exact s.wf_fab_editions hs)
  · rw [hed, htcfg, h0, ← hcfg]
    exact State.retired_archived ..
  · rw [State.folio_of_fab htfab]
    exact State.retired_folio _ _ _ _ (by rw [hfab]; exact s.wf_fab_folios hs) (by rw [hfab]; exact s.wf_fab_bays hs) hloaded hk

/-! ## The obligation -/

/-- Settles O18: each slip's checks pass, and what its commit leaves is read off the folios taken, granted or emptied. -/
theorem loadAndRetireSlips : Obligations.LoadAndRetireSlips := by
  unfold Obligations.LoadAndRetireSlips
  refine fun s h p hs => ⟨fun ht => ?_, fun e ht hfields he hmode hkeys hclash => ?_, fun e ht hfields he hmode hfree => ?_⟩
  · intro n offs keys hmode hfields hcount hentries hzero hkeys
    refine folioLoad_takes hs ht ?_
    obtain ⟨x, g, m, hB⟩ := begun_reads s 0x0403 h p
    rw [hB]
    exact folioLoadBody_ok _ hmode hfields hcount hentries hzero hkeys
  · refine editionLoad_takes (e := e) hs ht (fun k hk => (hkeys k hk).1) ?_
    obtain ⟨x, g, m, hB⟩ := begun_reads s 0x0404 h p
    rw [hB]
    exact editionLoadBody_ok _ hfields he hmode hkeys hclash
  · refine editionRetire_retires hs ht ?_
    obtain ⟨x, g, m, hB⟩ := begun_reads s 0x040A h p
    rw [hB]
    exact editionRetireBody_ok hfields he hmode hfree

end Sys2Proof.Machine
end

section
/-! PROOFS. ROTA_SET (R45, R93 to R95, R388): what it gathers, abandons, refuses, installs or defers. -/

namespace Sys2Proof.Machine
open Sys2Proof

/-! ## A slip whose check fails and discards what it had gathered -/

theorem slip_discards {op : BitVec 16} {c : OrdClass} {h : SlipHdr} {p : List Byte} {body : SlipId → State → SlipOut} {s : State}
    {e : SlipErr} (ht : s.takes op c h p) (hb : body (slipId s op h c) (s.begun op h p) = .error e)
    (hs : e.status ≠ St.lengthExcess) (hu : (s.begun op h p).onlyFabric (e.discard (s.begun op h p))) :
    ∃ t, slip op c h p body s = .next t ∧ t.answered op h e.status e.result ∧
      t.fab = (e.discard (s.begun op h p)).fab := by
  obtain ⟨hstarts, hheader, hreply, hch⟩ := ht
  have hrun : runSlip op c h p body s =
      queueReply (replyOf (slipId s op h c) e.status e.detail e.result) (e.discard (s.begun op h p)) := by
    have hnot : (e.status == St.lengthExcess) = false := by simp [hs]
    unfold runSlip
    simp only [hstarts, hheader, if_true]
    have hbegun : noteSeq (s.gapIn h) h (startSlip op h p s) = s.begun op h p := rfl
    rw [hbegun, hb]
    simp only [hnot, Bool.false_eq_true, if_false]
  have hlen : h.ch.val < (e.discard (s.begun op h p)).slips.chans.length := by
    rw [congrArg State.slips hu, begun_length]
    exact hch
  refine ⟨_, slip_mirror (hrun.trans (queueReply_eq ..)) ⟨rfl, rfl⟩,
    ⟨replyOf (slipId s op h c) e.status e.detail e.result, ?_, rfl, rfl, rfl, rfl, rfl, rfl, rfl⟩, rfl⟩
  have hw : (slipId s op h c).writes e.status = true := by simp [SlipId.writes, slipId, hreply]
  have hch' : (slipId s op h c).ch = h.ch := rfl
  simp [State.chan, queueReply, replyOf, hw, hch', State.modChan, List.getD, hlen]

/-- Channels, log and the pool's bytes aside, the fabric is what a slip's body left. -/
theorem fab_of_mirror {s t u : State} (h : t = { mirror s u with slips := t.slips, log := t.log }) : t.fab = u.fab :=
  (congrArg State.fab h :)

/-! ## A change that waits for step 4 (R44, R45) -/

/-- A slip's change, with the slip that its end completes, and whether nothing but step 4 is awaited. -/
def slipChange (id : SlipId) (c : Step4) (ends : Option SlipId) (ready : Bool) : Change4 :=
  { ch := id.ch, seq := id.seq, change := c, retries := 0, id := ends, ready := ready }

/-- The change joins those that wait. -/
def State.pends (s : State) (c : Change4) : State := { s with fab.changes := s.fab.changes ++ [c] }

/-! ## The body of ROTA_SET, its checks passed -/

/-- The records of the slip. -/
def rotaRecs (p : List Byte) : List RotaRec := recordsAt p 20 (fit p 20 68 (arg p 18 2))

/-- The channel's pending set with the slip's records added. -/
def State.rotaSet (s : State) (ch : Nat) (p : List Byte) : List RotaRec :=
  (rotaRecs p).foldl addRecord (Sparse.get [] s.fab.pendRota ch)

/-- The channel's pending set is gone. -/
def State.clearRota (s : State) (ch : Nat) : State := { s with fab.pendRota := Sparse.put [] s.fab.pendRota ch [] }

/-- Some bay of the set is not in Bindery, or an earlier commit stands of its channel or for a carrel of it (R45, R95). -/
def State.rotaWaits (s : State) (ch : Channel) (set : List RotaRec) : Prop :=
  (∃ r ∈ set, s.bayMode r.bay ≠ .bindery) ∨
    ∃ c ∈ s.fab.changes, c.ch = ch ∨ ∃ x ∈ c.change.rotasOf, ∃ r ∈ set, x.key = r.key

/-- The checks of ROTA_SET that precede those of a commit pass (R388). -/
structure State.rotaSetFits (s : State) (ch : Nat) (p : List Byte) : Prop where
  fields : fieldsTo [⟨16, 1, arg p 16 1 < 3⟩, ⟨18, 2, arg p 18 2 ≤ 59 && (0 < arg p 18 2 || arg p 16 1 != 0)⟩] 20 p = .ok ()
  count : counted p 18 (arg p 18 2) 0 59 20 68 = .ok ()
  records : entriesOk 20 68 (arg p 18 2) (recordBad p) = .ok ()
  zero : zeroFrom (20 + 68 * arg p 18 2) p = .ok ()
  room : (s.rotaSet ch p).length ≤ 1152
  setBays : ∀ r ∈ s.rotaSet ch p, modeIn (s.bayMode r.bay) fabricModes = true
  recBays : ∀ r ∈ rotaRecs p, modeIn (s.bayMode r.bay) fabricModes = true

/-- What ROTA_SET makes of a set that passes those checks. -/
def rotaSetCommits (flags : Nat) (set : List RotaRec) (id : SlipId) (s : State) : SlipOut :=
  if flags / 2 % 2 == 1 then okSlip (s.clearRota id.ch.val)
  else if !(flags % 2 == 1) then okSlip { s with fab.pendRota := Sparse.put [] s.fab.pendRota id.ch.val set }
  else match s.commitFault set with
    | some st => .error { status := st, discard := fun s => s.clearRota id.ch.val }
    | none =>
      if (set.all fun r => s.bayMode r.bay == .intake || s.bayMode r.bay == .bindery) &&
          !(s.fab.changes.any fun c => c.ch == id.ch || c.change.rotasOf.any fun x => set.any fun r => x.key == r.key) then
        acceptDone (set.foldl (fun s r => installRota r s) (s.clearRota id.ch.val)) St.ok
      else accept ((s.clearRota id.ch.val).pends (slipChange id (.rotas set) (some id) true))

theorem rotaSetBody_fits {s : State} {p : List Byte} {id : SlipId} (h : s.rotaSetFits id.ch.val p) :
    rotaSetBody p id s = rotaSetCommits (arg p 16 1) (s.rotaSet id.ch.val p) id s := by
  have hmode : need ((arg p 18 2 == 0 && arg p 16 1 / 2 % 2 == 1 && !(arg p 16 1 % 2 == 1)) ||
      (if arg p 16 1 % 2 == 1 then s.rotaSet id.ch.val p else rotaRecs p).all fun r =>
        32 ≤ r.bay || modeIn (s.bayMode r.bay) fabricModes) (fail St.modeConflict) = .ok () := by
    refine need_ok ?_ _
    rw [Bool.or_eq_true]
    refine .inr (List.all_eq_true.mpr fun r hr => ?_)
    have hbay : modeIn (s.bayMode r.bay) fabricModes = true := by
      split at hr
      · exact h.setBays r hr
      · exact h.recBays r hr
    simp [hbay]
  have hroom : need (decide ((s.rotaSet id.ch.val p).length ≤ 1152)) (bad 18) = .ok () := need_ok (by simpa using h.room) _
  unfold State.rotaSet rotaRecs at hmode hroom
  unfold rotaSetBody
  simp only [hmode, h.fields, h.count, h.records, h.zero, hroom]
  rfl

section
variable (set : List RotaRec) (id : SlipId) (s : State)

theorem rotaSetCommits_abandon : rotaSetCommits 2 set id s = okSlip (s.clearRota id.ch.val) := rfl

theorem rotaSetCommits_gather :
    rotaSetCommits 0 set id s = okSlip { s with fab.pendRota := Sparse.put [] s.fab.pendRota id.ch.val set } := rfl

variable {set s}

theorem rotaSetCommits_fault {st : BitVec 16} (hf : s.commitFault set = some st) :
    rotaSetCommits 1 set id s = .error { status := st, discard := fun s => s.clearRota id.ch.val } := by
  simp [rotaSetCommits, hf]

variable (hf : s.commitFault set = none)
include hf

theorem rotaSetCommits_installs (hw : ¬s.rotaWaits id.ch set) :
    rotaSetCommits 1 set id s = acceptDone (set.foldl (fun s r => installRota r s) (s.clearRota id.ch.val)) St.ok := by
  obtain ⟨hbays, hahead⟩ := not_or.mp hw
  push Not at hbays hahead
  have hgo : ((set.all fun r => s.bayMode r.bay == .intake || s.bayMode r.bay == .bindery) &&
      !(s.fab.changes.any fun c => c.ch == id.ch || c.change.rotasOf.any fun x => set.any fun r => x.key == r.key)) = true := by
    simp only [Bool.and_eq_true, List.all_eq_true, Bool.not_eq_true', List.any_eq_false, Bool.or_eq_true, List.any_eq_true,
      beq_iff_eq, not_or, not_exists, not_and]
    exact ⟨fun r hr => .inr (hbays r hr), fun c hc => ⟨(hahead c hc).1, fun x hx r hr => (hahead c hc).2 x hx r hr⟩⟩
  simp only [rotaSetCommits, hf, hgo]
  rfl

theorem rotaSetCommits_defers (hm : ∀ r ∈ set, modeIn (s.bayMode r.bay) fabricModes = true) (hw : s.rotaWaits id.ch set) :
    rotaSetCommits 1 set id s = accept ((s.clearRota id.ch.val).pends (slipChange id (.rotas set) (some id) true)) := by
  have hstop : ((set.all fun r => s.bayMode r.bay == .intake || s.bayMode r.bay == .bindery) &&
      !(s.fab.changes.any fun c => c.ch == id.ch || c.change.rotasOf.any fun x => set.any fun r => x.key == r.key)) = false := by
    rw [Bool.and_eq_false_iff]
    rcases hw with ⟨r, hr, hbay⟩ | ⟨c, hc, hahead⟩
    · refine .inl (List.all_eq_false.mpr ⟨r, hr, ?_⟩)
      have hintake : s.bayMode r.bay ≠ .intake := fun he => absurd (he ▸ hm r hr) (by decide)
      simp [hintake, hbay]
    · refine .inr ?_
      rw [Bool.not_eq_false', List.any_eq_true]
      exact ⟨c, hc, by simpa using hahead⟩
  simp only [rotaSetCommits, hf, hstop]
  rfl

end

/-! ## What is installed at once (R95) -/

theorem installRota_carrel (x : RotaRec) (s : State) (k : Nat) (h : Sparse.rises s.fab.carrels = true) :
    ((installRota x s).carrel k).rota = if k = x.key then x.rota else (s.carrel k).rota := by
  rw [installRota, s.modCarrel_carrel _ _ _ h]
  split <;> simp_all

/-- A rota that no other of the set displaces stands at its carrel. -/
theorem installRotas_rota {r : RotaRec} (l : List RotaRec) (s : State) (h : Sparse.rises s.fab.carrels = true)
    (hr : r ∈ l ∨ (s.carrel r.key).rota = r.rota) (honly : ∀ x ∈ l, x.key = r.key → x = r) :
    ((l.foldl (fun s r => installRota r s) s).carrel r.key).rota = r.rota := by
  induction l generalizing s with
  | nil => exact hr.resolve_left (List.not_mem_nil)
  | cons x l ih =>
    refine ih (installRota x s) (Sparse.rises_put _ _ _ _ h) ?_ fun y hy => honly y (List.mem_cons_of_mem _ hy)
    rw [installRota_carrel x s _ h]
    by_cases hk : r.key = x.key
    · rw [if_pos hk, honly x List.mem_cons_self hk.symm]
      exact .inr rfl
    · rw [if_neg hk]
      refine hr.imp_left fun hr => (List.mem_cons.mp hr).resolve_left ?_
      rintro rfl
      exact hk rfl

/-! ## What each kind of ROTA_SET leaves -/

/-- The slip's own channel has no pending set any more; committed changes and carrels stand. -/
theorem begun_clearRota (s : State) (op : BitVec 16) (h : SlipHdr) (p : List Byte) (ch : Nat)
    (hr : Sparse.rises s.fab.pendRota = true) :
    Sparse.get [] ((s.begun op h p).clearRota ch).fab.pendRota ch = [] ∧
    ((s.begun op h p).clearRota ch).fab.changes = s.fab.changes ∧
    ((s.begun op h p).clearRota ch).fab.carrels = s.fab.carrels := by
  have hfab : ((s.begun op h p).clearRota ch).fab = { s.fab with pendRota := Sparse.put [] s.fab.pendRota ch [] } :=
    congrArg (fun f : FabSt => { f with pendRota := Sparse.put [] f.pendRota ch [] }) (begun_fab s op h p)
  rw [hfab]
  exact ⟨(Sparse.get_put [] s.fab.pendRota ch ch [] hr).trans (if_pos rfl), rfl, rfl⟩

/-- What a commit is checked against, and what waits ahead of it, the slip's start leaves. -/
theorem begun_commitFault (s : State) (op : BitVec 16) (h : SlipHdr) (p : List Byte) (set : List RotaRec) :
    (s.begun op h p).commitFault set = s.commitFault set := by
  obtain ⟨x, g, n, hB⟩ := begun_reads s op h p
  rw [hB]
  rfl

theorem begun_rotaWaits (s : State) (op : BitVec 16) (h : SlipHdr) (p : List Byte) (ch : Channel) (set : List RotaRec) :
    (s.begun op h p).rotaWaits ch set ↔ s.rotaWaits ch set := by
  obtain ⟨x, g, n, hB⟩ := begun_reads s op h p
  rw [hB]
  rfl

section
variable {s : State} {h : SlipHdr} {p : List Byte} (hfits : s.rotaSetFits h.ch.val p)
include hfits

/-- The body sees of the fabric and of the modes what the slip found. -/
theorem rotaSetBody_begun : rotaSetBody p (slipId s 0x0401 h .ordinary) (s.begun 0x0401 h p) =
    rotaSetCommits (arg p 16 1) (s.rotaSet h.ch.val p) (slipId s 0x0401 h .ordinary) (s.begun 0x0401 h p) := by
  obtain ⟨x, g, n, hB⟩ := begun_reads s 0x0401 h p
  rw [hB]
  exact rotaSetBody_fits ⟨hfits.fields, hfits.count, hfits.records, hfits.zero, hfits.room, hfits.setBays, hfits.recBays⟩

variable (ht : s.takes 0x0401 .ordinary h p) (hrises : Sparse.rises s.fab.pendRota = true)
include ht hrises

theorem rotaSet_abandons (hfl : arg p 16 1 = 2) :
    ∃ t, exec (.rotaSet h p) s = .next t ∧ t.answered 0x0401 h St.ok [] ∧ Sparse.get [] t.fab.pendRota h.ch.val = [] := by
  have hb := rotaSetBody_begun hfits
  rw [hfl, rotaSetCommits_abandon] at hb
  obtain ⟨t, he, ha, -, hfab, -⟩ := slip_fabric ht hb rfl
  refine ⟨t, he, ha, ?_⟩
  rw [hfab]
  exact (begun_clearRota s _ h p _ hrises).1

theorem rotaSet_gathers (hfl : arg p 16 1 = 0) :
    ∃ t, exec (.rotaSet h p) s = .next t ∧ t.answered 0x0401 h St.ok [] ∧
      Sparse.get [] t.fab.pendRota h.ch.val = s.rotaSet h.ch.val p ∧ t.fab.changes = s.fab.changes ∧
      t.fab.carrels = s.fab.carrels := by
  have hb := rotaSetBody_begun hfits
  rw [hfl, rotaSetCommits_gather] at hb
  obtain ⟨t, he, ha, -, hfab, -⟩ := slip_fabric ht hb rfl
  rw [begun_fab] at hfab
  refine ⟨t, he, ha, ?_, by rw [hfab], by rw [hfab]⟩
  rw [hfab]
  exact (Sparse.get_put _ _ _ _ _ hrises).trans (if_pos rfl)

theorem rotaSet_refuses {st : BitVec 16} (hfl : arg p 16 1 = 1) (hf : s.commitFault (s.rotaSet h.ch.val p) = some st)
    (hst : st ≠ St.lengthExcess) :
    ∃ t, exec (.rotaSet h p) s = .next t ∧ t.answered 0x0401 h st [] ∧ Sparse.get [] t.fab.pendRota h.ch.val = [] ∧
      t.fab.changes = s.fab.changes ∧ t.fab.carrels = s.fab.carrels := by
  have hb := rotaSetBody_begun hfits
  rw [hfl, rotaSetCommits_fault _ ((begun_commitFault ..).trans hf)] at hb
  obtain ⟨t, he, ha, hfab⟩ := slip_discards ht hb hst rfl
  refine ⟨t, he, ha, ?_⟩
  rw [hfab]
  exact begun_clearRota s 0x0401 h p h.ch.val hrises

theorem rotaSet_installs (hs : s.wf = true) (hfl : arg p 16 1 = 1) (hf : s.commitFault (s.rotaSet h.ch.val p) = none)
    (hw : ¬s.rotaWaits h.ch (s.rotaSet h.ch.val p)) (hring : s.ringGone (slipId s 0x0401 h .ordinary) = false) :
    ∃ t, exec (.rotaSet h p) s = .next t ∧ t.answered 0x0401 h St.accepted [] ∧
      t.completed (slipId s 0x0401 h .ordinary) St.ok [] ∧ Sparse.get [] t.fab.pendRota h.ch.val = [] ∧
      ∀ r ∈ s.rotaSet h.ch.val p, (∀ x ∈ s.rotaSet h.ch.val p, x.key = r.key → x = r) → (t.carrel r.key).rota = r.rota := by
  have hb := rotaSetBody_begun hfits
  rw [hfl, rotaSetCommits_installs _ ((begun_commitFault ..).trans hf) ((begun_rotaWaits ..).not.mpr hw)] at hb
  obtain ⟨hslips, hpend⟩ := Prod.mk.inj (foldl_keeps (fun s : State => (s.slips, s.fab.pendRota)) (fun s r => installRota r s)
    (fun _ _ => rfl) (s.rotaSet h.ch.val p) ((s.begun 0x0401 h p).clearRota h.ch.val))
  obtain ⟨hclear, -, hcarrels⟩ := begun_clearRota s 0x0401 h p h.ch.val hrises
  have hlen := (congrArg (fun x : SlipSt => x.chans.length) hslips).trans (begun_length s 0x0401 h p)
  have hgone := (congrArg (fun x : SlipSt => { s with slips := x }.ringGone (slipId s 0x0401 h .ordinary)) hslips).trans
    ((begun_ringGone s 0x0401 h p _).trans hring)
  obtain ⟨t, he, ha, hc, ht'⟩ := slip_post ht hb rfl rfl hlen hgone
  have hfab := fab_of_mirror ht'
  refine ⟨t, he, ha, hc, ?_, fun r hr honly => ?_⟩
  · rw [hfab]
    exact (congrArg (Sparse.get [] · h.ch.val) hpend).trans hclear
  · have hcarrel := installRotas_rota (s.rotaSet h.ch.val p) ((s.begun 0x0401 h p).clearRota h.ch.val)
      (hcarrels ▸ s.wf_fab_carrels hs) (.inl hr) honly
    unfold State.carrel at hcarrel ⊢
    rw [hfab]
    exact hcarrel

theorem rotaSet_defers (hfl : arg p 16 1 = 1) (hf : s.commitFault (s.rotaSet h.ch.val p) = none)
    (hw : s.rotaWaits h.ch (s.rotaSet h.ch.val p)) :
    ∃ t c, exec (.rotaSet h p) s = .next t ∧ t.accepted 0x0401 h ∧ Sparse.get [] t.fab.pendRota h.ch.val = [] ∧
      t.fab.changes = s.fab.changes ++ [c] ∧ c.change = .rotas (s.rotaSet h.ch.val p) ∧ c.ch = h.ch ∧ c.seq = h.seq ∧
      t.fab.carrels = s.fab.carrels := by
  have hb := rotaSetBody_begun hfits
  have hmodes : ∀ r ∈ s.rotaSet h.ch.val p, modeIn ((s.begun 0x0401 h p).bayMode r.bay) fabricModes = true := by
    unfold State.bayMode
    rw [begun_modes]
    exact hfits.setBays
  rw [hfl, rotaSetCommits_defers _ ((begun_commitFault ..).trans hf) hmodes ((begun_rotaWaits ..).mpr hw)] at hb
  obtain ⟨t, he, -, hacc, hfab, -⟩ := slip_fabric ht hb rfl
  obtain ⟨hclear, hchanges, hcarrels⟩ := begun_clearRota s 0x0401 h p h.ch.val hrises
  refine ⟨t, _, he, hacc rfl, ?_, (congrArg FabSt.changes hfab).trans (congrArg (· ++ [_]) hchanges), rfl, rfl, rfl, ?_⟩
  · rw [hfab]; exact hclear
  · rw [hfab]; exact hcarrels

end

/-- Settles O17: the five ways ROTA_SET goes, by its flags, by what a commit's checks find and by what waits ahead of it. -/
theorem rotaSetPendsOrCommits : Obligations.RotaSetPendsOrCommits := by
  unfold Obligations.RotaSetPendsOrCommits
  intro s h p hs ht flags count ch recs set waits hfields hcount hrecords hzero hroom hset hrecs hrises
  have hfits : s.rotaSetFits h.ch.val p := ⟨hfields, hcount, hrecords, hzero, hroom, hset, hrecs⟩
  exact ⟨rotaSet_abandons hfits ht hrises, rotaSet_gathers hfits ht hrises, fun st => rotaSet_refuses hfits ht hrises,
    rotaSet_installs hfits ht hrises hs, rotaSet_defers hfits ht hrises⟩

end Sys2Proof.Machine
end

section
/-! PROOFS. EDITION_BIND, EDITION_SWITCH and BANK_SET, whose changes wait for step 4 (R107, R110, R219, R388). -/

namespace Sys2Proof.Machine
open Sys2Proof

/-! ## A slip that leaves a change to wait -/

theorem slip_pends {op : BitVec 16} {c : OrdClass} {h : SlipHdr} {p : List Byte} {body : SlipId → State → SlipOut} {s : State}
    {st : BitVec 16} {x : Change4} (ht : s.takes op c h p)
    (hb : body (slipId s op h c) (s.begun op h p) = .ok { state := (s.begun op h p).pends x, status := st }) :
    ∃ t, slip op c h p body s = .next t ∧ t.answered op h st [] ∧ (st = St.accepted → t.accepted op h) ∧
      t.fab = { s.fab with changes := s.fab.changes ++ [x] } := by
  obtain ⟨t, he, ha, hacc, hfab, -⟩ := slip_fabric ht hb rfl
  exact ⟨t, he, ha, hacc, hfab.trans (congrArg (fun f : FabSt => { f with changes := f.changes ++ [x] }) (begun_fab s op h p))⟩

theorem need_not_ok {c : Bool} (h : c = false) (e : SlipErr) : need (!c) e = .ok () := need_ok (by simp [h]) e

/-! ## EDITION_BIND (R107) -/

/-- The binding that the slip asks for. -/
def bindOf (p : List Byte) : Step4 := .bind (arg p 16 2) (portEntriesAt p 20 (arg p 19 1))

/-- The ports named that are bound to the edition: those that an unbinding ends (log entry 39). -/
def State.unbindPorts (s : State) (p : List Byte) : List Nat :=
  ((portEntriesAt p 20 (arg p 19 1)).map (·.port)).filter fun q => s.boundTo (arg p 16 2) q

/-- The checks of EDITION_BIND that a binding and an unbinding share. -/
structure State.bindFits (s : State) (p : List Byte) : Prop where
  bays : ∀ b ∈ s.editionBays (arg p 16 2), modeIn (s.bayMode b) fabricModes = true
  fields : fieldsTo [⟨16, 2, arg p 16 2 < 1024⟩, ⟨18, 1, arg p 18 1 < 2⟩, ⟨19, 1, 1 ≤ arg p 19 1 && arg p 19 1 ≤ 144⟩] 20 p = .ok ()
  count : counted p 19 (arg p 19 1) 1 144 20 8 = .ok ()
  zero : zeroFrom (20 + 8 * arg p 19 1) p = .ok ()

/-- And those of a binding. -/
structure State.bindMeets (s : State) (p : List Byte) : Prop extends s.bindFits p where
  ports : entriesOk 20 8 (arg p 19 1) (portEntryBad s (arg p 16 2) p) = .ok ()
  tag : s.tagTaken (arg p 16 2) none = false
  ceilings : entriesOk 20 8 (arg p 19 1) (fun o => firstBad [(o + 2, s.ceilingHolds (portEntryAt p o))]) = .ok ()
  loaded : s.editionIs (arg p 16 2) 2 = true
  attaches : s.attachesFit (s.bindsAhead [bindOf p]) (s.rotaAhead []) ((s.attachKeys (s.bindsAhead [bindOf p])).map (· / 8)) = true

/-- And those of an unbinding. -/
structure State.unbindMeets (s : State) (p : List Byte) : Prop extends s.bindFits p where
  ports : entriesOk 20 8 (arg p 19 1) (fun o => firstBad [(o, arg p o 2 < 144)]) = .ok ()
  free : ∀ q ∈ s.unbindPorts p, s.flowNames q (s.tagOf (arg p 16 2)) = false

section
variable {s : State} {p : List Byte} {id : SlipId}

theorem editionBindBody_binds (hact : arg p 18 1 = 0) (h : s.bindMeets p) :
    editionBindBody p id s = okSlip (s.pends (slipChange id (bindOf p) none true)) := by
  have hattaches := h.attaches
  unfold bindOf at hattaches
  unfold editionBindBody
  simp only [baysIn_ok h.bays, h.fields, h.count, h.zero, if_pos hact, h.ports, need_not_ok h.tag, h.ceilings, need_ok h.loaded,
    need_ok hattaches]
  rfl

theorem editionBindBody_unbinds (hact : arg p 18 1 = 1) (h : s.unbindMeets p) :
    editionBindBody p id s = okSlip (s.pends (slipChange id (.unbind (s.unbindPorts p)) none true)) := by
  have hne : ¬arg p 18 1 = 0 := by omega
  have hfree : need ((s.unbindPorts p).all fun q => !s.flowNames q (s.tagOf (arg p 16 2))) (fail St.flowBusy) = .ok () :=
    need_ok (List.all_eq_true.mpr fun q hq => by simp [h.free q hq]) _
  unfold State.unbindPorts at hfree
  unfold editionBindBody
  simp only [baysIn_ok h.bays, h.fields, h.count, h.zero, if_neg hne, h.ports, hfree]
  rfl

end

/-! ## EDITION_SWITCH (R110) -/

/-- The rotas that the slip brings. -/
def switchRecs (p : List Byte) : List RotaRec :=
  recordsAt p (24 + 8 * arg p 20 1) (fit p (24 + 8 * arg p 20 1) 68 (arg p 21 1))

/-- The switch-in that the slip asks for. -/
def switchOf (p : List Byte) : Step4 :=
  .switch (arg p 16 2) (arg p 18 2) (portEntriesAt p 24 (arg p 20 1)) ((switchRecs p).foldl addRecord [])

/-- The checks of EDITION_SWITCH. -/
structure State.switchMeets (s : State) (p : List Byte) : Prop where
  bays : ∀ b ∈ s.editionBays (arg p 16 2) ++ s.editionBays (arg p 18 2) ++ (switchRecs p).map (·.bay),
    modeIn (s.bayMode b) fabricModes = true
  fields : fieldsTo [⟨16, 2, arg p 16 2 < 1024⟩, ⟨18, 2, arg p 18 2 < 1024⟩, ⟨20, 1, 1 ≤ arg p 20 1 && arg p 20 1 ≤ 9⟩,
    ⟨21, 1, arg p 21 1 ≤ 58⟩] 24 p = .ok ()
  room : 24 + 8 * arg p 20 1 + 68 * arg p 21 1 ≤ 16 + p.length
  ports : entriesOk 24 8 (arg p 20 1) (portEntryBad s (arg p 18 2) p) = .ok ()
  records : entriesOk (24 + 8 * arg p 20 1) 68 (arg p 21 1) (recordBad p) = .ok ()
  zero : zeroFrom (24 + 8 * arg p 20 1 + 68 * arg p 21 1) p = .ok ()
  bound : entriesOk 24 8 (arg p 20 1) (fun o => firstBad [(o, s.boundTo (arg p 16 2) (arg p o 2))]) = .ok ()
  tag : s.tagTaken (arg p 18 2) (some (arg p 16 2)) = false
  loaded : s.editionIs (arg p 18 2) 2 = true
  apart : s.removesSwitching ((switchRecs p).foldl addRecord []) = false
  rotas : s.rotaFault ((switchRecs p).foldl addRecord []) [switchOf p] = none
  attaches : s.attachesFit (s.bindsAhead [switchOf p]) (s.rotaAhead ((switchRecs p).foldl addRecord []))
    ((s.attachKeys (s.bindsAhead [switchOf p])).map (· / 8)) = true

theorem editionSwitchBody_switches {s : State} {p : List Byte} {id : SlipId} (h : s.switchMeets p) :
    editionSwitchBody p id s = accept (s.pends (slipChange id (switchOf p) (some id) true)) := by
  have hroom : 24 + 8 * arg p 20 1 ≤ 16 + p.length := by have := h.room; omega
  obtain ⟨hbays, hfields, hlen, hports, hrecords, hzero, hbound, htag, hloaded, hapart, hrotas, hattaches⟩ := h
  unfold switchOf switchRecs at *
  unfold editionSwitchBody
  simp only [baysIn_ok hbays, hfields, need_ok (decide_eq_true hroom), need_ok (decide_eq_true hlen), hports, hrecords, hzero, hbound,
    need_not_ok htag, need_ok hloaded, need_not_ok hapart, hrotas, need_ok hattaches]
  rfl

/-! ## BANK_SET (R100, R218, R219) -/

theorem bayIn_ok {s : State} {b : Nat} {l : List Mode} (h : modeIn (s.bayMode b) l = true) : bayIn s b l = .ok () :=
  need_ok (by simp [h]) _

/-- The logical bank that the entry at an offset names. -/
def bankKey (p : List Byte) (o : Nat) : Nat := lbank (arg p 16 1) (arg p o 1) (arg p (o + 1) 1)

/-- The settings that the slip brings. -/
def banksOfSlip (p : List Byte) : List (Nat × BankCfg) :=
  ((List.range (arg p 18 2)).map fun i => 20 + 4 * i).map fun o => (bankKey p o, bankCfgOf (arg p (o + 2) 1))

/-- The checks of BANK_SET that settings and an exchange share. -/
structure State.banksFit (s : State) (p : List Byte) : Prop where
  bay : modeIn (s.bayMode (arg p 16 1)) fabricModes = true
  count : counted p 18 (arg p 18 2) 1 144 20 4 = .ok ()
  zero : zeroFrom (20 + 4 * arg p 18 2) p = .ok ()

/-- And those of settings that keep the pool's contents, in Bindery. -/
structure State.banksMeet (s : State) (p : List Byte) : Prop extends s.banksFit p where
  fields : fieldsTo [⟨16, 1, arg p 16 1 < 32⟩, ⟨17, 1, true⟩, ⟨18, 2, 1 ≤ arg p 18 2 && arg p 18 2 ≤ 144⟩] 20 p = .ok ()
  entries : entriesOk 20 4 (arg p 18 2) (bankEntryBad p false) = .ok ()
  shares : entriesOk 20 4 (arg p 18 2) (fun o => firstBad [(o + 2, shareAllowed (bankCfgOf (arg p (o + 2) 1)))]) = .ok ()
  bindery : s.bayMode (arg p 16 1) = .bindery
  minimum : poolHolds (s.banksAhead [.banks (banksOfSlip p)]) = true
  still : s.wordsMove (s.banksAhead []) (s.banksAhead [.banks (banksOfSlip p)]) = false
  sound : ∀ x ∈ banksOfSlip p, x.2.pool = false ∨ x.2.user = 0x13 ∨ s.bankRetired x.1 = false

/-- And those of an exchange of a bank in use for a free one. -/
structure State.exchangeMeets (s : State) (p : List Byte) : Prop extends s.banksFit p where
  two : arg p 18 2 = 2
  fields : fieldsTo [⟨16, 1, arg p 16 1 < 32⟩, ⟨17, 1, true⟩, ⟨18, 2, true⟩] 20 p = .ok ()
  entries : entriesOk 20 4 (arg p 18 2) (bankEntryBad p true) = .ok ()
  oldPool : (Sparse.get .dflt (s.banksAhead []) (bankKey p 20)).pool = true
  newPool : (Sparse.get .dflt (s.banksAhead []) (bankKey p 24)).pool = true
  held : (Sparse.get .dflt (s.banksAhead []) (bankKey p 20)).user = 0x10 ∨
    (Sparse.get .dflt (s.banksAhead []) (bankKey p 20)).user = 0x11
  free : (Sparse.get .dflt (s.banksAhead []) (bankKey p 24)).user = 0x13
  sound : s.bankRetired (bankKey p 24) = false

section
variable {s : State} {p : List Byte} {id : SlipId}

theorem bankSetBody_sets (hexch : arg p 17 1 = 0) (h : s.banksMeet p) :
    bankSetBody p id s = okSlip (s.pends (slipChange id (.banks (banksOfSlip p)) none true)) := by
  have hexch' : (arg p 17 1 == 1) = false := by simp [hexch]
  have hflag : decide (arg p 17 1 < 2) = true := by simp [hexch]
  have hsound : need ((banksOfSlip p).all fun (k, v) => !v.pool || v.user == 0x13 || !s.bankRetired k) (fail St.bankInUse) = .ok () :=
    need_ok (List.all_eq_true.mpr fun x hx => by simpa [or_assoc] using h.sound x hx) _
  have hminimum := h.minimum
  have hstill := h.still
  unfold banksOfSlip bankKey at hsound hminimum hstill
  unfold bankSetBody
  simp only [bayIn_ok h.bay, hexch', hflag, Bool.not_false, Bool.true_or, Bool.and_true, h.fields, h.count, h.entries, h.zero, h.shares,
    h.bindery, beq_self_eq_true, Bool.or_true, need_ok hminimum, need_not_ok hstill, hsound]
  rfl

theorem bankSetBody_exchanges (hexch : arg p 17 1 = 1) (h : s.exchangeMeets p) :
    bankSetBody p id s = accept (s.pends (slipChange id (.exchange (bankKey p 20) (bankKey p 24)) (some id) false)) := by
  have hexch' : (arg p 17 1 == 1) = true := by simp [hexch]
  have hflag : decide (arg p 17 1 < 2) = true := by simp [hexch]
  have hcount : (decide (1 ≤ arg p 18 2) && decide (arg p 18 2 ≤ 144) && (!true || arg p 18 2 == 2)) = true := by simp [h.two]
  obtain ⟨⟨hbay, hcounted, hzero⟩, -, hfields, hentries, hold, hnew, hheld, hfree, hsound⟩ := h
  have hholds : ((Sparse.get .dflt (s.banksAhead []) (bankKey p 20)).pool &&
      ((Sparse.get .dflt (s.banksAhead []) (bankKey p 20)).user.toNat == 0x10 ||
        (Sparse.get .dflt (s.banksAhead []) (bankKey p 20)).user.toNat == 0x11)) = true := by
    rcases hheld with hu | hu <;> simp [hold, hu]
  have hspare : ((Sparse.get .dflt (s.banksAhead []) (bankKey p 24)).pool &&
      (Sparse.get .dflt (s.banksAhead []) (bankKey p 24)).user.toNat == 0x13) = true := by simp [hnew, hfree]
  unfold bankKey at *
  unfold bankSetBody
  simp only [bayIn_ok hbay, hexch', hflag, hcount, hfields, hcounted, hentries, hzero, hholds, hspare, Bool.and_self, Bool.true_or,
    if_true, need_not_ok hsound]
  rfl

end

/-! ## What each slip leaves -/

section
variable {s : State} {h : SlipHdr} {p : List Byte}

theorem editionBind_binds (ht : s.takes 0x0405 .ordinary h p) (hact : arg p 18 1 = 0) (hm : s.bindMeets p) :
    ∃ t c, exec (.editionBind h p) s = .next t ∧ t.answered 0x0405 h St.ok [] ∧ t.fab.changes = s.fab.changes ++ [c] ∧
      c.change = bindOf p ∧ c.ch = h.ch ∧ t.fab.binds = s.fab.binds := by
  have hb : editionBindBody p (slipId s 0x0405 h .ordinary) (s.begun 0x0405 h p) =
      okSlip ((s.begun 0x0405 h p).pends (slipChange (slipId s 0x0405 h .ordinary) (bindOf p) none true)) := by
    obtain ⟨x, g, n, hB⟩ := begun_reads s 0x0405 h p
    rw [hB]
    exact editionBindBody_binds hact ⟨⟨hm.bays, hm.fields, hm.count, hm.zero⟩, hm.ports, hm.tag, hm.ceilings, hm.loaded, hm.attaches⟩
  obtain ⟨t, he, ha, -, hfab⟩ := slip_pends ht hb
  exact ⟨t, _, he, ha, by rw [hfab], rfl, rfl, by rw [hfab]⟩

theorem editionBind_unbinds (ht : s.takes 0x0405 .ordinary h p) (hact : arg p 18 1 = 1) (hm : s.unbindMeets p) :
    ∃ t c, exec (.editionBind h p) s = .next t ∧ t.answered 0x0405 h St.ok [] ∧ t.fab.changes = s.fab.changes ++ [c] ∧
      c.change = .unbind (s.unbindPorts p) ∧ t.fab.binds = s.fab.binds := by
  have hb : editionBindBody p (slipId s 0x0405 h .ordinary) (s.begun 0x0405 h p) =
      okSlip ((s.begun 0x0405 h p).pends
        (slipChange (slipId s 0x0405 h .ordinary) (.unbind (s.unbindPorts p)) none true)) := by
    obtain ⟨x, g, n, hB⟩ := begun_reads s 0x0405 h p
    rw [hB]
    exact editionBindBody_unbinds hact ⟨⟨hm.bays, hm.fields, hm.count, hm.zero⟩, hm.ports, hm.free⟩
  obtain ⟨t, he, ha, -, hfab⟩ := slip_pends ht hb
  exact ⟨t, _, he, ha, by rw [hfab], rfl, by rw [hfab]⟩

theorem editionSwitch_switches (ht : s.takes 0x0406 .fencing h p) (hm : s.switchMeets p) :
    ∃ t c, exec (.editionSwitch h p) s = .next t ∧ t.accepted 0x0406 h ∧ t.fab.changes = s.fab.changes ++ [c] ∧
      c.change = switchOf p ∧ c.ch = h.ch ∧ c.seq = h.seq ∧ t.fab.binds = s.fab.binds := by
  have hb : editionSwitchBody p (slipId s 0x0406 h .fencing) (s.begun 0x0406 h p) =
      accept ((s.begun 0x0406 h p).pends
        (slipChange (slipId s 0x0406 h .fencing) (switchOf p) (some (slipId s 0x0406 h .fencing)) true)) := by
    obtain ⟨x, g, n, hB⟩ := begun_reads s 0x0406 h p
    rw [hB]
    exact editionSwitchBody_switches ⟨hm.bays, hm.fields, hm.room, hm.ports, hm.records, hm.zero, hm.bound, hm.tag, hm.loaded,
      hm.apart, hm.rotas, hm.attaches⟩
  obtain ⟨t, he, -, hacc, hfab⟩ := slip_pends ht hb
  exact ⟨t, _, he, hacc rfl, by rw [hfab], rfl, rfl, rfl, by rw [hfab]⟩

theorem bankSet_sets (ht : s.takes 0x0408 .ordinary h p) (hexch : arg p 17 1 = 0) (hm : s.banksMeet p) :
    ∃ t c, exec (.bankSet h p) s = .next t ∧ t.answered 0x0408 h St.ok [] ∧ t.fab.changes = s.fab.changes ++ [c] ∧
      c.change = .banks (banksOfSlip p) ∧ t.fab.banks = s.fab.banks := by
  have hb : bankSetBody p (slipId s 0x0408 h .ordinary) (s.begun 0x0408 h p) =
      okSlip ((s.begun 0x0408 h p).pends
        (slipChange (slipId s 0x0408 h .ordinary) (.banks (banksOfSlip p)) none true)) := by
    obtain ⟨x, g, n, hB⟩ := begun_reads s 0x0408 h p
    rw [hB]
    exact bankSetBody_sets hexch ⟨⟨hm.bay, hm.count, hm.zero⟩, hm.fields, hm.entries, hm.shares, hm.bindery, hm.minimum, hm.still,
      hm.sound⟩
  obtain ⟨t, he, ha, -, hfab⟩ := slip_pends ht hb
  exact ⟨t, _, he, ha, by rw [hfab], rfl, by rw [hfab]⟩

theorem bankSet_exchanges (ht : s.takes 0x0408 .ordinary h p) (hexch : arg p 17 1 = 1) (hm : s.exchangeMeets p) :
    ∃ t c, exec (.bankSet h p) s = .next t ∧ t.accepted 0x0408 h ∧ t.fab.changes = s.fab.changes ++ [c] ∧
      c.change = .exchange (bankKey p 20) (bankKey p 24) ∧ c.ready = false ∧ t.fab.banks = s.fab.banks := by
  have hb : bankSetBody p (slipId s 0x0408 h .ordinary) (s.begun 0x0408 h p) =
      accept ((s.begun 0x0408 h p).pends (slipChange (slipId s 0x0408 h .ordinary) (.exchange (bankKey p 20) (bankKey p 24))
        (some (slipId s 0x0408 h .ordinary)) false)) := by
    obtain ⟨x, g, n, hB⟩ := begun_reads s 0x0408 h p
    rw [hB]
    exact bankSetBody_exchanges hexch ⟨⟨hm.bay, hm.count, hm.zero⟩, hm.two, hm.fields, hm.entries, hm.oldPool, hm.newPool, hm.held,
      hm.free, hm.sound⟩
  obtain ⟨t, he, -, hacc, hfab⟩ := slip_pends ht hb
  exact ⟨t, _, he, hacc rfl, by rw [hfab], rfl, rfl, by rw [hfab]⟩

end

end Sys2Proof.Machine
end

section
/-! PROOFS. The deferred set that is abandoned, and what stood behind it in its channel (R45). -/

namespace Sys2Proof.Machine
open Sys2Proof

/-! ## What has been said stands -/

/-- What has been raised, and what waits to be written on a channel, stands; and no change more waits for step 4. -/
structure State.Stands (s t : State) : Prop where
  changes : t.fab.changes.length ≤ s.fab.changes.length
  waiting : ∀ k r, r ∈ (s.chan k).waiting → r ∈ (t.chan k).waiting
  raised : ∀ e ∈ s.log.raised, e ∈ t.log.raised

namespace State.Stands
variable {s t u : State}

theorem of_parts (hc : t.fab.changes = s.fab.changes) (hs : t.slips = s.slips) (hl : t.log = s.log) : s.Stands t :=
  ⟨by rw [hc], fun k r hr => by unfold State.chan at *; rwa [hs], fun e he => by rwa [hl]⟩

theorem refl (s : State) : s.Stands s := of_parts rfl rfl rfl

theorem trans (h : s.Stands t) (g : t.Stands u) : s.Stands u :=
  ⟨g.changes.trans h.changes, fun k r hr => g.waiting k r (h.waiting k r hr), fun e he => g.raised e (h.raised e he)⟩

theorem foldl {α : Type} {step : State → α → State} (h : s.Stands t) (hstep : ∀ (t : State) a, t.Stands (step t a)) (l : List α) :
    s.Stands (l.foldl step t) := by
  induction l generalizing t with
  | nil => exact h
  | cons a l ih => exact ih (h.trans (hstep t a))

theorem told (h : s.Stands t) {c : EvClass} {code : BitVec 16} {sub : Nat} (g : s.told c code sub) : t.told c code sub := by
  obtain ⟨e, he, hrest⟩ := g
  exact ⟨e, h.raised e he, hrest⟩

theorem completed (h : s.Stands t) {id : SlipId} {st : BitVec 16} {l : List Byte} (g : s.completed id st l) :
    t.completed id st l := by
  obtain ⟨r, hr, hrest⟩ := g
  exact ⟨r, h.waiting _ r hr, hrest⟩

end State.Stands

theorem modBay_stands (b : Nat) (f : BaySt → BaySt) (s : State) : s.Stands (s.modBay b f) := .of_parts rfl rfl rfl

theorem modCarrel_stands (k : Nat) (f : CarrelSt → CarrelSt) (s : State) : s.Stands (s.modCarrel k f) := .of_parts rfl rfl rfl

theorem modFolio_stands (k : Nat) (f : FolioSt → FolioSt) (s : State) : s.Stands (s.modFolio k f) := .of_parts rfl rfl rfl

theorem raise_stands (c : EvClass) (code : BitVec 16) (sub : Nat) (d : List (Nat × Nat)) (s : State) :
    s.Stands (raise c code sub d s) := by
  refine ⟨?_, fun k r hr => ?_, fun e he => ?_⟩
  · rw [raise_eq c code sub d s]
  · rwa [raise_chan]
  · rw [raise_raised]
    exact List.mem_append_left _ he

theorem complete_stands (id : SlipId) (st : BitVec 16) (d : Nat) (l : List Byte) (s : State) : s.Stands (complete id st d l s) := by
  refine ⟨?_, fun k r hr => complete_waiting id st d l s k hr, fun e he => ?_⟩
  · rw [complete_eq]
  · unfold complete
    dsimp only
    split
    · split
      · exact (raise_stands ..).raised e he
      · exact he
    · rw [queueReply_eq]
      exact he

theorem completeOpt_stands (id : Option SlipId) (st : BitVec 16) (s : State) : s.Stands (completeOpt id st s) := by
  cases id with
  | none => exact .refl s
  | some id => exact complete_stands id st 0 [] s

/-! ## What step 4 installs (R95, R110, R219) -/

theorem settleFolios_stands (k : Nat) (r : RotaSt) (s : State) : s.Stands (settleFolios k r s) := by
  unfold settleFolios
  refine .foldl (modBay_stands ..) (fun t f => ?_) _
  exact modFolio_stands ..

theorem installAt_stands (r : RotaRec) (s : State) : s.Stands (installAt r s) := by
  have hset : s.Stands (installRota r s) := modCarrel_stands ..
  unfold installAt
  dsimp only
  split
  · exact hset.trans (settleFolios_stands ..)
  · exact hset

theorem endSwitches_stands (s : State) : s.Stands (endSwitches s) := by
  unfold endSwitches
  refine .foldl ?_ (fun t x => complete_stands ..) _
  exact .of_parts rfl rfl rfl

theorem offerAt_stands (p : Nat) (s : State) : s.Stands (offerAt p s) := by
  unfold offerAt
  dsimp only
  split
  · exact .refl s
  · exact .of_parts rfl rfl rfl

theorem bindPorts_stands (c : Step4) (ports : List Nat) (s : State) : s.Stands (bindPorts c ports s) := by
  unfold bindPorts
  extract_lets joined
  have hjoin : s.Stands joined := by
    refine .foldl (.refl s) (fun t p => ?_) _
    split
    · exact .of_parts rfl rfl rfl
    · exact .refl t
  have hleft : joined.Stands (leaveSwitches ports { joined with fab.binds := bindAfter joined.fab.binds c }) :=
    .of_parts rfl rfl rfl
  exact .foldl ((hjoin.trans hleft).trans (endSwitches_stands _)) (fun t p => offerAt_stands p t) _

theorem installChange_stands (c : Change4) (s : State) : s.Stands (installChange c s) := by
  have hrotas : ∀ (rs : List RotaRec) (t : State), t.Stands (rs.foldl (fun s r => installAt r s) t) :=
    fun rs t => .foldl (.refl t) (fun t r => installAt_stands r t) rs
  unfold installChange
  cases hc : c.change with
  | rotas rs => exact (hrotas rs s).trans (completeOpt_stands ..)
  | bind n ports => exact bindPorts_stands ..
  | unbind ports => exact bindPorts_stands ..
  | switch old succ ports rs =>
    have hbound := (bindPorts_stands (.switch old succ ports rs) (ports.map (·.port)) s).trans (hrotas rs _)
    refine hbound.trans ?_
    dsimp only
    generalize rs.foldl (fun s r => installAt r s) _ = u
    cases u.edition succ <;> cases c.id <;> exact .of_parts rfl rfl rfl
  | banks bs => exact .of_parts rfl rfl rfl
  | exchange a b =>
    refine .trans ?_ (completeOpt_stands ..)
    exact .of_parts rfl rfl rfl
  | calendar p prot ord => exact .of_parts rfl rfl rfl

theorem installAll_stands (cs : List Change4) (s : State) : s.Stands (installAll cs s) := by
  have hrest : s.Stands { s with fab.changes := s.fab.changes.filter fun c => !cs.contains c } :=
    ⟨List.length_filter_le .., fun _ _ hr => hr, fun _ he => he⟩
  exact hrest.foldl (fun t c => installChange_stands c t) cs

/-! ## What the turn into an entry leaves (R74, R87) -/

theorem beginSlice_stands (k : Nat) (w : Word) (s : State) : s.Stands (beginSlice k w s) := .of_parts rfl rfl rfl

theorem noteParity_stands (b c f : Nat) (bad : BitVec 128) (s : State) : s.Stands (noteParity b c f bad s) := by
  unfold noteParity
  split
  · exact .refl s
  · exact (modBay_stands ..).trans (raise_stands ..)

theorem turnIn_stands (b c : Nat) (r : RotaSt) (j : Nat) (u : StoreUpset) (s : State) : s.Stands (turnIn b c r j u s) := by
  unfold turnIn
  extract_lets k f fk th go test idle struck still store bad loaded
  have hstruck : s.Stands struck := modFolio_stands ..
  split
  · have htest : s.Stands test := modCarrel_stands ..
    split
    · exact htest.trans (beginSlice_stands ..)
    · exact htest
  · split
    · have hstill : s.Stands still := hstruck.trans (modCarrel_stands ..)
      split
      · exact hstill.trans (modBay_stands ..)
      · exact hstill
    · have hloaded : s.Stands loaded := hstruck.trans (modCarrel_stands ..)
      exact (hloaded.trans (modFolio_stands ..)).trans (noteParity_stands ..)

theorem beginEntry_stands (restores : List (Nat × StoreUpset)) (k : Nat) (s : State) : s.Stands (beginEntry restores k s) := by
  unfold beginEntry
  extract_lets s1
  have h1 : s.Stands s1 := modCarrel_stands ..
  split
  · exact h1
  · exact h1.trans (turnIn_stands ..)

/-! ## The set is abandoned -/

/-- What stood behind the set in its channel is tried at the same boundary. -/
def tryBehind (ch : Channel) (s : State) : State :=
  let mine := s.installable.filter fun x => x.ch == ch && s.modesAllow x.change
  let s := installAll mine s
  let s := (mine.flatMap fun x => x.change.rotasOf.map RotaRec.key).foldl (fun s k =>
    if s.rotasRun (k / 36) then beginEntry [] k s else s) s
  { s with
    fab.changes := s.fab.changes.map fun x =>
      if s.fab.changes.find? (fun y => y.ch == ch) == some x then { x with retries := x.retries + 1 } else x }

theorem tryBehind_stands (ch : Channel) (s : State) : s.Stands (tryBehind ch s) := by
  unfold tryBehind
  extract_lets mine installed begun
  have hbegun : s.Stands begun := by
    refine .foldl (installAll_stands mine s) (fun t k => ?_) _
    split
    · exact beginEntry_stands ..
    · exact .refl t
  exact hbegun.trans ⟨by rw [List.length_map], fun _ _ hr => hr, fun _ he => he⟩

/-- The status that the abandoned set's slip completes with. -/
def State.abandonStatus (s : State) (c : Change4) : BitVec 16 :=
  if (s.changeFolios c.change).any (fun k => s.folioState k == .empty) then St.folioEmpty else St.folioBusy

theorem abandonChange_eq {s : State} {ch : Channel} {c : Change4} (hfind : s.fab.changes.find? (fun c => c.ch == ch) = some c)
    (hab : s.abandonable c = true) :
    abandonChange ch s = tryBehind ch (warn 0x0404 ch.val [(3, ch.val), (16, c.seq.toNat)]
      (completeOpt c.id (s.abandonStatus c) { s with fab.changes := s.fab.changes.erase c })) := by
  unfold abandonChange
  simp only [hfind, hab]
  rfl

/-- R45: the slip completes, CHANGE_ABANDONED is raised, and the set waits no longer. -/
theorem changeAbandoned_ends {s : State} {ch : Channel} {c : Change4} {id : SlipId}
    (hfind : s.fab.changes.find? (fun c => c.ch == ch) = some c) (hab : s.abandonable c = true) (hid : c.id = some id)
    (hring : s.ringGone id = false) (hch : id.ch.val < s.slips.chans.length) :
    ∃ t, exec (.changeAbandoned ch) s = .next t ∧ t.told .warning 0x0404 ch.val ∧ t.completed id (s.abandonStatus c) [] ∧
      t.fab.changes.length < s.fab.changes.length := by
  let rest : State := { s with fab.changes := s.fab.changes.erase c }
  let ended := complete id (s.abandonStatus c) 0 [] rest
  let warned := warn 0x0404 ch.val [(3, ch.val), (16, c.seq.toNat)] ended
  have hgo : abandonChange ch s = tryBehind ch warned := by
    rw [abandonChange_eq hfind hab, hid]
    rfl
  have hwrites : id.writes (s.abandonStatus c) = true := by
    unfold State.abandonStatus
    split <;> simp [SlipId.writes, St.folioEmpty, St.folioBusy, St.ok, St.accepted]
  have hdone : ended.completed id (s.abandonStatus c) [] := complete_completed id _ 0 [] rest hring hwrites hch
  have hwarned : ended.Stands warned := raise_stands ..
  have htried := tryBehind_stands ch warned
  have hmem : c ∈ s.fab.changes := List.mem_of_find?_eq_some hfind
  have hshort : rest.fab.changes.length < s.fab.changes.length := by
    have hpos := List.length_pos_of_mem hmem
    have herase : rest.fab.changes.length = s.fab.changes.length - 1 := List.length_erase_of_mem hmem
    omega
  refine ⟨mirror s (inOneCycle (abandonChange ch) s), rfl, mirror_told _ _ _ _ _ ?_, mirror_completed _ _ _ _ _ ?_, ?_⟩
  · rw [hgo]
    exact htried.told (raise_told ..)
  · rw [hgo]
    exact (hwarned.trans htried).completed hdone
  · rw [mirror_inOneCycle_fab, hgo]
    exact (((complete_stands ..).trans hwarned).trans htried).changes.trans_lt hshort

/-- Settles O19: each slip's checks pass and its change waits, with bindings and banks as they were; and an abandoned set's completion
and warning stand while what stood behind it is tried (`tryBehind_stands`). -/
theorem bindingsPendOrEnd : Obligations.BindingsPendOrEnd := by
  unfold Obligations.BindingsPendOrEnd
  refine ⟨fun s h p => ⟨fun ht => ?_, fun ht => ?_, fun ht => ?_⟩, fun s ch c id => changeAbandoned_ends⟩
  · intro n count es hbays hfields hcount hzero
    exact ⟨fun hact hports htag hceil hloaded hfit =>
        editionBind_binds ht hact ⟨⟨hbays, hfields, hcount, hzero⟩, hports, htag, hceil, hloaded, hfit⟩,
      fun hact hports hfree => editionBind_unbinds ht hact ⟨⟨hbays, hfields, hcount, hzero⟩, hports, hfree⟩⟩
  · intro old succ np nr es rs recs c4 hbays hfields hroom hports hrecords hzero hbound htag hloaded hapart hrotas hfit
    exact editionSwitch_switches ht
      ⟨hbays, hfields, hroom, hports, hrecords, hzero, hbound, htag, hloaded, hapart, hrotas, hfit⟩
  · intro b count offs key bs cur hbay hcount hzero
    exact ⟨fun hexch hfields hentries hshares hbindery hmin hstill hsound =>
        bankSet_sets ht hexch ⟨⟨hbay, hcount, hzero⟩, hfields, hentries, hshares, hbindery, hmin, hstill, hsound⟩,
      fun hexch htwo hfields hentries hold hnew hheld hfree hsound =>
        bankSet_exchanges ht hexch ⟨⟨hbay, hcount, hzero⟩, htwo, hfields, hentries, hold, hnew, hheld, hfree, hsound⟩⟩

end Sys2Proof.Machine
end

section
/-! PROOFS. A carrel's turn: what it saves of the entry that ran, and what it loads of the entry that follows (R73 to R76, R79, R80,
R87). -/

namespace Sys2Proof.Machine
open Sys2Proof

/-! ## What decides whether an entry waits for a reload (R89) -/

theorem State.reloadIdles_congr {s t : State} (hx : t.crossings = s.crossings) (hf : ∀ k, t.folioState k = s.folioState k) (k : Nat) :
    t.reloadIdles k = s.reloadIdles k := by
  simp only [State.reloadIdles, State.partners, hx, hf]

theorem State.folioState_congr {s t : State} (hb : t.fab.bays = s.fab.bays) (hf : ∀ k, (t.folio k).state = (s.folio k).state)
    (k : Nat) : t.folioState k = s.folioState k := by
  unfold State.folioState State.bay
  rw [hb, hf]

/-- EDITION_READY says nothing of what an edition holds. -/
theorem driveReady_crossings (fk : Nat) (v : Bool) (s : State) : (driveReady fk v s).crossings = s.crossings := by
  have hmap : ∀ (l : Sparse EditionSt) (g : Nat × EditionSt → Nat × EditionSt),
      (∀ x, (g x).2.state = x.2.state ∧ (g x).2.crossings = x.2.crossings) →
      ((l.map g).filter fun x => x.2.state != 0).flatMap (fun x => x.2.crossings) =
        (l.filter fun x => x.2.state != 0).flatMap fun x => x.2.crossings := by
    intro l g hg
    induction l with
    | nil => rfl
    | cons x l ih =>
      obtain ⟨hstate, hcross⟩ := hg x
      simp only [List.map_cons, List.filter_cons, hstate]
      split
      · simp only [List.flatMap_cons, hcross, ih]
      · exact ih
  have hbays : (driveReady fk v s).fab.bays = s.fab.bays := rfl
  unfold State.crossings State.heldEditions
  rw [hbays]
  refine congrArg _ (hmap _ _ fun x => ?_)
  dsimp only
  split <;> exact ⟨rfl, rfl⟩

/-! ## The entry that ran (R74 to R76, R79, R80) -/

/-- A carrel whose entry of n active cycles drove its outputs. -/
def CarrelSt.drives (v : TurnIn) (n : Nat) (x : CarrelSt) : CarrelSt :=
  { x with
    live := v.live
    mesh := (x.mesh &&& ~~~v.drove) ||| (v.mesh &&& v.drove)
    lift := (activeLifts n x.lift v.lifts).getLastD x.lift }

/-- A carrel as its entry leaves it: one that ran has driven its outputs. -/
def CarrelSt.leaves (v : TurnIn) (x : CarrelSt) : CarrelSt :=
  if x.curFolio < 8 ∧ x.idle = false then x.drives v (((x.rota.entries[x.cur]?).map entryLength).getD 0) else x

/-- A folio as its entry leaves it: saved where it ran, missed where it ran as idle. -/
def FolioSt.leaves (v : TurnIn) (idle : Bool) (t : FolioSt) : FolioSt :=
  if idle then { t with missed := sat 255 t.missed 1 }
  else { t.save v.live with missed := 0, reloaded := false, seenMissed := 0, seenReloaded := false, faultMask := 0 }

@[simp] theorem FolioSt.leaves_state (v : TurnIn) (idle : Bool) (t : FolioSt) : (t.leaves v idle).state = t.state := by
  cases idle <;> rfl

/-- Of the fabric, the outputs change their carrel, what its channels hold, and EDITION_READY. -/
theorem leaveOutputs_tables (k f n : Nat) (v : TurnIn) (s : State) :
    (leaveOutputs k f n v s).fab.bays = s.fab.bays ∧ (leaveOutputs k f n v s).fab.folios = s.fab.folios ∧
    (leaveOutputs k f n v s).fab.carrels = (s.modCarrel k (CarrelSt.drives v n)).fab.carrels ∧
    (leaveOutputs k f n v s).crossings = s.crossings := by
  unfold leaveOutputs
  extract_lets ls advanced
  have hfab : ∀ (b : Nat) (t : State), (sampleReady b t).fab = t.fab := fun b t => by
    unfold sampleReady
    split <;> rfl
  have hkeep := foldl_keeps (fun t : State => (t.fab.bays, t.fab.folios, t.fab.carrels, t.fab.editions))
    (advanceChannel (k * 8 + f) ls) (fun _ _ => rfl) (s.channelsOf (k * 8 + f)) s
  simp only [Prod.mk.injEq] at hkeep
  obtain ⟨hbays, hfolios, hcarrels, heditions⟩ := hkeep
  have hcarrel : advanced.carrel k = s.carrel k := congrArg (fun m => Sparse.get CarrelSt.dflt m k) hcarrels
  refine ⟨?_, ?_, ?_, ?_⟩
  · rw [hfab]; exact hbays
  · rw [hfab]; exact hfolios
  · rw [hfab]
    refine Eq.trans (b := Sparse.put .dflt advanced.fab.carrels k (CarrelSt.drives v n (advanced.carrel k))) ?_ ?_
    · rw [hcarrel]
      show Sparse.put .dflt advanced.fab.carrels k _ = _
      rw [hcarrel]
      rfl
    · rw [hcarrel]
      exact congrArg (Sparse.put .dflt · k _) hcarrels
  · have hcross : ∀ (b : Nat) (t : State), (sampleReady b t).crossings = t.crossings := fun b t => by
      unfold State.crossings State.heldEditions
      rw [hfab]
    rw [hcross, driveReady_crossings]
    unfold State.crossings State.heldEditions
    exact congrArg₂ (fun b e => (b.flatMap fun x : Nat × BaySt => x.2.crossings) ++ ((e.filter fun x : Nat × EditionSt =>
      x.2.state != 0).flatMap fun x => x.2.crossings)) hbays heditions

section
variable (k : Nat) (v : TurnIn) (s : State)

/-- The folio of the entry that ends. -/
def State.curFolio (s : State) (k : Nat) : Nat := (s.carrel k).curFolio

/-- The end of a test or idle entry, of a folio's that ran as idle, and of one that ran. -/
theorem turnOut_cases :
    (8 ≤ s.curFolio k ∧ ∃ x y, turnOut k v s = { s with fab.tests := x, stock := y }) ∨
    (s.curFolio k < 8 ∧ (s.carrel k).idle = true ∧
      turnOut k v s = s.modFolio (k * 8 + s.curFolio k) (FolioSt.leaves v true)) ∨
    (s.curFolio k < 8 ∧ (s.carrel k).idle = false ∧
      turnOut k v s = leaveOutputs k (s.curFolio k) ((((s.carrel k).rota.entries[(s.carrel k).cur]?).map entryLength).getD 0) v
        (s.modFolio (k * 8 + s.curFolio k) (FolioSt.leaves v false))) := by
  unfold turnOut
  extract_lets c f
  rcases Nat.lt_or_ge f 8 with hf | hf
  · rw [if_neg (Nat.not_le.mpr hf)]
    cases hi : c.idle with
    | true => exact .inr (.inl ⟨hf, rfl, rfl⟩)
    | false => exact .inr (.inr ⟨hf, rfl, rfl⟩)
  · rw [if_pos hf]
    refine .inl ⟨hf, ?_⟩
    split
    · exact ⟨_, _, rfl⟩
    · exact ⟨_, _, rfl⟩

theorem turnOut_bays : (turnOut k v s).fab.bays = s.fab.bays ∧ (turnOut k v s).crossings = s.crossings := by
  rcases turnOut_cases k v s with ⟨-, x, y, h⟩ | ⟨-, -, h⟩ | ⟨-, -, h⟩
  · rw [h]; exact ⟨rfl, rfl⟩
  · rw [h]; exact ⟨rfl, rfl⟩
  · rw [h]
    obtain ⟨hbays, -, -, hcross⟩ := leaveOutputs_tables k (s.curFolio k)
      ((((s.carrel k).rota.entries[(s.carrel k).cur]?).map entryLength).getD 0) v
      (s.modFolio (k * 8 + s.curFolio k) (FolioSt.leaves v false))
    exact ⟨hbays, hcross⟩

theorem turnOut_carrel (hr : Sparse.rises s.fab.carrels = true) : Sparse.rises (turnOut k v s).fab.carrels = true ∧
    (turnOut k v s).carrel k = (s.carrel k).leaves v := by
  unfold CarrelSt.leaves
  rcases turnOut_cases k v s with ⟨hf, x, y, h⟩ | ⟨hf, hi, h⟩ | ⟨hf, hi, h⟩
  · rw [h, if_neg fun g => absurd g.1 (Nat.not_lt.mpr hf)]
    exact ⟨hr, rfl⟩
  · rw [h, if_neg fun g => absurd g.2 (by simp [hi])]
    exact ⟨hr, rfl⟩
  · obtain ⟨-, -, hcarrels, -⟩ := leaveOutputs_tables k (s.curFolio k)
      ((((s.carrel k).rota.entries[(s.carrel k).cur]?).map entryLength).getD 0) v
      (s.modFolio (k * 8 + s.curFolio k) (FolioSt.leaves v false))
    rw [h, if_pos ⟨hf, hi⟩]
    refine ⟨hcarrels ▸ Sparse.rises_put _ _ _ _ hr, ?_⟩
    exact (congrArg (fun m => Sparse.get CarrelSt.dflt m k) hcarrels).trans ((State.modCarrel_carrel _ k _ k hr).trans (if_pos rfl))

theorem turnOut_folio (hr : Sparse.rises s.fab.folios = true) : Sparse.rises (turnOut k v s).fab.folios = true ∧
    ∀ j, (turnOut k v s).folio j = if s.curFolio k < 8 ∧ j = k * 8 + s.curFolio k then
      (s.folio j).leaves v (s.carrel k).idle else s.folio j := by
  have hmod : ∀ i j, (s.modFolio (k * 8 + s.curFolio k) (FolioSt.leaves v i)).folio j =
      if j = k * 8 + s.curFolio k then (s.folio j).leaves v i else s.folio j := fun i j => by
    rw [s.folio_modFolio _ _ _ hr]
    split
    · next h => rw [h]
    · rfl
  rcases turnOut_cases k v s with ⟨hf, x, y, h⟩ | ⟨hf, hi, h⟩ | ⟨hf, hi, h⟩
  · refine ⟨by rw [h]; exact hr, fun j => ?_⟩
    rw [h, if_neg fun g => absurd g.1 (Nat.not_lt.mpr hf)]
    rfl
  · refine ⟨by rw [h]; exact Sparse.rises_put _ _ _ _ hr, fun j => ?_⟩
    rw [h, hmod, hi]
    simp only [hf, true_and]
  · obtain ⟨hbays, hfolios, -, -⟩ := leaveOutputs_tables k (s.curFolio k)
      ((((s.carrel k).rota.entries[(s.carrel k).cur]?).map entryLength).getD 0) v
      (s.modFolio (k * 8 + s.curFolio k) (FolioSt.leaves v false))
    refine ⟨by rw [h, hfolios]; exact Sparse.rises_put _ _ _ _ hr, fun j => ?_⟩
    rw [h, State.folio_congr hfolios (State.phys_of_bays hbays), hmod, hi]
    simp only [hf, true_and]

end

/-! ## The turn up to the next entry -/

/-- The state in which the entry that ran ends: the turn that ends the frame has made the test of R45. -/
def State.leaving (s : State) (k : Nat) : State :=
  let u := if s.turnAt k == 62499 then testRotas s else s
  readyCorrections (k * 8 + (u.carrel k).curFolio) { u with frame.cycle := s.turnAt k % 250 }

/-- The entry that ran has ended, and the turn is noted. -/
def State.turnedOut (s : State) (k : Nat) (v : TurnIn) : State :=
  (turnOut k v (s.leaving k)).modCarrel k fun x => { x with turned := some (s.turnAt k) }

theorem turnCarrel_eq (b c : Nat) (v : TurnIn) (u : StoreUpset) (s : State) :
    turnCarrel b c v u s = if s.turnAt (ckey b c) == 62499 then s.turnedOut (ckey b c) v
      else turnIn b c ((s.turnedOut (ckey b c) v).carrel (ckey b c)).rota ((s.turnedOut (ckey b c) v).nextEntry (ckey b c)) u
        (s.turnedOut (ckey b c) v) := rfl

theorem State.leaving_fab (s : State) (k : Nat) : (s.leaving k).fab = { s.fab with due := (s.leaving k).fab.due } := by
  unfold State.leaving
  dsimp only
  split <;> rfl

theorem State.leaving_tables (s : State) (k : Nat) : (s.leaving k).fab.bays = s.fab.bays ∧ (s.leaving k).fab.carrels = s.fab.carrels ∧
    (s.leaving k).fab.folios = s.fab.folios ∧ (s.leaving k).fab.editions = s.fab.editions := by
  rw [State.leaving_fab]
  exact ⟨rfl, rfl, rfl, rfl⟩

section
variable {s : State} (hs : s.wf = true) (k : Nat) (v : TurnIn)

theorem State.leaving_carrel (s : State) (k j : Nat) : (s.leaving k).carrel j = s.carrel j := by
  obtain ⟨-, hcarrels, -, -⟩ := s.leaving_tables k
  exact congrArg (fun m => Sparse.get CarrelSt.dflt m j) hcarrels

theorem State.leaving_folio (s : State) (k j : Nat) : (s.leaving k).folio j = s.folio j := by
  obtain ⟨hbays, -, hfolios, -⟩ := s.leaving_tables k
  exact State.folio_congr hfolios (State.phys_of_bays hbays) j

theorem State.modCarrel_crossings (s : State) (k : Nat) (f : CarrelSt → CarrelSt) : (s.modCarrel k f).crossings = s.crossings := rfl

theorem State.turnedOut_bays (s : State) (k : Nat) (v : TurnIn) :
    (s.turnedOut k v).fab.bays = s.fab.bays ∧ (s.turnedOut k v).crossings = s.crossings := by
  obtain ⟨hbays, hcross⟩ := turnOut_bays k v (s.leaving k)
  obtain ⟨hbays', -, -, heditions⟩ := s.leaving_tables k
  rw [State.turnedOut, State.modCarrel_fab_bays, State.modCarrel_crossings, hbays, hcross]
  refine ⟨hbays', ?_⟩
  unfold State.crossings State.heldEditions
  rw [hbays', heditions]

theorem State.modCarrel_folio (s : State) (k : Nat) (f : CarrelSt → CarrelSt) (j : Nat) : (s.modCarrel k f).folio j = s.folio j := rfl

include hs

theorem State.turnedOut_carrel : Sparse.rises (s.turnedOut k v).fab.carrels = true ∧
    (s.turnedOut k v).carrel k = { (s.carrel k).leaves v with turned := some (s.turnAt k) } := by
  obtain ⟨-, hcarrels, -, -⟩ := s.leaving_tables k
  have hr : Sparse.rises (s.leaving k).fab.carrels = true := hcarrels ▸ s.wf_fab_carrels hs
  obtain ⟨hrises, hcarrel⟩ := turnOut_carrel k v (s.leaving k) hr
  unfold State.turnedOut
  refine ⟨Sparse.rises_put _ _ _ _ hrises, ?_⟩
  rw [State.modCarrel_carrel _ _ _ _ hrises, if_pos rfl, hcarrel, State.leaving_carrel]

theorem State.turnedOut_folio : Sparse.rises (s.turnedOut k v).fab.folios = true ∧
    ∀ j, (s.turnedOut k v).folio j = if (s.carrel k).curFolio < 8 ∧ j = k * 8 + (s.carrel k).curFolio then
      (s.folio j).leaves v (s.carrel k).idle else s.folio j := by
  obtain ⟨-, -, hfolios, -⟩ := s.leaving_tables k
  have hr : Sparse.rises (s.leaving k).fab.folios = true := hfolios ▸ s.wf_fab_folios hs
  obtain ⟨hrises, hfolio⟩ := turnOut_folio k v (s.leaving k) hr
  simp only [State.curFolio, State.leaving_carrel, State.leaving_folio] at hfolio
  unfold State.turnedOut
  refine ⟨(State.modCarrel_fab_folios ..).symm ▸ hrises, fun j => ?_⟩
  rw [State.modCarrel_folio, hfolio]

/-- A save leaves whether the next entry waits for a reload. -/
theorem State.turnedOut_reloadIdles (j : Nat) : (s.turnedOut k v).reloadIdles j = s.reloadIdles j := by
  obtain ⟨hbays, hcross⟩ := s.turnedOut_bays k v
  refine State.reloadIdles_congr hcross (State.folioState_congr hbays fun i => ?_) j
  rw [(State.turnedOut_folio hs k v).2 i]
  split <;> simp

end

/-! ## The entry that follows (R74, R76, R79, R87) -/

/-- What a folio's store holds, and how often it was missed. -/
def FolioSt.held (t : FolioSt) : BitVec 4096 × BitVec 128 × Nat := (t.store, t.parity, t.missed)

/-- A carrel in entry j: how the entry runs is left open. -/
def CarrelSt.enters (j : Nat) (idle throttled slicing : Bool) (acc : List Nat) (live : BitVec 4096) (x : CarrelSt) : CarrelSt :=
  { x with cur := j, idle := idle, throttled := throttled, slicing := slicing, acc := acc, live := live }

/-- The folio that an entry names, 8 and more being no folio's. -/
def RotaSt.folioAt (r : RotaSt) (j : Nat) : Nat := ((r.entries[j]?).map entryFolio).getD 8

theorem raise_fab (c : EvClass) (code : BitVec 16) (sub : Nat) (d : List (Nat × Nat)) (s : State) :
    (raise c code sub d s).fab = s.fab := congrArg Domains.fab (raise_domains c code sub d s)

/-- Every carrel stands as it was, and every carrel-folio. -/
def State.sameCarrels (s t : State) : Prop := s.KeepsFolios t ∧ t.fab.carrels = s.fab.carrels

theorem State.sameCarrels.refl (s : State) : s.sameCarrels s := ⟨.refl s, rfl⟩

theorem noteParity_same (b c f : Nat) (bad : BitVec 128) (s : State) : s.sameCarrels (noteParity b c f bad s) := by
  have hwarn : ∀ (sub : Nat) (d : List (Nat × Nat)) (t : State), t.sameCarrels (warn 0x0401 sub d t) := fun sub d t => by
    have hfab : (warn 0x0401 sub d t).fab = t.fab := raise_fab ..
    exact ⟨.of_tables (congrArg FabSt.folios hfab) (congrArg FabSt.bays hfab), congrArg FabSt.carrels hfab⟩
  unfold noteParity
  split
  · exact .refl s
  · refine ⟨.trans (.modBay s b _ ?_ ?_) (hwarn _ _ _).1, (hwarn _ _ _).2⟩
    · exact fun _ => rfl
    · exact fun _ => rfl

theorem noteParity_told (b c f : Nat) {bad : BitVec 128} (s : State) (h : bad ≠ 0) :
    (noteParity b c f bad s).told .warning 0x0401 (b * 38 + s.phys b c) := by
  unfold noteParity
  rw [if_neg h]
  exact raise_told ..

section
variable (b c : Nat) (r : RotaSt) (j : Nat) (u : StoreUpset) (s : State)

/-- The folio's store is read as its upsets left it, into the flip-flops. -/
def State.entersFolio (f : Nat) (acc : List Nat) : State :=
  let struck := s.modFolio (fkey b c f) fun t => t.hit u
  (struck.modCarrel (ckey b c) (CarrelSt.enters j false false false acc (struck.folio (fkey b c f)).store)).modFolio (fkey b c f)
    fun t => { t with seenMissed := t.missed, seenReloaded := t.reloaded, faultMask := (struck.folio (fkey b c f)).badGroups }

/-- A turn into a test or idle entry, into a folio's that idles, and into one that runs. -/
theorem turnIn_cases :
    (8 ≤ r.folioAt j ∧ ∃ go, (s.modCarrel (ckey b c) fun t => t.enters j true false go t.acc t.live).sameCarrels
      (turnIn b c r j u s)) ∨
    (r.folioAt j < 8 ∧ ∃ th acc, ((s.modFolio (fkey b c (r.folioAt j)) fun t => t.hit u).modCarrel (ckey b c) fun t =>
      t.enters j true th false acc t.live).sameCarrels (turnIn b c r j u s)) ∨
    (r.folioAt j < 8 ∧ ∃ acc, (s.entersFolio b c j u (r.folioAt j) acc).sameCarrels (turnIn b c r j u s)) := by
  unfold turnIn
  extract_lets k f fk th go test idle struck still store bad loaded
  rcases Nat.lt_or_ge f 8 with hf | hf
  · rw [if_neg (Nat.not_le.mpr hf)]
    split
    · refine .inr (.inl ⟨hf, th.1, th.2, ?_⟩)
      split
      · refine ⟨.modBay still b _ ?_ ?_, rfl⟩
        · exact fun _ => rfl
        · exact fun _ => rfl
      · exact .refl still
    · exact .inr (.inr ⟨hf, th.2, noteParity_same ..⟩)
  · rw [if_pos hf]
    refine .inl ⟨hf, go, ?_⟩
    split
    · exact ⟨.of_tables rfl rfl, rfl⟩
    · exact .refl test

/-- R76, R79, R87: an entry that is not to be throttled and waits for no reload loads its folio; groups whose parity does not hold
are noted. -/
theorem turnIn_loads (hf : r.folioAt j < 8) (hth : ((r.entries[j]?).map entryThrottle).getD false = false)
    (hload : s.reloadIdles (fkey b c (r.folioAt j)) = false) : ∃ acc, turnIn b c r j u s = noteParity b c (r.folioAt j)
      ((s.modFolio (fkey b c (r.folioAt j)) fun t => t.hit u).folio (fkey b c (r.folioAt j))).badGroups
      (s.entersFolio b c j u (r.folioAt j) acc) := by
  have hnot : (s.throttle (ckey b c) r j (fkey b c (r.folioAt j))).1 = false := by simp [State.throttle, hth]
  unfold turnIn
  extract_lets k f fk th go test idle struck still store bad loaded
  have hfolio : ¬8 ≤ f := Nat.not_le.mpr hf
  have hruns : idle = false := Bool.or_eq_false_iff.mpr ⟨hload, hnot⟩
  rw [if_neg hfolio, hruns]
  exact ⟨th.2, rfl⟩

variable {s}

theorem State.entersFolio_carrel (f : Nat) (acc : List Nat) (hr : Sparse.rises s.fab.carrels = true) :
    ∃ live, (s.entersFolio b c j u f acc).carrel (ckey b c) = (s.carrel (ckey b c)).enters j false false false acc live ∧
      live = ((s.modFolio (fkey b c f) fun t => t.hit u).folio (fkey b c f)).store :=
  ⟨_, (State.modCarrel_carrel (s.modFolio (fkey b c f) fun t => t.hit u) _ _ _ hr).trans (if_pos rfl), rfl⟩

theorem State.entersFolio_folio (f : Nat) (acc : List Nat) (hr : Sparse.rises s.fab.folios = true) (g : Nat) :
    (s.entersFolio b c j u f acc).folio g = if g = fkey b c f then
      { (s.folio (fkey b c f)).hit u with
        seenMissed := (s.folio (fkey b c f)).missed
        seenReloaded := (s.folio (fkey b c f)).reloaded
        faultMask := ((s.folio (fkey b c f)).hit u).badGroups } else s.folio g := by
  have hstruck := fun i => s.folio_modFolio (fkey b c f) (fun t => t.hit u) i hr
  unfold State.entersFolio
  extract_lets struck
  rw [State.folio_modFolio _ _ _ _ (Sparse.rises_put _ _ _ _ hr), State.modCarrel_folio, State.modCarrel_folio, hstruck, if_pos rfl,
    hstruck]
  split
  · rfl
  · rfl

/-- The carrel is in the entry; its rota, its outputs and its latest turn stand. -/
theorem turnIn_carrel (hr : Sparse.rises s.fab.carrels = true) : ∃ i th go acc live,
    (turnIn b c r j u s).carrel (ckey b c) = (s.carrel (ckey b c)).enters j i th go acc live := by
  have hread : ∀ {w t : State}, w.sameCarrels t → t.carrel (ckey b c) = w.carrel (ckey b c) := fun h =>
    congrArg (fun m => Sparse.get CarrelSt.dflt m (ckey b c)) h.2
  rcases turnIn_cases b c r j u s with ⟨-, go, h⟩ | ⟨-, th, acc, h⟩ | ⟨-, acc, h⟩
  · exact ⟨_, _, _, _, _, (hread h).trans ((State.modCarrel_carrel s _ _ _ hr).trans (if_pos rfl))⟩
  · exact ⟨_, _, _, _, _, (hread h).trans ((State.modCarrel_carrel (s.modFolio _ _) _ _ _ hr).trans (if_pos rfl))⟩
  · obtain ⟨live, hlive, -⟩ := State.entersFolio_carrel b c j u (r.folioAt j) acc hr
    exact ⟨_, _, _, _, _, (hread h).trans hlive⟩

/-- Upsets strike the store of the folio that the entry names, and no other's. -/
theorem turnIn_folio (hr : Sparse.rises s.fab.folios = true) (hb : Sparse.rises s.fab.bays = true) (g : Nat) :
    ((turnIn b c r j u s).folio g).held =
      (if r.folioAt j < 8 ∧ g = fkey b c (r.folioAt j) then (s.folio g).hit u else s.folio g).held := by
  rcases turnIn_cases b c r j u s with ⟨hf, go, h⟩ | ⟨hf, th, acc, h⟩ | ⟨hf, acc, h⟩
  · rw [h.1.folio hb, State.modCarrel_folio, if_neg fun hg => absurd hg.1 (Nat.not_lt.mpr hf)]
  · rw [h.1.folio hb, State.modCarrel_folio, s.folio_modFolio _ _ _ hr]
    simp only [hf, true_and]
    split
    · next hg => rw [hg]
    · rfl
  · rw [h.1.folio hb, State.entersFolio_folio b c j u _ _ hr]
    simp only [hf, true_and]
    split
    · next hg => rw [hg]; rfl
    · rfl

/-- R76, R79, R87: the flip-flops take what the upsets left in the store, and the groups whose parity does not hold are shown. -/
theorem turnIn_loaded {f : Nat} (hat : r.folioAt j = f) (hf : f < 8) (hth : ((r.entries[j]?).map entryThrottle).getD false = false)
    (hload : s.reloadIdles (fkey b c f) = false) (hr : Sparse.rises s.fab.folios = true) (hc : Sparse.rises s.fab.carrels = true)
    (hb : Sparse.rises s.fab.bays = true) :
    ((turnIn b c r j u s).carrel (ckey b c)).idle = false ∧
    ((turnIn b c r j u s).carrel (ckey b c)).live = ((s.folio (fkey b c f)).hit u).store ∧
    ((turnIn b c r j u s).folio (fkey b c f)).faultMask = ((s.folio (fkey b c f)).hit u).badGroups ∧
    (((s.folio (fkey b c f)).hit u).badGroups ≠ 0 → (turnIn b c r j u s).told .warning 0x0401 (b * 38 + s.phys b c)) := by
  subst hat
  obtain ⟨acc, hin⟩ := turnIn_loads b c r j u s hf hth hload
  obtain ⟨live, hcarrel, hlive⟩ := State.entersFolio_carrel b c j u (r.folioAt j) acc hc
  rw [s.folio_modFolio _ _ _ hr, if_pos rfl] at hlive hin
  obtain ⟨hfolios, hcarrels⟩ := noteParity_same b c (r.folioAt j) ((s.folio (fkey b c (r.folioAt j))).hit u).badGroups
    (s.entersFolio b c j u (r.folioAt j) acc)
  have hread : (turnIn b c r j u s).carrel (ckey b c) = (s.carrel (ckey b c)).enters j false false false acc live := by
    rw [hin, ← hcarrel]
    exact congrArg (fun m => Sparse.get CarrelSt.dflt m (ckey b c)) hcarrels
  rw [hread]
  refine ⟨rfl, hlive, ?_, fun hbad => ?_⟩
  · rw [hin, hfolios.folio hb, State.entersFolio_folio b c j u _ acc hr, if_pos rfl]
  · rw [hin]
    exact noteParity_told b c _ _ hbad

end

/-! ## A turn that is due (R73) -/

/-- R73: out of its turn's cycle, and where its bay's rotas do not run, a carrel makes no turn. -/
theorem turn_idle {s : State} {b : Bay} {c : Pos} (v : TurnIn) (u : StoreUpset)
    (h : (s.rotasRun b.val && s.turnDue (ckey b.val c.val)) = false) : exec (.turn b c v u) s = .next s := by
  show run (when _ _) s = _
  rw [h]
  exact run_quiet id s rfl rfl rfl

section
variable {s : State} (hs : s.wf = true) (b c : Nat) (v : TurnIn) (u : StoreUpset)

@[simp] theorem CarrelSt.leaves_rota (v : TurnIn) (x : CarrelSt) : (x.leaves v).rota = x.rota := by
  unfold CarrelSt.leaves
  split <;> rfl

@[simp] theorem CarrelSt.leaves_cur (v : TurnIn) (x : CarrelSt) : (x.leaves v).cur = x.cur := by
  unfold CarrelSt.leaves
  split <;> rfl

include hs

/-- But for the frame's last turn, the turn leads on in the rota in force (R94). -/
theorem turnCarrel_next : turnCarrel b c v u s = if s.turnAt (ckey b c) = 62499 then s.turnedOut (ckey b c) v
    else turnIn b c (s.carrel (ckey b c)).rota (s.nextEntry (ckey b c)) u (s.turnedOut (ckey b c) v) := by
  obtain ⟨-, hcarrel⟩ := State.turnedOut_carrel hs (ckey b c) v
  have hnext : (s.turnedOut (ckey b c) v).nextEntry (ckey b c) = s.nextEntry (ckey b c) := by
    simp only [State.nextEntry, hcarrel, CarrelSt.leaves_rota, CarrelSt.leaves_cur]
  simp only [turnCarrel_eq, hnext, hcarrel, CarrelSt.leaves_rota, beq_iff_eq]

/-- The carrel after its turn: in the entry in progress, its outputs as the entry that ran left them. -/
theorem turnCarrel_carrel : ∃ i th go acc live, (turnCarrel b c v u s).carrel (ckey b c) =
    { ((s.carrel (ckey b c)).leaves v).enters (if s.turnAt (ckey b c) = 62499 then
        (s.carrel (ckey b c)).cur else s.nextEntry (ckey b c)) i th go acc live with
      turned := some (s.turnAt (ckey b c)) } := by
  obtain ⟨hr, hcarrel⟩ := State.turnedOut_carrel hs (ckey b c) v
  rw [turnCarrel_next hs]
  by_cases hend : s.turnAt (ckey b c) = 62499
  · rw [if_pos hend, if_pos hend, hcarrel, ← CarrelSt.leaves_cur v]
    exact ⟨_, _, _, _, _, rfl⟩
  · obtain ⟨i, th, go, acc, live, h⟩ := turnIn_carrel b c (s.carrel (ckey b c)).rota (s.nextEntry (ckey b c)) u hr
    rw [if_neg hend, if_neg hend, h, hcarrel]
    exact ⟨i, th, go, acc, live, rfl⟩

/-- R74, R76: a turn changes the folio whose entry ended, and strikes the one that it leads into. -/
theorem turnCarrel_folio (g : Nat) : ((turnCarrel b c v u s).folio g).held =
    (let left := if (s.carrel (ckey b c)).curFolio < 8 ∧ g = fkey b c (s.carrel (ckey b c)).curFolio then
      (s.folio g).leaves v (s.carrel (ckey b c)).idle else s.folio g
    let next := (s.carrel (ckey b c)).rota.folioAt (s.nextEntry (ckey b c))
    if s.turnAt (ckey b c) ≠ 62499 ∧ next < 8 ∧ g = fkey b c next then left.hit u else left).held := by
  obtain ⟨hr, hfolio⟩ := State.turnedOut_folio hs (ckey b c) v
  obtain ⟨hbays, -⟩ := s.turnedOut_bays (ckey b c) v
  have hb : Sparse.rises (s.turnedOut (ckey b c) v).fab.bays = true := hbays ▸ s.wf_fab_bays hs
  rw [turnCarrel_next hs]
  by_cases hend : s.turnAt (ckey b c) = 62499
  · rw [if_pos hend, if_neg fun h => h.1 hend, hfolio]
    rfl
  · rw [if_neg hend, turnIn_folio b c _ _ u hr hb, hfolio]
    simp only [ne_eq, hend, not_false_eq_true, true_and]
    rfl

/-- The folio of the entry that ended, after the turn. -/
theorem turnCarrel_own (hf : (s.carrel (ckey b c)).curFolio < 8) :
    ((turnCarrel b c v u s).folio (fkey b c (s.carrel (ckey b c)).curFolio)).held =
    (let left := (s.folio (fkey b c (s.carrel (ckey b c)).curFolio)).leaves v (s.carrel (ckey b c)).idle
    if s.turnAt (ckey b c) ≠ 62499 ∧ ((s.carrel (ckey b c)).rota.entries[s.nextEntry (ckey b c)]?).map entryFolio =
      some (s.carrel (ckey b c)).curFolio then left.hit u else left).held := by
  have hagain : ∀ o : Option Nat, ((o.getD 8) < 8 ∧ fkey b c (s.carrel (ckey b c)).curFolio = fkey b c (o.getD 8)) ↔
      o = some (s.carrel (ckey b c)).curFolio := fun o => by
    cases o with
    | none => simp
    | some f =>
      simp only [Option.getD_some, fkey, Nat.add_left_cancel_iff, Option.some.injEq]
      exact ⟨fun h => h.2.symm, fun h => ⟨h ▸ hf, h.symm⟩⟩
  rw [turnCarrel_folio hs]
  simp only [hf, and_self, if_true, RotaSt.folioAt, hagain]

/-- R76, R79, R87: the folio that the turn leads into, loaded as the upsets of its store left it. -/
theorem turnCarrel_loads {w : Word} (hend : s.turnAt (ckey b c) ≠ 62499)
    (hinto : (s.carrel (ckey b c)).rota.entries[s.nextEntry (ckey b c)]? = some w) (hf : entryFolio w < 8)
    (hth : entryThrottle w = false) (hload : s.reloadIdles (fkey b c (entryFolio w)) = false) :
    let t := (if (s.carrel (ckey b c)).curFolio = entryFolio w then
        (s.folio (fkey b c (entryFolio w))).leaves v (s.carrel (ckey b c)).idle else s.folio (fkey b c (entryFolio w))).hit u
    ((turnCarrel b c v u s).carrel (ckey b c)).idle = false ∧
    ((turnCarrel b c v u s).carrel (ckey b c)).live = t.store ∧
    ((turnCarrel b c v u s).folio (fkey b c (entryFolio w))).faultMask = t.badGroups ∧
    (t.badGroups ≠ 0 → (turnCarrel b c v u s).told .warning 0x0401 (b * 38 + s.phys b c)) := by
  intro t
  obtain ⟨hr, hfolio⟩ := State.turnedOut_folio hs (ckey b c) v
  obtain ⟨hc, -⟩ := State.turnedOut_carrel hs (ckey b c) v
  obtain ⟨hbays, -⟩ := s.turnedOut_bays (ckey b c) v
  have hb : Sparse.rises (s.turnedOut (ckey b c) v).fab.bays = true := hbays ▸ s.wf_fab_bays hs
  have hat : (s.carrel (ckey b c)).rota.folioAt (s.nextEntry (ckey b c)) = entryFolio w := by
    unfold RotaSt.folioAt
    rw [hinto]
    rfl
  have hown : ((s.carrel (ckey b c)).curFolio < 8 ∧ fkey b c (entryFolio w) = ckey b c * 8 + (s.carrel (ckey b c)).curFolio) ↔
      (s.carrel (ckey b c)).curFolio = entryFolio w := by
    simp only [fkey, ckey]
    omega
  have hleft : ((s.turnedOut (ckey b c) v).folio (fkey b c (entryFolio w))).hit u = t := by
    rw [hfolio]
    simp only [hown, t]
  rw [turnCarrel_next hs, if_neg hend, ← State.phys_of_bays hbays, ← hleft]
  exact turnIn_loaded b c _ _ u hat hf (by rw [hinto]; exact hth) ((State.turnedOut_reloadIdles hs _ v _).trans hload) hr hc hb

end

section
variable {s : State} {b : Bay} {c : Pos} (v : TurnIn) (u : StoreUpset)

/-- A turn that is due: its carrels, its folios and its warnings are those of the carrel's turn. -/
theorem turn_runs (h : (s.rotasRun b.val && s.turnDue (ckey b.val c.val)) = true) : ∃ t, exec (.turn b c v u) s = .next t ∧
    (∀ k, t.carrel k = (turnCarrel b.val c.val v u s).carrel k) ∧ (∀ k, t.folio k = (turnCarrel b.val c.val v u s).folio k) ∧
    (∀ cl code sub, (turnCarrel b.val c.val v u s).told cl code sub → t.told cl code sub) := by
  have hfab := mirror_inOneCycle_fab (turnCarrel b.val c.val v u) s
  exact ⟨_, run_when h _ s, fun k => congrArg (fun m => Sparse.get CarrelSt.dflt m k) (congrArg FabSt.carrels hfab),
    State.folio_of_fab hfab, mirror_told _ s⟩

/-- R74 to R76: the outputs of an entry that ran stand as it drove them, those of one that idled as they were. -/
theorem CarrelSt.leaves_outputs (x : CarrelSt) (hf : x.curFolio < 8) :
    (x.idle = false → (x.leaves v).mesh = (x.mesh &&& ~~~v.drove) ||| (v.mesh &&& v.drove)) ∧
    (x.idle = true → x.leaves v = x) := by
  unfold CarrelSt.leaves
  refine ⟨fun hi => ?_, fun hi => ?_⟩
  · rw [if_pos ⟨hf, hi⟩]
    rfl
  · rw [if_neg fun h => by simp [hi] at h]

/-- What the store, the parity and the count of a folio are, struck or not. -/
theorem FolioSt.held_hit (p : Prop) [Decidable p] (t y : FolioSt) (h : y.held = (if p then t.hit u else t).held) :
    y.store = (if p then t.store ^^^ u.bits else t.store) ∧ y.parity = (if p then t.parity ^^^ u.parity else t.parity) ∧
    y.missed = t.missed := by
  simp only [FolioSt.held, Prod.mk.injEq] at h
  obtain ⟨hstore, hparity, hmissed⟩ := h
  rw [hstore, hparity, hmissed]
  split <;> exact ⟨rfl, rfl, rfl⟩

/-- A folio into which the turn leads: saved just before where its own entry ended and ran. -/
theorem FolioSt.leaves_hit (p : Prop) [Decidable p] (idle : Bool) (t : FolioSt) :
    ((if p then t.leaves v idle else t).hit u).store = (if idle = false ∧ p then v.live else t.store) ^^^ u.bits ∧
    ((if p then t.leaves v idle else t).hit u).parity = (if idle = false ∧ p then stateParity v.live else t.parity) ^^^ u.parity := by
  by_cases hp : p
  · cases idle <;> simp only [hp, if_true] <;> exact ⟨rfl, rfl⟩
  · simp only [hp, and_false, if_false]
    exact ⟨rfl, rfl⟩

/-! ## What the turn does for the folio that leaves and for the one that follows -/

variable (hs : s.wf = true)
include hs

/-- R74 to R76: a folio that ran is saved, and struck where its own next entry follows. -/
theorem turnCarrel_saves (hf : (s.carrel (ckey b.val c.val)).curFolio < 8) (hi : (s.carrel (ckey b.val c.val)).idle = false) :
    let x := s.carrel (ckey b.val c.val)
    let again := s.turnAt (ckey b.val c.val) ≠ 62499 ∧
      (x.rota.entries[s.nextEntry (ckey b.val c.val)]?).map entryFolio = some x.curFolio
    let t := turnCarrel b.val c.val v u s
    (t.folio (fkey b.val c.val x.curFolio)).store = (if again then v.live ^^^ u.bits else v.live) ∧
    (t.folio (fkey b.val c.val x.curFolio)).parity = (if again then stateParity v.live ^^^ u.parity else stateParity v.live) ∧
    (t.folio (fkey b.val c.val x.curFolio)).missed = 0 ∧
    (t.carrel (ckey b.val c.val)).mesh = (x.mesh &&& ~~~v.drove) ||| (v.mesh &&& v.drove) := by
  intro x again t
  obtain ⟨_, _, _, _, _, hcarrel⟩ := turnCarrel_carrel hs b.val c.val v u
  obtain ⟨hstore, hparity, hmissed⟩ := FolioSt.held_hit u again _ _ (turnCarrel_own hs b.val c.val v u hf)
  obtain ⟨hmesh, -⟩ := CarrelSt.leaves_outputs v x hf
  rw [hstore, hparity, hmissed, hcarrel, hi]
  exact ⟨rfl, rfl, rfl, hmesh hi⟩

/-- R79, R80: a folio that idled is missed, and keeps its state and its outputs. -/
theorem turnCarrel_misses (hf : (s.carrel (ckey b.val c.val)).curFolio < 8) (hi : (s.carrel (ckey b.val c.val)).idle = true) :
    let x := s.carrel (ckey b.val c.val)
    let own := fkey b.val c.val x.curFolio
    let again := s.turnAt (ckey b.val c.val) ≠ 62499 ∧
      (x.rota.entries[s.nextEntry (ckey b.val c.val)]?).map entryFolio = some x.curFolio
    let t := turnCarrel b.val c.val v u s
    (t.folio own).store = (if again then (s.folio own).store ^^^ u.bits else (s.folio own).store) ∧
    (t.folio own).missed = min 255 ((s.folio own).missed + 1) ∧ (t.carrel (ckey b.val c.val)).mesh = x.mesh ∧
    (t.carrel (ckey b.val c.val)).lift = x.lift := by
  intro x own again t
  obtain ⟨_, _, _, _, _, hcarrel⟩ := turnCarrel_carrel hs b.val c.val v u
  obtain ⟨hstore, -, hmissed⟩ := FolioSt.held_hit u again _ _ (turnCarrel_own hs b.val c.val v u hf)
  obtain ⟨-, houtputs⟩ := CarrelSt.leaves_outputs v x hf
  rw [hstore, hmissed, hcarrel, hi, houtputs hi]
  exact ⟨rfl, rfl, rfl, rfl⟩

/-- R76, R79, R87: the folio that follows, as it was saved or as the turn just saved it, with the upsets of its store. -/
theorem turnCarrel_shows {w : Word} (hend : s.turnAt (ckey b.val c.val) ≠ 62499)
    (hinto : (s.carrel (ckey b.val c.val)).rota.entries[s.nextEntry (ckey b.val c.val)]? = some w) (hf : entryFolio w < 8)
    (hth : entryThrottle w = false) (hload : s.reloadIdles (fkey b.val c.val (entryFolio w)) = false) :
    let x := s.carrel (ckey b.val c.val)
    let f := fkey b.val c.val (entryFolio w)
    let saved := x.idle = false ∧ x.curFolio = entryFolio w
    let store := (if saved then v.live else (s.folio f).store) ^^^ u.bits
    let parity := (if saved then stateParity v.live else (s.folio f).parity) ^^^ u.parity
    let t := turnCarrel b.val c.val v u s
    (t.carrel (ckey b.val c.val)).idle = false ∧ (t.carrel (ckey b.val c.val)).live = store ∧
    (t.folio f).faultMask = stateParity store ^^^ parity ∧
    (stateParity store ^^^ parity ≠ 0 → t.told .warning 0x0401 (b.val * 38 + s.phys b.val c.val)) := by
  intro x f saved store parity t
  obtain ⟨hidle, hlive, hmask, htells⟩ := turnCarrel_loads hs b.val c.val v u hend hinto hf hth hload
  obtain ⟨hstore, hparity⟩ := FolioSt.leaves_hit v u (x.curFolio = entryFolio w) x.idle (s.folio f)
  unfold FolioSt.badGroups at hmask htells
  rw [hstore, hparity] at hmask htells
  exact ⟨hidle, hlive.trans hstore, hmask, htells⟩

end

end Sys2Proof.Machine
end

section
/-! PROOFS. A carrel at its bank quad: the bytes of a line, its reads and writes, and what falls outside the calendar (R67, R100,
R102). -/

namespace Sys2Proof.Machine
open Sys2Proof

/-! ## The bytes of the memory layer (R217, R224) -/

/-- A byte of the layer as a read finds it. -/
def State.layerByte (s : State) (x : Nat) : Byte :=
  (Sparse.look s.mem.layer x).getD (if s.mem.zeroed.contains (x / 65536) then 0 else Config.unwritten s.frame.freeCount 0 x)

theorem State.layerRead_eq (s : State) (a n : Nat) : s.layerRead a n = (List.range n).map fun i => s.layerByte (s.layerPhys (a + i)) := rfl

theorem layerCell_look_apart (z : List Nat) (m : List Host.Cell) {x j : Nat} (b : Byte) (h : Sparse.rises m = true) (hj : j ≠ x) :
    Sparse.look (layerCell z m x b) j = Sparse.look m j := by
  unfold layerCell Sparse.put
  split
  · split
    · rw [Sparse.look_del _ _ _ h, if_neg hj]
    · rw [Sparse.look_ins, if_neg hj]
  · rw [Sparse.look_ins, if_neg hj]

/-- In a bank that was cleared a zero is read back from no entry. -/
theorem layerCell_look_self (z : List Nat) (m : List Host.Cell) (x : Nat) (b d : Byte) (h : Sparse.rises m = true) :
    (Sparse.look (layerCell z m x b) x).getD (if z.contains (x / 65536) then 0 else d) = b := by
  unfold layerCell Sparse.put
  split
  · split
    · next hz hb => rw [Sparse.look_del _ _ _ h, if_pos rfl, hb]; rfl
    · rw [Sparse.look_ins, if_pos rfl]; rfl
  · rw [Sparse.look_ins, if_pos rfl]; rfl

section
variable {p : Nat}

/-- Bytes written to addresses that run on from p change no other. -/
theorem layerWrite_look_apart (a : Nat) (l : List Byte) {s : State} (hr : Sparse.rises s.mem.layer = true)
    (hp : ∀ i < l.length, s.layerPhys (a + i) = p + i) {x : Nat} (hx : x < p ∨ p + l.length ≤ x) :
    Sparse.look (layerWrite a l s).mem.layer x = Sparse.look s.mem.layer x := by
  induction l generalizing a p s with
  | nil => rfl
  | cons b l ih =>
    simp only [List.length_cons] at hp hx
    have hfirst : s.layerPhys a = p := hp 0 (Nat.succ_pos _)
    have hrest : ∀ i < l.length, s.layerPhys (a + 1 + i) = p + 1 + i := fun i hi => by
      have := hp (i + 1) (Nat.succ_lt_succ hi)
      rwa [show a + 1 + i = a + (i + 1) by omega, show p + 1 + i = p + (i + 1) by omega]
    have hcell := layerCell_rises s.mem.zeroed s.mem.layer (s.layerPhys a) b hr
    have hlook := ih (p := p + 1) (a + 1) (s := { s with mem.layer := layerCell s.mem.zeroed s.mem.layer (s.layerPhys a) b })
      hcell hrest (by omega)
    exact hlook.trans (layerCell_look_apart _ _ b hr (by omega))

/-- They read back. -/
theorem layerWrite_byte (a : Nat) (l : List Byte) {s : State} (hr : Sparse.rises s.mem.layer = true)
    (hp : ∀ i < l.length, s.layerPhys (a + i) = p + i) (i : Nat) (hi : i < l.length) :
    (layerWrite a l s).layerByte (p + i) = l[i] := by
  induction l generalizing a p s i with
  | nil => cases hi
  | cons b l ih =>
    simp only [List.length_cons] at hp hi
    have hfirst : s.layerPhys a = p := hp 0 (Nat.succ_pos _)
    have hrest : ∀ i < l.length, s.layerPhys (a + 1 + i) = p + 1 + i := fun i hi => by
      have := hp (i + 1) (Nat.succ_lt_succ hi)
      rwa [show a + 1 + i = a + (i + 1) by omega, show p + 1 + i = p + (i + 1) by omega]
    have hcell := layerCell_rises s.mem.zeroed s.mem.layer (s.layerPhys a) b hr
    cases i with
    | zero =>
      have hlook := layerWrite_look_apart (p := p + 1) (a + 1) l (s := { s with
        mem.layer := layerCell s.mem.zeroed s.mem.layer (s.layerPhys a) b }) hcell hrest (x := p) (.inl (Nat.lt_succ_self p))
      have honly := (layerWrite_onlyLayer a (b :: l) s).1
      have hself := layerCell_look_self s.mem.zeroed s.mem.layer p b (Config.unwritten s.frame.freeCount 0 p) hr
      unfold State.layerByte
      rw [honly]
      rw [hfirst] at hlook
      show (Sparse.look (layerWrite (a + 1) l _).mem.layer p).getD _ = b
      rw [hfirst, hlook]
      exact hself
    | succ i =>
      have := ih (p := p + 1) (a + 1) (s := { s with mem.layer := layerCell s.mem.zeroed s.mem.layer (s.layerPhys a) b })
        hcell hrest i (Nat.lt_of_succ_lt_succ hi)
      rwa [show p + 1 + i = p + (i + 1) by omega] at this

theorem layerWrite_phys (a : Nat) (l : List Byte) (s : State) (x : Nat) : (layerWrite a l s).layerPhys x = s.layerPhys x := by
  rw [(layerWrite_onlyLayer a l s).1]
  rfl

theorem layerWrite_read (a : Nat) (l : List Byte) {s : State} (hr : Sparse.rises s.mem.layer = true)
    (hp : ∀ i < l.length, s.layerPhys (a + i) = p + i) : (layerWrite a l s).layerRead a l.length = l := by
  rw [State.layerRead_eq]
  refine List.ext_getElem (by simp) fun i hi hl => ?_
  rw [List.getElem_map, List.getElem_range, layerWrite_phys, hp i hl, layerWrite_byte a l hr hp i hl]

end

/-- R217: a line of a bank quad stands in one physical bank. -/
theorem State.layerPhys_line (s : State) (b : Nat) (c : Pos) (k : Fin 4) (l : BitVec 11) {i : Nat} (hi : i < 32) :
    s.layerPhys (lbank b c.val k.val * 65536 + 32 * l.toNat + i) = s.bankIndex b c.val k.val * 65536 + 32 * l.toNat + i := by
  have hl := l.isLt
  have hc := c.isLt
  have hk := k.isLt
  have hbank : (lbank b c.val k.val * 65536 + 32 * l.toNat + i) / 65536 = lbank b c.val k.val := by omega
  have hbyte : (lbank b c.val k.val * 65536 + 32 * l.toNat + i) % 65536 = 32 * l.toNat + i := by omega
  have hbay : lbank b c.val k.val / 144 = b := by unfold lbank; omega
  have hpos : lbank b c.val k.val / 4 % 36 = c.val := by unfold lbank; omega
  have hquad : lbank b c.val k.val % 4 = k.val := by unfold lbank; omega
  simp only [State.layerPhys]
  rw [hbank, hbyte, hbay, hpos, hquad, Nat.add_assoc]

/-- R67, R75: a line written reads back, and no other byte changes. -/
theorem layerWrite_line {s : State} (hr : Sparse.rises s.mem.layer = true) (b : Nat) (c : Pos) (k : Fin 4) (l : BitVec 11)
    {bytes : List Byte} (hlen : bytes.length = 32) :
    (layerWrite (lbank b c.val k.val * 65536 + 32 * l.toNat) bytes s).layerRead
      (lbank b c.val k.val * 65536 + 32 * l.toNat) 32 = bytes ∧
    ∀ x, (x < s.bankIndex b c.val k.val * 65536 + 32 * l.toNat ∨ s.bankIndex b c.val k.val * 65536 + 32 * l.toNat + 32 ≤ x) →
      Sparse.look (layerWrite (lbank b c.val k.val * 65536 + 32 * l.toNat) bytes s).mem.layer x = Sparse.look s.mem.layer x := by
  have hphys : ∀ i < bytes.length, s.layerPhys (lbank b c.val k.val * 65536 + 32 * l.toNat + i) =
      s.bankIndex b c.val k.val * 65536 + 32 * l.toNat + i := fun i hi => s.layerPhys_line b c k l (hlen ▸ hi)
  have hread := layerWrite_read _ bytes hr hphys
  rw [hlen] at hread
  exact ⟨hread, fun x hx => layerWrite_look_apart _ bytes hr hphys (hlen.symm ▸ hx)⟩

/-! ## A read (R79, R227) -/

theorem getBit_setBit_false {w : Nat} (v : BitVec w) (i : Nat) : getBit (setBit v i false) i = false := by
  unfold getBit setBit
  by_cases hi : i < w
  · simp only [Bool.false_eq_true, if_false, BitVec.getLsbD_and, BitVec.getLsbD_not, BitVec.getLsbD_ofNat, hi, decide_true,
      Nat.testBit_two_pow_self, Bool.and_self, Bool.not_true, Bool.and_false]
  · exact BitVec.getLsbD_of_ge _ _ (Nat.le_of_not_lt hi)

theorem setBankErr_low {s : State} (b c k : Nat) (hr : Sparse.rises s.fab.carrels = true) :
    getBit ((setBankErr b c k false s).carrel (ckey b c)).bankErr k = false := by
  unfold setBankErr
  rw [State.modCarrel_carrel _ _ _ _ hr, if_pos rfl]
  exact getBit_setBit_false ..

/-- What a finding leaves: the stores and their bytes, the fabric, and the ring of the day book. -/
def State.besideFindings (s : State) : Sparse QueueSt × Sparse FlowSt × List Host.Cell × FabSt × List Entry × BitVec 15 :=
  (s.queues, s.flows, s.mem.layer, s.fab, s.log.ring, s.log.rptr)

theorem raise_besideFindings (c : EvClass) (code : BitVec 16) (sub : Nat) (d : List (Nat × Nat)) (s : State) :
    (raise c code sub d s).besideFindings = s.besideFindings := by
  obtain ⟨hring, hrptr⟩ := raise_ring c code sub d s
  unfold State.besideFindings
  rw [hring, hrptr, raise_eq]

theorem memFinding_besideFindings (req a : Nat) (f : Found) (write : Bool) (s : State) :
    (memFinding req a f write s).besideFindings = s.besideFindings := by
  cases f with
  | clean => rfl
  | macFail => rfl
  | corrected => exact raise_besideFindings ..
  | uncorrectable => exact raise_besideFindings ..

theorem lineFindings_besideFindings (req a : Nat) (found : List Found) (s : State) :
    (lineFindings req a found s).besideFindings = s.besideFindings :=
  foldl_keeps State.besideFindings _ (fun t j => memFinding_besideFindings req (a + 8 * j) ((found[j]?).getD .clean) false t) _ s

/-! ## An access in an active cycle (R67, R75, R100) -/

/-- A bank that its carrel reaches: a bank of its own, or a pool bank in a cycle that the calendar grants. -/
def State.reachesBank (s : State) (b c k cycle : Nat) : Prop := (s.bank (lbank b c k)).pool = false ∨
  (s.bayMode b ≠ .closing ∧ shareCycle (s.bank (lbank b c k)).share.toNat cycle = true)

section
variable {s : State} {b c k cycle : Nat} {found : List Found}

/-- The two guards of an access, in a cycle in which the carrel reaches the bank. -/
theorem State.reachesBank.granted (h : s.reachesBank b c k cycle) :
    ((s.bank (lbank b c k)).pool && s.bayMode b == .closing) = false ∧
    ((s.bank (lbank b c k)).pool && !shareCycle (s.bank (lbank b c k)).share.toNat cycle) = false := by
  rcases h with hpool | ⟨hmode, hshare⟩
  · rw [hpool]
    exact ⟨rfl, rfl⟩
  · rw [hshare, beq_false_of_ne hmode]
    exact ⟨Bool.and_false _, Bool.and_false _⟩

theorem carrelAccess_write (hreach : s.reachesBank b c k cycle) (hlive : s.physRetired (s.bankIndex b c k) = false)
    (hopen : (s.bank (lbank b c k)).pool = true ∨ s.fabricWrites = true) (l : BitVec 11) (w : Line) :
    carrelAccess b c k cycle none (some (l, w)) found s =
      layerWrite (lbank b c k * 65536 + 32 * l.toNat) (leBytes 32 w.toNat) { s with frame.cycle := cycle } := by
  obtain ⟨hclosing, hshare⟩ := hreach.granted
  have hdropped : (!(s.bank (lbank b c k)).pool && !s.fabricWrites) = false := by
    rcases hopen with h | h <;> simp [h]
  unfold carrelAccess
  extract_lets n t phys frame now
  have hclosing' : (t.pool && now.bayMode b == .closing) = false := hclosing
  have hshare' : (t.pool && !shareCycle t.share.toNat cycle) = false := hshare
  have hlive' : now.physRetired phys = false := hlive
  have hdropped' : (!t.pool && !now.fabricWrites) = false := hdropped
  rw [hclosing', hshare']
  unfold carrelWrite
  rw [hlive', hdropped']
  rfl

theorem carrelRead_good {phys : Nat} (a : Nat) (hlive : s.physRetired phys = false) (hgood : (found.take 4).any foundBad = false) :
    carrelRead b c k a phys found s = setBankErr b c k false { (lineFindings b a found s).useFree with
      mem.lastData := s.layerRead a 32
      mem.lastError := false } := by
  unfold carrelRead
  rw [hlive, hgood]
  rfl

theorem carrelAccess_read (hreach : s.reachesBank b c k cycle) (hlive : s.physRetired (s.bankIndex b c k) = false)
    (hgood : (found.take 4).any foundBad = false) (l : BitVec 11) :
    carrelAccess b c k cycle (some l) none found s = setBankErr b c k false
      { (lineFindings b (lbank b c k * 65536 + 32 * l.toNat) found { s with frame.cycle := cycle }).useFree with
        mem.lastData := s.layerRead (lbank b c k * 65536 + 32 * l.toNat) 32
        mem.lastError := false } := by
  obtain ⟨hclosing, hshare⟩ := hreach.granted
  unfold carrelAccess
  extract_lets n t phys frame now
  have hclosing' : (t.pool && now.bayMode b == .closing) = false := hclosing
  have hshare' : (t.pool && !shareCycle t.share.toNat cycle) = false := hshare
  have hlive' : now.physRetired phys = false := hlive
  rw [hclosing', hshare']
  exact carrelRead_good (s := now) _ hlive' hgood

/-- R102: an access in a cycle that the bank's share does not grant. -/
theorem carrelAccess_dropped (hpool : (s.bank (lbank b c k)).pool = true) (hmode : s.bayMode b ≠ .closing)
    (hshare : shareCycle (s.bank (lbank b c k)).share.toNat cycle = false) (rd : Option (BitVec 11)) (wr : Option (BitVec 11 × Line)) :
    carrelAccess b c k cycle rd wr found s = calViolation b c k rd.isSome wr.isSome { s with frame.cycle := cycle } := by
  unfold carrelAccess
  extract_lets n t phys frame now
  have hclosing : (t.pool && now.bayMode b == .closing) = false := by
    rw [show (now.bayMode b == .closing) = false from beq_false_of_ne hmode]
    exact Bool.and_false _
  have hdrops : (t.pool && !shareCycle t.share.toNat cycle) = true := by
    rw [show t.pool = true from hpool, show shareCycle t.share.toNat cycle = false from hshare]
    rfl
  rw [hclosing, hdrops]
  rfl

/-- A read and a write dropped in one cycle: both count, and the read gives zeros. -/
theorem calViolation_both (hr : Sparse.rises s.fab.carrels = true) (hb : Sparse.rises s.fab.bays = true) :
    let t := calViolation b c k true true s
    t = { s with fab := t.fab, mem.lastData := List.replicate 32 0, mem.lastError := false } ∧
    getBit (t.carrel (ckey b c)).bankErr k = false ∧
    (t.bay b).calCount = min 65535 ((s.bay b).calCount + 2) ∧ (t.bay b).calPos = c ∧ (t.bay b).calBank = k := by
  intro t
  have hbay : t.bay b = { s.bay b with calPos := c, calBank := k, calCount := min 65535 ((s.bay b).calCount + 2) } :=
    (s.modBay_bay b (fun x => { x with calPos := c, calBank := k, calCount := min 65535 (x.calCount + 2) }) b hb).trans (if_pos rfl)
  refine ⟨rfl, setBankErr_low b c k ?_, ?_, ?_, ?_⟩
  · exact hr
  · rw [hbay]
  · rw [hbay]
  · rw [hbay]

end

/-! ## The command -/

section
variable {s : State} {b : Bay} {c : Pos} {k : Fin 4} {cycle : Fin 250}

/-- A carrel in no active cycle reaches no bank. -/
theorem carrelBankAccess_idle (rd : Option (BitVec 11)) (wr : Option (BitVec 11 × Line)) (found : List Found)
    (h : s.carrelRuns b.val c.val cycle.val = false) : exec (.carrelBankAccess b c k cycle rd wr found) s = .next s := by
  show run (when _ _) s = _
  rw [h]
  exact run_quiet id s rfl rfl rfl

theorem carrelBankAccess_runs (rd : Option (BitVec 11)) (wr : Option (BitVec 11 × Line)) (found : List Found)
    (h : s.carrelRuns b.val c.val cycle.val = true) : exec (.carrelBankAccess b c k cycle rd wr found) s =
      run (carrelAccess b.val c.val k.val cycle.val rd wr found) s := by
  show run (when _ _) s = _
  rw [h]
  rfl

variable (hs : s.wf = true) (hruns : s.carrelRuns b.val c.val cycle.val = true)
include hs hruns

/-- R67, R100: the line written reads back, and no other byte changes. -/
theorem carrelBankAccess_write (hreach : s.reachesBank b.val c.val k.val cycle.val)
    (hlive : s.physRetired (s.bankIndex b.val c.val k.val) = false)
    (hopen : (s.bank (lbank b.val c.val k.val)).pool = true ∨ s.fabricWrites = true) (l : BitVec 11) (w : Line)
    (found : List Found) :
    ∃ t, exec (.carrelBankAccess b c k cycle none (some (l, w)) found) s = .next t ∧
      t.layerRead (lbank b.val c.val k.val * 65536 + 32 * l.toNat) 32 = leBytes 32 w.toNat ∧ t.mem.zeroed = s.mem.zeroed ∧
      (∀ x, (x < s.bankIndex b.val c.val k.val * 65536 + 32 * l.toNat ∨
          s.bankIndex b.val c.val k.val * 65536 + 32 * l.toNat + 32 ≤ x) →
        Sparse.look t.mem.layer x = Sparse.look s.mem.layer x) ∧
      t = { s with frame.cycle := cycle.val, mem.layer := t.mem.layer } := by
  have hwrite := carrelAccess_write (found := found) hreach hlive hopen l w
  obtain ⟨hread, happart⟩ := layerWrite_line (s := { s with frame.cycle := cycle.val }) (s.wf_mem_layer hs) b.val c k l
    (leBytes_length 32 w.toNat)
  obtain ⟨honly, -⟩ := layerWrite_onlyLayer (lbank b.val c.val k.val * 65536 + 32 * l.toNat) (leBytes 32 w.toNat)
    { s with frame.cycle := cycle.val }
  have hrun := run_quiet (carrelAccess b.val c.val k.val cycle.val none (some (l, w)) found) s
  rw [← carrelBankAccess_runs _ _ _ hruns, hwrite] at hrun
  generalize layerWrite (lbank b.val c.val k.val * 65536 + 32 * l.toNat) (leBytes 32 w.toNat) { s with frame.cycle := cycle.val } = t
    at honly hread happart hrun
  refine ⟨t, hrun ?_ ?_ ?_, hread, ?_, happart, honly⟩
  · rw [honly]
  · rw [honly]
  · rw [honly]
  · rw [honly]

/-- R75, R271: a read finds the line as it stands. -/
theorem carrelBankAccess_read (hreach : s.reachesBank b.val c.val k.val cycle.val)
    (hlive : s.physRetired (s.bankIndex b.val c.val k.val) = false) (l : BitVec 11) {found : List Found}
    (hgood : (found.take 4).any foundBad = false) :
    ∃ t, exec (.carrelBankAccess b c k cycle (some l) none found) s = .next t ∧
      t.mem.lastData = s.layerRead (lbank b.val c.val k.val * 65536 + 32 * l.toNat) 32 ∧ t.mem.lastError = false ∧
      t.mem.layer = s.mem.layer ∧ getBit (t.carrel (ckey b.val c.val)).bankErr k.val = false := by
  have hread := carrelAccess_read hreach hlive hgood l
  have hbeside := lineFindings_besideFindings b.val (lbank b.val c.val k.val * 65536 + 32 * l.toNat) found
    { s with frame.cycle := cycle.val }
  revert hread hbeside
  generalize lineFindings b.val (lbank b.val c.val k.val * 65536 + 32 * l.toNat) found { s with frame.cycle := cycle.val } = u
  intro hread hbeside
  simp only [State.besideFindings, Prod.mk.injEq] at hbeside
  obtain ⟨hqueues, hflows, hlayer, hfab, hring, hrptr⟩ := hbeside
  rw [carrelBankAccess_runs _ _ _ hruns]
  refine ⟨_, run_same _ s ?_ ?_ ?_, ?_, ?_, ?_, ?_⟩
  · rw [hread]; exact hqueues
  · rw [hread]; exact hflows
  · rw [hread]; exact ⟨hring, hrptr⟩
  · rw [inOneCycle_log, hread]; rfl
  · rw [inOneCycle_log, hread]; rfl
  · rw [inOneCycle_log, hread]; exact hlayer
  · rw [inOneCycle_log, hread]
    exact setBankErr_low b.val c.val k.val (hfab ▸ s.wf_fab_carrels hs)

/-- R102: a dropped read and write of a pool bank. -/
theorem carrelBankAccess_dropped (hpool : (s.bank (lbank b.val c.val k.val)).pool = true) (hmode : s.bayMode b.val ≠ .closing)
    (hshare : shareCycle (s.bank (lbank b.val c.val k.val)).share.toNat cycle.val = false) (l : BitVec 11) (w : Line)
    (found : List Found) :
    ∃ t, exec (.carrelBankAccess b c k cycle (some l) (some (l, w)) found) s = .next t ∧
      t.mem.lastData = List.replicate 32 0 ∧ t.mem.lastError = false ∧
      getBit (t.carrel (ckey b.val c.val)).bankErr k.val = false ∧ t.mem.layer = s.mem.layer ∧
      (t.bay b.val).calCount = min 65535 ((s.bay b.val).calCount + 2) ∧ (t.bay b.val).calPos = c.val ∧
      (t.bay b.val).calBank = k.val := by
  have hdropped := carrelAccess_dropped (found := found) hpool hmode hshare (some l) (some (l, w))
  obtain ⟨heq, hbit, hcount⟩ := calViolation_both (s := { s with frame.cycle := cycle.val }) (b := b.val) (c := c.val) (k := k.val)
    (s.wf_fab_carrels hs) (s.wf_fab_bays hs)
  rw [Option.isSome_some, Option.isSome_some] at hdropped
  rw [← hdropped] at heq hbit hcount
  rw [carrelBankAccess_runs _ _ _ hruns]
  refine ⟨_, run_quiet _ s ?_ ?_ ?_, ?_, ?_, hbit, ?_, hcount⟩
  · rw [heq]
  · rw [heq]
  · rw [heq]
  · rw [heq]
  · rw [heq]
  · rw [heq]

end

/-- Settles O14: a carrel's turn is what it leaves of the entry that ended and what it loads of the one that follows; an access of
its bank quad is one of the four that the calendar allows. -/
theorem carrelTurns : Obligations.CarrelTurns := by
  unfold Obligations.CarrelTurns
  refine ⟨fun s b c v u hs => ?_, fun s b c k cycle l w found hs => ?_⟩
  · refine ⟨turn_idle v u, fun hdue => ?_⟩
    obtain ⟨t, ht, hcarrel, hfolio, htold⟩ := turn_runs v u hdue
    obtain ⟨_, _, _, _, _, hleaves⟩ := turnCarrel_carrel hs b.val c.val v u
    refine ⟨t, ht, ?_, ?_, ?_, fun hf hi => ?_, fun hf hi => ?_, fun w f hend hinto hw hf hth hload => ?_⟩
    · rw [hcarrel, hleaves]
    · rw [hcarrel, hleaves]
      exact CarrelSt.leaves_rota v _
    · rw [hcarrel, hleaves]
      rfl
    · rw [hcarrel, hfolio]
      exact turnCarrel_saves v u hs hf hi
    · rw [hcarrel, hfolio]
      exact turnCarrel_misses v u hs hf hi
    · subst hw
      obtain ⟨hidle, hlive, hmask, htells⟩ := turnCarrel_shows v u hs hend hinto hf hth hload
      rw [hcarrel, hfolio]
      exact ⟨hidle, hlive, hmask, fun hbad => htold _ _ _ (htells hbad)⟩
  · exact ⟨fun rd wr => carrelBankAccess_idle rd wr found,
      fun hruns hreach hlive hopen => carrelBankAccess_write hs hruns hreach hlive hopen l w found,
      fun hruns hreach hlive hgood => carrelBankAccess_read hs hruns hreach hlive l hgood,
      fun hruns hpool hmode hshare => carrelBankAccess_dropped hs hruns hpool hmode hshare l w found⟩

end Sys2Proof.Machine
end

section
/-! PROOFS. What a receiver finds on a lane: sync gained and lost, symbols that are not valid, Q columns, trackers and slips
(R112, R115 to R117, R128 to R130, R132, R135). -/

namespace Sys2Proof.Machine
open Sys2Proof

/-! ## Reading through a command -/

/-- A warning changes no port. -/
@[simp] theorem warn_ports (code : BitVec 16) (sub : Nat) (d : List (Nat × Nat)) (s : State) :
    (warn code sub d s).ports = s.ports := by rw [warn, raise_eq]

@[simp] theorem warn_port (code : BitVec 16) (sub : Nat) (d : List (Nat × Nat)) (s : State) (q : Nat) :
    (warn code sub d s).port q = s.port q := by rw [State.port, warn_ports, State.port]

/-- What a command leaves at the ports, and what it tells of. -/
theorem run_when_tells {c : Bool} (hc : c = true) (f : State → State) (s : State) :
    ∃ t, run (when c f) s = .next t ∧ (∀ q, t.port q = (f s).port q) ∧
      ∀ cls code sub, (f s).told cls code sub → t.told cls code sub :=
  ⟨_, run_when hc f s, fun _ => rfl, fun _ _ _ => mirror_told f s _ _ _⟩

/-- Sorting the events and mirroring the bytes leave each port as the command left it. -/
theorem mirror_inOneCycle_port (f : State → State) (s : State) (q : Nat) :
    (mirror s (inOneCycle f s)).port q = (f s).port q := rfl

/-- A command that raises nothing and that one port alone sees. -/
theorem done_when_sets {c : Bool} {f : State → State} {s : State} {p : Nat} {x : PortSt} (hc : c = true)
    (h : s.SetsPort p x (f s)) :
    ∃ t, done (when c f s) = .next t ∧ t.port p = x ∧ s.onlyPort t p := ⟨_, done_when hc f s, h.here, h.onlyPort⟩

/-- A command that a port's lane alone sees. -/
theorem done_when_modLane {c : Bool} {s : State} {p : Nat} (hc : c = true) (hs : s.wf = true) (f : LaneSt → LaneSt) :
    ∃ t, done (when c (fun s => s.modLane p f) s) = .next t ∧ (t.port p).lane = f (s.port p).lane ∧ s.onlyPort t p := by
  have hset := (State.SetsPort.refl p hs).modLane f
  exact ⟨_, done_when hc _ s, by rw [hset.here], hset.onlyPort⟩

/-- A command that a port's negotiation alone sees. -/
theorem done_when_modNeg {c : Bool} {s : State} {p : Nat} (hc : c = true) (hs : s.wf = true) (f : NegSt → NegSt) :
    ∃ t, done (when c (fun s => s.modNeg p f) s) = .next t ∧ (t.port p).neg = f (s.port p).neg ∧ s.onlyPort t p := by
  have hset := (State.SetsPort.refl p hs).modNeg f
  exact ⟨_, done_when hc _ s, by rw [hset.here], hset.onlyPort⟩

namespace State.SetsPort
variable {s t : State} {p : Nat} {x : PortSt} (h : s.SetsPort p x t)
include h

theorem modCredit (f : CreditSt → CreditSt) : s.SetsPort p { x with credit := f x.credit } (t.modCredit p f) :=
  h.modPort fun y => { y with credit := f y.credit }

/-- The modes stand as they were. -/
theorem mode (q : Nat) : t.portMode q = s.portMode q := (congrArg (State.portMode · q) h.frame :)

theorem takes (q : Nat) : t.takesIngress q = s.takesIngress q := (congrArg (State.takesIngress · q) h.frame :)

theorem native (hc : x.cfg = (s.port p).cfg) : t.native p = s.native p := by
  simp only [State.native, h.here, hc]

theorem native_modLane {b : Bool} (f : LaneSt → LaneSt) (hn : t.native p = b) : (t.modLane p f).native p = b := by
  rw [← hn]
  simp only [State.native, (h.modLane f).here, h.here]

theorem refuses (hc : x.cfg = (s.port p).cfg) (k : Nat) (y : Sym) : t.refusesSym p k y = s.refusesSym p k y := by
  simp only [State.refusesSym, h.here, hc]

end State.SetsPort

/-! ## An item given up (R128) -/

/-- The lane once an item open on it has been given up: the rest of it is a run of discarded symbols, and counted. -/
def LaneSt.givenUp (l : LaneSt) : LaneSt :=
  if l.itemOpen then { l with itemOpen := false, discardRun := true, discIn := sat 0xFFFF l.discIn 1 } else l

theorem LaneSt.givenUp_open {l : LaneSt} (h : l.itemOpen = true) :
    l.givenUp = { l with itemOpen := false, discardRun := true, discIn := sat 0xFFFF l.discIn 1 } := if_pos h

theorem LaneSt.givenUp_itemOpen (l : LaneSt) : l.givenUp.itemOpen = false := by
  unfold givenUp
  split
  · rfl
  · next h => exact Bool.eq_false_iff.mpr h

/-- What an item given up does not touch. -/
theorem LaneSt.givenUp_keeps {α : Type} {f : LaneSt → α} (l : LaneSt)
    (hf : ∀ l o r d, f { l with itemOpen := o, discardRun := r, discIn := d } = f l) : f l.givenUp = f l := by
  unfold givenUp
  split
  · exact hf ..
  · rfl

/-- Where no item is open, none is given up. -/
theorem poisonOpen_shut {s : State} {p : Nat} (h : (s.port p).lane.itemOpen = false) : poisonOpen p s = s := by
  simp [poisonOpen, h]

theorem poisonOpen_keepsLanes {α : Type} {f : LaneSt → α} {s t : State} {p : Nat} (h : s.KeepsLanes f t)
    (hf : ∀ l o r d, f { l with itemOpen := o, discardRun := r, discIn := d } = f l) : s.KeepsLanes f (poisonOpen p t) := by
  unfold poisonOpen
  split
  · exact ((closePoisoned_keepsLanes p (fun l => hf l false l.discardRun l.discIn) h).modLane p _
      fun l => hf l l.itemOpen true l.discIn).modLane p _ fun l => hf l l.itemOpen l.discardRun _
  · exact h

theorem poisonOpen_lane {s : State} {p : Nat} (h : Sparse.rises s.ports = true) :
    ((poisonOpen p s).port p).lane = (s.port p).lane.givenUp := by
  cases hopen : (s.port p).lane.itemOpen with
  | false => rw [poisonOpen_shut hopen, LaneSt.givenUp, hopen]; rfl
  | true =>
    have hrises : Sparse.rises (s.modLane p fun l => { l with itemOpen := false }).ports = true := Sparse.rises_put _ _ _ _ h
    have hkeep := poisonFrom_keepsLanes (f := id) p (.refl (s.modLane p fun l => { l with itemOpen := false }))
    have hlane := hkeep.lanes hrises p
    have hclosed := hkeep.rises hrises
    rw [State.modLane_port _ _ _ _ h, if_pos rfl] at hlane
    have hgiven : poisonOpen p s = ((poisonFrom p (s.modLane p fun l => { l with itemOpen := false })).modLane p
        fun l => { l with discardRun := true }).modLane p fun l => { l with discIn := sat 0xFFFF l.discIn 1 } := by
      simp only [poisonOpen, closePoisoned, hopen, if_true]
      rfl
    rw [hgiven, State.modLane_port _ _ _ _ (Sparse.rises_put _ _ _ _ hclosed), if_pos rfl, State.modLane_port _ _ _ _ hclosed,
      if_pos rfl]
    simp only [id] at hlane
    rw [hlane, LaneSt.givenUp, hopen]
    rfl

/-! ## Sync lost (R116, R135, R150) -/

/-- The lane of port t as its lane k leaves sync, before what is open on it is given up. -/
def LaneSt.outOfSync (k : Nat) (t : PortSt) (l : LaneSt) : LaneSt :=
  { l with
    inSync := setBit l.inSync k false, syncLoss := sat 255 l.syncLoss 1, badThisSlot := l.badThisSlot || !expectsMarks t.cfg
    xauiAligned := false, alignErr := if t.cfg.setting == 3 && t.lane.xauiAligned then sat 255 l.alignErr 1 else l.alignErr }

/-- Sync lost writes the port's lane, and in Bring-up its training; then what is open is given up. -/
theorem laneSyncLost_sets {s : State} (p k : Nat) (hs : s.wf = true) :
    ∃ x u, s.SetsPort p x u ∧ x.lane = (s.port p).lane.outOfSync k (s.port p) ∧ laneSyncLost p k s = poisonOpen p u := by
  have hlane := (State.SetsPort.refl p hs).modLane (·.outOfSync k (s.port p))
  have hf : laneSyncLost p k s = poisonOpen p (if s.portMode p == .bringUp then
      (s.modLane p (·.outOfSync k (s.port p))).modNeg p untrain else s.modLane p (·.outOfSync k (s.port p))) := rfl
  rw [hf]
  split
  · exact ⟨_, _, hlane.modNeg untrain, rfl, rfl⟩
  · exact ⟨_, _, hlane, rfl, rfl⟩

section
variable {s : State} {p : Port} {k : Fin 4} (hs : s.wf = true) (hl : s.listens p.val = true)
  (hw : s.inWidth p.val k.val = true) (hsync : getBit (s.port p.val).lane.inSync k.val = true)
  (hwin : (s.port p.val).neg.window = false)
include hs hl hw hsync hwin

theorem laneSyncLost_lane :
    ∃ t, exec (.laneSyncLost p k) s = .next t ∧
      (t.port p.val).lane = ((s.port p.val).lane.outOfSync k.val (s.port p.val)).givenUp ∧
      ((s.port p.val).lane.itemOpen = false → s.onlyPort t p.val) := by
  have hc : (s.listens p.val && s.inWidth p.val k.val && getBit (s.port p.val).lane.inSync k.val &&
      !(s.port p.val).neg.window) = true := by simp [hl, hw, hsync, hwin]
  obtain ⟨x, u, hu, hx, hf⟩ := laneSyncLost_sets p.val k.val hs
  have hlane : ((poisonOpen p.val u).port p.val).lane = x.lane.givenUp := by rw [poisonOpen_lane hu.rises, hu.here]
  rw [hx, ← hf] at hlane
  cases hopen : (s.port p.val).lane.itemOpen with
  | false =>
    have hset : s.SetsPort p.val x (laneSyncLost p.val k.val s) := by
      rw [hf, poisonOpen_shut (by rw [hu.here, hx]; exact hopen)]
      exact hu
    exact ⟨_, run_when_sets hc hset, hlane, fun _ => hset.onlyPort⟩
  | true =>
    obtain ⟨t, ht, hport⟩ := run_when_ports hc (laneSyncLost p.val k.val) s
    exact ⟨t, ht, (congrArg PortSt.lane (hport _)).trans hlane, fun h => nomatch h⟩

end

/-! ## Where a symbol goes (R117, R128, R138) -/

section
variable {α : Type} {f : LaneSt → α} {s t : State} {p : Nat} (h : s.KeepsLanes f t)
  (hf : ∀ l o r d, f { l with itemOpen := o, discardRun := r, discIn := d } = f l)
include h hf

theorem countIngress_keepsLanes : s.KeepsLanes f (countIngress p t) :=
  h.modLane p _ fun l => hf l l.itemOpen l.discardRun _

theorem strayData_keepsLanes : s.KeepsLanes f (strayData p t) := by
  unfold strayData
  simp only
  split
  · exact h
  · exact countIngress_keepsLanes (h.modLane p _ fun l => hf l l.itemOpen true l.discIn) hf

theorem lineIngress_keepsLanes (l : List (Byte × Bool)) : s.KeepsLanes f (lineIngress p l t) := by
  unfold lineIngress
  simp only
  split_ifs
  · exact h
  · exact strayData_keepsLanes h hf
  · exact countIngress_keepsLanes h hf
  · exact countIngress_keepsLanes (h.modEgress p _) hf
  · exact h.modEgress p _

/-- A symbol that goes on may end an item and count a discard, and does nothing more to the lanes. -/
theorem deliverSym_keepsLanes (y : Sym) : s.KeepsLanes f (deliverSym p y t) := by
  unfold deliverSym
  split_ifs
  · exact h
  · exact poisonOpen_keepsLanes h hf
  · exact h
  · exact lineIngress_keepsLanes h hf _

end

theorem codedErrors_keepsLanes {α : Type} {f : LaneSt → α} {s t : State} {p : Nat} (k n : Nat) (h : s.KeepsLanes f t)
    (hf : ∀ l e, f { l with prbsErr := e } = f l) : s.KeepsLanes f (codedErrors p k n t) := by
  unfold codedErrors
  simp only
  split
  · exact h.modLane p _ fun l => hf l _
  · exact h

/-- A checker of coded idle counts in PRBS_ERR alone, and in Bindery alone. -/
theorem codedErrors_sets {s t : State} {p : Nat} {x : PortSt} (k n : Nat) (h : s.SetsPort p x t) :
    ∃ e, s.SetsPort p { x with lane.prbsErr := e } (codedErrors p k n t) ∧ (s.portMode p ≠ .bindery → e = x.lane.prbsErr) := by
  unfold codedErrors
  simp only
  split
  · next hc =>
    refine ⟨_, h.modLane fun l => { l with prbsErr := l.prbsErr.modify k fun e => sat 0xFFFFFFFF e n }, fun hm => ?_⟩
    rw [h.mode] at hc
    simp [hm] at hc
  · exact ⟨_, h, fun _ => rfl⟩

/-- K30.7 on a native trunk ends what is open there. -/
theorem deliverSym_k307_native {s : State} {p : Nat} (hn : s.native p = true) : deliverSym p k307 s = poisonOpen p s := by
  have h285 : (k307 == k285) = false := by decide
  simp only [deliverSym, h285, hn, beq_self_eq_true, Bool.false_eq_true, if_false, if_true]

/-- Elsewhere it goes into the edition's bytes. -/
theorem deliverSym_k307_line {s : State} {p : Nat} (hn : s.native p = false) : deliverSym p k307 s = lineIngress p [k307] s := by
  have h285 : (k307 == k285) = false := by decide
  simp only [deliverSym, h285, hn, Bool.false_eq_true, if_false]

/-! ## Symbols that are not valid (R116, R117, R126, R135) -/

/-- What the decoder counts of a port's lanes, and each lane's running disparity. -/
def LaneSt.decoded (l : LaneSt) : List Nat × List Nat × BitVec 4 := (l.codeViol, l.disparity, l.rxPositive)

/-- The lane with one code violation more. -/
def LaneSt.violated (k : Nat) (l : LaneSt) : LaneSt := { l with codeViol := bump 0xFFFF l.codeViol k }

/-- A code error is counted, K30.7 goes on in place of the symbol, and a checker may count it. -/
theorem codeError_eq (p k : Nat) (s : State) :
    codeError p k s = codedErrors p k 1 (deliverSym p k307 (s.modLane p (·.violated k))) := rfl

/-- Whatever becomes of the K30.7, the decoder's counts are those of the violation. -/
theorem codeError_decoded (p k : Nat) (s : State) : (s.modLane p (·.violated k)).KeepsLanes LaneSt.decoded (codeError p k s) :=
  codedErrors_keepsLanes k 1 (deliverSym_keepsLanes (.refl _) (fun _ _ _ _ => rfl) k307) fun _ _ => rfl

section
variable {s t : State} {p : Nat} {x : PortSt} (k : Nat) (h : s.SetsPort p x t)
include h

theorem codeError_counts :
    ((codeError p k t).port p).lane.codeViol = bump 0xFFFF x.lane.codeViol k ∧
      ((codeError p k t).port p).lane.disparity = x.lane.disparity := by
  have hset := h.modLane (·.violated k)
  have hlane := (codeError_decoded p k t).lanes hset.rises p
  rw [hset.here] at hlane
  exact ⟨congrArg Prod.fst hlane, congrArg (fun d => d.2.1) hlane⟩

/-- On a native trunk no item is open after it. -/
theorem codeError_closes (hn : t.native p = true) : ((codeError p k t).port p).lane.itemOpen = false := by
  have hset := h.modLane (·.violated k)
  have hnat := h.native_modLane (·.violated k) hn
  have hrises := (poisonOpen_keepsLanes (f := fun _ => ()) (p := p) (.refl (t.modLane p (·.violated k)))
    fun _ _ _ _ => rfl).rises hset.rises
  rw [codeError_eq, deliverSym_k307_native hnat,
    (codedErrors_keepsLanes (f := LaneSt.itemOpen) k 1 (.refl _) fun _ _ => rfl).lanes hrises, poisonOpen_lane hset.rises]
  exact LaneSt.givenUp_itemOpen _

/-- Where no item is open there, only the port's own counters change. -/
theorem codeError_native_sets (hn : t.native p = true) (hshut : x.lane.itemOpen = false) :
    ∃ y, s.SetsPort p y (codeError p k t) := by
  have hset := h.modLane (·.violated k)
  rw [codeError_eq, deliverSym_k307_native (h.native_modLane _ hn), poisonOpen_shut (by rw [hset.here]; exact hshut)]
  obtain ⟨e, he, -⟩ := codedErrors_sets k 1 hset
  exact ⟨_, he⟩

/-- On a line whose edition takes its bytes, K30.7 goes on as one of them. -/
theorem codeError_line_sets (hn : t.native p = false) (hm : s.portMode p = .service ∨ s.portMode p = .holdover)
    (ht : s.takesIngress p = true) (hroom : x.egress.liBuf.length < 2048) :
    ∃ y, s.SetsPort p y (codeError p k t) ∧ y.egress.liBuf = x.egress.liBuf ++ [k307] := by
  have hset := h.modLane (·.violated k)
  have hnat := h.native_modLane (·.violated k) hn
  rw [codeError_eq, deliverSym_k307_line hnat, lineIngress_fits hnat (by rw [hset.mode]; exact hm)
    (by rw [hset.takes]; exact ht) (by rw [hset.here]; exact hroom)]
  obtain ⟨e, he, -⟩ := codedErrors_sets k 1 (hset.modEgress fun e => { e with liBuf := e.liBuf ++ [k307] })
  exact ⟨_, he, rfl⟩

end

/-- The port as its decoder leaves lane k's running disparity. -/
def PortSt.heard (r : BitVec 4) (x : PortSt) : PortSt := { x with lane.rxPositive := r }

/-- What the port takes as an error of the code: a comma out of place, a group that does not decode, or one that it refuses. -/
def State.isBad (s : State) (p k : Nat) (b : BadSymbol) : Prop :=
  b = .misplacedComma ∨ ∃ g positive, b = .group g positive ∧ (decodeGroup g.toNat positive = .violation ∨
    ∃ y, s.refusesSym p k y = true ∧ (decodeGroup g.toNat positive = .good y ∨ decodeGroup g.toNat positive = .wrongDisparity y))

/-- Each of these is a code error, once the disparity that the group implies has been noted. -/
theorem invalidSymbol_bad {s : State} {p k : Nat} {b : BadSymbol} (hs : s.wf = true) (hb : s.isBad p k b) :
    ∃ r t, s.SetsPort p ((s.port p).heard r) t ∧ invalidSymbol p k b s = codeError p k t := by
  rcases hb with rfl | ⟨g, positive, rfl, hg⟩
  · exact ⟨_, s, .refl p hs, rfl⟩
  · have hset := (State.SetsPort.refl p hs).modLane
      fun l => { l with rxPositive := setBit l.rxPositive k (groupDisparity g.toNat positive) }
    refine ⟨_, _, hset, ?_⟩
    rcases hg with hv | ⟨y, hy, hg | hg⟩
    · simp only [invalidSymbol, hv]
    · simp only [invalidSymbol, hg, hset.refuses rfl, hy, if_true]
    · simp only [invalidSymbol, hg, hset.refuses rfl, hy, if_true]

/-- R116: a group that decodes at the other disparity counts as such, and as no violation. -/
theorem invalidSymbol_wrongDisparity {s : State} {p k : Nat} {g : BitVec 10} {positive : Bool} {y : Sym} (hs : s.wf = true)
    (hg : decodeGroup g.toNat positive = .wrongDisparity y) (hy : s.refusesSym p k y = false) :
    ((invalidSymbol p k (.group g positive) s).port p).lane.decoded =
      ((s.port p).lane.codeViol, bump 0xFFFF (s.port p).lane.disparity k,
        setBit (s.port p).lane.rxPositive k (groupDisparity g.toNat positive)) := by
  have hset := (State.SetsPort.refl p hs).modLane
    fun l => { l with rxPositive := setBit l.rxPositive k (groupDisparity g.toNat positive) }
  have hcount := hset.modLane fun l => { l with disparity := bump 0xFFFF l.disparity k }
  simp only [invalidSymbol, hg, hset.refuses rfl, hy, Bool.false_eq_true, if_false]
  rw [(deliverSym_keepsLanes (f := LaneSt.decoded) (p := p) (.refl _) (fun _ _ _ _ => rfl) y).lanes hcount.rises, hcount.here]
  rfl

section
variable {s : State} {p : Port} {k : Fin 4} (hs : s.wf = true) (hear : s.hearsPins p.val = true)
  (hw : s.inWidth p.val k.val = true)
include hs hear hw

/-- R117, R128: a code error is counted; on a native trunk it ends what is open, elsewhere K30.7 goes to the edition. -/
theorem invalidSymbol_counts {b : BadSymbol} (hb : s.isBad p.val k.val b) :
    ∃ t, exec (.invalidSymbol p k b) s = .next t ∧
      (t.port p.val).lane.codeViol = bump 0xFFFF (s.port p.val).lane.codeViol k.val ∧
      (t.port p.val).lane.disparity = (s.port p.val).lane.disparity ∧
      (s.native p.val = true → (t.port p.val).lane.itemOpen = false) ∧
      (s.native p.val = true → (s.port p.val).lane.itemOpen = false → s.onlyPort t p.val) ∧
      (s.native p.val = false → (s.portMode p.val = .service ∨ s.portMode p.val = .holdover) → s.takesIngress p.val = true →
        (s.port p.val).egress.liBuf.length < 2048 →
        (t.port p.val).egress.liBuf = (s.port p.val).egress.liBuf ++ [k307] ∧ s.onlyPort t p.val) := by
  have hc : (s.hearsPins p.val && s.inWidth p.val k.val) = true := by simp [hear, hw]
  obtain ⟨r, u, hu, hf⟩ := invalidSymbol_bad hs hb
  have hn := hu.native rfl
  obtain ⟨hviol, hdisp⟩ := codeError_counts k.val hu
  have honly : ∀ y t, exec (.invalidSymbol p k b) s = .next t → s.SetsPort p.val y (codeError p.val k.val u) →
      t.port p.val = y ∧ s.onlyPort t p.val := by
    intro y t ht hy
    rw [← hf] at hy
    obtain rfl := Host.Outcome.next.inj ((run_when_sets hc hy).symm.trans ht)
    exact ⟨hy.here, hy.onlyPort⟩
  obtain ⟨t, ht, hport⟩ := run_when_ports hc (invalidSymbol p.val k.val b) s
  rw [hf] at hport
  refine ⟨t, ht, by rw [hport, hviol]; rfl, by rw [hport, hdisp]; rfl, fun hnat => ?_, fun hnat hshut => ?_,
    fun hnat hm htake hroom => ?_⟩
  · rw [hport]
    exact codeError_closes k.val hu (hn.trans hnat)
  · obtain ⟨y, hy⟩ := codeError_native_sets k.val hu (hn.trans hnat) hshut
    exact (honly y t ht hy).2
  · obtain ⟨y, hy, hbuf⟩ := codeError_line_sets k.val hu (hn.trans hnat) hm htake hroom
    obtain ⟨hat, hrest⟩ := honly y t ht hy
    exact ⟨hat ▸ hbuf, hrest⟩

end

/-! ## Trackers and slips (R129, R132) -/

theorem phaseLimit_holds {s : State} {p : Port} {k : Fin 2} (high : Bool) (hs : s.wf = true) (hl : s.listens p.val = true)
    (ht : isTrunk p.val = false) (hw : s.inWidth p.val k.val = true) :
    ∃ t, exec (.lanePhaseLimit p k high) s = .next t ∧
      (t.port p.val).lane = { (s.port p.val).lane with
        track := (s.port p.val).lane.track.set k.val (if high then 16 else -16)
        limitHits := bump 255 (s.port p.val).lane.limitHits k.val, limitTold := true } ∧
      ((s.port p.val).lane.limitTold = false → t.told .warning 0x0504 p.val) := by
  have hset := (State.SetsPort.refl p.val hs).modLane fun l => { l with
    track := l.track.set k.val (if high then 16 else -16), limitHits := bump 255 l.limitHits k.val, limitTold := true }
  obtain ⟨t, he, hport, htold⟩ := run_when_tells (c := s.listens p.val && !isTrunk p.val && s.inWidth p.val k.val)
    (by simp [hl, ht, hw]) (phaseLimit p.val k.val high) s
  refine ⟨t, he, ?_, fun hnew => htold _ _ _ ?_⟩
  · rw [hport]
    unfold phaseLimit
    simp only
    split
    · rw [hset.here]
    · rw [warn_port, hset.here]
  · simp only [phaseLimit, hnew, Bool.false_eq_true, if_false]
    exact raise_told ..

/-- The lane once an elastic buffer has slipped, before what is open is given up. -/
def LaneSt.slipped (l : LaneSt) : LaneSt := { l with fill := [32, 32, 32, 32], slips := sat 255 l.slips 1 }

theorem elasticSlip_slips {s : State} {p : Port} (hs : s.wf = true) (hl : s.listens p.val = true) (ht : isTrunk p.val = true) :
    ∃ t, exec (.elasticSlip p) s = .next t ∧ (t.port p.val).lane = (s.port p.val).lane.slipped.givenUp ∧
      t.told .warning 0x0505 p.val := by
  have hset := (State.SetsPort.refl p.val hs).modLane LaneSt.slipped
  obtain ⟨t, he, hport, htold⟩ := run_when_tells (c := s.listens p.val && isTrunk p.val) (by simp [hl, ht])
    (elasticSlip p.val) s
  have hf : elasticSlip p.val s = warn 0x0505 p.val [] (poisonOpen p.val (s.modLane p.val LaneSt.slipped)) := rfl
  refine ⟨t, he, ?_, htold _ _ _ (raise_told ..)⟩
  rw [hport, hf, warn_port, poisonOpen_lane hset.rises, hset.here]

end Sys2Proof.Machine
end

section
/-! PROOFS. Marks and skip sets as a port receives them (R121 to R126, R132, R198), and the obligation on lanes. -/

namespace Sys2Proof.Machine
open Sys2Proof

/-! ## Pins and marks that are heard -/

/-- Where the pins are heard, no near-end loopback is set. -/
theorem hearsPins_iff {s : State} {p : Nat} : s.hearsPins p = true ↔ s.listens p = true ∧ s.nearEnd p = false := by
  simp [State.hearsPins]

/-- A port that hears its pins and is not foreign hears their marks, good or bad. -/
theorem hearsMark_of_pins {s : State} {p : Nat} (hear : s.hearsPins p = true) (hf : foreign (s.port p).cfg = false) (n : Nat)
    (sym : List Byte) (u : LineUnit) : s.hearsMark p n sym u = true := by
  obtain ⟨hl, hnear⟩ := hearsPins_iff.mp hear
  simp [State.hearsMark, hl, hf, hnear]

theorem foreign_of_expectsMarks {c : PortCfg} (h : expectsMarks c = true) : foreign c = false := by
  cases hf : foreign c with
  | false => rfl
  | true => simp [expectsMarks, hf] at h

theorem hearsMark_of_expectsMarks {s : State} {p : Nat} (hear : s.hearsPins p = true)
    (hmarks : expectsMarks (s.port p).cfg = true) (sym : List Byte) :
    (s.hearsMark p (3 + 4 * s.markWidth p) sym (.striped (k280 :: dSyms sym)) && expectsMarks (s.port p).cfg) = true := by
  rw [hearsMark_of_pins hear (foreign_of_expectsMarks hmarks), hmarks]
  rfl

/-! ## A mark whose CRC fails (R121, R138) -/

/-- Each lane's checker may count a discarded mark. -/
theorem foldl_codedErrors_sets {s : State} {p : Nat} (n : Nat → Nat) (l : List Nat) {t : State} {x : PortSt}
    (h : s.SetsPort p x t) :
    ∃ e, s.SetsPort p { x with lane.prbsErr := e } (l.foldl (fun s k => codedErrors p k (n k) s) t) ∧
      (s.portMode p ≠ .bindery → e = x.lane.prbsErr) := by
  induction l generalizing t x with
  | nil => exact ⟨_, h, fun _ => rfl⟩
  | cons k l ih =>
    obtain ⟨e, he, hsame⟩ := codedErrors_sets k (n k) h
    obtain ⟨e', he', hsame'⟩ := ih he
    exact ⟨e', he', fun hm => (hsame' hm).trans (hsame hm)⟩

/-- It is counted, and does nothing else but what an idle checker counts. -/
theorem countMark_sets {s t : State} {p : Nat} {x : PortSt} (n : Nat) (every : Bool) (h : s.SetsPort p x t) :
    ∃ e, s.SetsPort p { x with lane.crcFail := sat 0xFFFF x.lane.crcFail 1, lane.prbsErr := e } (countMark p n every t) ∧
      (s.portMode p ≠ .bindery → e = x.lane.prbsErr) :=
  foldl_codedErrors_sets _ _ (h.modLane fun l => { l with crcFail := sat 0xFFFF l.crcFail 1 })

/-! ## Frame marks (R113, R122, R132) -/

/-- The mark and its copies on the lanes of a width pass their checks. -/
def goodFrameMark (width : Nat) (sym : List Byte) (copies : List (List Byte)) : Prop :=
  crcGood 5 sym = true ∧ codesGood (leAt sym 3 1) = true ∧ ∀ c ∈ copies.take (lanesOf width - 1), crcGood 5 c = true

/-- The condition under which the model discards a frame mark. -/
theorem badFrameMark_iff (width : Nat) (sym : List Byte) (copies : List (List Byte)) :
    (!crcGood 5 sym || !codesGood (leAt sym 3 1) || (copies.take (lanesOf width - 1)).any fun l => !crcGood 5 l) = true ↔
      ¬goodFrameMark width sym copies := by
  simp only [goodFrameMark, Bool.or_eq_true, Bool.not_eq_true', List.any_eq_true]
  constructor
  · rintro ((h | h) | ⟨c, hc, h⟩) ⟨hsym, hcodes, hall⟩
    · simp [h] at hsym
    · simp [h] at hcodes
    · simp [hall c hc] at h
  · intro h
    by_contra hno
    push Not at hno
    obtain ⟨⟨hsym, hcodes⟩, hall⟩ := hno
    exact h ⟨by simpa using hsym, by simpa using hcodes, fun c hc => by simpa using hall c hc⟩

theorem alignCheck_sets {s : State} {p : Nat} (aligned : Bool) (hs : s.wf = true) :
    ∃ l, s.SetsPort p { s.port p with lane := l } (alignCheck p aligned s) ∧ l.markErr = (s.port p).lane.markErr ∧
      l.inSync = (s.port p).lane.inSync := by
  unfold alignCheck
  split
  · exact ⟨_, .refl p hs, rfl, rfl⟩
  · refine ⟨_, (State.SetsPort.refl p hs).modLane _, ?_, ?_⟩ <;> split <;> rfl

/-- What is in sync depends on the lanes' sync and the width alone. -/
theorem State.SetsPort.allSync {s t : State} {p : Nat} {x : PortSt} (h : s.SetsPort p x t)
    (hsync : x.lane.inSync = (s.port p).lane.inSync) (hcur : x.neg.cur = (s.port p).neg.cur) : t.allSync p = s.allSync p := by
  simp only [State.allSync, State.inWidth, h.here, hsync, hcur]

section
variable {s : State} {p : Nat} {sym : List Byte} {copies : List (List Byte)} (aligned : Bool) (phase : Int) (hs : s.wf = true)

theorem frameMark_bad (hbad : ¬goodFrameMark (s.port p).neg.cur.width sym copies) :
    frameMark p sym copies aligned phase s = countMark p 8 true s := by
  simp only [frameMark, (badFrameMark_iff ..).mpr hbad, if_true]

variable (hgood : goodFrameMark (s.port p).neg.cur.width sym copies)
include hgood

/-- A mark of another step is a mark error. -/
theorem frameMark_other
    (hstep : leAt sym 3 1 % 16 ≠ (s.port p).neg.cur.rate ∨ leAt sym 3 1 / 16 % 4 ≠ (s.port p).neg.cur.width) :
    frameMark p sym copies aligned phase s = s.modLane p fun l => { l with markErr := sat 255 l.markErr 1 } := by
  have hcheck := Bool.eq_false_iff.mpr fun h => (badFrameMark_iff ..).mp h hgood
  have hother : (leAt sym 3 1 % 16 != (s.port p).neg.cur.rate || leAt sym 3 1 / 16 % 4 != (s.port p).neg.cur.width) = true := by
    simpa using hstep
  simp only [frameMark, hcheck, hother, Bool.false_eq_true, if_false, if_true]

include hs

/-- A mark of the port's own step counts towards its training, and gives a native trunk the phase of its partner. -/
theorem frameMark_own (hrate : leAt sym 3 1 % 16 = (s.port p).neg.cur.rate)
    (hwidth : leAt sym 3 1 / 16 % 4 = (s.port p).neg.cur.width) :
    ∃ t, s.SetsPort p (t.port p) t ∧
      (t.port p).neg = { (s.port p).neg with markSeen := (s.port p).neg.markSeen || (aligned && s.allSync p) } ∧
      (t.port p).lane.markErr = (s.port p).lane.markErr ∧
      frameMark p sym copies aligned phase s =
        if s.native p then { t with frame.trunkPhase := Sparse.ins s.frame.trunkPhase (p - 128) phase } else t := by
  have hcheck := Bool.eq_false_iff.mpr fun h => (badFrameMark_iff ..).mp h hgood
  obtain ⟨l, hl, herr, hsync⟩ := alignCheck_sets (p := p) aligned hs
  have hset := hl.modNeg fun n => { n with markSeen := n.markSeen || (aligned && (alignCheck p aligned s).allSync p) }
  have hnat := hset.native rfl
  have hframe := congrArg (·.frame.trunkPhase) hset.frame
  refine ⟨_, ⟨hset.frame, rfl, hset.other, hset.rises⟩, ?_, ?_, ?_⟩
  · rw [hset.here, hl.allSync hsync rfl]
  · rw [hset.here, herr]
  · simp only [frameMark, hcheck, hrate, hwidth, bne_self_eq_false, Bool.or_self, Bool.false_eq_true, if_false, hnat]
    rw [hframe]

end

section
variable {s : State} {p : Port} {sym : List Byte} {copies : List (List Byte)} (aligned : Bool) (phase : Int) (hs : s.wf = true)
  (hear : s.hearsPins p.val = true) (hf : foreign (s.port p.val).cfg = false)
include hs hear hf

theorem frameMarkReceived_bad (hbad : ¬goodFrameMark (s.port p.val).neg.cur.width sym copies) :
    ∃ t, exec (.frameMarkReceived p (sym :: copies) aligned phase) s = .next t ∧
      (t.port p.val).lane = { (s.port p.val).lane with
        crcFail := sat 0xFFFF (s.port p.val).lane.crcFail 1, prbsErr := (t.port p.val).lane.prbsErr } ∧
      (s.portMode p.val ≠ .bindery → (t.port p.val).lane.prbsErr = (s.port p.val).lane.prbsErr) ∧
      (t.port p.val).neg = (s.port p.val).neg ∧ s.onlyPort t p.val := by
  obtain ⟨e, he, hsame⟩ := countMark_sets 8 true (State.SetsPort.refl p.val hs)
  rw [← frameMark_bad aligned phase hbad] at he
  obtain ⟨t, ht, hat, honly⟩ := done_when_sets (hearsMark_of_pins hear hf 5 sym (.every (k281 :: dSyms sym))) he
  exact ⟨t, ht, by rw [hat], by rw [hat]; exact hsame, by rw [hat], honly⟩

theorem frameMarkReceived_good (hgood : goodFrameMark (s.port p.val).neg.cur.width sym copies) :
    ∃ t, exec (.frameMarkReceived p (sym :: copies) aligned phase) s = .next t ∧
      (leAt sym 3 1 % 16 = (s.port p.val).neg.cur.rate → leAt sym 3 1 / 16 % 4 = (s.port p.val).neg.cur.width →
        (t.port p.val).neg =
          { (s.port p.val).neg with markSeen := (s.port p.val).neg.markSeen || (aligned && s.allSync p.val) } ∧
        (t.port p.val).lane.markErr = (s.port p.val).lane.markErr ∧
        (s.native p.val = true → Sparse.look t.frame.trunkPhase (p.val - 128) = some phase)) ∧
      (leAt sym 3 1 % 16 ≠ (s.port p.val).neg.cur.rate ∨ leAt sym 3 1 / 16 % 4 ≠ (s.port p.val).neg.cur.width →
        (t.port p.val).neg = (s.port p.val).neg ∧
        (t.port p.val).lane = { (s.port p.val).lane with markErr := sat 255 (s.port p.val).lane.markErr 1 } ∧
        s.onlyPort t p.val) := by
  have hc := hearsMark_of_pins hear hf 5 sym (.every (k281 :: dSyms sym))
  by_cases hstep : leAt sym 3 1 % 16 = (s.port p.val).neg.cur.rate ∧ leAt sym 3 1 / 16 % 4 = (s.port p.val).neg.cur.width
  · obtain ⟨hrate, hwidth⟩ := hstep
    obtain ⟨t, ht, hneg, herr, hmark⟩ := frameMark_own aligned phase hs hgood hrate hwidth
    have hport : (frameMark p.val sym copies aligned phase s).port p.val = t.port p.val := by
      rw [hmark]
      split <;> rfl
    refine ⟨_, done_when hc (frameMark p.val sym copies aligned phase) s, fun _ _ => ⟨?_, ?_, fun hn => ?_⟩,
      fun h => (h.elim (· hrate) (· hwidth)).elim⟩
    · rw [hport, hneg]
    · rw [hport, herr]
    · rw [hmark, if_pos hn]
      exact (Sparse.look_ins ..).trans (if_pos rfl)
  · have hset := (State.SetsPort.refl p.val hs).modLane fun l => { l with markErr := sat 255 l.markErr 1 }
    rw [← frameMark_other aligned phase hgood (not_and_or.mp hstep)] at hset
    obtain ⟨t, ht, hat, honly⟩ := done_when_sets hc hset
    exact ⟨t, ht, fun hrate hwidth => absurd ⟨hrate, hwidth⟩ hstep, fun _ => ⟨by rw [hat], by rw [hat], honly⟩⟩

end

/-! ## Slot marks (R123 to R125, R198) -/

/-- The lane once a good slot mark with these fields has come. -/
def LaneSt.markTaken (n : Nat) (fs : List Nat) (l : LaneSt) : LaneSt :=
  { l with
    lastSlotNo := some n, lastMark := some fs, markThisSlot := true
    seqErr := if (match l.lastSlotNo with | some m => n != (m + 1) % 250 | none => false) then sat 255 l.seqErr 1 else l.seqErr }

/-- R125: a slot number that does not follow the last is an error of the series. -/
theorem LaneSt.markTaken_seqErr {l : LaneSt} {m : Nat} (n : Nat) (fs : List Nat) (h : l.lastSlotNo = some m) :
    (l.markTaken n fs).seqErr = if n = (m + 1) % 250 then l.seqErr else min 255 (l.seqErr + 1) := by
  simp only [markTaken, h, bne_iff_ne, ne_eq, ite_not]
  rfl

/-- The port's credit once this good slot mark has come. -/
def State.creditAfter (s : State) (p : Nat) (sym : List Byte) : CreditSt :=
  if s.portMode p == .service && pacedByCredit (s.port p).cfg then
    creditMark (s.markWidth p) (markFields (s.markWidth p) sym)
      ((s.port p).credit.fresh || decide (3 < (s.port p).lane.marksLost))
      (s.port p).lane.lastMark (s.port p).credit
  else (s.port p).credit

/-- R198: in Service, after a mark that was not lost, what the fields have grown by is granted. -/
theorem creditAfter_grant {s : State} {p : Nat} {prev : List Nat} (sym : List Byte) (hm : s.portMode p = .service)
    (hpaced : pacedByCredit (s.port p).cfg = true) (hprev : (s.port p).lane.lastMark = some prev)
    (hfresh : (s.port p).credit.fresh = false) (hlost : (s.port p).lane.marksLost ≤ 3) :
    (s.creditAfter p sym).grant = (List.range 32).map fun i => nth (s.port p).credit.grant i +
      (nth (markFields (s.markWidth p) sym) i + 2 ^ s.markWidth p - nth prev i) % 2 ^ s.markWidth p := by
  simp only [State.creditAfter, hm, hpaced, hprev, hfresh, Nat.not_lt.mpr hlost, creditMark, beq_self_eq_true, Bool.and_self,
    decide_false, Bool.or_self, if_true]

section
variable {s : State} {p : Nat} {sym : List Byte} (hs : s.wf = true)
include hs

theorem slotMark_bad_sets (hbad : crcGood (3 + 4 * s.markWidth p) sym = false ∨ 250 ≤ leAt sym 0 1) :
    ∃ e, s.SetsPort p { s.port p with
        lane := { (s.port p).lane with badThisSlot := true, crcFail := sat 0xFFFF (s.port p).lane.crcFail 1, prbsErr := e } }
      (slotMark p sym s) := by
  have hc : (!crcGood (3 + 4 * s.markWidth p) sym || decide (250 ≤ leAt sym 0 1)) = true := by simpa using hbad
  obtain ⟨e, he, -⟩ := countMark_sets (6 + 4 * s.markWidth p) false
    ((State.SetsPort.refl p hs).modLane fun l => { l with badThisSlot := true })
  refine ⟨e, ?_⟩
  simp only [slotMark, hc, if_true]
  exact he

theorem slotMark_good_sets (hcrc : crcGood (3 + 4 * s.markWidth p) sym = true) (hno : leAt sym 0 1 < 250) :
    s.SetsPort p { s.port p with
        lane := (s.port p).lane.markTaken (leAt sym 0 1) (markFields (s.markWidth p) sym), credit := s.creditAfter p sym }
      (slotMark p sym s) := by
  have hc : (!crcGood (3 + 4 * s.markWidth p) sym || decide (250 ≤ leAt sym 0 1)) = false := by simp [hcrc, hno]
  have hset := (State.SetsPort.refl p hs).modLane fun l => { l with
    lastSlotNo := some (leAt sym 0 1), lastMark := some (markFields (s.markWidth p) sym)
    seqErr := if (match (s.port p).lane.lastSlotNo with | some m => leAt sym 0 1 != (m + 1) % 250 | none => false)
      then sat 255 l.seqErr 1 else l.seqErr
    markThisSlot := true }
  have hmode := hset.mode p
  unfold State.creditAfter
  simp only [slotMark, hc, Bool.false_eq_true, if_false]
  split <;> rename_i hpaid
  · rw [if_pos (hmode ▸ hpaid)]
    exact hset.modCredit _
  · rw [if_neg (hmode ▸ hpaid)]
    exact hset

end

/-! ## Skip sets (R126, R132) -/

theorem nth_bump (cap : Nat) (l : List Nat) (j k : Nat) :
    nth (bump cap l j) k = if k = j ∧ k < l.length then min cap (nth l k + 1) else nth l k := by
  simp only [nth, bump, sat, List.getD, List.getElem?_modify]
  by_cases hk : k < l.length
  · by_cases hj : j = k <;> simp [hk, hj, eq_comm]
  · simp [hk]

@[simp] theorem bump_length (cap : Nat) (l : List Nat) (j : Nat) : (bump cap l j).length = l.length := List.length_modify ..

/-- A counter that counts three. -/
def bumpThrice (cap : Nat) (l : List Nat) (j : Nat) : List Nat := bump cap (bump cap (bump cap l j) j) j

theorem nth_bumpThrice (cap : Nat) (l : List Nat) (j k : Nat) :
    nth (bumpThrice cap l j) k = if k = j ∧ k < l.length then min cap (nth l k + 3) else nth l k := by
  simp only [bumpThrice, nth_bump, bump_length]
  split
  · omega
  · rfl

/-- Each of the first w counters counts three, and no other. -/
theorem nth_foldl_bumpThrice (cap w : Nat) (l : List Nat) (k : Nat) :
    ((List.range w).foldl (bumpThrice cap) l).length = l.length ∧
    nth ((List.range w).foldl (bumpThrice cap) l) k = if k < w ∧ k < l.length then min cap (nth l k + 3) else nth l k := by
  induction w with
  | zero => simp
  | succ w ih =>
    obtain ⟨hlen, hnth⟩ := ih
    rw [List.range_succ, List.foldl_append, List.foldl_cons, List.foldl_nil, nth_bumpThrice, hnth, hlen]
    refine ⟨by simp [bumpThrice, hlen], ?_⟩
    split_ifs <;> omega

/-- The code violations that a list of lanes' code errors leave, one after the other. -/
theorem foldl_codeError_codeViol {s : State} {p : Nat} (ks : List Nat) (h : Sparse.rises s.ports = true) :
    ((ks.foldl (fun s k => codeError p k s) s).port p).lane.codeViol = ks.foldl (bump 0xFFFF) (s.port p).lane.codeViol := by
  induction ks generalizing s with
  | nil => rfl
  | cons k ks ih =>
    have hset : s.SetsPort p (s.port p) s := ⟨rfl, rfl, fun _ _ => rfl, h⟩
    have hrises := (codeError_decoded p k s).rises (hset.modLane _).rises
    rw [List.foldl_cons, ih hrises, (codeError_counts k hset).1, List.foldl_cons]

theorem skipOnSlot_codeViol {s : State} {p : Nat} (hs : s.wf = true) :
    ((skipOnSlot p s).port p).lane.codeViol =
      (List.range (lanesOf (s.port p).neg.cur.width)).foldl (bumpThrice 0xFFFF) (s.port p).lane.codeViol := by
  rw [skipOnSlot, foldl_codeError_codeViol _ (s.wf_ports hs), List.foldl_flatMap]
  rfl

/-- The lane once a skip set has come with these fills: L0's decides for every lane. -/
def LaneSt.matched (fill : List Nat) (l : LaneSt) : LaneSt :=
  if 36 < nth fill 0 then { l with fill := fill.map (· - 1), deletes := sat 0xFFF l.deletes 1 }
  else if nth fill 0 < 28 then { l with fill := fill.map (· + 1), inserts := sat 0xFFF l.inserts 1 }
  else { l with fill := fill }

theorem LaneSt.matched_deletes {fill : List Nat} (l : LaneSt) (h : 36 < nth fill 0) :
    l.matched fill = { l with fill := fill.map (· - 1), deletes := sat 0xFFF l.deletes 1 } := if_pos h

theorem LaneSt.matched_inserts {fill : List Nat} (l : LaneSt) (h : nth fill 0 < 28) :
    l.matched fill = { l with fill := fill.map (· + 1), inserts := sat 0xFFF l.inserts 1 } := by
  rw [matched, if_neg (by omega), if_pos h]

theorem LaneSt.matched_rests {fill : List Nat} (l : LaneSt) (h : 28 ≤ nth fill 0) (h' : nth fill 0 ≤ 36) :
    l.matched fill = { l with fill := fill } := by
  rw [matched, if_neg (by omega), if_neg (by omega)]

theorem skipSet_sets {s : State} {p : Nat} (fill : List Nat) (hs : s.wf = true) :
    s.SetsPort p { s.port p with lane := (s.port p).lane.matched fill } (skipSet p fill s) :=
  (State.SetsPort.refl p hs).modLane (·.matched fill)

/-! ## The obligation -/

/-- Settles O26: each finding through what it leaves of the port's lane, an open item through `LaneSt.givenUp`; marks and skip
sets by what their checks admit. -/
theorem laneErrorsAndSkips : Obligations.LaneErrorsAndSkips := by
  unfold Obligations.LaneErrorsAndSkips
  refine ⟨fun s p k hs hl hw => ⟨fun positive => ?_, fun hsync hwin => ?_, fun hslot => ?_⟩,
    fun s p k x hs hear hw => ⟨fun g positive hx y hg hy => ?_, invalidSymbol_counts hs hear hw⟩,
    fun s p hs hl => ⟨fun hpins hxaui => ?_, fun j high hslot hw => ?_, fun htrunk => ?_⟩,
    fun s p sym copies aligned phase fill hs hear => ⟨fun hf hbad => ?_, fun hf hgood => ?_,
      fun hmarks => ⟨fun hbad => ?_, fun hcrc hno => ?_⟩, fun htrunk => ?_, fun hslot => ?_⟩⟩
  · obtain ⟨t, ht, hlane, honly⟩ := done_when_modLane (c := s.listens p.val && s.inWidth p.val k.val) (p := p.val)
      (by simp [hl, hw]) hs fun l => { l with
        inSync := setBit l.inSync k.val true, rxPositive := setBit l.rxPositive k.val positive }
    exact ⟨t, ht, honly, hlane⟩
  · obtain ⟨t, ht, hlane, honly⟩ := laneSyncLost_lane hs hl hw hsync hwin
    refine ⟨t, ht, ?_, ?_, ?_, ?_, fun hopen => ?_, honly⟩ <;> rw [hlane]
    · exact LaneSt.givenUp_keeps (f := LaneSt.inSync) _ fun _ _ _ _ => rfl
    · exact LaneSt.givenUp_keeps (f := LaneSt.syncLoss) _ fun _ _ _ _ => rfl
    · exact LaneSt.givenUp_keeps (f := LaneSt.badThisSlot) _ fun _ _ _ _ => rfl
    · exact LaneSt.givenUp_itemOpen _
    · rw [LaneSt.givenUp_open (l := (s.port p.val).lane.outOfSync k.val (s.port p.val)) hopen]
      exact ⟨rfl, le_refl _⟩
  · exact done_when_modLane (by simp [hl, hw, hslot]) hs
      fun l => { l with discIn := sat 0xFFFF l.discIn 1 }
  · subst hx
    obtain ⟨t, ht, hport⟩ := run_when_ports (c := s.hearsPins p.val && s.inWidth p.val k.val) (by simp [hear, hw])
      (invalidSymbol p.val k.val (.group g positive)) s
    have hlane := invalidSymbol_wrongDisparity hs hg hy
    rw [← hport] at hlane
    exact ⟨t, ht, congrArg (fun d => d.2.1) hlane, congrArg Prod.fst hlane, congrArg (fun d => d.2.2) hlane⟩
  · exact done_when_modLane (by simp [hearsPins_iff.mpr ⟨hl, hpins⟩, hxaui]) hs
      fun l => { l with discIn := sat 0xFFFF l.discIn 1 }
  · obtain ⟨t, ht, hlane, htold⟩ := phaseLimit_holds high hs hl hslot hw
    refine ⟨t, ht, ?_, ?_, ?_, htold⟩ <;> rw [hlane]
    rfl
  · obtain ⟨t, ht, hlane, htold⟩ := elasticSlip_slips hs hl htrunk
    refine ⟨t, ht, ?_, ?_, ?_, htold⟩ <;> rw [hlane]
    · exact LaneSt.givenUp_keeps (f := LaneSt.fill) _ fun _ _ _ _ => rfl
    · exact LaneSt.givenUp_keeps (f := LaneSt.slips) _ fun _ _ _ _ => rfl
    · exact LaneSt.givenUp_itemOpen _
  · exact frameMarkReceived_bad aligned phase hs hear hf hbad
  · exact frameMarkReceived_good aligned phase hs hear hf hgood
  · obtain ⟨e, he⟩ := slotMark_bad_sets hs hbad
    obtain ⟨t, ht, hat, honly⟩ := done_when_sets (hearsMark_of_expectsMarks hear hmarks sym) he
    exact ⟨t, ht, by rw [hat]; rfl, by rw [hat], honly⟩
  · obtain ⟨t, ht, hat, honly⟩ := done_when_sets (hearsMark_of_expectsMarks hear hmarks sym) (slotMark_good_sets hs hcrc hno)
    refine ⟨t, ht, ?_, ?_, ?_, fun m hm => ?_, fun prev hm hpaced hprev hfresh hlost => ?_, fun hm => ?_, honly⟩ <;> rw [hat]
    · rfl
    · rfl
    · rfl
    · exact LaneSt.markTaken_seqErr _ _ hm
    · exact creditAfter_grant sym hm hpaced hprev hfresh hlost
    · simp only [State.creditAfter, beq_eq_false_iff_ne.mpr hm, Bool.false_and, Bool.false_eq_true, if_false]
  · have hset := skipSet_sets (p := p.val) fill hs
    have hrun : exec (.skipSetReceived p fill) s = .next (skipSet p.val fill s) := by
      refine Eq.trans ?_ (run_when_sets hear hset)
      simp only [exec, execSkipSetReceived, htrunk, if_true]
    refine ⟨_, hrun, hset.onlyPort, fun h => ?_, fun h => ?_, fun h h' => ?_⟩ <;> rw [hset.here]
    · rw [LaneSt.matched_deletes _ h]
      exact ⟨rfl, rfl⟩
    · rw [LaneSt.matched_inserts _ h]
      exact ⟨rfl, rfl⟩
    · rw [LaneSt.matched_rests _ h h']
  · obtain ⟨t, ht, hport⟩ := run_when_ports hear (skipOnSlot p.val) s
    refine ⟨t, ?_, fun k hk hlen => ?_⟩
    · rw [← ht]
      simp only [exec, execSkipSetReceived, hslot, Bool.false_eq_true, if_false]
    · rw [hport, skipOnSlot_codeViol hs, (nth_foldl_bumpThrice ..).2, if_pos ⟨hk, hlen⟩]

end Sys2Proof.Machine
end

section
/-! PROOFS. Negotiation sets (R127, R144 to R148, R152 to R154): what a set that is heard makes of the negotiation, and how a
step fails. -/

namespace Sys2Proof.Machine
open Sys2Proof

/-! ## What negotiation writes of its port -/

/-- The negotiation with its own masks, and the target that they give (R144, R145). -/
def NegSt.aimed (m : BitVec 9 × BitVec 3) (n : NegSt) : NegSt :=
  { n with ownRates := m.1, ownWidths := m.2,
           target := ((ladder { n with ownRates := m.1, ownWidths := m.2 }).getLast?).getD step0 }

namespace State.SetsPort
variable {s t : State} {p : Nat} {x : PortSt} (h : s.SetsPort p x t)
include h

/-- A set that is sent changes what the port transmits. -/
theorem sendSet (type : Nat) (y : Step) (f : BitVec 16) :
    ∃ a, s.SetsPort p { x with tx := a } (sendSet p type y f t) := by
  unfold Machine.sendSet sendUnit
  split
  · exact ⟨_, h.modTx _⟩
  · exact ⟨_, h⟩

theorem retarget : s.SetsPort p { x with neg := x.neg.aimed (t.ownMasks p) } (retarget p t) := h.modNeg (·.aimed (t.ownMasks p))

/-- R144: the own masks come from the port's settings, its binding and its caps. -/
theorem ownMasks (hc : x.cfg = (s.port p).cfg) (hr : x.neg.rateCap = (s.port p).neg.rateCap)
    (hw : x.neg.widthCap = (s.port p).neg.widthCap) : t.ownMasks p = s.ownMasks p := by
  have hfab : t.fab = s.fab := (congrArg State.fab h.frame :)
  simp only [State.ownMasks, State.ceiling, h.here, hc, hr, hw, hfab]

end State.SetsPort

/-! ## A step fails (R153, R154) -/

/-- The negotiation once its step has failed. -/
def NegSt.failed (n : NegSt) : NegSt :=
  { noteFailure n with
    failedN := sat 255 n.failedN 1, window := false, windowDue := false, ownResult := none, partnerResult := none
    propose := none, switchAt := none, answer := none, settled := false }

/-- A failure is noted against the step in use, and counts no timeout. -/
theorem NegSt.failed_notes (n : NegSt) : failedBefore n.failed = true ∧ n.failed.timeoutsN = n.timeoutsN := by
  have hnoted : ∀ m : NegSt, failedBefore m = true →
      failedBefore (if m.cur == step0 then m
        else if m.cur.rate = 0 then { m with widthFailed := setBit m.widthFailed (m.cur.width - 1) true }
        else { m with failedOnce := setBit m.failedOnce m.cur.rate true }) = true := by
    intro m hm
    split_ifs <;> exact hm
  constructor
  · refine hnoted (if failedBefore n then n else { n with fails := n.cur :: n.fails }) ?_
    split
    · assumption
    · simp [failedBefore]
  · unfold failed noteFailure
    simp only
    split_ifs <;> rfl

/-- A step that fails is noted, and the partner may be told. -/
theorem failNoted_sets {s t : State} {p : Nat} {x : PortSt} (tell : Bool) (h : s.SetsPort p x t) :
    ∃ a, s.SetsPort p { x with neg := x.neg.failed, tx := a }
      (if tell then sendSet p 5 x.neg.cur 0 (t.modNeg p NegSt.failed) else t.modNeg p NegSt.failed) := by
  have hset := h.modNeg NegSt.failed
  split
  · exact hset.sendSet 5 x.neg.cur 0
  · exact ⟨_, hset⟩

/-- What a failure does, once noted: a step that failed before caps the port; it reverts, restarts or is in no step. -/
def failNext (p : Nat) (n : NegSt) (s : State) : State :=
  if n.cur == step0 then
    if failedBefore n then
      warn 0x0501 p [] (retarget p (s.modNeg p fun n => { n with
        rateCap := 0xE, state := 8, trained := false, readySent := false, restart := false }))
    else s.modNeg p fun n => { n with restart := true }
  else (if failedBefore n then retarget p (s.modNeg p capStep) else s).modNeg p
    fun m => { m with revert := some (prevStep n n.cur) }

theorem failStep_eq {s t : State} {p : Nat} {x : PortSt} (tell : Bool) (h : s.SetsPort p x t) :
    failStep p tell t = failNext p x.neg
      (if tell then sendSet p 5 x.neg.cur 0 (t.modNeg p NegSt.failed) else t.modNeg p NegSt.failed) := by
  rw [← h.here]
  rfl

/-- R153: the first failure of a step above step 0 makes the port revert to the step before it. -/
theorem failStep_reverts {s t : State} {p : Nat} {x : PortSt} (tell : Bool) (h : s.SetsPort p x t) (hcur : x.neg.cur ≠ step0)
    (hnew : failedBefore x.neg = false) :
    ∃ a, s.SetsPort p { x with neg := { x.neg.failed with revert := some (prevStep x.neg x.neg.cur) }, tx := a }
      (failStep p tell t) := by
  obtain ⟨a, ha⟩ := failNoted_sets tell h
  refine ⟨a, ?_⟩
  rw [failStep_eq tell h, failNext]
  simp only [beq_eq_false_iff_ne.mpr hcur, hnew, Bool.false_eq_true, if_false]
  exact ha.modNeg fun m => { m with revert := some (prevStep x.neg x.neg.cur) }

/-- Which failures and timeouts a negotiation has counted. -/
def NegSt.counts (n : NegSt) : Nat × Nat := (n.failedN, n.timeoutsN)

theorem capStep_counts (n : NegSt) : (capStep n).counts = n.counts := by
  unfold capStep
  split <;> rfl

/-- What follows a failure counts nothing more. -/
theorem failNext_counts {s t : State} {p : Nat} {x : PortSt} (n : NegSt) (h : s.SetsPort p x t) :
    ((failNext p n t).port p).neg.counts = x.neg.counts := by
  unfold failNext
  split
  · split
    · rw [warn_port, (h.modNeg _).retarget.here]
      rfl
    · rw [(h.modNeg _).here]
      rfl
  · split
    · rw [((h.modNeg _).retarget.modNeg _).here]
      exact capStep_counts _
    · rw [(h.modNeg _).here]
      rfl

/-- However a step fails, it counts as one failure of this end. -/
theorem failStep_counts {s t : State} {p : Nat} {x : PortSt} (tell : Bool) (h : s.SetsPort p x t) :
    ((failStep p tell t).port p).neg.failedN = sat 255 x.neg.failedN 1 ∧
      ((failStep p tell t).port p).neg.timeoutsN = x.neg.timeoutsN := by
  obtain ⟨a, ha⟩ := failNoted_sets tell h
  have hcounts := failNext_counts x.neg ha
  rw [← failStep_eq tell h] at hcounts
  exact ⟨congrArg Prod.fst hcounts, (congrArg Prod.snd hcounts).trans x.neg.failed_notes.2⟩

/-! ## A set that is heard (R127, R146) -/

/-- A good set says which steps have failed its sender. -/
def NegSt.heardSet (sym : List Byte) (n : NegSt) : NegSt := { n with partnerFailed := BitVec.ofNat 9 (leAt sym 7 2) }

/-- The port as a good set finds it. -/
def PortSt.heardSet (sym : List Byte) (x : PortSt) : PortSt := { x with neg := x.neg.heardSet sym }

/-- In Bring-up nothing is looped back (R140). -/
theorem hearsPins_of_bringsUp {s : State} {p : Nat} (h : s.bringsUp p = true) : s.hearsPins p = true := by
  simp only [State.bringsUp, Bool.and_eq_true, beq_iff_eq] at h
  exact hearsPins_iff.mpr ⟨h.1, by simp [State.nearEnd, h.2]⟩

section
variable {s : State} {p : Port} {sym : List Byte} {type : Nat}

theorem State.hears.setType_eq (hear : s.hears p sym type) : setType sym = type := by
  obtain ⟨-, -, -, -, htype, -⟩ := hear
  exact htype

theorem onSet_acts (hear : s.hears p sym type) (h0 : type ≠ 0) (h7 : type < 7) :
    onSet p.val sym s = actOnSet p.val sym (s.modNeg p.val (·.heardSet sym)) := by
  obtain ⟨hup, hset, hcrc, hcodes, htype, hkind⟩ := hear
  simp only [onSet, hcrc, hcodes, htype, h0, Nat.not_le.mpr h7, hup, hset, hkind, Bool.not_true, Bool.or_self, decide_false,
    bne_self_eq_false, Bool.false_eq_true, if_false]
  rfl

/-- A set that is heard acts by its type, on a port that has noted the sender's failures. -/
theorem receiveSet_acts (hear : s.hears p sym type) (h0 : type ≠ 0) (h7 : type < 7) {x : PortSt} {f : State → State}
    (hact : setType sym = type → ∀ s, actOnSet p.val sym s = f s)
    (h : s.SetsPort p.val x (f (s.modNeg p.val (·.heardSet sym)))) :
    ∃ t, receiveSet p sym s = .next t ∧ t.port p.val = x ∧ s.onlyPort t p.val := by
  rw [← hact hear.setType_eq, ← onSet_acts hear h0 h7] at h
  obtain ⟨hup, hset, -⟩ := hear
  have hc : (s.hearsPins p.val && !foreign (s.port p.val).cfg) = true := by
    simp [hearsPins_of_bringsUp hup, foreign, hset]
  exact ⟨_, run_when_sets hc h, h.here, h.onlyPort⟩

theorem heardSet_sets (p : Nat) (sym : List Byte) (hs : s.wf = true) :
    s.SetsPort p ((s.port p).heardSet sym) (s.modNeg p (·.heardSet sym)) := (State.SetsPort.refl p hs).modNeg (·.heardSet sym)

end

/-! ## What each kind of set does -/

/-- The negotiation once it has its partner's capabilities. -/
def NegSt.capsTaken (sym : List Byte) (n : NegSt) : NegSt :=
  { n with
    partnerRates := BitVec.ofNat 9 (leAt sym 1 2), partnerWidths := BitVec.ofNat 3 (leAt sym 3 1), partnerValid := true
    capsHere := n.capsHere || setStep sym == n.cur }

/-- A port whose target is its confirmed step settles, and one that is trained sends ready (R151, R154). -/
def NegSt.capsAnswered (n : NegSt) : NegSt := if n.state == 3 && n.confirmed == some n.target then settle n else sendReady n

/-- What has been negotiated of the masks and the target stands. -/
theorem NegSt.capsAnswered_keeps {α : Type} (f : NegSt → α) (n : NegSt) (hsettle : f (settle n) = f n)
    (hready : f { n with readySent := true, waited := 0 } = f n) : f n.capsAnswered = f n := by
  unfold capsAnswered sendReady
  split_ifs
  · exact hsettle
  · exact hready
  · rfl

/-- The negotiation of a follower that has accepted a propose (R148). -/
def NegSt.accepting (sym : List Byte) (n : NegSt) : NegSt :=
  { n with
    state := 4, leader := false, propose := none, switchAt := some (setStep sym, 8), answer := some (setStep sym, setFrame sym)
    waited := 0 }

/-- The negotiation of a leader whose propose has been accepted: the switch and the frames to it (R148). -/
def NegSt.switching (sw : Step × Nat) (n : NegSt) : NegSt :=
  { n with state := 4, propose := none, switchAt := some sw, waited := 0 }

/-- The negotiation once both ends have confirmed the step (R152). -/
def NegSt.stepConfirmed (n : NegSt) : NegSt :=
  let n := { n with
    confirmedN := sat 255 n.confirmedN 1, confirmed := some n.cur, ownResult := none, partnerResult := none,
    readySent := false, readyRecv := false, waited := 0, refusedRun := 0, outSync := 0 }
  if n.cur == n.target then settle n else { n with state := 3 }

/-- The negotiation with one refusal more. -/
def NegSt.refusedOnce (n : NegSt) : NegSt := { n with refusedRun := n.refusedRun + 1, refusals := sat 255 n.refusals 1 }

/-- The step in use is confirmed and counted; at the target the port settles, below it goes on. -/
theorem NegSt.stepConfirmed_reads (n : NegSt) :
    n.stepConfirmed.confirmed = some n.cur ∧ n.stepConfirmed.confirmedN = sat 255 n.confirmedN 1 ∧
      n.stepConfirmed.state = if n.cur = n.target then 5 else 3 := by
  unfold stepConfirmed
  by_cases htop : n.cur = n.target
  · simp only [beq_iff_eq, htop, if_true]
    exact ⟨rfl, rfl, rfl⟩
  · simp only [beq_iff_eq, htop, if_false]
    exact ⟨trivial, trivial, trivial⟩

section
variable {s t : State} {p : Nat} {x : PortSt} {sym : List Byte} (h : s.SetsPort p x t)
include h

theorem capsReceived_sets (hst : (x.neg.state = 1 ∧ x.neg.window = false) ∨ x.neg.state = 3) :
    s.SetsPort p { x with neg := ((x.neg.capsTaken sym).aimed ((t.modNeg p (·.capsTaken sym)).ownMasks p)).capsAnswered }
      (capsReceived p sym t) := by
  have hopen : (!((x.neg.state == 1 && !x.neg.window) || x.neg.state == 3)) = false := by
    rcases hst with ⟨h1, hw⟩ | h3
    · simp [h1, hw]
    · simp [h3]
  have hcaps : capsReceived p sym t = (retarget p (t.modNeg p (·.capsTaken sym))).modNeg p NegSt.capsAnswered := by
    unfold capsReceived
    simp only [h.here, hopen, Bool.false_eq_true, if_false]
    rfl
  rw [hcaps]
  exact (h.modNeg (·.capsTaken sym)).retarget.modNeg NegSt.capsAnswered

theorem proposeReceived_sets (ht : isTrunk p = true) (hrole : x.cfg.role ≠ 0) (hnone : x.neg.propose = none)
    (hwon : x.neg.won = false) (hst : x.neg.state = 3) (hfail : failing x.neg = false)
    (hnext : nextStep x.neg x.neg.cur = some (setStep sym)) :
    ∃ a, s.SetsPort p { x with neg := x.neg.accepting sym, tx := a } (proposeReceived p sym t) := by
  have hprop : proposeReceived p sym t = sendSet p 3 (setStep sym) (setFrame sym) (t.modNeg p (·.accepting sym)) := by
    simp [proposeReceived, answerPropose, h.here, ht, hrole, hnone, hwon, hst, hfail, hnext, NegSt.accepting]
  rw [hprop]
  exact (h.modNeg (·.accepting sym)).sendSet 3 (setStep sym) (setFrame sym)

theorem acceptReceived_sets {first last : BitVec 16} (hprop : x.neg.propose = some (setStep sym, first, last))
    (hfits : (setFrame sym - first).toNat ≤ (last - first).toNat) :
    s.SetsPort p { x with neg := x.neg.switching (setStep sym, framesTo (setFrame sym) (s.frame.number.truncate 16)) }
      (acceptReceived p sym t) := by
  have hnumber : t.frame.number = s.frame.number := (congrArg (·.frame.number) h.frame :)
  have hacc : acceptReceived p sym t =
      t.modNeg p (·.switching (setStep sym, framesTo (setFrame sym) (s.frame.number.truncate 16))) := by
    simp only [acceptReceived, h.here, hprop, hfits, hnumber, beq_self_eq_true, decide_true, Bool.and_self, if_true]
    rfl
  rw [hacc]
  exact h.modNeg _

theorem confirmReceived_sets (hexp : expectsResult x.neg sym = true) (hown : x.neg.ownResult = some true) :
    s.SetsPort p { x with neg := ({ x.neg with partnerResult := some true } : NegSt).stepConfirmed }
      (confirmReceived p sym t) := by
  have hset := h.modNeg fun n => { n with partnerResult := some true }
  have hconf : confirmReceived p sym t =
      (t.modNeg p fun n => { n with partnerResult := some true }).modNeg p NegSt.stepConfirmed := by
    simp only [confirmReceived, h.here, hexp, hown, beq_self_eq_true, if_true]
    rfl
  rw [hconf]
  exact hset.modNeg NegSt.stepConfirmed

theorem failReceived_eq (h1 : 1 ≤ x.neg.state) (h5 : x.neg.state ≤ 5) (hstep : setStep sym = x.neg.cur)
    (hfail : failing x.neg = false) : failReceived p sym t = failStep p false t := by
  simp [failReceived, h.here, h1, h5, hstep, hfail]

theorem refuseReceived_sets {first last : BitVec 16} (hprop : x.neg.propose = some (setStep sym, first, last)) :
    s.SetsPort p { x with neg := x.neg.refusedOnce } (refuseReceived p sym t) := by
  have hrun := h.modNeg fun n => { n with refusedRun := n.refusedRun + 1 }
  have hset := hrun.modNeg fun n => { n with refusals := sat 255 n.refusals 1 }
  simp only [refuseReceived, h.here, hprop, beq_self_eq_true, if_true]
  exact hset

end

/-- R121: a set whose CRC fails is counted, and reaches nothing. -/
theorem receiveSet_bad {s : State} {p : Port} {sym : List Byte} (hs : s.wf = true) (hear : s.hearsPins p.val = true)
    (hf : foreign (s.port p.val).cfg = false) (hcrc : crcGood 13 sym = false) :
    ∃ t, receiveSet p sym s = .next t ∧ (t.port p.val).neg = (s.port p.val).neg ∧
      (t.port p.val).lane.crcFail = min 65535 ((s.port p.val).lane.crcFail + 1) ∧ s.onlyPort t p.val := by
  have hset := (State.SetsPort.refl p.val hs).modLane fun l => { l with crcFail := sat 0xFFFF l.crcFail 1 }
  have hbad : onSet p.val sym s = s.modLane p.val fun l => { l with crcFail := sat 0xFFFF l.crcFail 1 } := by
    simp only [onSet, hcrc, Bool.not_false, Bool.true_or, if_true]
    rfl
  rw [← hbad] at hset
  have hc : (s.hearsPins p.val && !foreign (s.port p.val).cfg) = true := by simp [hear, hf]
  refine ⟨_, run_when_sets hc hset, ?_, ?_, hset.onlyPort⟩ <;> rw [hset.here]
  rfl

/-! ## The obligation -/

/-- Settles O28: each kind of set by what its effect writes of the port that heard it. -/
theorem negotiationSets : Obligations.NegotiationSets := by
  unfold Obligations.NegotiationSets
  refine fun s p sym hs => ⟨fun hear hst => ?_, fun hear ht hrole hnone hwon hst hfail hnext => ?_,
    fun first last hear hprop hfits => ?_,
    fun hear hexp hown => ?_, fun hear h1 h5 hstep hfail hcur hnew => ?_, fun f hear hprop => ?_, fun hear hf hcrc c hc => ?_⟩
  · have hset := capsReceived_sets (sym := sym) (heardSet_sets p.val sym hs) hst
    rw [((heardSet_sets p.val sym hs).modNeg (·.capsTaken sym)).ownMasks rfl rfl rfl] at hset
    obtain ⟨t, ht, hat, honly⟩ := receiveSet_acts hear (by decide) (by decide)
      (f := capsReceived p.val sym) (fun htype s => by simp only [actOnSet, htype]) hset
    refine ⟨t, ht, ?_, ?_, ?_, ?_, ?_, ?_, ?_, honly⟩ <;> rw [hat]
    · exact NegSt.capsAnswered_keeps (·.partnerValid) _ rfl rfl
    · exact NegSt.capsAnswered_keeps (·.partnerRates) _ rfl rfl
    · exact NegSt.capsAnswered_keeps (·.partnerWidths) _ rfl rfl
    · exact NegSt.capsAnswered_keeps (·.partnerFailed) _ rfl rfl
    · exact NegSt.capsAnswered_keeps (·.ownRates) _ rfl rfl
    · exact NegSt.capsAnswered_keeps (·.ownWidths) _ rfl rfl
    · show NegSt.target (NegSt.capsAnswered _) = ((ladder (NegSt.capsAnswered _)).getLast?).getD step0
      rw [NegSt.capsAnswered_keeps ladder _ rfl rfl]
      exact NegSt.capsAnswered_keeps (·.target) _ rfl rfl
  · obtain ⟨a, hset⟩ := proposeReceived_sets (sym := sym) (heardSet_sets p.val sym hs) ht hrole hnone hwon hst hfail hnext
    obtain ⟨t, he, hat, honly⟩ := receiveSet_acts hear (by decide) (by decide)
      (f := proposeReceived p.val sym) (fun htype s => by simp only [actOnSet, htype]) hset
    refine ⟨t, he, ?_, ?_, ?_, ?_, honly⟩ <;> rw [hat] <;> rfl
  · obtain ⟨t, he, hat, honly⟩ := receiveSet_acts hear (by decide) (by decide)
      (f := acceptReceived p.val sym) (fun htype s => by simp only [actOnSet, htype])
      (acceptReceived_sets (heardSet_sets p.val sym hs) hprop hfits)
    refine ⟨t, he, ?_, ?_, ?_, honly⟩ <;> rw [hat] <;> rfl
  · obtain ⟨t, he, hat, honly⟩ := receiveSet_acts hear (by decide) (by decide)
      (f := confirmReceived p.val sym) (fun htype s => by simp only [actOnSet, htype])
      (confirmReceived_sets (heardSet_sets p.val sym hs) hexp hown)
    obtain ⟨hconf, hcount, hstate⟩ :=
      NegSt.stepConfirmed_reads { (s.port p.val).neg.heardSet sym with partnerResult := some true }
    refine ⟨t, he, ?_, ?_, ?_, honly⟩ <;> rw [hat]
    · exact hconf
    · exact hcount
    · exact hstate
  · obtain ⟨a, hset⟩ := failStep_reverts false (heardSet_sets p.val sym hs) hcur hnew
    rw [← failReceived_eq (sym := sym) (heardSet_sets p.val sym hs) h1 h5 hstep hfail] at hset
    obtain ⟨t, he, hat, honly⟩ := receiveSet_acts hear (by decide) (by decide)
      (f := failReceived p.val sym) (fun htype s => by simp only [actOnSet, htype]) hset
    refine ⟨t, he, ?_, ?_, ?_, honly⟩ <;> rw [hat]
    · rfl
    · rfl
    · exact ((s.port p.val).neg.heardSet sym).failed_notes.1
  · obtain ⟨t, he, hat, honly⟩ := receiveSet_acts hear (by decide) (by decide)
      (f := refuseReceived p.val sym) (fun htype s => by simp only [actOnSet, htype])
      (refuseReceived_sets (first := f.1) (last := f.2) (heardSet_sets p.val sym hs) hprop)
    refine ⟨t, he, ?_, ?_, honly⟩ <;> rw [hat] <;> rfl
  · have hexec : exec c s = receiveSet p sym s := by
      simp only [List.mem_cons, List.not_mem_nil, or_false] at hc
      rcases hc with rfl | rfl | rfl | rfl | rfl | rfl <;> rfl
    rw [hexec]
    exact receiveSet_bad hs hear hf hcrc

end Sys2Proof.Machine
end

section
/-! PROOFS. Training, the PRBS window and the limits of bring-up (R129, R150 to R153, R156, R157, R160, R163). -/

namespace Sys2Proof.Machine
open Sys2Proof

/-! ## Training (R129, R150, R160) -/

/-- The lane of a slot port that has trained with these positions, under its settings. -/
def LaneSt.trainedAt (c : PortCfg) (ui0 ui1 : Int) (f0 f1 : Nat) (l : LaneSt) : LaneSt :=
  { l with trainedUi := if unmarked c then [c.fixedSkew, c.fixedSkew] else [ui0, ui1], trainedFine := [f0, f1], track := [0, 0] }

/-- The negotiation of a port that has trained: a fixed one settles, another may send ready. -/
def NegSt.trainedNow (n : NegSt) : NegSt :=
  if n.state = 6 then { n with trained := true, settled := true } else sendReady { n with trained := true }

theorem NegSt.trainedNow_trained (n : NegSt) : n.trainedNow.trained = true := by
  unfold trainedNow sendReady
  split_ifs <;> rfl

theorem portTrained_sets {s : State} {p : Nat} (ui0 ui1 : Int) (f0 f1 : Nat) (hs : s.wf = true) :
    s.SetsPort p { s.port p with
        neg := (s.port p).neg.trainedNow
        lane := if isTrunk p then (s.port p).lane else (s.port p).lane.trainedAt (s.port p).cfg ui0 ui1 f0 f1 }
      (portTrained p ui0 ui1 f0 f1 s) := by
  have hset := State.SetsPort.refl p hs
  have hf : portTrained p ui0 ui1 f0 f1 s =
      (if isTrunk p then s else s.modLane p (·.trainedAt (s.port p).cfg ui0 ui1 f0 f1)).modNeg p NegSt.trainedNow := rfl
  rw [hf]
  split
  · exact hset.modNeg NegSt.trainedNow
  · exact (hset.modLane (·.trainedAt (s.port p).cfg ui0 ui1 f0 f1)).modNeg NegSt.trainedNow

/-! ## The PRBS window (R151, R152) -/

/-- The port whose window opens: its checkers search anew, and its own generator starts. -/
def PortSt.windowOpened (x : PortSt) : PortSt :=
  { x with
    neg := { x.neg with
      state := 2, window := true, windowDue := false, windowSent := 0, checked := [0, 0, 0, 0], checkBad := 0 }
    lane := { x.lane with chkLock := 0 }, tx := { x.tx with generated := [0, 0, 0, 0] } }

theorem searchAndOpen_sets {s : State} {p : Nat} (hs : s.wf = true) :
    s.SetsPort p (s.port p).windowOpened (openWindow p (startSearch p s)) := by
  have hsearch := (State.SetsPort.refl p hs).modNeg fun n => { n with checked := [0, 0, 0, 0], checkBad := 0 }
  have hrest := hsearch.modLane fun l => { l with chkLock := 0 }
  have hopen := hrest.modNeg fun n => { n with state := 2, window := true, windowDue := false, windowSent := 0 }
  exact hopen.modTx fun x => { x with generated := [0, 0, 0, 0] }

/-- The port as the window leaves it: the checkers at rest, a trunk's buffers re-centred, this end's result given. -/
def PortSt.windowClosed (ok trunk : Bool) (x : PortSt) : PortSt :=
  { x with
    neg := { x.neg with window := false, ownResult := some ok, waited := 0 }
    lane := { x.lane with chkLock := 0, alignRun := 0, fill := if trunk then [32, 32, 32, 32] else x.lane.fill } }

/-- The window of a step closes; then the result counts. -/
theorem windowEnd_eq {s : State} {p : Nat} (pass : Bool) (hs : s.wf = true) :
    ∃ u, s.SetsPort p ((s.port p).windowClosed (pass && (s.port p).neg.checkBad == 0) (isTrunk p)) u ∧
      windowEnd p pass s = if !(pass && (s.port p).neg.checkBad == 0) then failStep p true u
        else
          let v := sendSet p 4 (u.port p).neg.cur 0 u
          if (v.port p).neg.partnerResult == some true then confirmStep p v else v :=
  ⟨_, ((State.SetsPort.refl p hs).modNeg fun n =>
      { n with window := false, ownResult := some (pass && (s.port p).neg.checkBad == 0), waited := 0 }).modLane fun l =>
      { l with chkLock := 0, alignRun := 0, fill := if isTrunk p then [32, 32, 32, 32] else l.fill }, rfl⟩

/-- R152: a pass is sent as a confirm; without the partner's the step is not confirmed yet. -/
theorem windowEnd_pass {s : State} {p : Nat} (hs : s.wf = true) (hgood : (s.port p).neg.checkBad = 0)
    (hpartner : (s.port p).neg.partnerResult ≠ some true) :
    ∃ a, s.SetsPort p { (s.port p).windowClosed true (isTrunk p) with tx := a } (windowEnd p true s) := by
  obtain ⟨u, hu, hf⟩ := windowEnd_eq true hs
  have hok : (true && (s.port p).neg.checkBad == 0) = true := by simp [hgood]
  rw [hok] at hu hf
  obtain ⟨a, ha⟩ := hu.sendSet 4 (u.port p).neg.cur 0
  have hawaits : (((s.port p).windowClosed true (isTrunk p)).neg.partnerResult == some true) = false :=
    beq_eq_false_iff_ne.mpr hpartner
  rw [hf]
  simp only [Bool.not_true, Bool.false_eq_true, if_false, ha.here, hawaits]
  exact ⟨a, ha⟩

/-- R153: a check that fails reverts the port to the step before. -/
theorem windowEnd_fail {s : State} {p : Nat} {pass : Bool} (hs : s.wf = true) (hbad : pass = false ∨ (s.port p).neg.checkBad ≠ 0)
    (hcur : (s.port p).neg.cur ≠ step0) (hnew : failedBefore (s.port p).neg = false) :
    ∃ a, s.SetsPort p { (s.port p).windowClosed false (isTrunk p) with
        neg := { ((s.port p).windowClosed false (isTrunk p)).neg.failed with
          revert := some (prevStep (s.port p).neg (s.port p).neg.cur) }
        tx := a } (windowEnd p pass s) := by
  obtain ⟨u, hu, hf⟩ := windowEnd_eq pass hs
  have hok : (pass && (s.port p).neg.checkBad == 0) = false := by
    rcases hbad with h | h
    · rw [h]; rfl
    · rw [beq_eq_false_iff_ne.mpr h, Bool.and_false]
  rw [hok] at hu hf
  rw [hf]
  exact failStep_reverts true hu hcur hnew

/-! ## Limits (R156, R157) -/

section
variable {s : State} {p : Nat} (hup : s.bringsUp p = true)
include hup

/-- The leader's propose, or the follower's wait for one, has run out. -/
theorem negTimeout_due (hst : (s.port p).neg.state = 3) (hfail : failing (s.port p).neg = false)
    (hwaits : ((s.port p).neg.propose ≠ none ∧ (4000 ≤ (s.port p).neg.waited ∨ 16 ≤ (s.port p).neg.refusedRun)) ∨
      ((s.port p).neg.propose = none ∧ (s.port p).neg.leader = false ∧ 8000 ≤ (s.port p).neg.waited)) :
    let n := (s.port p).neg
    (s.bringsUp p && n.state == 3 && (n.propose.isSome && (decide (4000 ≤ n.waited) || decide (16 ≤ n.refusedRun)) ||
      n.propose.isNone && !n.leader && decide (8000 ≤ n.waited)) && !failing n) = true := by
  rcases hwaits with ⟨hprop, hlate⟩ | ⟨hprop, hlead, hlate⟩
  · obtain ⟨f, hf⟩ := Option.ne_none_iff_exists'.mp hprop
    simpa [hup, hst, hfail, hf] using hlate
  · simp [hup, hst, hfail, hprop, hlead, hlate]

/-- Bring-up has lasted 2,000,000 slots in a state that waits for a partner. -/
theorem portNoPartner_due (hwaits : ((s.port p).neg.state = 1 ∧ (s.port p).neg.cur = step0 ∧
        ¬((s.port p).neg.trained = true ∧ (s.port p).neg.partnerValid = true)) ∨
      ((s.port p).neg.state = 6 ∧ (s.port p).neg.trained = false) ∨ ((s.port p).neg.state = 7 ∧ (s.port p).neg.settled = false))
    (hlate : 2000000 ≤ (s.port p).neg.inBringUp) (hnew : (s.port p).neg.noPartnerTold = false) :
    let n := (s.port p).neg
    (s.bringsUp p && ((n.state == 1 && n.cur == step0 && !(n.trained && n.partnerValid)) || (n.state == 6 && !n.trained) ||
      (n.state == 7 && !n.settled)) && decide (2000000 ≤ n.inBringUp) && !n.noPartnerTold) = true := by
  rcases hwaits with ⟨hst, hcur, hpartner⟩ | ⟨hst, htr⟩ | ⟨hst, hset⟩
  · have hlone : ((s.port p).neg.trained && (s.port p).neg.partnerValid) = false :=
      Bool.eq_false_iff.mpr fun h => hpartner (Bool.and_eq_true_iff.mp h)
    simp [hup, hlate, hnew, hst, hcur, hlone]
  · simp [hup, hlate, hnew, hst, htr]
  · simp [hup, hlate, hnew, hst, hset]

end

/-! ## Foreign links (R134, R135, R163) -/

/-- The port whose foreign link has come up in Bring-up, its partner's page with it. -/
def PortSt.linkedUp (page : BitVec 16) (x : PortSt) : PortSt :=
  { x with
    neg := { x.neg with settled := true }
    lane := { (if x.cfg.setting == 3 then { x.lane with xauiAligned := true } else { x.lane with partnerPage := some page }) with
      foreignUp := true } }

theorem foreignLinkUp_sets {s : State} {p : Nat} {page : BitVec 16} (hs : s.wf = true) (hup : s.bringsUp p = true)
    (hst : (s.port p).neg.state = 7) (hpage : (s.port p).cfg.setting = 3 ∨ fullDuplex page = true) :
    s.SetsPort p ((s.port p).linkedUp page) (foreignLinkUp p page s) := by
  have hmode : s.portMode p = .bringUp := by
    simp only [State.bringsUp, Bool.and_eq_true, beq_iff_eq] at hup
    exact hup.2
  have hpaged := (State.SetsPort.refl p hs).modLane
    fun l => if (s.port p).cfg.setting == 3 then { l with xauiAligned := true } else { l with partnerPage := some page }
  have hsettles : ((s.portMode p == .bringUp) && (s.port p).neg.state == 7 && ((s.port p).cfg.setting == 3 || fullDuplex page)) =
      true := by simpa [hmode, hst] using hpage
  unfold foreignLinkUp
  simp only [hpaged.mode, hpaged.here, hsettles, if_true]
  exact (hpaged.modNeg fun n => { n with settled := true }).modLane fun l => { l with foreignUp := true }

/-! ## The obligation -/

/-- Settles O29: what each command writes of the port, where its limit is reached and the port is in Bring-up. -/
theorem bringUpSteps : Obligations.BringUpSteps := by
  unfold Obligations.BringUpSteps
  refine fun s p ui0 ui1 f0 f1 page pass hs hup => ⟨fun htrain hfits => ?_, fun hdue hopen => ?_,
    fun hover hfail hpass hgood hpartner => ?_, fun hover hfail hbad hcur hnew => ?_, fun hst htr hcur hlate hfail => ?_,
    fun hwaits hlate hfail => ?_, fun hst hfail hwaits => ?_, fun hst hlate => ?_, fun hwaits hlate hnew => ?_, fun hlast => ?_,
    fun hst hf hsync hpage => ?_⟩
  · obtain ⟨t, ht, hat, honly⟩ := done_when_sets (c := s.bringsUp p.val && s.mayTrain p.val && s.skewFits p.val ui0 ui1)
      (by simp [hup, htrain, hfits]) (portTrained_sets ui0 ui1 f0.val f1.val hs)
    refine ⟨t, ht, ?_, fun hslot => ?_, honly⟩ <;> rw [hat]
    · exact NegSt.trainedNow_trained _
    · simp only [hslot, Bool.false_eq_true, if_false]
      exact ⟨rfl, rfl, rfl⟩
  · have hset := searchAndOpen_sets (p := p.val) hs
    refine ⟨_, done_when (by simp [hup, hdue, hopen]) _ s, ?_, ?_, hset.onlyPort⟩ <;> rw [hset.here] <;> rfl
  · subst hpass
    obtain ⟨a, hset⟩ := windowEnd_pass hs hgood hpartner
    refine ⟨_, run_when_sets (c := s.bringsUp p.val && s.windowOver p.val && !failing (s.port p.val).neg)
      (by simp [hup, hover, hfail]) hset, ?_, ?_, ?_, hset.onlyPort⟩ <;> rw [hset.here] <;> rfl
  · obtain ⟨a, hset⟩ := windowEnd_fail hs hbad hcur hnew
    refine ⟨_, run_when_sets (c := s.bringsUp p.val && s.windowOver p.val && !failing (s.port p.val).neg)
      (by simp [hup, hover, hfail]) hset, ?_, ?_, ?_, hset.onlyPort⟩ <;> rw [hset.here] <;> rfl
  · have hcount : s.SetsPort p.val _ (countTimeout p.val s) := (State.SetsPort.refl p.val hs).modNeg _
    obtain ⟨hfails, htimeouts⟩ := failStep_counts true hcount
    refine ⟨_, run_when (by simp [hup, hst, htr, hcur, hlate, hfail]) _ s, ?_, ?_⟩ <;> rw [mirror_inOneCycle_port]
    · exact htimeouts
    · exact hfails
  · refine ⟨_, run_when (by simpa [hup, hlate, hfail] using hwaits) _ s, ?_⟩
    rw [mirror_inOneCycle_port]
    exact (failStep_counts true (State.SetsPort.refl p.val hs)).1
  · have hset : s.SetsPort p.val _ (countTimeout p.val (s.modNeg p.val settle)) :=
      ((State.SetsPort.refl p.val hs).modNeg settle).modNeg _
    refine ⟨_, run_when (negTimeout_due hup hst hfail hwaits) _ s, ?_, ?_, ?_, mirror_told _ _ _ _ _ (raise_told ..)⟩ <;>
      rw [mirror_inOneCycle_port, warn_port, hset.here] <;> rfl
  · exact done_when_modNeg (by simpa [hup, hlate] using hst) hs
      fun n => { n with restart := true, propose := none, switchAt := none, answer := none }
  · have hset := (State.SetsPort.refl p.val hs).modNeg fun n => { n with noPartnerTold := true }
    refine ⟨_, run_when (portNoPartner_due hup hwaits hlate hnew) _ s, ?_, mirror_told _ _ _ _ _ (raise_told ..)⟩
    rw [mirror_inOneCycle_port, warn_port, hset.here]
  · exact done_when_modNeg (by simp [hup, hlast]) hs fun n => { n with backoff := 0 }
  · have hset := foreignLinkUp_sets hs hup hst hpage
    refine ⟨_, done_when (by simp [(hearsPins_iff.mp (hearsPins_of_bringsUp hup)).1, hf, hsync]) _ s, ?_, ?_, fun hne => ?_,
      hset.onlyPort⟩ <;> rw [hset.here]
    · rfl
    · rfl
    · simp only [PortSt.linkedUp, beq_eq_false_iff_ne.mpr hne, Bool.false_eq_true, if_false]

end Sys2Proof.Machine
end

section
/-! PROOFS. References that a trunk follows, clocks that settle, and PORT_SET (R131, R149, R164, R296, R302, R389). -/

namespace Sys2Proof.Machine
open Sys2Proof

/-! ## A reference that is lost (R131) -/

/-- What the loss of trunk t's reference makes of trunk i. -/
def holdRef (t : Nat) (s : State) (i : Nat) : State :=
  if (s.port (128 + i)).cfg.refSrc = 2 && (s.port (128 + i)).cfg.refTrunk = t && !(s.port (128 + i)).lane.refHeld then
    warn 0x0506 (128 + i) [] (s.modLane (128 + i) fun l => { l with refHeld := true })
  else s

theorem refLost_eq (t : Nat) (s : State) : refLost t s = (List.range 16).foldl (holdRef t) s := rfl

/-- An event that has been told is among those told still. -/
theorem raise_keepsTold (c : EvClass) (code : BitVec 16) (sub : Nat) (d : List (Nat × Nat)) {s : State} {cls : EvClass}
    {code' : BitVec 16} {sub' : Nat} (h : s.told cls code' sub') : (raise c code sub d s).told cls code' sub' := by
  obtain ⟨e, he, hrest⟩ := h
  exact ⟨e, by rw [raise_raised]; exact List.mem_append_left _ he, hrest⟩

/-- Trunk i follows trunk t's recovered clock, and where it holds its frequency TRUNK_REF_LOST has been raised. -/
structure State.RefTold (t i : Nat) (s : State) : Prop where
  rises : Sparse.rises s.ports = true
  src : (s.port (128 + i)).cfg.refSrc = 2
  trunk : (s.port (128 + i)).cfg.refTrunk = t
  told : (s.port (128 + i)).lane.refHeld = true → s.told .warning 0x0506 (128 + i)

/-- Each trunk that is looked at keeps this so, and lets go of no frequency that is held; trunk i itself holds from then on. -/
theorem holdRef_told {t i : Nat} {s : State} (h : s.RefTold t i) (j : Nat) :
    (holdRef t s j).RefTold t i ∧
      ((s.port (128 + i)).lane.refHeld = true ∨ j = i → ((holdRef t s j).port (128 + i)).lane.refHeld = true) := by
  obtain ⟨hrises, hsrc, htrunk, htold⟩ := h
  unfold holdRef
  split
  · next hc =>
    have hport : ∀ q, (warn 0x0506 (128 + j) [] (s.modLane (128 + j) fun l => { l with refHeld := true })).port q =
        if q = 128 + j then { s.port (128 + j) with lane.refHeld := true } else s.port q := fun q => by
      rw [warn_port, State.modLane_port _ _ _ _ hrises]
    have hwarned : Sparse.rises
        (warn 0x0506 (128 + j) [] (s.modLane (128 + j) fun l => { l with refHeld := true })).ports = true := by
      rw [warn_ports]
      exact Sparse.rises_put _ _ _ _ hrises
    by_cases hj : j = i
    · subst hj
      have hat := (hport (128 + j)).trans (if_pos rfl)
      exact ⟨⟨hwarned, by rw [hat]; exact hsrc, by rw [hat]; exact htrunk, fun _ => raise_told ..⟩, fun _ => by rw [hat]⟩
    · have hat := (hport (128 + i)).trans (if_neg (by omega))
      exact ⟨⟨hwarned, by rw [hat]; exact hsrc, by rw [hat]; exact htrunk, fun hh => raise_keepsTold _ _ _ _ (htold (hat ▸ hh))⟩,
        fun hh => by rw [hat]; exact hh.resolve_right hj⟩
  · next hc =>
    refine ⟨⟨hrises, hsrc, htrunk, htold⟩, fun hh => hh.elim id fun hj => ?_⟩
    subst hj
    simpa [hsrc, htrunk] using hc

theorem foldl_holdRef_told {t i : Nat} (l : List Nat) {s : State} (h : s.RefTold t i) :
    (l.foldl (holdRef t) s).RefTold t i ∧
      ((s.port (128 + i)).lane.refHeld = true ∨ i ∈ l → ((l.foldl (holdRef t) s).port (128 + i)).lane.refHeld = true) := by
  induction l generalizing s with
  | nil => exact ⟨h, fun hh => hh.resolve_right List.not_mem_nil⟩
  | cons j l ih =>
    obtain ⟨hstep, hheld⟩ := holdRef_told h j
    obtain ⟨hrest, hheld'⟩ := ih hstep
    refine ⟨hrest, fun hh => hheld' ?_⟩
    rcases hh with hh | hi
    · exact .inl (hheld (.inl hh))
    · rcases List.mem_cons.mp hi with rfl | hi
      · exact .inl (hheld (.inr rfl))
      · exact .inr hi

/-- A trunk that follows the lost clock holds its frequency, and is told of. -/
theorem refLost_holds {s : State} {t i : Nat} (hs : s.wf = true) (hi : i < 16) (hsrc : (s.port (128 + i)).cfg.refSrc = 2)
    (htrunk : (s.port (128 + i)).cfg.refTrunk = t) (hnew : (s.port (128 + i)).lane.refHeld = false) :
    ((refLost t s).port (128 + i)).lane.refHeld = true ∧ (refLost t s).told .warning 0x0506 (128 + i) := by
  have hstart : s.RefTold t i := ⟨s.wf_ports hs, hsrc, htrunk, fun h => by simp [hnew] at h⟩
  obtain ⟨hend, hheld⟩ := foldl_holdRef_told (List.range 16) hstart
  rw [← refLost_eq] at hend hheld
  have hh := hheld (.inr (List.mem_range.mpr hi))
  exact ⟨hh, hend.told hh⟩

/-! ## PORT_SET (R164, R389) -/

/-- The settings that the slip brings. -/
def portCfgOf (p : List Byte) : PortCfg :=
  { setting := arg p 18 1, maxRate := arg p 19 1, maxWidth := arg p 20 1, role := arg p 21 1, fixedRate := arg p 22 1,
    fixedWidth := arg p 23 1, marksTx := (arg p 24 1).testBit 0, marksRx := (arg p 24 1).testBit 1,
    fixedSkew := toInt 8 (arg p 25 1), refSrc := arg p 26 1, refTrunk := arg p 27 1, remoteFault := arg p 29 1 }

/-- The port with its new settings, which wait for the next entry to Bring-up where they differ from those that stand or wait. -/
def PortSt.setTo (c : PortCfg) (x : PortSt) : PortSt :=
  { x with
    cfg := { x.cfg with refSrc := c.refSrc, refTrunk := c.refTrunk }
    cfgNext := if c == x.cfgNext.getD x.cfg then x.cfgNext else some c }

/-- The negotiation without what has failed before; a port in no step begins again. -/
def NegSt.forgiven (n : NegSt) : NegSt := { clearCaps n with restart := n.restart || n.state == 8 }

/-- The port takes the slip's settings; a trunk lets go of a frequency that it held. -/
def setPortCfg (p : List Byte) (s : State) : State :=
  let s := s.modPort (arg p 16 2) (·.setTo (portCfgOf p))
  if isTrunk (arg p 16 2) then s.modLane (arg p 16 2) fun l => { l with refHeld := false } else s

/-- Its failures are forgotten, and a port that has begun aims anew. -/
def forgetFailures (port : Nat) (s : State) : State :=
  let s := s.modNeg port NegSt.forgiven
  if (s.port port).neg.ownWidths = 0 then s else retarget port s

/-- What the slip makes of its port. -/
def setPortTo (p : List Byte) (s : State) : State :=
  if arg p 28 1 = 1 then forgetFailures (arg p 16 2) (setPortCfg p s) else setPortCfg p s

/-- Whether references follow each other in a ring is a matter of the ports alone. -/
theorem refCycle_congr {s t : State} (h : ∀ q, t.port q = s.port q) (i src trunk : Nat) :
    refCycle t i src trunk = refCycle s i src trunk := by
  unfold refCycle
  simp only [h]

/-- The checks of PORT_SET. -/
structure State.portSetMeets (s : State) (p : List Byte) : Prop where
  mode : modeIn (s.portMode (arg p 16 2)) [.intake, .bringUp, .service, .holdover, .bindery] = true
  fields : fields [⟨16, 2, arg p 16 2 < 144⟩, ⟨18, 1, if isTrunk (arg p 16 2) then arg p 18 1 ≤ 3 else arg p 18 1 ≤ 1⟩,
    ⟨19, 1, arg p 19 1 ≤ topRate (arg p 16 2)⟩, ⟨20, 1, arg p 20 1 ≤ topWidth (arg p 16 2)⟩,
    ⟨21, 1, if isTrunk (arg p 16 2) then arg p 21 1 ≤ 2 else arg p 21 1 = 0⟩, ⟨22, 1, arg p 22 1 ≤ topRate (arg p 16 2)⟩,
    ⟨23, 1, arg p 23 1 ≤ topWidth (arg p 16 2)⟩, ⟨24, 1, arg p 24 1 < 4⟩,
    ⟨25, 1, -8 ≤ toInt 8 (arg p 25 1) && toInt 8 (arg p 25 1) ≤ 8⟩,
    ⟨26, 1, if isTrunk (arg p 16 2) then arg p 26 1 ≤ 2 else arg p 26 1 = 0⟩, ⟨27, 1, arg p 27 1 < 16⟩,
    ⟨28, 1, arg p 28 1 < 2⟩, ⟨29, 1, arg p 29 1 < 4⟩] p = .ok ()
  fixed : arg p 18 1 ≠ 1 ∨ (fixedOk s (arg p 16 2) (arg p 22 1) 0 (arg p 19 1) (arg p 20 1) = true ∧
    fixedOk s (arg p 16 2) 0 (arg p 23 1) (arg p 19 1) (arg p 20 1) = true ∧
    (isTrunk (arg p 16 2) = false ∨ (arg p 24 1).testBit 1 = true ∨ arg p 23 1 = 0))
  acyclic : isTrunk (arg p 16 2) = false ∨ refCycle s (arg p 16 2 - 128) (arg p 26 1) (arg p 27 1) = false

theorem portSetBody_sets {s : State} {p : List Byte} (h : s.portSetMeets p) : portSetBody p s = okSlip (setPortTo p s) := by
  obtain ⟨hmode, hfields, hfixed, hacyclic⟩ := h
  have hin : portIn s (arg p 16 2) [.intake, .bringUp, .service, .holdover, .bindery] = .ok () := need_ok (by simp [hmode]) _
  have hrate : (arg p 18 1 != 1 || fixedOk s (arg p 16 2) (arg p 22 1) 0 (arg p 19 1) (arg p 20 1)) = true := by
    simpa using hfixed.imp_right (·.1)
  have hwidth : (arg p 18 1 != 1 || fixedOk s (arg p 16 2) 0 (arg p 23 1) (arg p 19 1) (arg p 20 1)) = true := by
    simpa using hfixed.imp_right (·.2.1)
  have hmarks : (arg p 18 1 != 1 || !isTrunk (arg p 16 2) || (arg p 24 1).testBit 1 || decide (arg p 23 1 = 0)) = true := by
    simpa [or_assoc] using hfixed.imp_right (·.2.2)
  have hcycle : (!isTrunk (arg p 16 2) || !refCycle s (arg p 16 2 - 128) (arg p 26 1) (arg p 27 1)) = true := by
    simpa using hacyclic
  unfold portSetBody
  simp only [hin, hfields, need_ok hrate, need_ok hwidth, need_ok hmarks, need_ok hcycle]
  unfold setPortTo
  by_cases hclear : arg p 28 1 = 1
  · simp only [hclear, if_true]
    rfl
  · simp only [hclear, if_false]
    rfl

theorem setPortCfg_sets {s t : State} {p : List Byte} {x : PortSt} (h : s.SetsPort (arg p 16 2) x t) :
    ∃ l, s.SetsPort (arg p 16 2) { x.setTo (portCfgOf p) with lane := l } (setPortCfg p t) := by
  have hset := h.modPort (·.setTo (portCfgOf p))
  unfold setPortCfg
  simp only
  split
  · exact ⟨_, hset.modLane fun l => { l with refHeld := false }⟩
  · exact ⟨_, hset⟩

theorem forgetFailures_sets {s t : State} {p : Nat} {x : PortSt} (h : s.SetsPort p x t) :
    ∃ n, s.SetsPort p { x with neg := n } (forgetFailures p t) ∧ n.rateCap = 0xF ∧ n.widthCap = 0 ∧ n.failedOnce = 0 := by
  have hset := h.modNeg NegSt.forgiven
  unfold forgetFailures
  simp only
  split
  · exact ⟨_, hset, rfl, rfl, rfl⟩
  · exact ⟨_, hset.retarget, rfl, rfl, rfl⟩

/-- What the slip writes is its port's alone. -/
theorem setPortTo_sets {s t : State} {p : List Byte} {x : PortSt} (h : s.SetsPort (arg p 16 2) x t) :
    ∃ n l, s.SetsPort (arg p 16 2) { x.setTo (portCfgOf p) with neg := n, lane := l } (setPortTo p t) ∧
      (arg p 28 1 = 1 → n.rateCap = 0xF ∧ n.widthCap = 0 ∧ n.failedOnce = 0) := by
  obtain ⟨l, hl⟩ := setPortCfg_sets h
  unfold setPortTo
  split
  · obtain ⟨n, hn, hcaps⟩ := forgetFailures_sets hl
    exact ⟨n, l, hn, fun _ => hcaps⟩
  · next hkeep => exact ⟨_, l, hl, fun h => absurd h hkeep⟩

/-- R164: a slip that meets its checks is answered OK, and writes its port's settings alone. -/
theorem portSet_sets {s : State} {h : SlipHdr} {p : List Byte} (hs : s.wf = true) (ht : s.takes 0x0501 .ordinary h p)
    (hm : s.portSetMeets p) :
    ∃ t, exec (.portSet h p) s = .next t ∧ t.answered 0x0501 h St.ok [] ∧
      (t.port (arg p 16 2)).cfg = ((s.port (arg p 16 2)).setTo (portCfgOf p)).cfg ∧
      (t.port (arg p 16 2)).cfgNext = ((s.port (arg p 16 2)).setTo (portCfgOf p)).cfgNext ∧
      (arg p 28 1 = 1 → (t.port (arg p 16 2)).neg.rateCap = 0xF ∧ (t.port (arg p 16 2)).neg.widthCap = 0 ∧
        (t.port (arg p 16 2)).neg.failedOnce = 0) ∧
      ∀ x, x ≠ arg p 16 2 → t.port x = s.port x := by
  obtain ⟨y, g, k, hB⟩ := begun_reads s 0x0501 h p
  have hport : ∀ q, (s.begun 0x0501 h p).port q = s.port q := fun q => (congrArg (State.port · q) hB :)
  have hmeets : (s.begun 0x0501 h p).portSetMeets p := by
    refine ⟨?_, hm.fields, ?_, by rw [refCycle_congr hport]; exact hm.acyclic⟩ <;> rw [hB]
    · exact hm.mode
    · exact hm.fixed
  have hrises : Sparse.rises (s.begun 0x0501 h p).ports = true := by
    rw [hB]
    exact s.wf_ports hs
  obtain ⟨n, l, hx, hcaps⟩ := setPortTo_sets (p := p) ⟨rfl, hport _, fun _ _ => rfl, hrises⟩
  have hlog : (setPortTo p (s.begun 0x0501 h p)).log = (s.begun 0x0501 h p).log := (congrArg State.log hx.frame :)
  obtain ⟨t, he, ha, -, ht'⟩ := slip_ok_same (body := fun _ s => portSetBody p s)
    (o := { state := setPortTo p (s.begun 0x0501 h p) }) ht (portSetBody_sets hmeets) rfl
    ((congrArg (·.slips.chans.length) hx.frame).trans (begun_length s 0x0501 h p))
    ((congrArg State.queues hx.frame :).trans (congrArg State.queues hB :))
    ((congrArg State.flows hx.frame :).trans (congrArg State.flows hB :)) (hlog ▸ begun_ring s 0x0501 h p)
  have hat : ∀ q, t.port q = (setPortTo p (s.begun 0x0501 h p)).port q := fun q => (congrArg (State.port · q) ht' :)
  refine ⟨t, he, ha, ?_, ?_, fun hclear => ?_, fun q hq => ?_⟩
  · rw [hat, hx.here]
  · rw [hat, hx.here]
  · rw [hat, hx.here]
    exact hcaps hclear
  · rw [hat, hx.other q hq, hport]

/-! ## The obligation -/

/-- Settles O30: trunk by trunk what a lost reference holds, the lane that starts when its clocks settle, and what PORT_SET
writes. -/
theorem portSettings : Obligations.PortSettings := by
  unfold Obligations.PortSettings
  refine fun s t0 loop p h q hs => ⟨fun i hup hsrc htrunk hnew => ?_, fun hup => done_when hup _ s, fun hup hm hopen => ?_,
    fun ht hmode hfields hfixed hacyclic => ?_⟩
  · obtain ⟨hheld, htold⟩ := refLost_holds hs i.isLt hsrc htrunk hnew
    exact ⟨_, run_when hup _ s, by rw [mirror_inOneCycle_port]; exact hheld, mirror_told _ _ _ _ _ htold⟩
  · exact done_when_modLane (by simp [hup, hm, hopen]) hs fun l => { l with txIdle := l.tripIdle }
  · obtain ⟨t, he, ha, hcfg, hnext, hcaps, hother⟩ := portSet_sets hs ht ⟨hmode, hfields, hfixed, hacyclic⟩
    refine ⟨t, portCfgOf q, he, ha, hcfg, ?_, rfl, rfl, rfl, rfl, rfl, rfl, rfl, rfl, rfl, rfl, hcaps, hother⟩
    simpa only [PortSt.setTo, beq_iff_eq] using hnext

end Sys2Proof.Machine
end

section
/-! PROOFS. A queue's consumer end: the words that a pop takes, the abort word that is due, and the marker that ends a flush
("Queues", R179 to R184). -/

namespace Sys2Proof.Machine
open Sys2Proof

/-! ## Fields of a word laid out (R176) -/

theorem field_pack_head (w v : Nat) (r : List (Nat × Nat)) (h : 0 < w) : field (pack ((w, v) :: r)) (w - 1) 0 = v % 2 ^ w := by
  rw [field, Nat.pow_zero, Nat.div_one, Nat.sub_zero, Nat.sub_add_cancel h, pack, Nat.add_mul_mod_self_left, Nat.mod_mod]

theorem field_pack_tail (w v : Nat) (r : List (Nat × Nat)) (hi lo : Nat) :
    field (pack ((w, v) :: r)) (hi + w) (lo + w) = field (pack r) hi lo := by
  have hpos := Nat.two_pow_pos w
  rw [field, Nat.add_comm lo w, Nat.pow_add, ← Nat.div_div_eq_div_mul, pack, Nat.add_mul_div_left _ _ hpos,
    Nat.div_eq_of_lt (Nat.mod_lt _ hpos), Nat.zero_add, show hi + w + 1 - (w + lo) = hi + 1 - lo by omega]
  rfl

/-- A field of a line is that of the number it holds. -/
theorem field_ofNat {n v hi lo : Nat} (hlo : lo ≤ hi) (hhi : hi < n) : field (BitVec.ofNat n v).toNat hi lo = field v hi lo := by
  refine Nat.eq_of_testBit_eq fun j => ?_
  rw [testBit_field, testBit_field, BitVec.toNat_ofNat, Nat.testBit_mod_two_pow]
  by_cases hj : j < hi + 1 - lo
  · have hin : lo + j < n := by omega
    simp [hin]
  · simp [hj]

/-- A marker or abort word names the flow and the kind of its loss. -/
theorem Loss.hdrFlow_line (m : Loss) : hdrFlow m.line = m.flow % 2 ^ 16 :=
  (field_ofNat (by decide) (by decide)).trans (field_pack_head 16 m.flow _ (by decide))

theorem Loss.hdrKind_line (m : Loss) : hdrKind m.line = m.kind % 2 ^ 2 := by
  refine (field_ofNat (by decide) (by decide)).trans ?_
  rw [field_pack_tail 16 _ _ 11 10, field_pack_tail 9 _ _ 2 1, field_pack_tail 1 _ _ 1 0]
  exact field_pack_head 2 m.kind _ (by decide)

/-- R183: the abort word is of kind 2 and of the flow of the item that it ends. -/
theorem QueueSt.abortLine_reads (d : QueueSt) (s : State) (q : Nat) (cause : Byte) :
    hdrKind (d.abortLine s q cause) = 2 ∧ hdrFlow (d.abortLine s q cause) = hdrFlow d.consHdr :=
  ⟨Loss.hdrKind_line _, (Loss.hdrFlow_line _).trans (Nat.mod_mod _ _)⟩

/-! ## What a pop makes of its queue (R179 to R183) -/

/-- The pop returns the word at the read pointer of d and advances the pointer, and leaves its consumer inside an item or not. -/
structure Popped.takesHead (r : Popped) (d : QueueSt) (inside : Bool) : Prop where
  word : r.word = d.word d.rptr.toNat
  rptr : r.queue.rptr = d.ptr (d.rptr.toNat + 1)
  wptr : r.queue.wptr = d.wptr
  consMid : r.queue.consMid = inside

/-- A header of more than a word opens its item. -/
theorem popHeader_takesHead (d : QueueSt) (h : d.consMid = false) :
    (popHeader d).takesHead d (decide (1 < hdrLen (d.word d.rptr.toNat))) := by
  unfold popHeader
  dsimp only
  split
  · next hn => exact ⟨rfl, rfl, rfl, h.trans (decide_eq_false (Nat.not_lt.mpr hn)).symm⟩
  · next hn => exact ⟨rfl, rfl, rfl, (decide_eq_true (Nat.not_le.mp hn)).symm⟩

/-- The last word of an item closes it. -/
theorem popWord_takesHead (d : QueueSt) (h : d.consMid = true) :
    (popWord d).takesHead d (decide (d.consTaken + 1 < hdrLen d.consHdr)) := by
  unfold popWord
  dsimp only
  split
  · next hn => exact ⟨rfl, rfl, rfl, (decide_eq_false (Nat.not_lt.mpr hn)).symm⟩
  · next hn => exact ⟨rfl, rfl, rfl, h.trans (decide_eq_true (Nat.not_le.mp hn)).symm⟩

/-! ## What a pop makes of its port (R181, R197, R204) -/

/-- t differs from s in the entry of port p alone. -/
def State.WritesPort (s : State) (p : Nat) (t : State) : Prop := ∃ x, s.SetsPort p x t

section
variable {s t u : State} {p : Nat}

theorem State.WritesPort.modCredit (h : s.WritesPort p t) (f : CreditSt → CreditSt) : s.WritesPort p (t.modCredit p f) :=
  let ⟨_, hx⟩ := h
  ⟨_, hx.modCredit f⟩

theorem State.WritesPort.modEgress (h : s.WritesPort p t) (f : EgressSt → EgressSt) : s.WritesPort p (t.modEgress p f) :=
  let ⟨_, hx⟩ := h
  ⟨_, hx.modEgress f⟩

theorem State.WritesPort.sendWord (h : s.WritesPort p t) (opens ends abort : Bool) (w : Line) :
    s.WritesPort p (sendWord p opens ends abort w t) :=
  let ⟨_, hx⟩ := h
  let ⟨y, hy, _, _⟩ := sendData_sets _ hx
  ⟨y, hy⟩

theorem State.WritesPort.ite (c : Bool) (ht : s.WritesPort p t) (hu : s.WritesPort p u) :
    s.WritesPort p (if c then t else u) := by
  cases c
  · exact hu
  · exact ht

end

theorem ite_binds (c : Bool) (s : State) (b : Sparse BindSt) :
    (if c then { s with fab.binds := b } else s) = { s with fab.binds := if c then b else s.fab.binds } := by
  cases c <;> rfl

/-- The egress side of a pop charges credit, sends on a native trunk's line and takes the word from the grants, all at its port; and
it may offer the port to the successor of a switch. -/
theorem egressPop_writes (p q : Nat) (opens : Bool) (r : Popped) (s : State) (h : Sparse.rises s.ports = true) :
    ∃ u binds, s.WritesPort p u ∧ egressPop p q opens r s = { u with fab.binds := binds } := by
  have hself : s.WritesPort p s := ⟨_, rfl, rfl, fun _ _ => rfl, h⟩
  refine ⟨_, _, ?_, ite_binds _ _ _⟩
  exact (State.WritesPort.ite _ ((hself.modCredit _).sendWord ..) (hself.modCredit _)).modEgress _

/-- Credit that is freed leaves each port's egress, and the ports in order. -/
theorem freeCredit_egress (c : Option (Nat × Nat × Nat)) (s : State) (h : Sparse.rises s.ports = true) :
    Sparse.rises (freeCredit c s).ports = true ∧ ∀ k, ((freeCredit c s).port k).egress = (s.port k).egress := by
  cases c with
  | none => exact ⟨h, fun _ => rfl⟩
  | some c =>
    refine ⟨Sparse.rises_put _ _ _ _ h, fun k => ?_⟩
    have hread := s.modPort_port c.1 (fun x => { x with credit.freed := addAt x.credit.freed c.2.1 c.2.2 }) k h
    refine (congrArg PortSt.egress hread).trans ?_
    split
    · subst_vars; rfl
    · rfl

/-! ## The pop (R179, R180, R204) -/

/-- A pop has been made: its queue and the word it returns stand, the credit it frees is freed, and its port has taken the word. -/
def afterPop (p q : Nat) (opens : Bool) (r : Popped) (s : State) : State :=
  egressPop p q opens r (freeCredit r.frees (s.setQueue q { r.queue with popped := some r.word }))

theorem afterPop_reads (p q : Nat) (opens : Bool) (r : Popped) (s : State) (hs : s.wf = true) :
    (afterPop p q opens r s).queue q = { r.queue with popped := some r.word } ∧
    (∀ k, k ≠ q → (afterPop p q opens r s).queue k = s.queue k) ∧
    ∀ k, k ≠ p → ((afterPop p q opens r s).port k).egress = (s.port k).egress := by
  obtain ⟨hports, hegress⟩ := freeCredit_egress r.frees (s.setQueue q { r.queue with popped := some r.word }) (s.wf_ports hs)
  obtain ⟨u, binds, ⟨x, hu⟩, he⟩ := egressPop_writes p q opens r _ hports
  have hqueue : ∀ k, (afterPop p q opens r s).queue k = (s.setQueue q { r.queue with popped := some r.word }).queue k := by
    intro k
    rw [afterPop, he]
    exact (congrArg (State.queue · k) hu.frame :).trans (freeCredit_queue ..)
  refine ⟨?_, fun k hk => ?_, fun k hk => ?_⟩
  · rw [hqueue, s.setQueue_self q _ (s.wf_queues hs)]
  · rw [hqueue, s.setQueue_other _ (s.wf_queues hs) hk]
  · rw [afterPop, he]
    exact (congrArg PortSt.egress (hu.other k hk) :).trans (hegress k)

section
variable (s : State) (q p : Nat) (hp : s.portOfQueue q = some p)
include hp

/-- A pop that the calendar does not allow returns nothing. -/
theorem queuePop_refused (f : Found) (hg : s.popGranted p q = false) :
    queuePop q f s = s.setQueue q { s.queue q with popped := none } := by
  simp only [queuePop, hp, hg, Bool.not_false, if_true]

variable (hg : s.popGranted p q = true) (ha : (s.queue q).agrees)
include hg ha

/-- R182: the abort word that is due comes before any word. -/
theorem queuePop_abort (f : Found) (hn : (s.queue q).abortNext = true) :
    queuePop q f s = afterPop p q false (popAbort q s (s.queue q)) s := by
  simp only [queuePop, hp, hg, useQueue_agrees q s ha, hn, Bool.not_true, Bool.false_eq_true, if_false, if_true]
  rfl

variable (hn : (s.queue q).abortNext = false)
include hn

theorem queuePop_header (hm : (s.queue q).consMid = false) :
    queuePop q .clean s = afterPop p q true (popHeader (s.queue q)) s := by
  simp only [queuePop, hp, hg, useQueue_agrees q s ha, hn, hm, Bool.not_true, Bool.false_eq_true, if_false]
  rfl

theorem queuePop_word (hm : (s.queue q).consMid = true) :
    queuePop q .clean s = afterPop p q false (popWord (s.queue q)) s := by
  simp only [queuePop, hp, hg, useQueue_agrees q s ha, hn, hm, Bool.not_true, Bool.false_eq_true, if_false, if_true]
  rfl

end

/-- A command that writes one queue, but none of its words, does that alone. -/
theorem run_setQueue (f : State → State) (s : State) (q : Nat) (v : QueueSt) (hs : s.wf = true) (hf : f s = s.setQueue q v)
    (hv : (s.queue q).sameStore v) : ∃ t, run f s = .next t ∧ t.queue q = v ∧ t = { s with queues := t.queues } := by
  have hq := s.wf_queues hs
  refine ⟨f s, run_sameStore f s hs ?_ (fun r => ?_) ?_ ?_, ?_, ?_⟩
  · rw [hf]; exact s.setQueue_rises _ _ hq
  · rw [hf, s.setQueue_queue _ _ _ hq]
    split
    · subst_vars; exact hv
    · exact ⟨rfl, rfl, rfl⟩
  · rw [hf]; rfl
  · rw [hf]; rfl
  · rw [hf, s.setQueue_self _ _ hq]
  · rw [hf]; rfl

theorem exec_queuePop (s : State) (q : Queue) : exec (.queuePop q .clean .none) s = run (queuePop q.val .clean) s := rfl

section
variable (s : State) (q : Queue) (p : Nat) (hs : s.wf = true) (hp : s.portOfQueue q.val = some p)
include hs hp

/-- A pop that is not allowed returns nothing, and takes nothing. -/
theorem exec_queuePop_refused (hg : s.popGranted p q.val = false) :
    ∃ t, exec (.queuePop q .clean .none) s = .next t ∧ t.queue q.val = { s.queue q.val with popped := none } ∧
      t = { s with queues := t.queues } := by
  rw [exec_queuePop]
  exact run_setQueue _ s q.val _ hs (queuePop_refused s q.val p hp .clean hg) ⟨rfl, rfl, rfl⟩

omit hp in
/-- What a pop that is made leaves, once its command has ended. -/
theorem exec_queuePop_reads {opens : Bool} {r : Popped} (hf : queuePop q.val .clean s = afterPop p q.val opens r s) :
    ∃ t, exec (.queuePop q .clean .none) s = .next t ∧ t.queue q.val = { r.queue with popped := some r.word } ∧
      (∀ k, k ≠ q.val → t.queue k = s.queue k) ∧ ∀ k, k ≠ p → (t.port k).egress = (s.port k).egress := by
  obtain ⟨hself, hother, hegress⟩ := afterPop_reads p q.val opens r s hs
  rw [← hf] at hself hother hegress
  exact ⟨_, exec_queuePop s q, hself, hother, hegress⟩

variable (hg : s.popGranted p q.val = true) (ha : (s.queue q.val).agrees)
include hg ha

/-- A pop that is allowed takes the word at the read pointer: a header, or the next word of the item that is open. -/
theorem exec_queuePop_takesHead (hn : (s.queue q.val).abortNext = false) :
    ∃ (t : State) (r : Popped) (inside : Bool), exec (.queuePop q .clean .none) s = .next t ∧
      t.queue q.val = { r.queue with popped := some r.word } ∧
      (∀ k, k ≠ q.val → t.queue k = s.queue k) ∧ (∀ k, k ≠ p → (t.port k).egress = (s.port k).egress) ∧
      r.takesHead (s.queue q.val) inside ∧
      ((s.queue q.val).consMid = false → inside = decide (1 < hdrLen ((s.queue q.val).word (s.queue q.val).rptr.toNat))) ∧
      ((s.queue q.val).consMid = true →
        inside = decide ((s.queue q.val).consTaken + 1 < hdrLen (s.queue q.val).consHdr)) := by
  cases hm : (s.queue q.val).consMid with
  | false =>
    obtain ⟨t, he, hself, hother, hegress⟩ := exec_queuePop_reads s q p hs (queuePop_header s q.val p hp hg ha hn hm)
    exact ⟨t, _, _, he, hself, hother, hegress, popHeader_takesHead _ hm, fun _ => rfl, nofun⟩
  | true =>
    obtain ⟨t, he, hself, hother, hegress⟩ := exec_queuePop_reads s q p hs (queuePop_word s q.val p hp hg ha hn hm)
    exact ⟨t, _, _, he, hself, hother, hegress, popWord_takesHead _ hm, nofun, fun _ => rfl⟩

end

/-! ## The marker that ends a flush (R184) -/

/-- A queue whose flush has ended without a marker. -/
def QueueSt.unflushed (d : QueueSt) : QueueSt :=
  { d with
    flush := false, flushItems := 0, flushWords := 0, flushCause := 0, flushFirst := none, flushLast := none,
    flushSlips := [], discardCounts := false }

/-- A queue with a marker of the engine's own behind what it holds. -/
def QueueSt.withMarker (l : Loss) (d : QueueSt) : QueueSt :=
  { d.push l.line with tailMarker := true, own := d.pos d.wptr.toNat :: (d.push l.line).own }

/-- A queue whose flush has ended: with its marker, where anything was flushed. -/
def QueueSt.flushEnded (d : QueueSt) (q : Nat) : QueueSt :=
  if d.flushItems = 0 && d.flushWords = 0 then d.unflushed else d.unflushed.withMarker (d.flushLoss q)

/-- What the slips of a flush complete with: the items and words that it flushed. -/
def QueueSt.flushResult (d : QueueSt) : List Byte :=
  if d.flushItems = 0 && d.flushWords = 0 then leBytes 8 0 else leBytes 4 d.flushItems ++ leBytes 4 d.flushWords

theorem QueueSt.flushEnded_flush (d : QueueSt) (q : Nat) : (d.flushEnded q).flush = false := by
  unfold flushEnded; split <;> rfl

theorem QueueSt.flushEnded_rptr (d : QueueSt) (q : Nat) : (d.flushEnded q).rptr = d.rptr := by
  unfold flushEnded; split <;> rfl

theorem QueueSt.flushEnded_enable (d : QueueSt) (q : Nat) : (d.flushEnded q).enable = d.enable := by
  unfold flushEnded; split <;> rfl

theorem QueueSt.flushEnded_nothing (d : QueueSt) (q : Nat) (hi : d.flushItems = 0) (hw : d.flushWords = 0) :
    (d.flushEnded q).wptr = d.wptr := by
  rw [flushEnded, if_pos (by simp [hi, hw])]; rfl

theorem QueueSt.flushEnded_marker (d : QueueSt) (q : Nat) (h : d.flushItems ≠ 0 ∨ d.flushWords ≠ 0) :
    (d.flushEnded q).word d.wptr.toNat = (d.flushLoss q).line ∧ (d.flushEnded q).tailMarker = true ∧
      (d.flushEnded q).wptr = d.ptr (d.wptr.toNat + 1) := by
  rw [flushEnded, if_neg (by simpa using not_and_or.mpr h)]
  exact ⟨d.unflushed.word_push _, rfl, rfl⟩

/-- Steps 3 and 4 of a flush, before its slips complete. -/
def endedFlush (q : Nat) (s : State) : State :=
  let u := s.setQueue q (s.queue q).unflushed
  if (s.queue q).flushItems = 0 && (s.queue q).flushWords = 0 then u
  else countMarker (queueEngine q) (u.setQueue q ((u.queue q).withMarker ((s.queue q).flushLoss q)))

theorem writeFlush_eq (q : Nat) (s : State) :
    writeFlush q s =
      (s.queue q).flushSlips.foldl (fun t id => complete id St.ok 0 (s.queue q).flushResult t) (endedFlush q s) := rfl

/-- The queue's flush has ended, and nothing else of the queues has changed. -/
theorem endedFlush_reads (q : Nat) (s : State) (h : Sparse.rises s.queues = true) :
    (endedFlush q s).queue q = (s.queue q).flushEnded q ∧ (∀ r, r ≠ q → (endedFlush q s).queue r = s.queue r) ∧
      (endedFlush q s).slips = s.slips := by
  have hfirst := s.setQueue_rises q (s.queue q).unflushed h
  unfold endedFlush QueueSt.flushEnded
  dsimp only
  rw [s.setQueue_self q _ h]
  split
  · exact ⟨s.setQueue_self q _ h, fun r hr => s.setQueue_other _ h hr, rfl⟩
  · refine ⟨State.setQueue_self _ q _ hfirst, fun r hr => ?_, rfl⟩
    exact (State.setQueue_other _ _ hfirst hr).trans (s.setQueue_other _ h hr)

/-! ## The slips of a flush complete (R184, R374) -/

/-- A completion event leaves the rings as they are. -/
theorem complete_rings (id : SlipId) (st : BitVec 16) (d : Nat) (l : List Byte) (s : State) :
    (complete id st d l s).slips.rings = s.slips.rings := by
  unfold complete
  dsimp only
  split
  · split
    · exact (congrArg (·.slips.rings) (raise_eq .info 0x0B0A id.ch.val _ _) :)
    · rfl
  · unfold queueReply
    split <;> rfl

theorem complete_ringGone (id : SlipId) (st : BitVec 16) (d : Nat) (l : List Byte) (s : State) (j : SlipId) :
    (complete id st d l s).ringGone j = s.ringGone j := by
  simp only [State.ringGone, State.ring, complete_rings]

section
variable (r : List Byte) (l : List SlipId)

theorem completeAll_stands (s : State) : s.Stands (l.foldl (fun s id => complete id St.ok 0 r s) s) :=
  (State.Stands.refl s).foldl (fun t id => complete_stands id St.ok 0 r t) l

theorem completeAll_length (s : State) :
    (l.foldl (fun s id => complete id St.ok 0 r s) s).slips.chans.length = s.slips.chans.length :=
  foldl_keeps (fun s : State => s.slips.chans.length) _ (fun s id => complete_length id St.ok 0 r s) l s

theorem completeAll_ringGone (s : State) (j : SlipId) :
    (l.foldl (fun s id => complete id St.ok 0 r s) s).ringGone j = s.ringGone j :=
  foldl_keeps (State.ringGone · j) _ (fun s id => complete_ringGone id St.ok 0 r s j) l s

/-- Each slip of the list that asks for its replies, and whose ring is not gone, completes. -/
theorem completeAll_completed (s : State) {id : SlipId} (hid : id ∈ l) (hg : s.ringGone id = false)
    (hl : id.ch.val < s.slips.chans.length) (hr : id.noReply = false) :
    (l.foldl (fun s id => complete id St.ok 0 r s) s).completed id St.ok r := by
  induction l generalizing s with
  | nil => cases hid
  | cons j l ih =>
    rcases List.mem_cons.mp hid with rfl | hin
    · have hdone := complete_completed id St.ok 0 r s hg (by simp [SlipId.writes, hr]) hl
      exact (completeAll_stands r l _).completed hdone
    · exact ih (complete j St.ok 0 r s) hin ((complete_ringGone ..).trans hg) ((complete_length ..).symm ▸ hl)

end

/-- The queue's flush has ended; its slips complete with what was flushed. -/
theorem writeFlush_reads (q : Nat) (s : State) (h : Sparse.rises s.queues = true) :
    (writeFlush q s).queue q = (s.queue q).flushEnded q ∧ (∀ r, r ≠ q → (writeFlush q s).queue r = s.queue r) ∧
    (∀ id, (writeFlush q s).ringGone id = s.ringGone id) ∧
    (writeFlush q s).slips.chans.length = s.slips.chans.length ∧
    ∀ id ∈ (s.queue q).flushSlips, s.ringGone id = false → id.ch.val < s.slips.chans.length → id.noReply = false →
      (writeFlush q s).completed id St.ok (s.queue q).flushResult := by
  obtain ⟨hself, hother, hslips⟩ := endedFlush_reads q s h
  have hring : ∀ id, (endedFlush q s).ringGone id = s.ringGone id := fun id => by
    simp only [State.ringGone, State.ring, hslips]
  rw [writeFlush_eq q s]
  refine ⟨(completeAll_queue ..).trans hself, fun r hr => (completeAll_queue ..).trans (hother r hr),
    fun id => (completeAll_ringGone ..).trans (hring id), ?_, fun id hid hg hl hr => ?_⟩
  · rw [completeAll_length, hslips]
  · exact completeAll_completed _ _ _ hid ((hring id).trans hg) (hslips.symm ▸ hl) hr

/-- Settles O33: a pop that is allowed by the word or the abort word that it takes, one that is not by what it leaves; a flush that
ends by its marker and its slips. -/
theorem itemsPopped : Obligations.ItemsPopped := by
  unfold Obligations.ItemsPopped
  intro s q p hs d same
  refine ⟨fun hp => ⟨fun hg hn ha => ?_, fun hg hn ha => ?_, exec_queuePop_refused s q p hs hp⟩, fun hfl hdisc ha => ?_⟩
  · obtain ⟨t, r, inside, he, hself, hother, hegress, hhead, hheader, hword⟩ := exec_queuePop_takesHead s q p hs hp hg ha hn
    refine ⟨t, he, ?_, ?_, ?_, fun hm => ?_, fun hm => ?_, hother, hegress⟩
    · rw [hself]; exact congrArg some hhead.word
    · rw [hself]; exact hhead.rptr
    · rw [hself]; exact hhead.wptr
    · rw [hself]; exact hhead.consMid.trans (hheader hm)
    · rw [hself]; exact hhead.consMid.trans (hword hm)
  · obtain ⟨t, he, hself, -, -⟩ := exec_queuePop_reads s q p hs (queuePop_abort s q.val p hp hg ha .clean hn)
    obtain ⟨hkind, hflow⟩ := d.abortLine_reads s q.val d.abortCause
    refine ⟨t, d.abortLine s q.val d.abortCause, he, ?_, hkind, hflow, ?_⟩ <;> rw [hself]
    · rfl
    · exact ⟨rfl, rfl, rfl, rfl⟩
  · have hend : endFlush q.val s = writeFlush q.val s := by rw [endFlush, useQueue_agrees q.val s ha, Option.getD_none]
    obtain ⟨hself, hother, -, -, hdone⟩ := writeFlush_reads q.val s (s.wf_queues hs)
    rw [← hend] at hself hother hdone
    refine ⟨_, run_when (f := endFlush q.val) (by simp [d, hfl, hdisc]) s, ?_, fun hany => ?_, fun hi hw => ?_, hother,
      fun id hid hg hl hr => ?_⟩
    · exact (congrArg QueueSt.flush hself).trans (d.flushEnded_flush q.val)
    · obtain ⟨hword, htail, hwptr⟩ := d.flushEnded_marker q.val hany
      exact ⟨(congrArg (QueueSt.word · d.wptr.toNat) hself).trans hword, (congrArg QueueSt.tailMarker hself).trans htail,
        (congrArg QueueSt.wptr hself).trans hwptr⟩
    · exact (congrArg QueueSt.wptr hself).trans (d.flushEnded_nothing q.val hi hw)
    · have hcompleted := hdone id hid hg hl hr
      simp only [QueueSt.flushResult, Bool.and_eq_true, decide_eq_true_eq] at hcompleted
      exact mirror_completed _ s _ _ _ hcompleted

end Sys2Proof.Machine
end

section
/-! PROOFS. The slips of a queue: QUEUE_SET puts it in service, writes its threshold or takes it out, and QUEUE_FLUSH empties it
("Queues", R165 to R168, R184, R190, R191; R390). -/

namespace Sys2Proof.Machine
open Sys2Proof

/-! ## The queues of a slip's next state -/

theorem queue_of_mirror {s t u : State} (h : t = { mirror s u with slips := t.slips, log := t.log }) (k : Nat) :
    t.queue k = u.queue k := (congrArg (State.queue · k) h :)

theorem begun_queues (s : State) (op : BitVec 16) (h : SlipHdr) (p : List Byte) : (s.begun op h p).queues = s.queues :=
  (congrArg State.queues (begun_eq s op h p) :)

theorem begun_queue (s : State) (op : BitVec 16) (h : SlipHdr) (p : List Byte) (q : Nat) :
    (s.begun op h p).queue q = s.queue q := by rw [State.queue, begun_queues]; rfl

/-! ## QUEUE_SET (R191, R390) -/

/-- A queue that QUEUE_SET has written: in service its threshold alone, else put in service empty with the settings given, or taken
out of it. -/
def QueueSt.setTo (p : List Byte) (d : QueueSt) : QueueSt :=
  if d.enable && (arg p 18 1).testBit 0 then { d with threshold := BitVec.ofNat 9 (arg p 20 2) }
  else if (arg p 18 1).testBit 0 then { QueueSt.dflt with
    enable := true, ordinary := (arg p 18 1).testBit 1, sizeCode := BitVec.ofNat 4 (arg p 19 1)
    threshold := BitVec.ofNat 9 (arg p 20 2), base := BitVec.ofNat 20 (arg p 22 3)
    dropping := d.dropping, arriving := d.arriving, prodPort := d.prodPort, prodOpen := d.prodOpen
    prodPoison := d.prodPoison, prodHdr := d.prodHdr, prodTaken := d.prodTaken }
  else { d with
    enable := false, parityBad := false, ordinary := (arg p 18 1).testBit 1, sizeCode := BitVec.ofNat 4 (arg p 19 1)
    threshold := BitVec.ofNat 9 (arg p 20 2), base := BitVec.ofNat 20 (arg p 22 3) }

section
variable {p : List Byte} {d : QueueSt}

theorem QueueSt.setTo_enables (hen : (arg p 18 1).testBit 0 = true) (hd : d.enable = false) : d.setTo p =
    { QueueSt.dflt with
      enable := true, ordinary := (arg p 18 1).testBit 1, sizeCode := BitVec.ofNat 4 (arg p 19 1)
      threshold := BitVec.ofNat 9 (arg p 20 2), base := BitVec.ofNat 20 (arg p 22 3)
      dropping := d.dropping, arriving := d.arriving, prodPort := d.prodPort, prodOpen := d.prodOpen
      prodPoison := d.prodPoison, prodHdr := d.prodHdr, prodTaken := d.prodTaken } := by
  simp only [setTo, hen, hd, Bool.false_and, Bool.false_eq_true, if_false, if_true]

theorem QueueSt.setTo_keeps (hen : (arg p 18 1).testBit 0 = true) (hd : d.enable = true) :
    d.setTo p = { d with threshold := BitVec.ofNat 9 (arg p 20 2) } := by
  simp only [setTo, hen, hd, Bool.true_and, if_true]

theorem QueueSt.setTo_disables (hen : (arg p 18 1).testBit 0 = false) : (d.setTo p).enable = false := by
  simp only [setTo, hen, Bool.and_false, Bool.false_eq_true, if_false]

end

/-- The storage that the slip gives the queue lies clear of a run of words: r is its first word and its length. -/
def storageClearOf (p : List Byte) (r : Nat × Nat) : Prop :=
  r.1 + r.2 ≤ 16 * arg p 22 3 ∨ 16 * arg p 22 3 + queueCap (arg p 19 1) ≤ r.1

/-- The checks that do not look at the queue: the house, the fields, and the room in the engine's space. -/
structure State.queueSetFits (s : State) (p : List Byte) : Prop where
  house : s.modes.house ≠ .closing
  fields : fields [⟨16, 2, arg p 16 2 < 16384⟩, ⟨18, 1, arg p 18 1 < 4⟩, ⟨19, 1, arg p 19 1 ≤ 12⟩, ⟨20, 2, arg p 20 2 ≤ 320⟩,
    ⟨22, 3, arg p 22 3 < 2 ^ 20⟩] p = .ok ()
  threshold : arg p 20 2 ≤ queueCap (arg p 19 1) - 1
  space : 16 * arg p 22 3 + queueCap (arg p 19 1) ≤ 8192 * s.spaceGroups (queueEngine (arg p 16 2))

/-- And those that do: in service only the threshold may change, and a queue that goes out of it is empty and not named. -/
structure State.queueSetMeets (s : State) (p : List Byte) : Prop extends s.queueSetFits p where
  running : (arg p 18 1).testBit 0 = true → getBit s.clk.gatedQe (queueEngine (arg p 16 2)) = false
  apart : (arg p 18 1).testBit 0 = true → ∀ r ∈ s.enabledRuns (queueEngine (arg p 16 2)) (arg p 16 2), storageClearOf p r
  same : (s.queue (arg p 16 2)).enable = true → (s.queue (arg p 16 2)).sizeCode.toNat = arg p 19 1 ∧
    (s.queue (arg p 16 2)).base.toNat = arg p 22 3 ∧ (s.queue (arg p 16 2)).ordinary = (arg p 18 1).testBit 1
  idle : (s.queue (arg p 16 2)).enable = true → (arg p 18 1).testBit 0 = false → (s.queue (arg p 16 2)).occupied = 0 ∧
    (s.queue (arg p 16 2)).prodMid = false ∧ (s.queue (arg p 16 2)).discarding = false ∧ (s.queue (arg p 16 2)).flush = false
  unnamed : (s.queue (arg p 16 2)).enable = true → (arg p 18 1).testBit 0 = false → s.queueNamed (arg p 16 2) = false

section
variable {s : State} {p : List Byte}

/-- A check that binds only where c holds. -/
theorem need_where {c d : Bool} (h : c = true → d = true) (e : SlipErr) : need (!c || d) e = .ok () :=
  need_ok (by cases c <;> simp_all) e

theorem queueSetBody_meets (h : s.queueSetMeets p) :
    queueSetBody p s = okSlip (s.setQueue (arg p 16 2) ((s.queue (arg p 16 2)).setTo p)) := by
  have hrunning : ((arg p 18 1).testBit 0 && getBit s.clk.gatedQe (queueEngine (arg p 16 2))) = false := by
    rw [Bool.and_eq_false_imp]; exact h.running
  have hapart : (arg p 18 1).testBit 0 = true → ((s.enabledRuns (queueEngine (arg p 16 2)) (arg p 16 2)).all fun (a, n) =>
      a + n ≤ 16 * arg p 22 3 || 16 * arg p 22 3 + queueCap (arg p 19 1) ≤ a) = true := fun hen =>
    List.all_eq_true.mpr fun r hr => by simpa [storageClearOf] using h.apart hen r hr
  have hsame : (s.queue (arg p 16 2)).enable = true → ((s.queue (arg p 16 2)).sizeCode.toNat == arg p 19 1 &&
      (s.queue (arg p 16 2)).base.toNat == arg p 22 3 && (s.queue (arg p 16 2)).ordinary == (arg p 18 1).testBit 1) = true := by
    simpa [and_assoc] using h.same
  have hidle : ((s.queue (arg p 16 2)).enable && !(arg p 18 1).testBit 0) = true → ((s.queue (arg p 16 2)).occupied == 0 &&
      !(s.queue (arg p 16 2)).prodMid && !(s.queue (arg p 16 2)).discarding && !(s.queue (arg p 16 2)).flush) = true := by
    simpa [and_assoc] using h.idle
  have hunnamed : ((s.queue (arg p 16 2)).enable && !(arg p 18 1).testBit 0) = true → (!s.queueNamed (arg p 16 2)) = true := by
    simpa using h.unnamed
  unfold queueSetBody
  simp only [openQueues, houseOpen_ok s h.house, h.fields, need_not_ok hrunning, need_ok (decide_eq_true h.threshold),
    need_ok (decide_eq_true h.space), need_where hapart, need_where hsame, need_where hidle, need_where hunnamed]
  unfold QueueSt.setTo
  cases (s.queue (arg p 16 2)).enable <;> cases (arg p 18 1).testBit 0 <;> rfl

/-- R191: a queue that holds words is not taken out of service, whatever else its slip says. -/
theorem queueSetBody_busy (h : s.queueSetFits p) (hen : (arg p 18 1).testBit 0 = false)
    (hd : (s.queue (arg p 16 2)).enable = true) (ho : (s.queue (arg p 16 2)).occupied ≠ 0) :
    queueSetBody p s = .error (fail St.queueBusy) := by
  have hheld : ((s.queue (arg p 16 2)).occupied == 0) = false := by simp [ho]
  unfold queueSetBody
  simp only [openQueues, houseOpen_ok s h.house, h.fields, need_ok (decide_eq_true h.threshold),
    need_ok (decide_eq_true h.space), hen, hd, hheld]
  cases ((s.queue (arg p 16 2)).sizeCode.toNat == arg p 19 1 && (s.queue (arg p 16 2)).base.toNat == arg p 22 3 &&
    (s.queue (arg p 16 2)).ordinary == (arg p 18 1).testBit 1) <;> rfl

end

section
variable {s : State} {h : SlipHdr} {p : List Byte} (hs : s.wf = true) (ht : s.takes 0x0601 .ordinary h p)
include ht

include hs in
/-- QUEUE_SET, its checks passed, answers OK and writes the queue that it names. -/
theorem queueSet_writes (hmeets : s.queueSetMeets p) :
    ∃ u, exec (.queueSet h p) s = .next u ∧ u.answered 0x0601 h St.ok [] ∧
      u.queue (arg p 16 2) = (s.queue (arg p 16 2)).setTo p ∧ ∀ r, r ≠ arg p 16 2 → u.queue r = s.queue r := by
  obtain ⟨x, g, n, hB⟩ := begun_reads s 0x0601 h p
  have hbody : queueSetBody p (s.begun 0x0601 h p) =
      okSlip ((s.begun 0x0601 h p).setQueue (arg p 16 2) ((s.queue (arg p 16 2)).setTo p)) := by
    rw [hB]
    exact queueSetBody_meets (s := { s with slips := x, log := g, frame.freeCount := n })
      ⟨⟨hmeets.house, hmeets.fields, hmeets.threshold, hmeets.space⟩, hmeets.running, hmeets.apart, hmeets.same, hmeets.idle,
        hmeets.unnamed⟩
  obtain ⟨u, he, ha, -, hu⟩ := slip_ok (body := fun _ s => queueSetBody p s) ht hbody rfl (begun_length s 0x0601 h p)
  have hrises : Sparse.rises (s.begun 0x0601 h p).queues = true := (begun_queues s 0x0601 h p).symm ▸ s.wf_queues hs
  refine ⟨u, he, ha, ?_, fun r hr => ?_⟩
  · exact (queue_of_mirror hu _).trans (State.setQueue_self _ _ _ hrises)
  · exact (queue_of_mirror hu r).trans ((State.setQueue_other _ _ hrises hr).trans (begun_queue s 0x0601 h p r))

/-- It is refused QUEUE_BUSY where it would take out of service a queue that holds words. -/
theorem queueSet_busy (hfits : s.queueSetFits p) (hen : (arg p 18 1).testBit 0 = false)
    (hd : (s.queue (arg p 16 2)).enable = true) (ho : (s.queue (arg p 16 2)).occupied ≠ 0) :
    ∃ u, exec (.queueSet h p) s = .next u ∧ u.answered 0x0601 h St.queueBusy [] ∧ s.sameButSlips u := by
  obtain ⟨x, g, n, hB⟩ := begun_reads s 0x0601 h p
  have hbody : queueSetBody p (s.begun 0x0601 h p) = .error (fail St.queueBusy) := by
    rw [hB]
    exact queueSetBody_busy (s := { s with slips := x, log := g, frame.freeCount := n })
      ⟨hfits.house, hfits.fields, hfits.threshold, hfits.space⟩ hen hd ho
  exact slip_error (body := fun _ s => queueSetBody p s) ht hbody rfl (by decide)

end

/-! ## QUEUE_FLUSH (R184, R390) -/

/-- e is d emptied by a flush that has begun: read pointer at write pointer, what was held noted for the marker. -/
structure QueueSt.EmptiedTo (d e : QueueSt) : Prop where
  enable : e.enable = d.enable
  parityBad : e.parityBad = d.parityBad
  wptr : e.wptr = d.wptr
  wptrSh : e.wptrSh = d.wptrSh
  rptr : e.rptr = d.ptr d.wptr.toNat
  rptrSh : e.rptrSh = d.ptr d.wptr.toNat
  flush : e.flush = true
  discarding : e.discarding = (d.discarding || d.prodMid)
  items : d.unopened = [] → e.flushItems = d.flushItems
  words : d.unopened = [] → e.flushWords = d.flushWords

theorem QueueSt.EmptiedTo.agrees {d e : QueueSt} (h : d.EmptiedTo e) (ha : d.agrees) : e.agrees := by
  obtain ⟨hw, -, hp⟩ := ha
  exact ⟨h.wptrSh.trans (hw.trans h.wptr.symm), h.rptrSh.trans h.rptr.symm, h.parityBad.trans hp⟩

/-- The credits of what a queue holds are freed. -/
def freedBy (q : Nat) (s : State) : State := (s.queue q).charges.foldl (fun s c => freeCredit (some c.2) s) s

theorem freedBy_keeps {β : Type} (f : State → β) (hf : ∀ c s, f (freeCredit c s) = f s) (q : Nat) (s : State) :
    f (freedBy q s) = f s := foldl_keeps f _ (fun _ _ => hf _ _) _ s

/-- Steps 1 and 2 of a flush empty the queue and free the credits of what it held. -/
theorem beginFlush_setQueue (q : Nat) (s : State) :
    ∃ e, beginFlush q s = (freedBy q s).setQueue q e ∧ (s.queue q).EmptiedTo e := by
  refine ⟨_, rfl, rfl, rfl, rfl, rfl, rfl, rfl, rfl, rfl, fun hnone => ?_, fun hnone => ?_⟩
  · simp only [hnone, List.map_nil, List.foldl_nil]
  · simp only [hnone, List.map_nil, List.foldl_nil]

theorem beginFlush_empties (q : Nat) (s : State) (h : Sparse.rises s.queues = true) :
    (s.queue q).EmptiedTo ((beginFlush q s).queue q) ∧ (∀ r, r ≠ q → (beginFlush q s).queue r = s.queue r) ∧
      (beginFlush q s).slips = s.slips ∧ Sparse.rises (beginFlush q s).queues = true := by
  obtain ⟨e, hb, hempty⟩ := beginFlush_setQueue q s
  have hqueues : (freedBy q s).queues = s.queues := freedBy_keeps State.queues freeCredit_queues q s
  have hslips : (freedBy q s).slips = s.slips := freedBy_keeps State.slips (fun c s => by rw [freeCredit_eq]) q s
  have hrises : Sparse.rises (freedBy q s).queues = true := hqueues ▸ h
  rw [hb]
  refine ⟨?_, fun r hr => ?_, hslips, State.setQueue_rises _ q e hrises⟩
  · rwa [State.setQueue_self _ q e hrises]
  · rw [State.setQueue_other _ e hrises hr, State.queue, hqueues]; rfl

section
variable {s : State} {p : List Byte} {id : SlipId} (hfields : fields [⟨16, 2, arg p 16 2 < 16384⟩] p = .ok ())
include hfields

theorem queueFlushBody_disabled (hd : (s.queue (arg p 16 2)).enable = false) :
    queueFlushBody p id s = acceptDone s St.ok (leBytes 8 0) := by
  unfold queueFlushBody
  simp only [hfields, hd]
  rfl

variable (hd : (s.queue (arg p 16 2)).enable = true) (ha : (s.queue (arg p 16 2)).agrees)
  (hq : Sparse.rises s.queues = true)
include hd ha hq

/-- The producer is inside an item: the marker waits for its end, and the slip for the marker. -/
theorem queueFlushBody_waits (hm : ((s.queue (arg p 16 2)).discarding || (s.queue (arg p 16 2)).prodMid) = true) :
    queueFlushBody p id s =
      accept ((beginFlush (arg p 16 2) s).modQueue (arg p 16 2) fun d => { d with flushSlips := d.flushSlips ++ [id] }) := by
  obtain ⟨hempty, -⟩ := beginFlush_empties (arg p 16 2) s hq
  unfold queueFlushBody
  simp only [hfields, hd, useQueue_agrees _ s ha, hempty.discarding, hm]
  rfl

/-- Else it is written at once. -/
theorem queueFlushBody_ends (hm : ((s.queue (arg p 16 2)).discarding || (s.queue (arg p 16 2)).prodMid) = false) :
    queueFlushBody p id s = acceptDone (writeFlush (arg p 16 2) (beginFlush (arg p 16 2) s)) St.ok
      (leBytes 4 (((beginFlush (arg p 16 2) s).queue (arg p 16 2)).flushLoss (arg p 16 2)).items ++
        leBytes 4 (((beginFlush (arg p 16 2) s).queue (arg p 16 2)).flushLoss (arg p 16 2)).words) := by
  obtain ⟨hempty, -⟩ := beginFlush_empties (arg p 16 2) s hq
  have hend : endFlush (arg p 16 2) (beginFlush (arg p 16 2) s) = writeFlush (arg p 16 2) (beginFlush (arg p 16 2) s) := by
    rw [endFlush, useQueue_agrees _ _ (hempty.agrees ha), Option.getD_none]
  unfold queueFlushBody
  simp only [hfields, hd, useQueue_agrees _ s ha, hempty.discarding, hm, hend]
  rfl

end

/-- The queue that QUEUE_FLUSH names, emptied, its flush still to be marked. -/
def State.flushBegun (s : State) (h : SlipHdr) (p : List Byte) : QueueSt :=
  (beginFlush (arg p 16 2) (s.begun 0x0603 h p)).queue (arg p 16 2)

theorem flushBegun_empties {s : State} (h : SlipHdr) (p : List Byte) (hs : s.wf = true) :
    let b := beginFlush (arg p 16 2) (s.begun 0x0603 h p)
    (s.queue (arg p 16 2)).EmptiedTo (s.flushBegun h p) ∧ (∀ r, r ≠ arg p 16 2 → b.queue r = s.queue r) ∧
      b.slips.chans.length = s.slips.chans.length ∧ (∀ id, b.ringGone id = s.ringGone id) ∧ Sparse.rises b.queues = true := by
  obtain ⟨hempty, hother, hslips, hrises⟩ := beginFlush_empties (arg p 16 2) (s.begun 0x0603 h p)
    ((begun_queues s 0x0603 h p).symm ▸ s.wf_queues hs)
  rw [begun_queue] at hempty
  refine ⟨hempty, fun r hr => (hother r hr).trans (begun_queue ..), ?_, fun id => ?_, hrises⟩
  · rw [hslips, begun_length]
  · rw [← begun_ringGone s 0x0603 h p]
    simp only [State.ringGone, State.ring, hslips]

section
variable {s : State} {h : SlipHdr} {p : List Byte} (hs : s.wf = true) (ht : s.takes 0x0603 .ordinary h p)
  (hfields : fields [⟨16, 2, arg p 16 2 < 16384⟩] p = .ok ())
include ht hfields

/-- A queue out of service has nothing to flush. -/
theorem queueFlush_disabled (hring : s.ringGone (slipId s 0x0603 h .ordinary) = false)
    (hd : (s.queue (arg p 16 2)).enable = false) :
    ∃ u, exec (.queueFlush h p) s = .next u ∧ u.answered 0x0603 h St.accepted [] ∧
      u.completed (slipId s 0x0603 h .ordinary) St.ok (leBytes 8 0) ∧ u.queues = s.queues := by
  have hbody := queueFlushBody_disabled (id := slipId s 0x0603 h .ordinary) hfields
    ((congrArg QueueSt.enable (begun_queue s 0x0603 h p _)).trans hd)
  obtain ⟨u, he, ha, hc, hu⟩ := slip_post ht hbody rfl rfl (begun_length s 0x0603 h p)
    ((begun_ringGone s 0x0603 h p _).trans hring)
  exact ⟨u, he, ha, hc, (congrArg State.queues hu :).trans (begun_queues s 0x0603 h p)⟩

variable (hd : (s.queue (arg p 16 2)).enable = true) (ha : (s.queue (arg p 16 2)).agrees)
include hs hd ha

/-- With the producer inside an item the slip joins those that the marker's write completes. -/
theorem queueFlush_waits (hm : ((s.queue (arg p 16 2)).discarding || (s.queue (arg p 16 2)).prodMid) = true) :
    ∃ u, exec (.queueFlush h p) s = .next u ∧ u.accepted 0x0603 h ∧
      u.queue (arg p 16 2) =
        { s.flushBegun h p with flushSlips := (s.flushBegun h p).flushSlips ++ [slipId s 0x0603 h .ordinary] } ∧
      ∀ r, r ≠ arg p 16 2 → u.queue r = s.queue r := by
  obtain ⟨-, hother, hlength, -, hrises⟩ := flushBegun_empties h p hs
  have hbody := queueFlushBody_waits (s := s.begun 0x0603 h p) (id := slipId s 0x0603 h .ordinary) hfields
    (by rw [begun_queue]; exact hd) (by rw [begun_queue]; exact ha) (by rw [begun_queues]; exact s.wf_queues hs)
    (by rw [begun_queue]; exact hm)
  obtain ⟨u, he, -, hacc, hu⟩ := slip_ok ht hbody rfl hlength
  have hread := fun k => (queue_of_mirror hu k).trans (State.modQueue_queue _ _ _ k hrises)
  refine ⟨u, he, hacc rfl rfl, ?_, fun r hr => ?_⟩
  · exact (hread _).trans (if_pos rfl)
  · exact (hread r).trans ((if_neg hr).trans (hother r hr))

/-- Else the slip completes with the items and words of the emptied queue's own loss, which its marker bears. -/
theorem queueFlush_ends (hring : s.ringGone (slipId s 0x0603 h .ordinary) = false)
    (hm : ((s.queue (arg p 16 2)).discarding || (s.queue (arg p 16 2)).prodMid) = false) :
    ∃ u, exec (.queueFlush h p) s = .next u ∧ u.answered 0x0603 h St.accepted [] ∧
      u.completed (slipId s 0x0603 h .ordinary) St.ok
        (leBytes 4 ((s.flushBegun h p).flushLoss (arg p 16 2)).items ++
          leBytes 4 ((s.flushBegun h p).flushLoss (arg p 16 2)).words) ∧
      u.queue (arg p 16 2) = (s.flushBegun h p).flushEnded (arg p 16 2) ∧ ∀ r, r ≠ arg p 16 2 → u.queue r = s.queue r := by
  obtain ⟨-, hother, hlength, hgone, hrises⟩ := flushBegun_empties h p hs
  obtain ⟨hself, hothers, hgone', hlength', -⟩ := writeFlush_reads (arg p 16 2) _ hrises
  have hbody := queueFlushBody_ends (s := s.begun 0x0603 h p) (id := slipId s 0x0603 h .ordinary) hfields
    (by rw [begun_queue]; exact hd) (by rw [begun_queue]; exact ha) (by rw [begun_queues]; exact s.wf_queues hs)
    (by rw [begun_queue]; exact hm)
  obtain ⟨u, he, hans, hc, hu⟩ := slip_post ht hbody rfl rfl (hlength'.trans hlength)
    ((hgone' _).trans ((hgone _).trans hring))
  refine ⟨u, he, hans, hc, ?_, fun r hr => ?_⟩
  · exact (queue_of_mirror hu _).trans hself
  · exact (queue_of_mirror hu r).trans ((hothers r hr).trans (hother r hr))

end

/-- Settles O35: QUEUE_SET by what it writes of the queue that it names, QUEUE_FLUSH by what is left of the queue it empties. -/
theorem queueSlips : Obligations.QueueSlips := by
  unfold Obligations.QueueSlips
  intro s h p hs q d
  refine ⟨?_, ?_⟩
  · intro hhouse ht flags code t base hfields hthreshold hspace
    have hfits : s.queueSetFits p := ⟨hhouse, hfields, hthreshold, hspace⟩
    refine ⟨fun hen hgate hoff hapart => ?_, fun hen hgate hon hcode hbase hord hapart => ?_,
      fun hen hon hcode hbase hord hempty hmid hdisc hflush hname => ?_, fun hen hon ho => queueSet_busy ht hfits hen hon ho⟩
    · have hnot : ∀ {P : Prop}, d.enable = true → P := fun hon => absurd (hoff.symm.trans hon) (by decide)
      obtain ⟨u, he, ha, hself, hother⟩ := queueSet_writes hs ht
        ⟨hfits, fun _ => hgate, fun _ => hapart, hnot, hnot, hnot⟩
      exact ⟨u, he, ha, hself.trans (QueueSt.setTo_enables hen hoff), hother⟩
    · have hnot : ∀ {P : Prop}, d.enable = true → flags.testBit 0 = false → P := fun _ hoff =>
        absurd (hoff.symm.trans hen) (by decide)
      obtain ⟨u, he, ha, hself, hother⟩ := queueSet_writes hs ht
        ⟨hfits, fun _ => hgate, fun _ => hapart, fun _ => ⟨hcode, hbase, hord⟩, hnot, hnot⟩
      exact ⟨u, he, ha, hself.trans (QueueSt.setTo_keeps hen hon), hother⟩
    · have hnot : ∀ {P : Prop}, flags.testBit 0 = true → P := fun hon => absurd (hen.symm.trans hon) (by decide)
      obtain ⟨u, he, ha, hself, hother⟩ := queueSet_writes hs ht
        ⟨hfits, hnot, hnot, fun _ => ⟨hcode, hbase, hord⟩, fun _ _ => ⟨hempty, hmid, hdisc, hflush⟩, fun _ _ => hname⟩
      exact ⟨u, he, ha, (congrArg QueueSt.enable hself).trans (QueueSt.setTo_disables hen), hother⟩
  · intro ht hfields hring same
    obtain ⟨hempty, -⟩ := flushBegun_empties h p hs
    refine ⟨queueFlush_disabled ht hfields hring, fun hd ha hmid hdisc => ?_, fun hd ha hm => ?_⟩
    · obtain ⟨u, he, hans, hc, hself, hother⟩ := queueFlush_ends hs ht hfields hd ha hring
        (Bool.or_eq_false_iff.mpr ⟨hdisc, hmid⟩)
      refine ⟨u, _, he, hans, hc, ?_, ?_, ?_, fun hnone hi hw => ?_, hother⟩ <;> rw [hself]
      · rw [QueueSt.flushEnded_rptr, hempty.rptr]
      · exact QueueSt.flushEnded_flush _ _
      · rw [QueueSt.flushEnded_enable, hempty.enable, hd]
      · rw [QueueSt.flushEnded_nothing _ _ ((hempty.items hnone).trans hi) ((hempty.words hnone).trans hw), hempty.wptr]
    · have hinside : (d.discarding || d.prodMid) = true := (Bool.or_eq_true ..).mpr hm.symm
      obtain ⟨u, he, hacc, hself, hother⟩ := queueFlush_waits hs ht hfields hd ha hinside
      refine ⟨u, he, hacc, ?_, ?_, ?_, ⟨slipId s 0x0603 h .ordinary, ?_, rfl, rfl⟩, hother⟩ <;> rw [hself]
      · exact hempty.rptr
      · exact hempty.flush
      · exact hempty.discarding.trans hinside
      · exact List.mem_append_right _ (List.mem_singleton_self _)

end Sys2Proof.Machine
end

section
/-! PROOFS. What an access of the stores leaves (R221 to R228, R234 to R250). -/

namespace Sys2Proof.Machine
open Sys2Proof

/-! ## An access of the stores

The ledger, the check codes and the side store change bytes, nodes and volumes, and raise events. -/

/-- t differs from s in the stores and their ledger, and by events. -/
def State.onlyStores (s t : State) : Prop :=
  t = { s with mem := t.mem, crypto := t.crypto, log := t.log, desk := t.desk, slips.msix := t.slips.msix }

namespace State.onlyStores
variable {s t u : State}

theorem refl (s : State) : s.onlyStores s := rfl

theorem trans (h : s.onlyStores t) (g : t.onlyStores u) : s.onlyStores u := by
  unfold State.onlyStores at *
  rw [g, h]

theorem foldl {α : Type} {step : State → α → State} (hstep : ∀ (t : State) a, s.onlyStores t → s.onlyStores (step t a))
    (l : List α) (h : s.onlyStores t) : s.onlyStores (l.foldl step t) := by
  induction l generalizing t with
  | nil => exact h
  | cons a l ih => exact ih (hstep t a h)

theorem ite {c : Prop} [Decidable c] (ht : s.onlyStores t) (hu : s.onlyStores u) : s.onlyStores (if c then t else u) := by
  split
  · exact ht
  · exact hu

theorem crypto (h : s.onlyStores t) (c : CryptoSt) : s.onlyStores { t with crypto := c } := h.trans rfl

theorem mem (h : s.onlyStores t) (m : MemSt) : s.onlyStores { t with mem := m } := h.trans rfl

theorem modVol (h : s.onlyStores t) (v : Nat) (f : VolSt → VolSt) : s.onlyStores (t.modVol v f) := h.trans rfl

theorem modLedger (h : s.onlyStores t) (k : Nat) (f : LedgerNode → LedgerNode) : s.onlyStores (t.modLedger k f) := h.trans rfl

theorem raised (h : s.onlyStores t) {c : EvClass} {code : BitVec 16} {sub : Nat} {d : List (Nat × Nat)} :
    s.onlyStores (raise c code sub d t) := by
  refine h.trans ?_
  unfold State.onlyStores
  rw [raise_eq c code sub d t]

end State.onlyStores

section
variable {s t u : State} (h : s.onlyStores t)
include h
open State.onlyStores

theorem memFinding_onlyStores (req a : Nat) (f : Found) (write : Bool) : s.onlyStores (memFinding req a f write t) := by
  cases f with
  | clean | macFail => exact h
  | corrected pos _ =>
    show s.onlyStores (memCorrected req a pos write t)
    unfold memCorrected
    exact raised (h.mem _)
  | uncorrectable syn =>
    show s.onlyStores (memUncorrectable req a syn.toNat write t)
    unfold memUncorrectable
    exact raised (h.mem _)

theorem sideFinding_onlyStores (req block : Nat) (f : Found) (write : Bool) : s.onlyStores (sideFinding req block f write t) := by
  cases f with
  | clean => exact h
  | corrected pos v =>
    show s.onlyStores (sideCorrected req block pos v.toNat write t)
    unfold sideCorrected
    exact raised (h.mem _)
  | uncorrectable syn =>
    show s.onlyStores (sideUncorrectable req block syn.toNat write t)
    unfold sideUncorrectable
    exact raised (h.mem _)
  | macFail =>
    show s.onlyStores (authFail block t)
    unfold authFail
    exact raised (h.crypto _)

theorem retiredHit_onlyStores (req : Nat) : s.onlyStores (retiredHit req t) := by
  unfold retiredHit
  exact ite (h.mem _) (raised (h.mem _))

theorem touchNode_onlyStores (k : Nat) (dirty : Bool) : s.onlyStores (touchNode k dirty t) := by
  unfold touchNode
  split
  · exact h.crypto _
  · exact h

theorem newKey_onlyStores (v : Nat) : s.onlyStores (newKey v t) := by
  unfold newKey
  exact ite (raised ((h.crypto _).modVol v _)) h

theorem triggerRekey_onlyStores (v : Nat) : s.onlyStores (triggerRekey v t) := by
  unfold triggerRekey
  exact ite (newKey_onlyStores ((h.modVol v _).crypto _) v) h

theorem bumpParent_onlyStores (k : Nat) : s.onlyStores (bumpParent k t) := by
  have htouched := touchNode_onlyStores h (nparent k) true
  unfold bumpParent
  dsimp only
  split
  · exact modVol (ite (triggerRekey_onlyStores h _) h) _ _
  · split
    · exact htouched.modLedger _ _
    · exact crypto (modLedger (crypto (ite (triggerRekey_onlyStores htouched _) htouched) _) _ _) _

theorem evictNode_onlyStores (e : Nat × Bool) : s.onlyStores (evictNode e t) := by
  unfold evictNode
  exact ite (bumpParent_onlyStores ((h.crypto _).crypto _) e.1) (h.crypto _)

theorem fetchNode_onlyStores (k : Nat) : s.onlyStores (fetchNode k t) := by
  unfold fetchNode
  refine ite (touchNode_onlyStores h k false) ?_
  split
  · exact (evictNode_onlyStores h _).crypto _
  · exact h.crypto _

theorem poison_onlyStores (k cause : Nat) : s.onlyStores (poison k cause t) := by
  have hlogged : ∀ {u}, s.onlyStores u → s.onlyStores (logNode k cause u) := fun hu => hu.crypto _
  unfold poison
  refine raised (ite (raised (crypto (hlogged (crypto ?_ _)) _)) (raised (hlogged (crypto ?_ _)))) <;>
  · refine bumpParent_onlyStores (touchNode_onlyStores (foldl (fun _ n hu => hu.modLedger n _) _ ?_) k true) k
    exact ite (triggerRekey_onlyStores h _) (h.modVol _ _)

theorem nodeFinding_onlyStores (k : Nat) (f : NodeFound) : s.onlyStores (nodeFinding k f t) := by
  unfold nodeFinding
  split
  · exact ite (poison_onlyStores h k 3) (h.crypto _)
  · split
    · exact h
    · exact raised (crypto (crypto h _) _)
    · exact poison_onlyStores h k 1
    · exact poison_onlyStores h k 2

theorem walkPage_onlyStores (page : Nat) (path : List NodeFound) : s.onlyStores (walkPage page path t) := by
  unfold walkPage
  dsimp only
  generalize hw : List.foldl _ t _ = w
  have hwalked : s.onlyStores w := by
    rw [← hw]
    refine h.foldl (fun u l hu => fetchNode_onlyStores ?_ _) _
    split
    · exact ite hu (nodeFinding_onlyStores hu _ _)
    · exact hu
  exact ite (hwalked.modLedger _ _) hwalked

theorem settleRebuild_onlyStores (page : Nat) : s.onlyStores (settleRebuild page t) := by
  unfold settleRebuild
  refine ite (foldl (fun u l hu => ?_) _ (h.modLedger _ _)) h
  unfold settleAbove
  exact ite (hu.modLedger _ _) hu

theorem bumpBlock_onlyStores {block : Nat} (hu : bumpBlock block t = some u) : s.onlyStores u := by
  have htouched := touchNode_onlyStores h (nodeOver 0 (block / 64)) true
  simp only [bumpBlock] at hu
  split_ifs at hu <;> cases hu
  · exact settleRebuild_onlyStores (htouched.modLedger _ _) _
  · exact settleRebuild_onlyStores (modLedger (crypto htouched _) _ _) _
  · exact (triggerRekey_onlyStores htouched _).modLedger _ _

theorem storeBlock_onlyStores (req block addr : Nat) (l : List Byte) : s.onlyStores (storeBlock req block addr l t) := by
  unfold storeBlock
  split
  · next hb => exact (bumpBlock_onlyStores h hb).mem _
  · exact (triggerRekey_onlyStores h _).crypto _

theorem readBlock_onlyStores (m req block : Nat) (f : Found) (path : List NodeFound) :
    s.onlyStores (readBlock m req block f path t).2 := by
  have hwalked := walkPage_onlyStores h (block / 64) path
  unfold readBlock
  dsimp only
  split_ifs
  · exact h
  · exact h
  · exact h.crypto _
  · exact retiredHit_onlyStores h req
  · split
    · exact h
    · exact sideFinding_onlyStores h req block (.uncorrectable _) false
    · exact sideFinding_onlyStores h req block f false
  · exact hwalked
  · exact sideFinding_onlyStores hwalked ..
  · exact sideFinding_onlyStores hwalked ..

/-- The reads of a flow's context (R193, R195). -/
theorem contextFindings_onlyStores (k : Nat) (found : List Found) : s.onlyStores (contextFindings k found t) := by
  have hall : ∀ (l : List Found) (x : State × Nat), s.onlyStores x.1 → s.onlyStores (l.foldl (fun a f =>
      (memFinding 0x30 (a.1.contextAddr k a.2) f false a.1, a.2 + 1)) x).1 := by
    intro l
    induction l with
    | nil => exact fun _ hx => hx
    | cons f l ih => exact fun x hx => ih _ (memFinding_onlyStores hx _ _ f false)
  exact hall found (t, 0) h

end

end Sys2Proof.Machine
end

section
/-! PROOFS. The flow lookup: a header that is placed, one that no flow takes, and one whose context cannot be read (R56, R193 to R195,
R197, R200). -/

namespace Sys2Proof.Machine
open Sys2Proof

/-! ## A flow written -/

theorem State.setFlow_self (s : State) (k : Nat) (v : FlowSt) (h : Sparse.rises s.flows = true) :
    (s.setFlow k v).flow k = v := (State.setFlow_flow s k v k h).trans (if_pos rfl)

theorem State.setFlow_other (s : State) {k j : Nat} (v : FlowSt) (h : Sparse.rises s.flows = true) (hj : j ≠ k) :
    (s.setFlow k v).flow j = s.flow j := (State.setFlow_flow s k v j h).trans (if_neg hj)

theorem State.setFlow_rises (s : State) (k : Nat) (v : FlowSt) (h : Sparse.rises s.flows = true) :
    Sparse.rises (s.setFlow k v).flows = true := Sparse.rises_put _ _ _ _ h

/-! ## The stage and the context (R105, R106, R193) -/

/-- What the lookup places items by: queues, flows, the crossbar and the engines' counts. -/
structure ItemTables where
  queues : Sparse QueueSt
  flows : Sparse FlowSt
  xbar : List XbarItem
  engines : Sparse EngineSt

def State.itemTables (s : State) : ItemTables := ⟨s.queues, s.flows, s.xbar, s.engines⟩

/-- Of the item tables and the ports, t differs from s in the egress of port p alone. -/
structure State.AtLookup (s : State) (p : Nat) (t : State) : Prop where
  tables : t.itemTables = s.itemTables
  credit : (t.port p).credit = (s.port p).credit
  other : ∀ r, r ≠ p → t.port r = s.port r
  rises : Sparse.rises t.ports = true

namespace State.AtLookup
variable {s t u : State} {p : Nat}

theorem modEgress (h : s.AtLookup p t) (f : EgressSt → EgressSt) : s.AtLookup p (t.modEgress p f) := by
  have hread := fun r => t.modPort_port p (fun x => { x with egress := f x.egress }) r h.rises
  refine ⟨h.tables, ?_, fun r hr => ?_, Sparse.rises_put _ _ _ _ h.rises⟩
  · exact (congrArg PortSt.credit ((hread p).trans (if_pos rfl))).trans h.credit
  · exact ((hread r).trans (if_neg hr)).trans (h.other r hr)

theorem skipItem (h : s.AtLookup p t) (hdr : Line) : s.AtLookup p (skipItem p hdr t) := h.modEgress _

theorem onlyStores (h : s.AtLookup p t) (hu : t.onlyStores u) : s.AtLookup p u := by
  have hport : ∀ r, u.port r = t.port r := fun r => (congrArg (State.port · r) hu :)
  refine ⟨?_, ?_, fun r hr => (hport r).trans (h.other r hr), ?_⟩
  · exact (congrArg State.itemTables hu :).trans h.tables
  · rw [hport, h.credit]
  · exact (congrArg State.ports hu :) ▸ h.rises

theorem flow (h : s.AtLookup p t) (k : Nat) : t.flow k = s.flow k :=
  (congrArg (fun x : ItemTables => Sparse.get .dflt x.flows k) h.tables :)

theorem engine (h : s.AtLookup p t) (e : Nat) : t.engine e = s.engine e :=
  (congrArg (fun x : ItemTables => Sparse.get .dflt x.engines e) h.tables :)

end State.AtLookup

/-- The header leaves the stage, and its context is read. -/
theorem contextRead_atLookup (p : Nat) (hdr : Line) (found : List Found) {s : State} (hs : s.wf = true) :
    s.AtLookup p (contextFindings (hdrFlow hdr) found (leaveStage p hdr s)) := by
  have hstart : s.AtLookup p s := ⟨rfl, rfl, fun _ _ => rfl, s.wf_ports hs⟩
  have hleft : s.AtLookup p (leaveStage p hdr s) := by
    unfold leaveStage
    split
    · exact hstart.modEgress _
    · exact hstart
  exact hleft.onlyStores (contextFindings_onlyStores (.refl _) _ found)

/-! ## Credit (R197, R200) -/

theorem State.modCredit_port (s : State) (p : Nat) (f : CreditSt → CreditSt) (q : Nat) (h : Sparse.rises s.ports = true) :
    (s.modCredit p f).port q = if q = p then { s.port p with credit := f (s.port p).credit } else s.port q :=
  s.modPort_port p (fun x => { x with credit := f x.credit }) q h

/-- A port's credits with units charged to an index, past its allowance or not. -/
def CreditSt.charging (i n : Nat) (past : Bool) (c : CreditSt) : CreditSt :=
  { c with charged := addAt c.charged i n, overdraw := if past then sat 0xFFFF c.overdraw 1 else c.overdraw,
           overdrawTold := c.overdrawTold || past }

/-- Units are charged to an index of a port, and a warning may tell that they pass its allowance. -/
theorem chargeCredit_cases (p i n : Nat) (s : State) : ∃ past,
    chargeCredit p i n s = s.modCredit p (CreditSt.charging i n past) ∨
      chargeCredit p i n s = warn 0x0507 p [] (s.modCredit p (CreditSt.charging i n past)) := by
  unfold chargeCredit
  exact ⟨_, (ite_eq_or_eq ..).symm⟩

theorem chargeCredit_charges (p i n : Nat) (s : State) :
    ∃ past, (s.modCredit p (CreditSt.charging i n past)).onlyStores (chargeCredit p i n s) := by
  obtain ⟨past, h | h⟩ := chargeCredit_cases p i n s <;> rw [h]
  · exact ⟨past, .refl _⟩
  · exact ⟨past, .raised (.refl _)⟩

theorem chargeCredit_stands (p i n : Nat) (s : State) : s.Stands (chargeCredit p i n s) := by
  have hmod : ∀ f, s.Stands (s.modCredit p f) := fun _ => .of_parts rfl rfl rfl
  obtain ⟨past, h | h⟩ := chargeCredit_cases p i n s <;> rw [h]
  · exact hmod _
  · exact (hmod _).trans (raise_stands ..)

/-- R195: what is charged to an item that cannot be placed is freed again; the item tables stand, and what has been told. -/
theorem returnUnits_tables (p : Nat) (hdr : Line) (s : State) : (returnUnits p hdr s).itemTables = s.itemTables := by
  obtain ⟨past, hcharged⟩ := chargeCredit_charges p (2 * engineOf p + bitOf (hdrOrd hdr)) (unitsOf (hdrLen hdr)) s
  exact (congrArg State.itemTables hcharged :)

theorem returnUnits_stands (p : Nat) (hdr : Line) (s : State) : s.Stands (returnUnits p hdr s) :=
  (chargeCredit_stands p (2 * engineOf p + bitOf (hdrOrd hdr)) (unitsOf (hdrLen hdr)) s).trans (.of_parts rfl rfl rfl)

/-! ## The item is placed (R194, R197) -/

/-- The flow's counters with the item of a header. -/
def FlowSt.counting (f : FlowSt) (hdr : Line) : FlowSt :=
  { f with itemsIn := f.itemsIn + 1, wordsIn := f.wordsIn + BitVec.ofNat 64 (hdrLen hdr) }

/-- Where the units of the flow's items are charged: its engine, and its class. -/
def FlowSt.creditIndex (f : FlowSt) : Nat := 2 * queueEngine f.egQueue + bitOf f.ordinary

/-- The header as it waits in the crossbar, its class that of its flow. -/
def FlowSt.crossing (f : FlowSt) (p : Nat) (hdr : Line) (a : Bool × Bool) : XbarItem :=
  { port := p, queue := f.egQueue, hdr := setOrd f.ordinary hdr, index := f.creditIndex, isOpen := a.1, poisoned := a.2 }

theorem placeItem_places (p : Nat) (hdr : Line) (a : Bool × Bool) {s t : State} (hs : s.wf = true) (ht : s.AtLookup p t) :
    let f := s.flow (hdrFlow hdr)
    let u := placeItem p hdr a.1 a.2 t
    u.queues = s.queues ∧ u.xbar = s.xbar ++ [f.crossing p hdr a] ∧ u.flow (hdrFlow hdr) = f.counting hdr ∧
      (∀ j, j ≠ hdrFlow hdr → u.flow j = s.flow j) ∧
      (u.port p).credit.charged = addAt (s.port p).credit.charged f.creditIndex (unitsOf (hdrLen hdr)) ∧
      ∀ r, r ≠ p → u.port r = s.port r := by
  obtain ⟨hqueues, hflows, hxbar, -⟩ := (ItemTables.mk.injEq ..).mp ht.tables
  have hrises : Sparse.rises t.flows = true := hflows ▸ s.wf_flows hs
  intro f
  let w : State := { t.setFlow (hdrFlow hdr) (f.counting hdr) with xbar := t.xbar ++ [f.crossing p hdr a] }
  obtain ⟨past, hcharged⟩ := chargeCredit_charges p f.creditIndex (unitsOf (hdrLen hdr)) w
  have hplace : placeItem p hdr a.1 a.2 t = chargeCredit p f.creditIndex (unitsOf (hdrLen hdr)) w := by
    unfold placeItem
    dsimp only
    rw [ht.flow]
    rfl
  have hread := fun r => (congrArg (State.port · r) hcharged :).trans
    (w.modCredit_port p (CreditSt.charging f.creditIndex (unitsOf (hdrLen hdr)) past) r ht.rises)
  rw [hplace]
  refine ⟨?_, ?_, ?_, fun j hj => ?_, ?_, fun r hr => ?_⟩
  · exact (congrArg State.queues hcharged :).trans hqueues
  · exact (congrArg State.xbar hcharged :).trans (congrArg (· ++ _) hxbar)
  · exact (congrArg (State.flow · _) hcharged :).trans (t.setFlow_self _ _ hrises)
  · exact (congrArg (State.flow · j) hcharged :).trans ((t.setFlow_other _ hrises hj).trans (ht.flow j))
  · rw [hread, if_pos rfl]
    exact (congrArg (fun c : CreditSt => addAt c.charged f.creditIndex (unitsOf (hdrLen hdr))) ht.credit :)
  · rw [hread, if_neg hr]
    exact ht.other r hr

/-! ## The item is not placed (R195) -/

/-- An item that is not placed is told of once a frame, and its units are returned. -/
theorem returnUnits_told (p : Nat) (hdr : Line) (told : Bool) (cls : EvClass) (code : BitVec 16) (e : Nat) (s : State) :
    let u := returnUnits p hdr (if told then s else raise cls code e [] s)
    u.itemTables = s.itemTables ∧ (told = false → u.told cls code e) := by
  refine ⟨(returnUnits_tables ..).trans ?_, fun hfirst => (returnUnits_stands ..).told ?_⟩
  · have hstores : s.onlyStores (if told then s else raise cls code e [] s) := .ite (.refl _) (.raised (.refl _))
    exact (congrArg State.itemTables hstores :)
  · simp only [hfirst, Bool.false_eq_true, if_false]
    exact raise_told ..

section
variable {s t : State} {p : Nat} (hdr : Line) (hs : s.wf = true) (ht : s.AtLookup p t)
include hs ht

theorem State.AtLookup.modEngine_engine (g : EngineSt → EngineSt) (e : Nat) : (t.modEngine e g).engine e = g (s.engine e) := by
  have hengines : t.engines = s.engines := (congrArg ItemTables.engines ht.tables :)
  rw [State.modEngine_engine t e g e (hengines ▸ s.wf_engines hs), if_pos rfl, ht.engine]

/-- An engine that has counted a miss, or a context in error. -/
def EngineSt.missed (t : EngineSt) : EngineSt := { t with miss := sat 0xFFFF t.miss 1, toldMiss := true }

def EngineSt.erred (t : EngineSt) : EngineSt := { t with contextErr := sat 0xFFFF t.contextErr 1, toldContext := true }

/-- A miss counts at the port's engine, and the first of a frame is told of. -/
theorem lookupMiss_counts :
    let e := engineOf p
    let u := lookupMiss p hdr t
    u.queues = s.queues ∧ u.flows = s.flows ∧ u.xbar = s.xbar ∧ (u.engine e).miss = min 65535 ((s.engine e).miss + 1) ∧
      (u.engine e).toldMiss = true ∧ ((s.engine e).toldMiss = false → u.told .warning 0x0703 e) := by
  intro e u
  obtain ⟨htables, htold⟩ : u.itemTables = (t.modEngine e EngineSt.missed).itemTables ∧
      ((t.engine e).toldMiss = false → u.told .warning 0x0703 e) :=
    returnUnits_told p hdr (t.engine e).toldMiss .warning 0x0703 e (t.modEngine e EngineSt.missed)
  have hengine : u.engine e = (s.engine e).missed :=
    (congrArg (fun x : ItemTables => Sparse.get .dflt x.engines e) htables :).trans (ht.modEngine_engine hs _ e)
  refine ⟨(congrArg ItemTables.queues htables :).trans (congrArg ItemTables.queues ht.tables :),
    (congrArg ItemTables.flows htables :).trans (congrArg ItemTables.flows ht.tables :),
    (congrArg ItemTables.xbar htables :).trans (congrArg ItemTables.xbar ht.tables :), ?_, ?_, fun hfirst => htold ?_⟩
  · rw [hengine]; rfl
  · rw [hengine]; rfl
  · rw [ht.engine, hfirst]

/-- So does an error, whose flow is repaired as far as its context allows. -/
theorem contextError_counts (found : List Found) :
    let e := engineOf p
    let u := contextError p hdr found t
    u.queues = s.queues ∧ u.xbar = s.xbar ∧ (u.engine e).contextErr = min 65535 ((s.engine e).contextErr + 1) ∧
      (u.engine e).toldContext = true ∧ ((s.engine e).toldContext = false → u.told .alarm 0x0701 e) := by
  intro e u
  let repaired := (t.modEngine e EngineSt.erred).modFlow (hdrFlow hdr) (repairContext found)
  obtain ⟨htables, htold⟩ : u.itemTables = repaired.itemTables ∧
      ((t.engine e).toldContext = false → u.told .alarm 0x0701 e) :=
    returnUnits_told p hdr (t.engine e).toldContext .alarm 0x0701 e repaired
  have hengine : u.engine e = (s.engine e).erred :=
    (congrArg (fun x : ItemTables => Sparse.get .dflt x.engines e) htables :).trans (ht.modEngine_engine hs _ e)
  refine ⟨(congrArg ItemTables.queues htables :).trans (congrArg ItemTables.queues ht.tables :),
    (congrArg ItemTables.xbar htables :).trans (congrArg ItemTables.xbar ht.tables :), ?_, ?_, fun hfirst => htold ?_⟩
  · rw [hengine]; rfl
  · rw [hengine]; rfl
  · rw [ht.engine, hfirst]

end

/-! ## The command (R56, R194, R195) -/

/-- A command whose condition does not hold does nothing. -/
theorem run_when_not {c : Bool} (hc : c = false) (f : State → State) (s : State) : run (when c f) s = .next s := by
  subst hc
  exact run_quiet id s rfl rfl rfl

/-- Where the port produces items, the command is the lookup. -/
theorem exec_flowLookup {s : State} {p : Port} {hdr : Line} (found : List Found) (hup : s.up = true)
    (hfirst : s.standsFirst p.val hdr = true) (hprod : s.producesItems p.val = true) :
    exec (.flowLookup p hdr found) s = run (flowLookup p.val hdr found) s := by
  have hc : (s.up && s.producesItems p.val && s.standsFirst p.val hdr) = true := by rw [hup, hfirst, hprod]; rfl
  exact (run_when hc _ s).trans rfl

theorem FlowSt.takes_iff (f : FlowSt) (p : Nat) (hdr : Line) :
    f.takes p hdr = true ↔ f.valid = true ∧ f.inPort = p ∧ f.inTag = hdrTag hdr := by
  simp [takes, and_assoc]

section
variable {s : State} {p : Nat} {hdr : Line} {found : List Found} (hs : s.wf = true)
include hs

/-- What the lookup goes by is the header's flow as it stood, and what its reads found. -/
theorem flowLookup_places (hgood : found.any foundBad = false) (htakes : (s.flow (hdrFlow hdr)).takes p hdr = true) :
    flowLookup p hdr found s = placeItem p hdr (s.arrivalAt p hdr).1 (s.arrivalAt p hdr).2
      (contextFindings (hdrFlow hdr) found (leaveStage p hdr s)) := by
  unfold flowLookup
  simp only [hgood, (contextRead_atLookup p hdr found hs).flow, htakes, Bool.false_eq_true, if_false, if_true]

theorem flowLookup_misses (hgood : found.any foundBad = false) (hnot : (s.flow (hdrFlow hdr)).takes p hdr = false) :
    ∃ t, s.AtLookup p t ∧ flowLookup p hdr found s = lookupMiss p hdr t := by
  have hread := contextRead_atLookup p hdr found hs
  refine ⟨_, hread.skipItem hdr, ?_⟩
  unfold flowLookup
  simp only [hgood, hread.flow, hnot, Bool.false_eq_true, if_false]

theorem flowLookup_errs (hbad : found.any foundBad = true) :
    ∃ t, s.AtLookup p t ∧ flowLookup p hdr found s = contextError p hdr found t := by
  refine ⟨_, (contextRead_atLookup p hdr found hs).skipItem hdr, ?_⟩
  unfold flowLookup
  simp only [hbad, if_true]

end

/-- Settles O31: the lookup by what it finds of the header's flow. -/
theorem flowLookupPlaces : Obligations.FlowLookupPlaces := by
  unfold Obligations.FlowLookupPlaces
  intro s p hdr found hs hup hfirst k f e i
  refine ⟨fun hnone => run_when_not (by rw [hup, hnone]; rfl) _ s, fun hprod hgood hvalid hport htag => ?_,
    fun hprod hgood hnot => ?_, fun hprod hbad => ?_⟩ <;> rw [exec_flowLookup found hup hfirst hprod]
  · have htakes := (f.takes_iff p.val hdr).mpr ⟨hvalid, hport, htag⟩
    obtain ⟨hqueues, hxbar, hflow, hflows, hcharged, hports⟩ :=
      placeItem_places p.val hdr (s.arrivalAt p.val hdr) hs (contextRead_atLookup p.val hdr found hs)
    rw [← flowLookup_places hs hgood htakes] at hqueues hxbar hflow hflows hcharged hports
    exact ⟨_, rfl, (congrArg FlowSt.itemsIn hflow :), (congrArg FlowSt.wordsIn hflow :), hxbar, hcharged, hqueues, hflows, hports⟩
  · have hmiss : f.takes p.val hdr = false := by
      refine Bool.eq_false_iff.mpr fun htakes => ?_
      obtain ⟨hvalid, hport, htag⟩ := (f.takes_iff p.val hdr).mp htakes
      rcases hnot with hnot | hnot | hnot
      · exact absurd (hvalid.symm.trans hnot) (by decide)
      · exact hnot hport
      · exact hnot htag
    obtain ⟨t, ht, hlookup⟩ := flowLookup_misses hs hgood hmiss
    obtain ⟨hqueues, hflows, hxbar, hcount, htold, hevent⟩ := lookupMiss_counts hdr hs ht
    rw [← hlookup] at hqueues hflows hxbar hcount htold hevent
    exact ⟨_, rfl, hcount, htold, fun hnew => mirror_told _ s _ _ _ (hevent hnew), hqueues, hflows, hxbar⟩
  · obtain ⟨t, ht, hlookup⟩ := flowLookup_errs (p := p.val) (hdr := hdr) hs hbad
    obtain ⟨hqueues, hxbar, hcount, htold, hevent⟩ := contextError_counts hdr hs ht found
    rw [← hlookup] at hqueues hxbar hcount htold hevent
    exact ⟨_, rfl, hcount, htold, fun hnew => mirror_told _ s _ _ _ (hevent hnew), hqueues, hxbar⟩

end Sys2Proof.Machine
end

section
/-! PROOFS. What the queues' own work leaves of the flow table: an item admitted, dropped or poisoned, a loss marked, a queue reset
(R171 to R190, R208, R211). -/

namespace Sys2Proof.Machine
open Sys2Proof

/-! ## The flow table stands -/

/-- The flow table stands as it was, the channels are as many, and each engine has counted as many gaps. -/
structure State.KeepsFlows (s t : State) : Prop where
  flows : t.flows = s.flows
  chans : t.slips.chans.length = s.slips.chans.length
  rises : Sparse.rises s.engines = true → Sparse.rises t.engines = true
  gaps : Sparse.rises s.engines = true → ∀ e, (t.engine e).gaps = (s.engine e).gaps

namespace State.KeepsFlows
variable {s t u : State}

theorem of_parts (hf : t.flows = s.flows) (hc : t.slips.chans.length = s.slips.chans.length) (he : t.engines = s.engines) :
    s.KeepsFlows t :=
  ⟨hf, hc, fun h => he ▸ h, fun _ e => by rw [State.engine, he]; rfl⟩

theorem refl (s : State) : s.KeepsFlows s := of_parts rfl rfl rfl

theorem trans (h : s.KeepsFlows t) (g : t.KeepsFlows u) : s.KeepsFlows u :=
  ⟨g.flows.trans h.flows, g.chans.trans h.chans, fun r => g.rises (h.rises r),
    fun r e => (g.gaps (h.rises r) e).trans (h.gaps r e)⟩

theorem flow (h : s.KeepsFlows t) (k : Nat) : t.flow k = s.flow k := by
  rw [State.flow, h.flows]
  rfl

theorem foldl {α : Type} {step : State → α → State} (hstep : ∀ (t : State) a, s.KeepsFlows t → s.KeepsFlows (step t a))
    (l : List α) (h : s.KeepsFlows t) : s.KeepsFlows (l.foldl step t) := by
  induction l generalizing t with
  | nil => exact h
  | cons a l ih => exact ih (hstep t a h)

theorem ite {c : Prop} [Decidable c] (ht : s.KeepsFlows t) (hu : s.KeepsFlows u) : s.KeepsFlows (if c then t else u) := by
  split
  · exact ht
  · exact hu

theorem onlyStores (h : s.KeepsFlows t) (hu : t.onlyStores u) : s.KeepsFlows u :=
  h.trans (of_parts (congrArg State.flows hu :) (congrArg (·.slips.chans.length) hu :) (congrArg State.engines hu :))

theorem raised (h : s.KeepsFlows t) {c : EvClass} {code : BitVec 16} {sub : Nat} {d : List (Nat × Nat)} :
    s.KeepsFlows (raise c code sub d t) := h.onlyStores (.raised (.refl t))

theorem complete (h : s.KeepsFlows t) (id : SlipId) (st : BitVec 16) (d : Nat) (l : List Byte) :
    s.KeepsFlows (complete id st d l t) := by
  refine h.trans (of_parts ?_ (complete_length ..) ?_) <;> rw [complete_eq]

theorem setQueue (h : s.KeepsFlows t) (q : Nat) (d : QueueSt) : s.KeepsFlows (t.setQueue q d) := h.trans (of_parts rfl rfl rfl)

theorem modQueue (h : s.KeepsFlows t) (q : Nat) (f : QueueSt → QueueSt) : s.KeepsFlows (t.modQueue q f) := h.setQueue q _

theorem modEngine (h : s.KeepsFlows t) (e : Nat) (f : EngineSt → EngineSt)
    (hf : ∀ x, (f x).gaps = x.gaps := by intro; rfl) : s.KeepsFlows (t.modEngine e f) := by
  refine h.trans ⟨rfl, rfl, t.modEngine_rises e f, fun hr j => ?_⟩
  rw [t.modEngine_engine e f j hr]
  split
  · subst_vars; exact hf _
  · rfl

theorem freeCredit (h : s.KeepsFlows t) (c : Option (Nat × Nat × Nat)) : s.KeepsFlows (freeCredit c t) := by
  refine h.trans (of_parts ?_ ?_ ?_) <;> rw [freeCredit_eq]

end State.KeepsFlows

/-! ## A use that finds a fault (R169, R187 to R189) -/

section
variable {s t u : State} (h : s.KeepsFlows t)
include h

theorem freeStored_keepsFlows (q : Nat) : s.KeepsFlows (freeStored q t) := by
  unfold freeStored
  dsimp only
  refine State.KeepsFlows.freeCredit ?_ _
  exact State.KeepsFlows.foldl (fun _ c hu => hu.freeCredit (some c.2)) _ h

theorem countMarker_keepsFlows (e : Nat) : s.KeepsFlows (countMarker e t) := h.modEngine e _

theorem faultLog_keepsFlows (q kind : Nat) : s.KeepsFlows (faultLog q kind t) := h.modEngine (queueEngine q) _

theorem alarmed_keepsFlows (code : BitVec 16) (sub : Nat) (d : List (Nat × Nat)) : s.KeepsFlows (alarm code sub d t) := by
  unfold alarm
  exact h.raised

/-- The slips of a flush complete, and an alarm tells of its fault. -/
theorem faultTold_keepsFlows (r : List Byte) (ids : List SlipId) (code : BitVec 16) (sub : Nat) (d : List (Nat × Nat)) :
    s.KeepsFlows (alarm code sub d (ids.foldl (fun s id => complete id St.ok 0 r s) t)) :=
  alarmed_keepsFlows (State.KeepsFlows.foldl (fun _ _ hu => hu.complete ..) _ h) ..

theorem warned_keepsFlows (code : BitVec 16) (sub : Nat) (d : List (Nat × Nat)) : s.KeepsFlows (warn code sub d t) := by
  unfold warn
  exact h.raised

theorem resetQueue_keepsFlows (q kind : Nat) (rd : BitVec 17 × BitVec 17 × BitVec 17 × BitVec 17) :
    s.KeepsFlows (resetQueue q kind rd t) := by
  unfold resetQueue
  dsimp only
  refine faultTold_keepsFlows ?_ _ _ _ _ _
  refine faultLog_keepsFlows (State.KeepsFlows.modEngine ?_ _ _) _ _
  exact countMarker_keepsFlows ((freeStored_keepsFlows h q).setQueue _ _) _

theorem descFault_keepsFlows (q : Nat) : s.KeepsFlows (descFault q t) := by
  unfold descFault
  dsimp only
  refine faultTold_keepsFlows ?_ _ _ _ _ _
  exact faultLog_keepsFlows (((freeStored_keepsFlows h q).setQueue _ _).modEngine _ _) _ _

theorem useQueue_keepsFlows {q : Nat} (hu : useQueue q t = some u) : s.KeepsFlows u := by
  simp only [useQueue] at hu
  split_ifs at hu <;> rw [← Option.some.inj hu]
  · exact descFault_keepsFlows h q
  · exact resetQueue_keepsFlows h ..
  · exact resetQueue_keepsFlows h ..

/-! ## Losses (R177, R178, R190) -/

theorem markLoss_keepsFlows (q : Nat) (l : Loss) : s.KeepsFlows (markLoss q l t) := by
  unfold markLoss
  dsimp only
  split
  · next hu => exact useQueue_keepsFlows h hu
  · split
    · exact h.setQueue _ _
    · exact countMarker_keepsFlows (h.setQueue _ _) _

theorem dropItem_keepsFlows (q : Nat) (hdr : Line) (cause : Byte) (c : Option (Nat × Nat × Nat)) :
    s.KeepsFlows (dropItem q hdr cause c t) := by
  unfold dropItem
  dsimp only
  exact (markLoss_keepsFlows (h.modEngine _ _) q _).freeCredit c

theorem disabledDrop_keepsFlows (e : Nat) (told : Bool) : s.KeepsFlows (disabledDrop e told t) := by
  unfold disabledDrop
  dsimp only
  split
  · exact warned_keepsFlows (h.modEngine _ _) ..
  · exact h.modEngine _ _

/-! ## An item is admitted, or not (R171 to R178, R182, R211) -/

theorem takeHeader_keepsFlows (q : Nat) (hdr : Line) (c : Option (Nat × Nat × Nat)) : s.KeepsFlows (takeHeader q hdr c t).2 := by
  unfold takeHeader
  dsimp only
  split_ifs
  · exact dropItem_keepsFlows (warned_keepsFlows (h.modEngine _ _) ..) ..
  · exact dropItem_keepsFlows h ..
  · exact dropItem_keepsFlows (warned_keepsFlows (h.modEngine _ _) ..) ..
  · exact dropItem_keepsFlows h ..
  · exact dropItem_keepsFlows h ..
  · exact h.setQueue _ _

theorem poisonItem_keepsFlows (q : Nat) : s.KeepsFlows (poisonItem q t) := by
  unfold poisonItem
  dsimp only
  split
  · exact h.setQueue _ _
  · exact dropItem_keepsFlows (h.setQueue _ _) ..

theorem pushWord_keepsFlows (q : Nat) (w : Line) : s.KeepsFlows (pushWord q w t) := h.modQueue q _

/-- R208, R211: an item held whole goes to its queue, and the flow table stands. -/
theorem admitHeld_keepsFlows (q : Nat) (it : HeldItem) : s.KeepsFlows (admitHeld q it t) := by
  have hafter : ∀ {w : State}, s.KeepsFlows w → s.KeepsFlows (if it.complete then w else
      w.modQueue q fun d => { d with dropping := true, arriving := none }) := fun hw => hw.ite (hw.modQueue _ _)
  unfold admitHeld
  split
  · exact h
  · next hdr rest _ =>
    dsimp only
    split
    · exact hafter ((disabledDrop_keepsFlows h _ true).freeCredit _)
    · split
      · next hu => exact hafter ((useQueue_keepsFlows h hu).freeCredit _)
      · have htaken := takeHeader_keepsFlows h q hdr it.charge
        have hpushed : s.KeepsFlows (rest.foldl (fun s w => pushWord q w s) (takeHeader q hdr it.charge t).2) :=
          State.KeepsFlows.foldl (fun _ w hu => pushWord_keepsFlows hu q w) rest htaken
        split
        · split_ifs
          · exact hpushed.modQueue _ _
          · exact poisonItem_keepsFlows hpushed q
          · exact hpushed.modQueue _ _
        · exact hafter htaken

end

end Sys2Proof.Machine
end

section
/-! PROOFS. The delay lines: the head of a line that leaves, and the reset of a line (R208, R209). -/

namespace Sys2Proof.Machine
open Sys2Proof

/-! ## The flows by their number -/

/-- The flows of t are those of F. -/
structure State.HasFlows (t : State) (F : Nat → FlowSt) : Prop where
  rises : Sparse.rises t.flows = true
  flow : ∀ k, t.flow k = F k

namespace State.HasFlows
variable {s t u : State} {F : Nat → FlowSt}

theorem of_wf (hs : s.wf = true) : s.HasFlows s.flow := ⟨s.wf_flows hs, fun _ => rfl⟩

theorem keeps (h : t.HasFlows F) (g : t.KeepsFlows u) : u.HasFlows F :=
  ⟨g.flows ▸ h.rises, fun k => (g.flow k).trans (h.flow k)⟩

theorem setFlow (h : t.HasFlows F) (k : Nat) (v : FlowSt) : (t.setFlow k v).HasFlows (Function.update F k v) := by
  refine ⟨t.setFlow_rises k v h.rises, fun j => ?_⟩
  rw [t.setFlow_flow k v j h.rises, Function.update_apply, h.flow]

theorem modFlow (h : t.HasFlows F) (k : Nat) (g : FlowSt → FlowSt) : (t.modFlow k g).HasFlows (Function.update F k (g (F k))) := by
  rw [← h.flow k]
  exact h.setFlow k _

end State.HasFlows

/-- A value that the new entry shares with the old one is the same at every place. -/
theorem update_keeps {β : Type} (π : FlowSt → β) {F : Nat → FlowSt} {k : Nat} {v : FlowSt} (h : π v = π (F k)) (j : Nat) :
    π (Function.update F k v j) = π (F j) := by
  rw [Function.update_apply]
  split
  · next hj => rw [h, hj]
  · rfl

/-! ## The words of a line in the side store (R208, R209) -/

theorem dlStore_onlyStores {s t : State} (h : s.onlyStores t) (f : FlowSt) (p : Nat) (w : Line) : s.onlyStores (dlStore f p w t) := by
  unfold dlStore
  exact storeBlock_onlyStores (walkPage_onlyStores h _ _) ..

theorem dlReads_onlyStores (f : FlowSt) (n p : Nat) (found : List Found) (s : State) : s.onlyStores (dlReads f n p found s).2 := by
  have hall : ∀ (l : List Nat) (x : List Bool × State), s.onlyStores x.2 → s.onlyStores (l.foldl (fun (a : List Bool × State) i =>
      let r := dlRead f (f.dlAddr (p + i)) (found.getD i .clean) a.2
      (a.1 ++ [r.1], r.2)) x).2 := by
    intro l
    induction l with
    | nil => exact fun _ hx => hx
    | cons i l ih => exact fun x hx => ih _ (readBlock_onlyStores hx ..)
  exact hall _ ([], s) (.refl s)

/-! ## A reset (R188, R208) -/

/-- The reset marker is alone in the line, and the alarm tells of it. -/
theorem dlReset_resets (k : Nat) {s : State} {F : Nat → FlowSt} (hs : s.HasFlows F) :
    (dlReset k s).told .alarm 0x0702 k ∧ ((dlReset k s).flow k).dl.length = 1 ∧ ((dlReset k s).flow k).dlRptr = 0 ∧
      ((dlReset k s).flow k).dlWptr = 1 := by
  have hfreed : s.KeepsFlows ((s.flow k).dl.foldl (fun s i => freeCredit i.charge s) s) :=
    State.KeepsFlows.foldl (fun _ i hu => hu.freeCredit i.charge) _ (.refl s)
  unfold dlReset
  dsimp only
  refine ⟨raise_told .., ?_⟩
  rw [(State.HasFlows.keeps ((hs.keeps hfreed).setFlow k _) (alarmed_keepsFlows (State.KeepsFlows.onlyStores
    (countMarker_keepsFlows (State.KeepsFlows.modEngine (.refl _) _ _) _) (dlStore_onlyStores (.refl _) ..)) ..)).flow k,
    Function.update_self]
  exact ⟨rfl, rfl, rfl⟩

/-! ## The head leaves (R209) -/

/-- The line's head gone. -/
def FlowSt.leaving (f : FlowSt) (it : HeldItem) (rest : List HeldItem) : FlowSt :=
  { dlPop it.words.length f with dl := rest, dlTail := f.dlTail && !rest.isEmpty }

/-- The line's state after the item's words were read and it left. -/
def State.left (s : State) (k : Nat) (it : HeldItem) (rest : List HeldItem) : State :=
  (dlReads (s.flow k) it.words.length (s.flow k).dlRptr.toNat [] s).2.modFlow k fun f => f.leaving it rest

theorem left_hasFlows {s : State} {F : Nat → FlowSt} (hs : s.HasFlows F) (k : Nat) (it : HeldItem) (rest : List HeldItem) :
    (s.left k it rest).HasFlows (Function.update F k ((F k).leaving it rest)) :=
  (hs.keeps ((State.KeepsFlows.refl s).onlyStores (dlReads_onlyStores ..))).modFlow k _

theorem left_frame (s : State) (k : Nat) (it : HeldItem) (rest : List HeldItem) : (s.left k it rest).frame = s.frame :=
  (congrArg State.frame (dlReads_onlyStores (s.flow k) it.words.length (s.flow k).dlRptr.toNat [] s) :)

section
variable {s : State} {k : Nat} {it : HeldItem} {rest : List HeldItem}

/-- A use finds the copies of both pointers as they should be. -/
theorem useLine_agrees (hw : (s.flow k).dlWptrSh = (s.flow k).dlWptr) (hr : (s.flow k).dlRptrSh = (s.flow k).dlRptr) :
    useLine k s = none := by
  simp [useLine, hw, hr]

/-- A use finds a read pointer whose copies differ, and the line is reset. -/
theorem useLine_differs (hr : (s.flow k).dlRptrSh ≠ (s.flow k).dlRptr) : useLine k s = some (dlReset k s) := by
  simp [useLine, hr]

variable (hdl : (s.flow k).dl = it :: rest) (hrel : s.releasable (s.flow k) it = true)
include hdl hrel

theorem delayRelease_resets (hu : useLine k s = some (dlReset k s)) : delayRelease k [] s = dlReset k s := by
  simp only [delayRelease, hdl, hrel, hu, Bool.not_true, Bool.false_eq_true, if_false]

/-- Read whole, the item goes on. -/
theorem delayRelease_whole (hu : useLine k s = none)
    (hgood : (dlReads (s.flow k) it.words.length (s.flow k).dlRptr.toNat [] s).1.all id = true) :
    delayRelease k [] s = goOn k it (s.left k it rest) := by
  simp only [delayRelease, hdl, hrel, hu, hgood, Bool.not_true, Bool.false_eq_true, if_false, List.head?_nil, if_true]
  rfl

/-- The item goes on, or a marker in its place. -/
theorem delayRelease_goesOn (hu : useLine k s = none) :
    ∃ x t, (s.left k it rest).KeepsFlows t ∧ delayRelease k [] s = goOn k x t := by
  cases hgood : (dlReads (s.flow k) it.words.length (s.flow k).dlRptr.toNat [] s).1.all id
  case true => exact ⟨it, _, .refl _, delayRelease_whole hdl hrel hu hgood⟩
  case false =>
    let e := queueEngine (s.flow k).egQueue
    let w := countMarker e ((s.left k it rest).modEngine e fun t => { t with dlStorage := sat 0xFFFF t.dlStorage 1 })
    refine ⟨storageMarker w it, freeCredit it.charge w,
      (countMarker_keepsFlows (State.KeepsFlows.modEngine (.refl _) _ _) _).freeCredit _, ?_⟩
    simp only [delayRelease, hdl, hrel, hu, hgood, Bool.not_true, Bool.false_eq_true, if_false, List.head?_nil]
    rfl

end

/-- R209, R211: a paired flow's item becomes a head of the merge. -/
theorem delayRelease_toMerge {s : State} {k : Nat} {it : HeldItem} {rest : List HeldItem} (hs : s.wf = true)
    (hdl : (s.flow k).dl = it :: rest) (hrel : s.releasable (s.flow k) it = true) (hu : useLine k s = none)
    (hgood : (dlReads (s.flow k) it.words.length (s.flow k).dlRptr.toNat [] s).1.all id = true) (hp : (s.flow k).paired = true) :
    ∃ q : Nat, (delayRelease k [] s).flow k = { (s.flow k).leaving it rest with
      heads := (s.flow k).heads ++ [{ it with release := s.frame.time }], quiet := q } := by
  have hleft := left_hasFlows (.of_wf hs) k it rest
  have hpaired : ((s.left k it rest).flow k).paired = true := by
    rw [hleft.flow, Function.update_self]
    exact hp
  rw [delayRelease_whole hdl hrel hu hgood, goOn, if_pos hpaired, addHead]
  dsimp only
  rw [((hleft.modFlow k _).modFlow _ _).flow, left_frame, Function.update_self, Function.update_apply]
  split
  · next hk => exact ⟨0, by rw [← hk, Function.update_self]; rfl⟩
  · exact ⟨((s.flow k).leaving it rest).quiet, by rw [Function.update_self]; rfl⟩

/-- R209: an unpaired flow's item goes to its queue. -/
theorem delayRelease_toQueue {s : State} {k : Nat} {it : HeldItem} {rest : List HeldItem} (hs : s.wf = true)
    (hdl : (s.flow k).dl = it :: rest) (hrel : s.releasable (s.flow k) it = true) (hu : useLine k s = none)
    (hp : (s.flow k).paired = false) :
    (delayRelease k [] s).HasFlows (Function.update s.flow k ((s.flow k).leaving it rest)) := by
  have hleft := left_hasFlows (.of_wf hs) k it rest
  obtain ⟨x, t, ht, hx⟩ := delayRelease_goesOn hdl hrel hu
  have hpaired : (t.flow k).paired = false := by
    rw [ht.flow, hleft.flow, Function.update_self]
    exact hp
  rw [hx, goOn, if_neg (by rw [hpaired]; decide)]
  exact hleft.keeps (admitHeld_keepsFlows ht _ _)

/-- R208, R209: a struck copy of the read pointer resets the line. -/
theorem struckRelease_resets {s : State} {k : Nat} {it : HeldItem} {rest : List HeldItem} {flip : BitVec 17} (hs : s.wf = true)
    (hdl : (s.flow k).dl = it :: rest) (hrel : s.releasable (s.flow k) it = true) (hflip : flip ≠ 0)
    (hr : (s.flow k).dlRptrSh = (s.flow k).dlRptr) :
    delayRelease k [] (strikeLine k (.readPtr flip) s) = dlReset k (strikeLine k (.readPtr flip) s) := by
  have hflow : (strikeLine k (.readPtr flip) s).flow k =
      { s.flow k with dlRptrSh := (s.flow k).dlRptr ^^^ flip.zeroExtend 28 } := by
    show (s.modFlow k _).flow k = _
    rw [((State.HasFlows.of_wf hs).modFlow k _).flow, Function.update_self, hr]
  have hdiff : (s.flow k).dlRptr ^^^ flip.zeroExtend 28 ≠ (s.flow k).dlRptr := by
    intro he
    have hzero : flip.zeroExtend 28 = 0 := by simpa using congrArg ((s.flow k).dlRptr ^^^ ·) he
    exact hflip (by bv_omega)
  have hrel' : (strikeLine k (.readPtr flip) s).releasable ((strikeLine k (.readPtr flip) s).flow k) it = true := by
    rw [hflow]
    exact hrel
  exact delayRelease_resets (by rw [hflow]; exact hdl) hrel' (useLine_differs (by rw [hflow]; exact hdiff))

end Sys2Proof.Machine
end

section
/-! PROOFS. The merge of a protected pair: the item that is next, the duplicate, the wait and the gap (R211, R212, R213). -/

namespace Sys2Proof.Machine
open Sys2Proof

/-! ## A head of the merge that is an item -/

/-- The head is an item as its flow sent it: no marker and no poisoned item. -/
def HeldItem.plain (it : HeldItem) : Prop := it.marker = false ∧ hdrKind (it.words.headD 0) ≠ 1 ∧ it.poisoned = false

section
variable {s : State} {lo j : Nat} {it : HeldItem} (hplain : it.plain) (hset : (s.flow lo).mergeSet = true)
include hplain hset

/-- R211, rule 1: the item that is next goes to its queue. -/
theorem mergeHead_next (hnext : it.seq = (s.flow lo).mergeNext) (hmid : (s.queue (s.flow lo).egQueue).prodMid = false)
    (hdisc : (s.queue (s.flow lo).egQueue).discarding = false) (hflush : (s.queue (s.flow lo).egQueue).flush = false) :
    mergeHead lo j it s = some (admitHeld (s.flow lo).egQueue it (dropHead j (s.setFlow lo { s.flow lo with
      mergeNext := ((s.flow lo).mergeNext + 1) % 65536, waiting := false }))) := by
  obtain ⟨hmarker, hkind, hpois⟩ := hplain
  simp only [mergeHead, hmarker, hkind, hpois, if_pos hset, if_pos hnext, hmid, hdisc, hflush, decide_false, Bool.or_self,
    Bool.false_eq_true, if_false]

/-- R211, rule 2: an item that the merge has passed is discarded. -/
theorem mergeHead_passed (hnext : it.seq ≠ (s.flow lo).mergeNext) (hone : 1 ≤ seqDist (s.flow lo).mergeNext it.seq)
    (hhalf : seqDist (s.flow lo).mergeNext it.seq ≤ 32768) (hwhole : it.complete = true) :
    mergeHead lo j it s = some (((freeCredit it.charge (dropHead j (s.setFlow lo { s.flow lo with waiting := false }))).modFlow j
      fun f => { f with duplicates := f.duplicates + 1 }).modEngine (queueEngine (s.flow lo).egQueue)
        fun t => { t with duplicates := sat 0xFFFF t.duplicates 1 }) := by
  obtain ⟨hmarker, hkind, hpois⟩ := hplain
  simp only [mergeHead, discardHead, hmarker, hkind, hpois, if_pos hset, if_neg hnext, hone, hhalf, hwhole, decide_false,
    decide_true, Bool.or_self, Bool.and_self, Bool.false_eq_true, if_false, if_true]

/-- An item that is ahead stays where it is. -/
theorem mergeHead_ahead (hnext : it.seq ≠ (s.flow lo).mergeNext) (hhalf : 32768 < seqDist (s.flow lo).mergeNext it.seq) :
    mergeHead lo j it s = none := by
  obtain ⟨hmarker, hkind, hpois⟩ := hplain
  simp only [mergeHead, hmarker, hkind, hpois, if_pos hset, if_neg hnext, Nat.not_le.mpr hhalf, decide_false, Bool.or_self,
    Bool.and_false, Bool.false_eq_true, if_false]

end

/-! ## What a step writes in the flow table -/

theorem State.modFlow_engine (s : State) (k : Nat) (g : FlowSt → FlowSt) (e : Nat) : (s.modFlow k g).engine e = s.engine e := rfl

/-- R212: the loss is marked, then the gap is counted at the engine and in the pair's state. -/
theorem declareGap_marks (lo low : Nat) (s : State) :
    ∃ x, s.KeepsFlows x ∧ declareGap lo low s =
      (x.modEngine (queueEngine (s.flow lo).egQueue) fun t => { t with gaps := sat 255 t.gaps 1 }).modFlow lo fun f =>
        { f with mergeCause := 0, mergeNext := low, waiting := false, gaps := f.gaps + 1 } :=
  ⟨_, .ite (markLoss_keepsFlows (.refl s) _ _) (.refl s), rfl⟩

section
variable {s : State} {lo j : Nat} {it : HeldItem} (hs : s.wf = true)
include hs

theorem mergeNext_flows (q n : Nat) :
    let t := admitHeld q it (dropHead j (s.setFlow lo { s.flow lo with mergeNext := n, waiting := false }))
    (t.flow lo).mergeNext = n ∧ (t.flow lo).waiting = false ∧ (t.flow j).heads = (s.flow j).heads.drop 1 := by
  intro t
  have ht : t.HasFlows _ := (((State.HasFlows.of_wf hs).setFlow lo { s.flow lo with mergeNext := n, waiting := false }).modFlow j
    fun f => { f with heads := f.heads.drop 1 }).keeps (admitHeld_keepsFlows (.refl _) q it)
  refine ⟨?_, ?_, ?_⟩ <;> rw [ht.flow]
  · rw [update_keeps FlowSt.mergeNext (by rfl), Function.update_self]
  · rw [update_keeps FlowSt.waiting (by rfl), Function.update_self]
  · rw [Function.update_self, update_keeps FlowSt.heads (by rfl)]

theorem mergePassed_flows (q : Nat) :
    let t := ((freeCredit it.charge (dropHead j (s.setFlow lo { s.flow lo with waiting := false }))).modFlow j
      fun f => { f with duplicates := f.duplicates + 1 }).modEngine q fun t => { t with duplicates := sat 0xFFFF t.duplicates 1 }
    (t.flow j).duplicates = (s.flow j).duplicates + 1 ∧ (t.flow j).heads = (s.flow j).heads.drop 1 ∧
      (t.flow lo).mergeNext = (s.flow lo).mergeNext ∧ t.queues = s.queues := by
  intro t
  have hgone := (((State.HasFlows.of_wf hs).setFlow lo { s.flow lo with waiting := false }).modFlow j
    fun f => { f with heads := f.heads.drop 1 }).keeps (State.KeepsFlows.freeCredit (.refl _) it.charge)
  have ht : t.HasFlows _ := (hgone.modFlow j fun f => { f with duplicates := f.duplicates + 1 }).keeps
    (State.KeepsFlows.modEngine (.refl _) q fun t => { t with duplicates := sat 0xFFFF t.duplicates 1 })
  refine ⟨?_, ?_, ?_, freeCredit_queues ..⟩ <;> rw [ht.flow]
  · rw [Function.update_self]
    dsimp only
    rw [update_keeps FlowSt.duplicates (by rfl), update_keeps FlowSt.duplicates (by rfl)]
  · rw [update_keeps FlowSt.heads (by rfl), Function.update_self, update_keeps FlowSt.heads (by rfl)]
  · rw [update_keeps FlowSt.mergeNext (by rfl), update_keeps FlowSt.mergeNext (by rfl), update_keeps FlowSt.mergeNext (by rfl)]

/-- R212: the wait for the other member begins. -/
theorem beginWait_flows (hnext : it.seq ≠ (s.flow lo).mergeNext) (hwait : (s.flow lo).waiting = false) :
    let t := beginWait lo it s
    (t.flow lo).waiting = true ∧ (t.flow lo).waitStart = w32 it.release ∧ (t.flow j).heads = (s.flow j).heads ∧
      (t.flow lo).mergeNext = (s.flow lo).mergeNext ∧ t.queues = s.queues := by
  intro t
  have hbegun : t = s.modFlow lo fun f => { f with waiting := true, waitStart := w32 it.release } := by
    simp [t, beginWait, hnext, hwait]
  have ht : t.HasFlows _ := hbegun ▸ (State.HasFlows.of_wf hs).modFlow lo fun f =>
    { f with waiting := true, waitStart := w32 it.release }
  refine ⟨?_, ?_, ?_, ?_, by rw [hbegun]; rfl⟩ <;> rw [ht.flow]
  · rw [Function.update_self]
  · rw [Function.update_self]
  · rw [update_keeps FlowSt.heads (by rfl)]
  · rw [update_keeps FlowSt.mergeNext (by rfl)]

/-- R212: the gap is declared, and the engine counts it. -/
theorem declareGap_flows (low : Nat) :
    let t := declareGap lo low s
    t.flow lo = { s.flow lo with mergeCause := 0, mergeNext := low, waiting := false, gaps := (s.flow lo).gaps + 1 } ∧
      (t.engine (queueEngine (s.flow lo).egQueue)).gaps =
        min 255 ((s.engine (queueEngine (s.flow lo).egQueue)).gaps + 1) := by
  intro t
  obtain ⟨x, hx, hdeclared⟩ := declareGap_marks lo low s
  have hcounted : (x.modEngine (queueEngine (s.flow lo).egQueue) fun t => { t with gaps := sat 255 t.gaps 1 }).HasFlows s.flow :=
    ⟨((State.HasFlows.of_wf hs).keeps hx).rises, hx.flow⟩
  constructor
  · rw [show t = _ from hdeclared, (hcounted.modFlow lo _).flow, Function.update_self]
  · rw [show t = _ from hdeclared, State.modFlow_engine, State.modEngine_engine _ _ _ _ (hx.rises (s.wf_engines hs)), if_pos rfl]
    exact congrArg (sat 255 · 1) (hx.gaps (s.wf_engines hs) _)

end

/-! ## A step of the merge, by its heads -/

section
variable {s : State} {k lo hi : Nat} (hp : (s.flow k).paired = true) (hlo : s.mergeOf k = lo) (hhi : (s.flow lo).twin = hi)
include hp hlo hhi

/-- With one head to be judged, the step is that head's, or the wait for the other begins. -/
theorem mergeStep_alone {j o : Nat} {it : HeldItem} (hjo : (j = lo ∧ o = hi) ∨ (j = hi ∧ o = lo))
    (hj : s.judged j = some it) (ho : s.judged o = none) :
    mergeStep k s = (mergeHead lo j it s).getD (beginWait lo it s) := by
  unfold mergeStep State.mergeOrder
  cases hhead : mergeHead lo j it s <;> obtain ⟨rfl, rfl⟩ | ⟨rfl, rfl⟩ := hjo <;> simp [hp, hlo, hhi, hj, ho, hhead]

/-- With both heads ahead, the gap up to the lower is declared. -/
theorem mergeStep_gap {a b : HeldItem} (ha : s.judged lo = some a) (hb : s.judged hi = some b)
    (hset : (s.flow lo).mergeSet = true) (hpa : a.plain) (hpb : b.plain)
    (hna : a.seq ≠ (s.flow lo).mergeNext) (hnb : b.seq ≠ (s.flow lo).mergeNext)
    (hha : 32768 < seqDist (s.flow lo).mergeNext a.seq) (hhb : 32768 < seqDist (s.flow lo).mergeNext b.seq) :
    mergeStep k s = declareGap lo (if seqDist a.seq (s.flow lo).mergeNext ≤ seqDist b.seq (s.flow lo).mergeNext then a.seq
      else b.seq) s := by
  have hnone : (s.mergeOrder lo hi).findSome? (fun j => (s.judged j).bind fun it => mergeHead lo j it s) = none := by
    unfold State.mergeOrder
    simp only [ha, hb]
    split <;> simp [ha, hb, mergeHead_ahead hpa hset hna hha, mergeHead_ahead hpb hset hnb hhb]
  unfold mergeStep
  simp [hp, hlo, hhi, hnone, ha, hb, hna, hnb]

/-- R212: the wait is over, and the gap up to the one head there is declared. -/
theorem mergeTimeout_alone {j o : Nat} {it : HeldItem} (hjo : (j = lo ∧ o = hi) ∨ (j = hi ∧ o = lo))
    (hj : s.judged j = some it) (ho : s.judged o = none) (hover : s.waitOver lo = true) :
    mergeTimeout k s = declareGap lo it.seq s := by
  unfold mergeTimeout
  obtain ⟨rfl, rfl⟩ | ⟨rfl, rfl⟩ := hjo <;> simp only [hp, hlo, hhi, hj, ho, hover, Bool.and_self, if_true]

end

/-- R213: a pair quiet for 8,000 frames takes its number anew. -/
theorem exec_mergeAutoResync {s : State} {fl : Flow} (hp : (s.flow fl.val).paired = true)
    (hquiet : 8000 ≤ (s.flow (s.mergeOf fl.val)).quiet) :
    exec (.mergeAutoResync fl) s = .next (mirror s (resync (s.mergeOf fl.val) s)) := by
  refine (run_when (f := resync (s.mergeOf fl.val)) (by simp [hp, hquiet]) s).trans ?_
  rw [inOneCycle_same _ s rfl]

theorem resync_hasFlows {t : State} {F : Nat → FlowSt} (ht : t.HasFlows F) (lo : Nat) : (resync lo t).HasFlows
    (Function.update F lo { F lo with mergeSet := false, waiting := false }) := ht.modFlow lo _

/-! ## The obligation -/

/-- The flows, queues and engines that a command leaves are those of the state that its function makes, and its events are told. -/
theorem run_flows {f : State → State} {s t : State} (h : f s = t) :
    ∃ u, run f s = .next u ∧ (∀ k, u.flow k = t.flow k) ∧ u.queues = t.queues ∧
      (∀ e, u.engine e = t.engine e) ∧ ∀ c code sub, t.told c code sub → u.told c code sub := by
  subst h
  exact ⟨_, rfl, fun _ => rfl, rfl, fun _ => rfl, mirror_told f s⟩

/-- Settles O34: the line by what a use and its reads find, the merge by which heads it may judge and where they stand. -/
theorem delayAndMerge : Obligations.DelayAndMerge := by
  unfold Obligations.DelayAndMerge
  intro s fl hs k f lo m hi
  refine ⟨fun it rest hdl hrel hw hr => ⟨fun hp hgood => ?_, fun hp => ?_⟩, fun it rest flip hdl hrel hflip hr _ => ?_,
    fun hp _ _ => ⟨fun j o it hjo hj ho => ⟨fun hmarker hkind hpois hset => ?_, fun hover => ?_⟩, fun a b ha hb hset hall => ?_,
      fun hquiet => ?_⟩⟩
  · obtain ⟨q, hq⟩ := delayRelease_toMerge hs hdl hrel (useLine_agrees hw hr) hgood hp
    obtain ⟨t, ht, hflow, -⟩ := run_flows (f := fun s => delayRelease k [] s) (s := s) rfl
    exact ⟨t, ht, by rw [hflow, hq]; rfl, by rw [hflow, hq]; rfl, by rw [hflow, hq]⟩
  · have hline := delayRelease_toQueue hs hdl hrel (useLine_agrees hw hr) hp
    obtain ⟨t, ht, hflow, -⟩ := run_flows (f := fun s => delayRelease k [] s) (s := s) rfl
    have hk := (hflow k).trans ((hline.flow k).trans (Function.update_self ..))
    exact ⟨t, ht, congrArg FlowSt.dl hk, congrArg FlowSt.dlRptr hk,
      fun j hj => (hflow j).trans ((hline.flow j).trans (Function.update_of_ne hj ..))⟩
  · obtain ⟨htold, hline⟩ := dlReset_resets k ((State.HasFlows.of_wf hs).modFlow k fun f =>
      { f with dlRptrSh := f.dlRptrSh ^^^ flip.zeroExtend 28 })
    obtain ⟨t, ht, hflow, -, -, hkept⟩ := run_flows (f := fun s => delayRelease k [] (strikeLine k (.readPtr flip) s))
      (struckRelease_resets hs hdl hrel hflip hr)
    refine ⟨t, ht, hkept _ _ _ htold, ?_⟩
    rw [hflow]
    exact hline
  · have hplain : it.plain := ⟨hmarker, hkind, hpois⟩
    have hstep := mergeStep_alone hp rfl rfl hjo hj ho
    refine ⟨fun hnext hmid hdisc hflush => ?_, fun hnext hone hhalf hwhole => ?_, fun hnext hhalf hwait => ?_⟩
    · rw [mergeHead_next hplain hset hnext hmid hdisc hflush] at hstep
      obtain ⟨t, ht, hflow, -⟩ := run_flows hstep
      refine ⟨t, ht, ?_⟩
      simp only [hflow]
      exact mergeNext_flows hs ..
    · rw [mergeHead_passed hplain hset hnext hone hhalf hwhole] at hstep
      obtain ⟨t, ht, hflow, hqueues, -⟩ := run_flows hstep
      refine ⟨t, ht, ?_⟩
      simp only [hflow, hqueues]
      exact mergePassed_flows hs _
    · rw [mergeHead_ahead hplain hset hnext hhalf] at hstep
      obtain ⟨t, ht, hflow, hqueues, -⟩ := run_flows hstep
      refine ⟨t, ht, ?_⟩
      simp only [hflow, hqueues]
      exact beginWait_flows hs hnext hwait
  · obtain ⟨t, ht, hflow, -, hengine, -⟩ := run_flows (mergeTimeout_alone hp rfl rfl hjo hj ho hover)
    obtain ⟨hlow, hgaps⟩ := declareGap_flows (lo := lo) hs it.seq
    refine ⟨t, ht, ?_⟩
    rw [hflow, hengine, hlow]
    exact ⟨rfl, rfl, rfl, rfl, hgaps⟩
  · obtain ⟨hma, hka, hpa, hna, haa⟩ := hall a (by simp)
    obtain ⟨hmb, hkb, hpb, hnb, hab⟩ := hall b (by simp)
    obtain ⟨t, ht, hflow, -⟩ :=
      run_flows (mergeStep_gap hp rfl rfl ha hb hset ⟨hma, hka, hpa⟩ ⟨hmb, hkb, hpb⟩ hna hnb haa hab)
    refine ⟨t, ht, ?_⟩
    rw [hflow, (declareGap_flows (lo := lo) hs _).1]
    exact ⟨rfl, rfl, rfl⟩
  · have ht := resync_hasFlows (.of_wf hs) lo
    exact ⟨_, exec_mergeAutoResync hp hquiet, (ht.flow lo).trans (Function.update_self ..),
      fun j hj => (ht.flow j).trans (Function.update_of_ne hj ..), rfl⟩

end Sys2Proof.Machine
end

section
/-! PROOFS. The slips of a flow: FLOW_SET writes one or takes it out, PAIR_SET joins two, splits them or sets them anew, and
FLOW_COUNT_CLEAR clears counters (R193, R196, R197, R210, R213, R390, R443). -/

namespace Sys2Proof.Machine
open Sys2Proof

/-! ## A slip that writes the flow table -/

theorem begun_hasFlows {s : State} (hs : s.wf = true) (op : BitVec 16) (h : SlipHdr) (p : List Byte) :
    (s.begun op h p).HasFlows s.flow := by
  obtain ⟨x, g, n, hB⟩ := begun_reads s op h p
  rw [hB]
  exact ⟨s.wf_flows hs, fun _ => rfl⟩

/-- A slip whose body commits v is answered OK, and the tables are as v has them. -/
theorem slip_flows {op : BitVec 16} {h : SlipHdr} {p : List Byte} {body : State → SlipOut} {s v : State} {F : Nat → FlowSt}
    (ht : s.takes op .ordinary h p) (hb : body (s.begun op h p) = okSlip v)
    (hl : v.slips.chans.length = (s.begun op h p).slips.chans.length) (hv : v.HasFlows F) :
    ∃ t, slip op .ordinary h p (fun _ s => body s) s = .next t ∧ t.answered op h St.ok [] ∧ (∀ k, t.flow k = F k) ∧
      t.queues = v.queues ∧ t.ports = v.ports := by
  obtain ⟨t, he, ha, -, hu⟩ := slip_ok (body := fun _ s => body s) ht hb rfl (hl.trans (begun_length s op h p))
  exact ⟨t, he, ha, fun k => (congrArg (State.flow · k) hu :).trans (hv.flow k), (congrArg State.queues hu :),
    (congrArg State.ports hu :)⟩

/-- An entry of the table that is written twice the same is written once. -/
theorem foldl_modFlow_flows {g : FlowSt → FlowSt} (hg : ∀ f, g (g f) = g f) (ks : List Nat) {t : State} {F : Nat → FlowSt}
    (ht : t.HasFlows F) :
    (ks.foldl (fun s k => s.modFlow k g) t).HasFlows fun k => if k ∈ ks then g (F k) else F k := by
  induction ks generalizing t F with
  | nil => simpa using ht
  | cons k ks ih =>
    have hrest := ih (ht.modFlow k g)
    refine ⟨hrest.rises, fun j => (hrest.flow j).trans ?_⟩
    by_cases hjk : j = k
    · subst hjk
      rw [Function.update_self, if_pos (List.mem_cons_self ..), hg, ite_self]
    · rw [Function.update_of_ne hjk]
      simp only [List.mem_cons, hjk, false_or]

theorem foldl_modFlow_slips (g : FlowSt → FlowSt) (ks : List Nat) (s : State) :
    (ks.foldl (fun s k => s.modFlow k g) s).slips = s.slips :=
  foldl_keeps State.slips (fun s k => s.modFlow k g) (fun _ _ => rfl) ks s

/-! ## FLOW_SET (R193, R196, R208, R390) -/

/-- The fields of FLOW_SET are in their ranges. -/
def flowSetFields (p : List Byte) : Prop :=
  fields [⟨16, 2, true⟩, ⟨20, 1, arg p 20 1 < 8⟩, ⟨21, 1, arg p 21 1 < 144⟩, ⟨22, 1, true⟩, ⟨23, 1, arg p 23 1 < 144⟩,
    ⟨24, 2, arg p 24 2 < 16384⟩, ⟨26, 2, arg p 26 2 == 0⟩, ⟨28, 4, arg p 28 4 ≤ 256000000⟩, ⟨32, 2, true⟩,
    ⟨36, 4, arg p 36 4 < 2 ^ 23⟩,
    ⟨40, 4, arg p 40 4 ≤ 1048576 && (!(arg p 20 1).testBit 2 || 1 ≤ arg p 40 4)⟩] p = .ok ()

/-- The settings that FLOW_SET gives a flow. -/
def FlowSt.setTo (p : List Byte) (f : FlowSt) : FlowSt :=
  { f with
    valid := (arg p 20 1).testBit 0, ordinary := (arg p 20 1).testBit 1, delayEn := (arg p 20 1).testBit 2, paired := false
    twin := 0, inPort := arg p 21 1, inTag := arg p 22 1, egPort := arg p 23 1, egQueue := arg p 24 2, delay := arg p 28 4
    mergeWait := arg p 32 2, dlBase := arg p 36 4, dlPages := arg p 40 4 }

/-- The volumes that the delay line's pages touch. -/
def lineVolumes (p : List Byte) : List Nat := volumesOf (arg p 36 4) (arg p 40 4)

/-- The checks of a slip that puts a flow in service. -/
structure State.flowSetMeets (s : State) (p : List Byte) : Prop where
  valid : (arg p 20 1).testBit 0 = true
  free : (s.flow (arg p 16 2)).valid = false
  tag : s.ingressTag (arg p 21 1) = some (arg p 22 1)
  engine : queueEngine (arg p 24 2) = engineOf (arg p 23 1)
  enabled : (s.queue (arg p 24 2)).enable = true
  scheduled : ∃ c ∈ (if (arg p 20 1).testBit 1 then (s.port (arg p 23 1)).egress.ord else (s.port (arg p 23 1)).egress.prot),
    c.queue = arg p 24 2
  guarded : (arg p 20 1).testBit 1 = false → s.protectedPort (arg p 21 1) = true ∧ s.protectedPort (arg p 23 1) = true
  delayed : (arg p 20 1).testBit 2 = true → arg p 28 4 ≠ 0 ∧
    s.delayFits (arg p 21 1) (arg p 28 4) (arg p 36 4) (arg p 40 4) = true ∧
    ∀ v ∈ lineVolumes p, s.sideGated v = false ∧ s.access 32 v = 3 ∧ s.cipherView 32 v = false
  direct : (arg p 20 1).testBit 2 = false → arg p 28 4 = 0

section
variable {s : State} {p : List Byte} (hhouse : s.modes.house ≠ .closing) (hfields : flowSetFields p)
include hhouse hfields

omit hhouse hfields in
/-- No page of a delay line lies in a volume that is gated. -/
theorem line_ungated (h : (arg p 20 1).testBit 2 = true → ∀ v ∈ lineVolumes p, s.sideGated v = false) :
    ((arg p 20 1).testBit 2 && (volumesOf (arg p 36 4) (arg p 40 4)).any s.sideGated) = false := by
  refine Bool.and_eq_false_imp.mpr fun hde => Bool.eq_false_iff.mpr fun hany => ?_
  obtain ⟨v, hv, hgated⟩ := List.any_eq_true.mp hany
  exact absurd ((h hde v hv).symm.trans hgated) (by decide)

theorem flowSetBody_sets (h : s.flowSetMeets p) :
    flowSetBody p s = okSlip (s.setFlow (arg p 16 2) ((s.flow (arg p 16 2)).setTo p)) := by
  have hungated := line_ungated (s := s) (p := p) fun hde v hv => by
    obtain ⟨-, -, hopen⟩ := h.delayed hde
    exact (hopen v hv).1
  have hscheduled : ((if (arg p 20 1).testBit 1 = true then (s.port (arg p 23 1)).egress.ord
      else (s.port (arg p 23 1)).egress.prot).any fun c => c.queue == arg p 24 2) = true := by
    simpa using h.scheduled
  have hguarded : ((arg p 20 1).testBit 1 || s.protectedPort (arg p 21 1) && s.protectedPort (arg p 23 1)) = true := by
    cases hord : (arg p 20 1).testBit 1
    case true => rfl
    case false => simp [h.guarded hord]
  have hfits : (arg p 20 1).testBit 2 = true → s.delayFits (arg p 21 1) (arg p 28 4) (arg p 36 4) (arg p 40 4) = true :=
    fun hde => by
      obtain ⟨-, hroom, -⟩ := h.delayed hde
      exact hroom
  have hrights : (arg p 20 1).testBit 2 = true → ((volumesOf (arg p 36 4) (arg p 40 4)).all fun v =>
      s.access 32 v == 3 && !s.cipherView 32 v) = true := fun hde => List.all_eq_true.mpr fun v hv => by
    obtain ⟨-, -, hopen⟩ := h.delayed hde
    obtain ⟨-, haccess, hview⟩ := hopen v hv
    simp [haccess, hview]
  have hdelay : ((arg p 20 1).testBit 2 == (arg p 28 4 != 0)) = true := by
    cases hde : (arg p 20 1).testBit 2
    case true => simp [(h.delayed hde).1]
    case false => simp [h.direct hde]
  unfold flowSetFields at hfields
  unfold flowSetBody
  simp only [openQueues, houseOpen_ok s hhouse, hfields, need_not_ok hungated, need_not_ok h.free,
    need_ok (beq_iff_eq.mpr h.tag), need_ok (beq_iff_eq.mpr h.engine), need_ok h.enabled, need_ok hscheduled, need_ok hguarded,
    need_where hfits, need_where hrights, need_ok hdelay, FlowSt.setTo, h.valid]
  rfl

/-- R390: a flow in use is busy. -/
theorem flowSetBody_busy (hvalid : (arg p 20 1).testBit 0 = true) (hused : (s.flow (arg p 16 2)).valid = true)
    (hopen : (arg p 20 1).testBit 2 = true → ∀ v ∈ lineVolumes p, s.sideGated v = false) :
    flowSetBody p s = .error (fail St.flowBusy) := by
  unfold flowSetFields at hfields
  unfold flowSetBody
  simp only [openQueues, houseOpen_ok s hhouse, hfields, need_not_ok (line_ungated hopen), hvalid, hused]
  rfl

/-- A flow that is not paired is taken out of service as it is. -/
theorem flowSetBody_clears (hvalid : (arg p 20 1).testBit 0 = false) (halone : (s.flow (arg p 16 2)).paired = false) :
    flowSetBody p s = okSlip (s.setFlow (arg p 16 2) ((s.flow (arg p 16 2)).setTo p)) := by
  have hend : endPair (arg p 16 2) s = s := by simp [endPair, halone]
  unfold flowSetFields at hfields
  unfold flowSetBody
  simp only [openQueues, houseOpen_ok s hhouse, hfields, hvalid, hend, FlowSt.setTo]
  rfl

end

/-! ## PAIR_SET (R210, R213, R390, R443) -/

section
variable {s : State} {p : List Byte} (hhouse : s.modes.house ≠ .closing)
  (hfields : fields [⟨16, 2, true⟩, ⟨18, 2, true⟩, ⟨20, 1, arg p 20 1 < 3⟩] p = .ok ())
include hhouse hfields

/-- The checks of a slip that joins two flows. -/
structure State.pairSetJoins (s : State) (p : List Byte) : Prop where
  act : arg p 20 1 = 0
  valid : (s.flow (arg p 16 2)).valid = true ∧ (s.flow (arg p 18 2)).valid = true
  guarded : (s.flow (arg p 16 2)).ordinary = false ∧ (s.flow (arg p 18 2)).ordinary = false
  queue : (s.flow (arg p 16 2)).egQueue = (s.flow (arg p 18 2)).egQueue
  port : (s.flow (arg p 16 2)).egPort = (s.flow (arg p 18 2)).egPort
  apart : (s.flow (arg p 16 2)).inPort ≠ (s.flow (arg p 18 2)).inPort
  alone : (s.flow (arg p 16 2)).paired = false ∧ (s.flow (arg p 18 2)).paired = false

theorem pairSetBody_joins (h : s.pairSetJoins p) : pairSetBody p s = okSlip (joinPair (arg p 16 2) (arg p 18 2) s) := by
  obtain ⟨hact, ⟨hvx, hvy⟩, ⟨hox, hoy⟩, hqueue, hport, hapart, hpx, hpy⟩ := h
  have hsame : ((s.flow (arg p 16 2)).egQueue == (s.flow (arg p 18 2)).egQueue &&
      (s.flow (arg p 16 2)).egPort == (s.flow (arg p 18 2)).egPort) = true := by simp [hqueue, hport]
  have halone : (!(s.flow (arg p 16 2)).paired && !(s.flow (arg p 18 2)).paired) = true := by simp [hpx, hpy]
  unfold pairSetBody
  simp only [openQueues, houseOpen_ok s hhouse, hfields, if_pos hact, need_ok hvx, need_ok hvy, need_not_ok hox, need_not_ok hoy,
    need_ok hsame, need_ok (bne_iff_ne.mpr hapart), need_ok halone]
  rfl

/-- What the slip does with a pair: it splits it, or sets it anew. -/
theorem pairSetBody_pair (hact : arg p 20 1 ≠ 0) (hp : (s.flow (arg p 16 2)).paired = true)
    (hx : (s.flow (arg p 16 2)).twin = arg p 18 2) (hab : arg p 16 2 ≠ arg p 18 2) :
    pairSetBody p s = okSlip (if arg p 20 1 = 1 then endPair (arg p 16 2) s else resync (min (arg p 16 2) (arg p 18 2)) s) := by
  have hpair : ((s.flow (arg p 16 2)).paired && (s.flow (arg p 16 2)).twin == arg p 18 2 && arg p 16 2 != arg p 18 2) = true := by
    simp [hp, hx, hab]
  unfold pairSetBody
  simp only [openQueues, houseOpen_ok s hhouse, hfields, if_neg hact, need_ok hpair]
  rfl

end

/-- R210: both flows are paired with each other, and the merge takes its number anew. -/
theorem joinPair_flows {t : State} {F : Nat → FlowSt} (ht : t.HasFlows F) {a b : Nat} (hab : a ≠ b) :
    ∃ G, (joinPair a b t).HasFlows G ∧ (G a).paired = true ∧ (G a).twin = b ∧ (G b).paired = true ∧ (G b).twin = a ∧
      (G (min a b)).mergeSet = false ∧ ∀ j, j ≠ a → j ≠ b → G j = F j := by
  have hmin : min a b = a ∨ min a b = b := min_choice a b
  refine ⟨_, (((ht.modFlow a fun f => { f with paired := true, twin := b }).modFlow b fun f =>
    { f with paired := true, twin := a }).modFlow (min a b) fun f =>
    { f with mergeSet := false, waiting := false, mergeCause := 0, quiet := 0 }), ?_, ?_, ?_, ?_, ?_, fun j hja hjb => ?_⟩
  · rw [update_keeps FlowSt.paired (by rfl), Function.update_of_ne hab, Function.update_self]
  · rw [update_keeps FlowSt.twin (by rfl), Function.update_of_ne hab, Function.update_self]
  · rw [update_keeps FlowSt.paired (by rfl), Function.update_self]
  · rw [update_keeps FlowSt.twin (by rfl), Function.update_self]
  · rw [Function.update_self]
  · have hj : j ≠ min a b := by rcases hmin with h | h <;> rw [h] <;> assumption
    rw [Function.update_of_ne hj, Function.update_of_ne hjb, Function.update_of_ne hja]

/-- The pair of a and b is split: neither is paired, nothing is left of its merge state, and no other flow has changed. -/
structure State.SplitPair (s : State) (a b : Nat) (t : State) : Prop where
  rises : Sparse.rises t.flows = true
  chans : t.slips.chans.length = s.slips.chans.length
  paired : ∀ j, j = a ∨ j = b → (t.flow j).paired = false
  mergeSet : ∀ j, j = a ∨ j = b → (t.flow j).mergeSet = false
  other : ∀ j, j ≠ a → j ≠ b → t.flow j = s.flow j

namespace State.SplitPair
variable {s t u : State} {a b : Nat}

theorem keeps (h : s.SplitPair a b t) (g : t.KeepsFlows u) : s.SplitPair a b u :=
  ⟨g.flows ▸ h.rises, g.chans.trans h.chans, fun j hj => (congrArg FlowSt.paired (g.flow j)).trans (h.paired j hj),
    fun j hj => (congrArg FlowSt.mergeSet (g.flow j)).trans (h.mergeSet j hj), fun j ha hb => (g.flow j).trans (h.other j ha hb)⟩

/-- A head of a member goes. -/
theorem dropHead (h : s.SplitPair a b t) {k : Nat} (hk : k = a ∨ k = b) : s.SplitPair a b (dropHead k t) := by
  have hflows : (Machine.dropHead k t).HasFlows _ := (⟨h.rises, fun _ => rfl⟩ : t.HasFlows t.flow).modFlow k fun f =>
    { f with heads := f.heads.drop 1 }
  refine ⟨hflows.rises, h.chans, fun j hj => ?_, fun j hj => ?_, fun j ha hb => ?_⟩ <;> rw [hflows.flow]
  · rw [update_keeps FlowSt.paired (by rfl)]
    exact h.paired j hj
  · rw [update_keeps FlowSt.mergeSet (by rfl)]
    exact h.mergeSet j hj
  · have hj : j ≠ k := by rcases hk with rfl | rfl <;> assumption
    rw [Function.update_of_ne hj]
    exact h.other j ha hb

/-- R443: a head goes on alone. -/
theorem admitHead (h : s.SplitPair a b t) {k : Nat} (hk : k = a ∨ k = b) : s.SplitPair a b (admitHead k t) := by
  unfold Machine.admitHead
  split
  · exact h
  · split
    · exact h
    · exact (h.dropHead hk).keeps (admitHeld_keepsFlows (.refl _) _ _)

theorem foldl_admitHead {l : List (Nat × Nat)} (hl : ∀ x ∈ l, x.2 = a ∨ x.2 = b) (h : s.SplitPair a b t) :
    s.SplitPair a b (l.foldl (fun s x => Machine.admitHead x.2 s) t) := by
  induction l generalizing t with
  | nil => exact h
  | cons x l ih => exact ih (fun y hy => hl y (.tail _ hy)) (h.admitHead (hl x (.head _)))

end State.SplitPair

/-- Clear a member's pairing and merge state. -/
def FlowSt.unpair (f : FlowSt) : FlowSt :=
  { f with paired := false, twin := 0, mergeSet := false, waiting := false, mergeCause := 0, quiet := 0 }

/-- The members in the order in which their heads came. -/
theorem mergeOrder_members (s : State) (lo hi : Nat) : s.mergeOrder lo hi = [lo, hi] ∨ s.mergeOrder lo hi = [hi, lo] := by
  unfold State.mergeOrder
  split
  · split
    · exact .inr rfl
    · exact .inl rfl
  · exact .inl rfl

/-- R443: the pair is split, and its heads go on alone. -/
theorem endPair_splits {s : State} {a b : Nat} (hs : Sparse.rises s.flows = true) (hp : (s.flow a).paired = true)
    (hx : (s.flow a).twin = b) (hy : (s.flow b).twin = a) : s.SplitPair a b (endPair a s) := by
  have hlo : s.mergeOf a = a ∧ (s.flow (s.mergeOf a)).twin = b ∨ s.mergeOf a = b ∧ (s.flow (s.mergeOf a)).twin = a := by
    unfold State.mergeOf
    rw [hx]
    rcases min_choice a b with h | h <;> rw [h]
    · exact .inl ⟨rfl, hx⟩
    · exact .inr ⟨rfl, hy⟩
  have horder : ∀ j, j ∈ s.mergeOrder (s.mergeOf a) (s.flow (s.mergeOf a)).twin ↔ j = a ∨ j = b := fun j => by
    obtain ⟨h, h'⟩ | ⟨h, h'⟩ := hlo <;> rw [h'] <;> rw [h] <;>
      rcases mergeOrder_members s _ _ with ho | ho <;> rw [ho] <;> simp [or_comm]
  have hflows := foldl_modFlow_flows (g := FlowSt.unpair) (fun _ => rfl) (s.mergeOrder (s.mergeOf a) (s.flow (s.mergeOf a)).twin)
    (⟨hs, fun _ => rfl⟩ : s.HasFlows s.flow)
  have hcleared : s.SplitPair a b ((s.mergeOrder (s.mergeOf a) (s.flow (s.mergeOf a)).twin).foldl
      (fun s j => s.modFlow j FlowSt.unpair) s) := by
    refine ⟨hflows.rises, congrArg (·.chans.length) (foldl_modFlow_slips ..), fun j hj => ?_, fun j hj => ?_, fun j ha hb => ?_⟩
      <;> rw [hflows.flow]
    · rw [if_pos ((horder j).mpr hj)]; rfl
    · rw [if_pos ((horder j).mpr hj)]; rfl
    · exact if_neg fun hj => ((horder j).mp hj).elim ha hb
  unfold endPair
  simp only [hp, Bool.not_true, Bool.false_eq_true, if_false]
  refine hcleared.foldl_admitHead fun x hx => ?_
  obtain ⟨j, hj, hhead⟩ := List.mem_flatMap.mp ((mem_sortBy _ _ x).mp hx)
  obtain ⟨it, -, rfl⟩ := List.mem_map.mp hhead
  exact (horder j).mp hj

/-! ## FLOW_COUNT_CLEAR (R197, R390) -/

/-- A flow's counters at nought. -/
def FlowSt.uncounted (f : FlowSt) : FlowSt := { f with itemsIn := 0, wordsIn := 0, duplicates := 0, gaps := 0 }

/-- The flows that the slip lists. -/
def flowsNamed (p : List Byte) : List Nat := (List.range (arg p 16 2)).map fun i => arg p (20 + 2 * i) 2

theorem flowCountClearBody_clears {s : State} {p : List Byte} (hhouse : s.modes.house ≠ .closing)
    (hfields : fieldsTo [⟨16, 2, 1 ≤ arg p 16 2 && arg p 16 2 ≤ 64⟩] 20 p = .ok ())
    (hcounted : counted p 16 (arg p 16 2) 1 64 20 2 = .ok ()) (hzero : zeroFrom (20 + 2 * arg p 16 2) p = .ok ()) :
    flowCountClearBody p s = okSlip ((flowsNamed p).foldl (fun s k => s.modFlow k FlowSt.uncounted) s) := by
  unfold flowCountClearBody
  simp only [openQueues, houseOpen_ok s hhouse, hfields, hcounted, hzero, flowsNamed, List.foldl_map]
  rfl

/-! ## What the slips do -/

section
variable {s : State} {h : SlipHdr} {p : List Byte} (hs : s.wf = true) (hhouse : s.modes.house ≠ .closing)
include hs

/-- FLOW_SET writes its flow alone. -/
theorem flowSet_writes (ht : s.takes 0x0701 .ordinary h p)
    (hbody : ∀ x g n, let b := { s with slips := x, log := g, frame.freeCount := n }
      flowSetBody p b = okSlip (b.setFlow (arg p 16 2) ((b.flow (arg p 16 2)).setTo p))) :
    ∃ t, exec (.flowSet h p) s = .next t ∧ t.answered 0x0701 h St.ok [] ∧
      t.flow (arg p 16 2) = (s.flow (arg p 16 2)).setTo p ∧ (∀ j, j ≠ arg p 16 2 → t.flow j = s.flow j) ∧
      t.queues = s.queues ∧ t.ports = s.ports := by
  obtain ⟨x, g, n, hB⟩ := begun_reads s 0x0701 h p
  obtain ⟨t, he, ha, hflow, hqueues, hports⟩ := slip_flows (body := flowSetBody p) ht (by rw [hB]; exact hbody x g n)
    (by rw [hB]; rfl) ((⟨s.wf_flows hs, fun _ => rfl⟩ :
      { s with slips := x, log := g, frame.freeCount := n : State }.HasFlows s.flow).setFlow (arg p 16 2) _)
  exact ⟨t, he, ha, (hflow _).trans (Function.update_self ..), fun j hj => (hflow j).trans (Function.update_of_ne hj ..),
    hqueues, hports⟩

include hhouse

/-- PAIR_SET splits the pair of a and b. -/
theorem pairSet_splits (ht : s.takes 0x0703 .ordinary h p)
    (hfields : fields [⟨16, 2, true⟩, ⟨18, 2, true⟩, ⟨20, 1, arg p 20 1 < 3⟩] p = .ok ()) (hact : arg p 20 1 = 1)
    (hp : (s.flow (arg p 16 2)).paired = true) (hx : (s.flow (arg p 16 2)).twin = arg p 18 2)
    (hy : (s.flow (arg p 18 2)).twin = arg p 16 2) (hab : arg p 16 2 ≠ arg p 18 2) :
    ∃ t, exec (.pairSet h p) s = .next t ∧ t.answered 0x0703 h St.ok [] ∧ (t.flow (arg p 16 2)).paired = false ∧
      (t.flow (arg p 18 2)).paired = false ∧ (t.flow (min (arg p 16 2) (arg p 18 2))).mergeSet = false ∧
      ∀ j, j ≠ arg p 16 2 → j ≠ arg p 18 2 → t.flow j = s.flow j := by
  have hb := begun_hasFlows hs 0x0703 h p
  have hhouse' : (s.begun 0x0703 h p).modes.house ≠ .closing := by
    rw [begun_eq]
    exact hhouse
  have hsplit := endPair_splits (a := arg p 16 2) (b := arg p 18 2) hb.rises (by rw [hb.flow]; exact hp)
    (by rw [hb.flow]; exact hx) (by rw [hb.flow]; exact hy)
  obtain ⟨t, he, ha, hflow, -⟩ := slip_flows ht ((pairSetBody_pair hhouse' hfields (by rw [hact]; decide)
    (by rw [hb.flow]; exact hp) (by rw [hb.flow]; exact hx) hab).trans (by rw [if_pos hact])) hsplit.chans
    ⟨hsplit.rises, fun _ => rfl⟩
  refine ⟨t, he, ha, ?_, ?_, ?_, fun j hja hjb => ?_⟩ <;> rw [hflow]
  · exact hsplit.paired _ (.inl rfl)
  · exact hsplit.paired _ (.inr rfl)
  · exact hsplit.mergeSet _ (min_choice ..)
  · exact (hsplit.other j hja hjb).trans (hb.flow j)

/-- PAIR_SET sets the pair to take its number anew. -/
theorem pairSet_resyncs (ht : s.takes 0x0703 .ordinary h p)
    (hfields : fields [⟨16, 2, true⟩, ⟨18, 2, true⟩, ⟨20, 1, arg p 20 1 < 3⟩] p = .ok ()) (hact : arg p 20 1 = 2)
    (hp : (s.flow (arg p 16 2)).paired = true) (hx : (s.flow (arg p 16 2)).twin = arg p 18 2) (hab : arg p 16 2 ≠ arg p 18 2) :
    let lo := min (arg p 16 2) (arg p 18 2)
    ∃ t, exec (.pairSet h p) s = .next t ∧ t.answered 0x0703 h St.ok [] ∧
      t.flow lo = { s.flow lo with mergeSet := false, waiting := false } ∧ ∀ j, j ≠ lo → t.flow j = s.flow j := by
  have hb := begun_hasFlows hs 0x0703 h p
  have hhouse' : (s.begun 0x0703 h p).modes.house ≠ .closing := by
    rw [begun_eq]
    exact hhouse
  obtain ⟨t, he, ha, hflow, -⟩ := slip_flows (v := resync (min (arg p 16 2) (arg p 18 2)) (s.begun 0x0703 h p)) ht
    ((pairSetBody_pair hhouse' hfields (by rw [hact]; decide) (by rw [hb.flow]; exact hp) (by rw [hb.flow]; exact hx) hab).trans
      (by rw [if_neg (by rw [hact]; decide)])) rfl (resync_hasFlows hb _)
  exact ⟨t, he, ha, (hflow _).trans (Function.update_self ..), fun j hj => (hflow j).trans (Function.update_of_ne hj ..)⟩

/-- PAIR_SET joins two flows. -/
theorem pairSet_joins (ht : s.takes 0x0703 .ordinary h p)
    (hfields : fields [⟨16, 2, true⟩, ⟨18, 2, true⟩, ⟨20, 1, arg p 20 1 < 3⟩] p = .ok ()) (hjoins : s.pairSetJoins p) :
    ∃ t, exec (.pairSet h p) s = .next t ∧ t.answered 0x0703 h St.ok [] ∧ (t.flow (arg p 16 2)).paired = true ∧
      (t.flow (arg p 16 2)).twin = arg p 18 2 ∧ (t.flow (arg p 18 2)).paired = true ∧
      (t.flow (arg p 18 2)).twin = arg p 16 2 ∧ (t.flow (min (arg p 16 2) (arg p 18 2))).mergeSet = false ∧
      ∀ j, j ≠ arg p 16 2 → j ≠ arg p 18 2 → t.flow j = s.flow j := by
  have hb := begun_hasFlows hs 0x0703 h p
  have hab : arg p 16 2 ≠ arg p 18 2 := fun heq => hjoins.apart (by rw [heq])
  have hbody : pairSetBody p (s.begun 0x0703 h p) = okSlip (joinPair (arg p 16 2) (arg p 18 2) (s.begun 0x0703 h p)) := by
    obtain ⟨x, g, n, hB⟩ := begun_reads s 0x0703 h p
    rw [hB]
    exact pairSetBody_joins (s := { s with slips := x, log := g, frame.freeCount := n }) hhouse hfields
      ⟨hjoins.act, hjoins.valid, hjoins.guarded, hjoins.queue, hjoins.port, hjoins.apart, hjoins.alone⟩
  obtain ⟨G, hG, hpa, hta, hpb, htb, hset, hother⟩ := joinPair_flows hb hab
  obtain ⟨t, he, ha, hflow, -⟩ := slip_flows ht hbody rfl hG
  simp only [← hflow] at hpa hta hpb htb hset hother
  exact ⟨t, he, ha, hpa, hta, hpb, htb, hset, hother⟩

/-- FLOW_COUNT_CLEAR clears the counters of the flows that it lists. -/
theorem flowCountClear_clears (ht : s.takes 0x0704 .ordinary h p)
    (hfields : fieldsTo [⟨16, 2, 1 ≤ arg p 16 2 && arg p 16 2 ≤ 64⟩] 20 p = .ok ())
    (hcounted : counted p 16 (arg p 16 2) 1 64 20 2 = .ok ()) (hzero : zeroFrom (20 + 2 * arg p 16 2) p = .ok ()) :
    ∃ t, exec (.flowCountClear h p) s = .next t ∧ t.answered 0x0704 h St.ok [] ∧
      (∀ k ∈ flowsNamed p, t.flow k = (s.flow k).uncounted) ∧ ∀ k, k ∉ flowsNamed p → t.flow k = s.flow k := by
  have hhouse' : (s.begun 0x0704 h p).modes.house ≠ .closing := by
    rw [begun_eq]
    exact hhouse
  have hflows := foldl_modFlow_flows (g := FlowSt.uncounted) (fun _ => rfl) (flowsNamed p) (begun_hasFlows hs 0x0704 h p)
  obtain ⟨t, he, ha, hflow, -⟩ := slip_flows ht (flowCountClearBody_clears hhouse' hfields hcounted hzero)
    (congrArg (·.chans.length) (foldl_modFlow_slips ..)) hflows
  exact ⟨t, he, ha, fun k hk => (hflow k).trans (if_pos hk), fun k hk => (hflow k).trans (if_neg hk)⟩

end

/-- R390: FLOW_SET of a flow in use is refused. -/
theorem flowSet_busy {s : State} {h : SlipHdr} {p : List Byte} (hhouse : s.modes.house ≠ .closing)
    (ht : s.takes 0x0701 .ordinary h p) (hfields : flowSetFields p) (hvalid : (arg p 20 1).testBit 0 = true)
    (hused : (s.flow (arg p 16 2)).valid = true)
    (hopen : (arg p 20 1).testBit 2 = true → ∀ v ∈ lineVolumes p, s.sideGated v = false) :
    ∃ t, exec (.flowSet h p) s = .next t ∧ t.answered 0x0701 h St.flowBusy [] ∧ s.sameButSlips t := by
  have hbody : flowSetBody p (s.begun 0x0701 h p) = .error (fail St.flowBusy) := by
    obtain ⟨x, g, n, hB⟩ := begun_reads s 0x0701 h p
    rw [hB]
    exact flowSetBody_busy (s := { s with slips := x, log := g, frame.freeCount := n }) hhouse hfields hvalid hused hopen
  exact slip_error (body := fun _ s => flowSetBody p s) ht hbody rfl (by decide)

/-! ## The obligation -/

/-- Settles O36: each slip by what it writes of the flows that it names. -/
theorem flowSlips : Obligations.FlowSlips := by
  unfold Obligations.FlowSlips
  intro s h p hs hhouse
  refine ⟨fun ht => ?_, fun ht => ?_, fun ht => flowCountClear_clears hs hhouse ht⟩
  · intro k flags inP egP q delay base pages hfields
    refine ⟨?_, flowSet_busy hhouse ht hfields, ?_⟩
    · intro hvalid hfree htag hengine henabled hscheduled hguarded hdelayed hdirect
      obtain ⟨t, he, ha, hself, hother, htables⟩ := flowSet_writes hs ht fun x g n =>
        flowSetBody_sets (s := { s with slips := x, log := g, frame.freeCount := n }) hhouse hfields
          ⟨hvalid, hfree, htag, hengine, henabled, hscheduled, hguarded, hdelayed, hdirect⟩
      refine ⟨t, he, ha, ?_, hother, htables⟩
      rw [hself, FlowSt.setTo, hvalid]
    · intro hvalid halone
      obtain ⟨t, he, ha, hself, hother, -⟩ := flowSet_writes hs ht fun x g n =>
        flowSetBody_clears (s := { s with slips := x, log := g, frame.freeCount := n }) hhouse hfields hvalid halone
      exact ⟨t, he, ha, (congrArg FlowSt.valid hself).trans hvalid, congrArg FlowSt.paired hself, hother⟩
  · intro a b act x y hfields
    refine ⟨fun hact hvx hvy hox hoy hqueue hport hapart hpx hpy => ?_, fun _ hp hx hab => ⟨fun hact hy => ?_, fun hact => ?_⟩⟩
    · exact pairSet_joins hs hhouse ht hfields ⟨hact, ⟨hvx, hvy⟩, ⟨hox, hoy⟩, hqueue, hport, hapart, hpx, hpy⟩
    · exact pairSet_splits hs hhouse ht hfields hact hp hx hy hab
    · exact pairSet_resyncs hs hhouse ht hfields hact hp hx hab

end Sys2Proof.Machine
end

section
/-! PROOFS. EGRESS_SET's calendar, gathered, committed or refused, and CREDIT_SET's allowances (R45, R199, R202, R390, R391). -/

namespace Sys2Proof.Machine
open Sys2Proof

/-! ## A slip that writes ports -/

/-- A slip whose body commits v is answered OK, and fabric and ports are as v has them. -/
theorem slip_ports {op : BitVec 16} {h : SlipHdr} {p : List Byte} {body : SlipId → State → SlipOut} {s v : State}
    (ht : s.takes op .ordinary h p) (hb : body (slipId s op h .ordinary) (s.begun op h p) = okSlip v)
    (hl : v.slips = (s.begun op h p).slips) :
    ∃ t, slip op .ordinary h p body s = .next t ∧ t.answered op h St.ok [] ∧ t.fab = v.fab ∧ ∀ q, t.port q = v.port q := by
  obtain ⟨t, he, ha, -, hu⟩ := slip_ok ht hb rfl ((congrArg (·.chans.length) hl).trans (begun_length s op h p))
  exact ⟨t, he, ha, fab_of_mirror hu, fun q => (congrArg (State.port · q) hu :)⟩

/-- A slip whose check fails is answered with the check's status, and fabric and ports are as what it discards leaves them. -/
theorem slip_refused_ports {op : BitVec 16} {c : OrdClass} {h : SlipHdr} {p : List Byte} {body : SlipId → State → SlipOut}
    {s : State} {e : SlipErr} (ht : s.takes op c h p) (hb : body (slipId s op h c) (s.begun op h p) = .error e)
    (hs : e.status ≠ St.lengthExcess) (hl : (e.discard (s.begun op h p)).slips = (s.begun op h p).slips) :
    ∃ t, slip op c h p body s = .next t ∧ t.answered op h e.status e.result ∧ t.fab = (e.discard (s.begun op h p)).fab ∧
      ∀ q, t.port q = (e.discard (s.begun op h p)).port q := by
  obtain ⟨hstarts, hheader, hreply, hch⟩ := ht
  have hrun : runSlip op c h p body s =
      queueReply (replyOf (slipId s op h c) e.status e.detail e.result) (e.discard (s.begun op h p)) := by
    have hbegun : noteSeq (s.gapIn h) h (startSlip op h p s) = s.begun op h p := rfl
    unfold runSlip
    simp only [hstarts, hheader, if_true, hbegun, hb, beq_eq_false_iff_ne.mpr hs, Bool.false_eq_true, if_false]
  have hlen : h.ch.val < (e.discard (s.begun op h p)).slips.chans.length := by
    rw [hl, begun_length]
    exact hch
  have hwrites : (slipId s op h c).writes e.status = true := by simp [SlipId.writes, slipId, hreply]
  have hsame : (slipId s op h c).ch = h.ch := rfl
  refine ⟨_, slip_mirror (hrun.trans (queueReply_eq ..)) ⟨rfl, rfl⟩,
    ⟨replyOf (slipId s op h c) e.status e.detail e.result, ?_, rfl, rfl, rfl, rfl, rfl, rfl, rfl⟩, rfl, fun _ => rfl⟩
  simp [State.chan, queueReply, replyOf, hwrites, hsame, State.modChan, List.getD, hlen]

section
variable (s : State) (op : BitVec 16) (h : SlipHdr) (p : List Byte) (q : Nat)

theorem begun_port : (s.begun op h p).port q = s.port q := (congrArg (State.port · q) (begun_eq s op h p) :)

theorem begun_ports_rise (hs : s.wf = true) : Sparse.rises (s.begun op h p).ports = true :=
  (congrArg State.ports (begun_eq s op h p) :).symm ▸ s.wf_ports hs

theorem begun_calendarFault (prot ord : List CalEntry) :
    (s.begun op h p).calendarFault q prot ord = s.calendarFault q prot ord := by
  obtain ⟨x, g, n, hB⟩ := begun_reads s op h p
  rw [hB]
  rfl

end

theorem State.modEgress_port (s : State) (p : Nat) (f : EgressSt → EgressSt) (q : Nat) (h : Sparse.rises s.ports = true) :
    (s.modEgress p f).port q = if q = p then { s.port p with egress := f (s.port p).egress } else s.port q :=
  s.modPort_port p (fun x => { x with egress := f x.egress }) q h

/-! ## EGRESS_SET (R202, R391) -/

/-- The calendar's parts as the slip leaves them gathered: what its channel held, then its own entries. -/
def EgressSt.protWith (ch : Nat) (p : List Byte) (e : EgressSt) : List CalEntry :=
  Sparse.get [] e.pendProt ch ++ (List.range (arg p 19 1)).map fun i => calEntryAt p (24 + 4 * i)

def EgressSt.ordWith (ch : Nat) (p : List Byte) (e : EgressSt) : List CalEntry :=
  Sparse.get [] e.pendOrd ch ++ (List.range (arg p 20 2)).map fun i => calEntryAt p (24 + 4 * (arg p 19 1 + i))

/-- The channel has this pending set. -/
def EgressSt.pending (ch : Nat) (prot ord : List CalEntry) (e : EgressSt) : EgressSt :=
  { e with pendProt := Sparse.ins e.pendProt ch prot, pendOrd := Sparse.ins e.pendOrd ch ord }

/-- The channel has no pending set. -/
def EgressSt.abandoned (ch : Nat) (e : EgressSt) : EgressSt :=
  { e with pendProt := Sparse.del e.pendProt ch, pendOrd := Sparse.del e.pendOrd ch }

theorem EgressSt.pending_reads (ch : Nat) (prot ord : List CalEntry) (e : EgressSt) :
    Sparse.get [] (e.pending ch prot ord).pendProt ch = prot ∧ Sparse.get [] (e.pending ch prot ord).pendOrd ch = ord := by
  simp [pending, Sparse.get, Sparse.look_ins]

theorem EgressSt.abandoned_reads {ch : Nat} {e : EgressSt} (hprot : Sparse.rises e.pendProt = true)
    (hord : Sparse.rises e.pendOrd = true) :
    Sparse.look (e.abandoned ch).pendProt ch = none ∧ Sparse.look (e.abandoned ch).pendOrd ch = none := by
  simp [abandoned, Sparse.look_del, hprot, hord]

/-- The committed change that installs the calendar at step 4. -/
def calendarChange (id : SlipId) (port : Nat) (prot ord : List CalEntry) : Change4 :=
  { ch := id.ch, seq := id.seq, change := .calendar port prot ord, retries := 0, id := none, ready := true }

/-- The checks that come before the calendar's own. -/
structure State.egressSetFits (s : State) (ch : Nat) (p : List Byte) : Prop where
  house : s.modes.house ≠ .closing
  fields : fieldsTo [⟨16, 2, arg p 16 2 < 144⟩, ⟨18, 1, arg p 18 1 < 2⟩, ⟨19, 1, arg p 19 1 ≤ 64⟩, ⟨20, 2, arg p 20 2 ≤ 1024⟩,
    ⟨22, 2, arg p 22 2 == 0⟩] 24 p = .ok ()
  room : 24 + 4 * (arg p 19 1 + arg p 20 2) ≤ 16 + p.length
  entries : entriesOk 24 4 (arg p 19 1 + arg p 20 2) (calEntryBad p) = .ok ()
  zero : zeroFrom (24 + 4 * (arg p 19 1 + arg p 20 2)) p = .ok ()
  first : (Sparse.look (s.port (arg p 16 2)).egress.pendProt ch).isSome = true → arg p 19 1 = 0
  most : ((s.port (arg p 16 2)).egress.ordWith ch p).length ≤ 1024

section
variable {s : State} {id : SlipId} {p : List Byte} (h : s.egressSetFits id.ch.val p)
include h

/-- Past those checks the slip gathers its entries, or what is gathered is judged as a whole. -/
theorem egressSetBody_eq : egressSetBody p id s =
    if arg p 18 1 = 1 then okSlip (s.modEgress (arg p 16 2) (EgressSt.pending id.ch.val
      ((s.port (arg p 16 2)).egress.protWith id.ch.val p) ((s.port (arg p 16 2)).egress.ordWith id.ch.val p)))
    else match s.calendarFault (arg p 16 2) ((s.port (arg p 16 2)).egress.protWith id.ch.val p)
        ((s.port (arg p 16 2)).egress.ordWith id.ch.val p) with
      | some st => .error { status := st, discard := fun s => s.modEgress (arg p 16 2) (EgressSt.abandoned id.ch.val) }
      | none => okSlip { s.modEgress (arg p 16 2) (EgressSt.abandoned id.ch.val) with
          fab.changes := s.fab.changes ++ [calendarChange id (arg p 16 2)
            ((s.port (arg p 16 2)).egress.protWith id.ch.val p) ((s.port (arg p 16 2)).egress.ordWith id.ch.val p)] } := by
  obtain ⟨hhouse, hfields, hroom, hentries, hzero, hfirst, hmost⟩ := h
  have hshort : 24 + 4 * arg p 19 1 ≤ 16 + p.length := by omega
  have honce : ((Sparse.look (s.port (arg p 16 2)).egress.pendProt id.ch.val).isNone || arg p 19 1 == 0) = true := by
    cases hheld : Sparse.look (s.port (arg p 16 2)).egress.pendProt id.ch.val
    case none => rfl
    case some => simp [hfirst (by rw [hheld]; rfl)]
  unfold EgressSt.ordWith at hmost
  unfold egressSetBody
  simp only [openQueues, houseOpen_ok s hhouse, hfields, need_ok (decide_eq_true hshort), need_ok (decide_eq_true hroom), hentries,
    hzero, need_ok honce, need_ok (decide_eq_true hmost)]
  by_cases hmore : arg p 18 1 = 1
  · simp only [hmore, if_true]
    rfl
  · simp only [beq_eq_false_iff_ne.mpr hmore, if_neg hmore]
    rfl

end

theorem slipId_ch (s : State) (op : BitVec 16) (h : SlipHdr) (c : OrdClass) : (slipId s op h c).ch = h.ch := rfl

section
variable {s : State} {h : SlipHdr} {p : List Byte} (hs : s.wf = true) (ht : s.takes 0x0705 .ordinary h p)
  (hfits : s.egressSetFits h.ch.val p)

include hfits in
theorem egressSetFits_begun : (s.begun 0x0705 h p).egressSetFits (slipId s 0x0705 h .ordinary).ch.val p := by
  obtain ⟨hhouse, hfields, hroom, hentries, hzero, hfirst, hmost⟩ := hfits
  refine ⟨?_, hfields, hroom, hentries, hzero, ?_, ?_⟩
  · rw [begun_eq]
    exact hhouse
  · rw [begun_port]
    exact hfirst
  · rw [begun_port]
    exact hmost

include hs ht hfits

/-- R202: entries of which more are to come are gathered. -/
theorem egressSet_gathers (hmore : arg p 18 1 = 1) :
    ∃ t, exec (.egressSet h p) s = .next t ∧ t.answered 0x0705 h St.ok [] ∧ t.fab = s.fab ∧
      (t.port (arg p 16 2)).egress = (s.port (arg p 16 2)).egress.pending h.ch.val
        ((s.port (arg p 16 2)).egress.protWith h.ch.val p) ((s.port (arg p 16 2)).egress.ordWith h.ch.val p) ∧
      ∀ r, r ≠ arg p 16 2 → t.port r = s.port r := by
  have hbody := (egressSetBody_eq (egressSetFits_begun hfits)).trans (if_pos hmore)
  obtain ⟨t, he, ha, hfab, hport⟩ := slip_ports ht hbody rfl
  simp only [State.modEgress_port _ _ _ _ (begun_ports_rise s 0x0705 h p hs), begun_port] at hport
  exact ⟨t, he, ha, hfab.trans (begun_fab s 0x0705 h p), (congrArg PortSt.egress ((hport _).trans (if_pos rfl)) :),
    fun r hr => (hport r).trans (if_neg hr)⟩

/-- R391: a good calendar waits for step 4. -/
theorem egressSet_commits (hlast : arg p 18 1 = 0)
    (hgood : s.calendarFault (arg p 16 2) ((s.port (arg p 16 2)).egress.protWith h.ch.val p)
      ((s.port (arg p 16 2)).egress.ordWith h.ch.val p) = none) :
    ∃ t, exec (.egressSet h p) s = .next t ∧ t.answered 0x0705 h St.ok [] ∧
      t.fab.changes = s.fab.changes ++ [calendarChange (slipId s 0x0705 h .ordinary) (arg p 16 2)
        ((s.port (arg p 16 2)).egress.protWith h.ch.val p) ((s.port (arg p 16 2)).egress.ordWith h.ch.val p)] ∧
      (t.port (arg p 16 2)).egress = (s.port (arg p 16 2)).egress.abandoned h.ch.val := by
  have hbody := (egressSetBody_eq (egressSetFits_begun hfits)).trans (if_neg (by rw [hlast]; decide))
  simp only [begun_calendarFault, begun_port, begun_fab, slipId_ch, hgood] at hbody
  obtain ⟨t, he, ha, hfab, hport⟩ := slip_ports ht hbody rfl
  have hhere := (hport (arg p 16 2)).trans ((State.modEgress_port _ _ _ _ (begun_ports_rise s 0x0705 h p hs)).trans (if_pos rfl))
  rw [begun_port] at hhere
  exact ⟨t, he, ha, (congrArg FabSt.changes hfab :), (congrArg PortSt.egress hhere :)⟩

/-- A bad one is answered with the rule that it breaks. -/
theorem egressSet_refuses (hlast : arg p 18 1 = 0) {st : BitVec 16} (hst : st ≠ St.lengthExcess)
    (hbad : s.calendarFault (arg p 16 2) ((s.port (arg p 16 2)).egress.protWith h.ch.val p)
      ((s.port (arg p 16 2)).egress.ordWith h.ch.val p) = some st) :
    ∃ t, exec (.egressSet h p) s = .next t ∧ t.answered 0x0705 h st [] ∧ t.fab = s.fab ∧
      (t.port (arg p 16 2)).egress = (s.port (arg p 16 2)).egress.abandoned h.ch.val := by
  have hbody := (egressSetBody_eq (egressSetFits_begun hfits)).trans (if_neg (by rw [hlast]; decide))
  simp only [begun_calendarFault, begun_port, slipId_ch, hbad] at hbody
  obtain ⟨t, he, ha, hfab, hport⟩ := slip_refused_ports ht hbody hst rfl
  have hhere := (hport (arg p 16 2)).trans ((State.modEgress_port _ _ _ _ (begun_ports_rise s 0x0705 h p hs)).trans (if_pos rfl))
  rw [begun_port] at hhere
  exact ⟨t, he, ha, hfab.trans (begun_fab s 0x0705 h p), (congrArg PortSt.egress hhere :)⟩

end

/-! ## CREDIT_SET (R199, R390) -/

/-- The setting that the slip gives: none for the default. -/
def creditSetting (p : List Byte) : Option Nat := if arg p 20 1 == 1 then none else some (arg p 19 1)

/-- The setting stored. -/
def CreditSt.setTo (p : List Byte) (c : CreditSt) : CreditSt :=
  { c with setProt := if arg p 18 1 = 0 then creditSetting p else c.setProt,
           setOrd := if arg p 18 1 = 0 then c.setOrd else creditSetting p }

/-- The exponent of a port's allowances at its rate and width. -/
def PortSt.creditBits (x : PortSt) : Nat := creditWidth x.neg.cur.rate x.neg.cur.width

/-- The fields of CREDIT_SET are in their ranges. -/
def creditSetFields (p : List Byte) : Prop :=
  fields [⟨16, 2, arg p 16 2 < 144⟩, ⟨18, 1, arg p 18 1 < 2⟩,
    ⟨19, 1, if arg p 20 1 == 1 then arg p 19 1 == 0 else 1 ≤ arg p 19 1 && arg p 19 1 ≤ 127⟩,
    ⟨20, 1, arg p 20 1 < 2⟩] p = .ok ()

section
variable {s : State} {p : List Byte} (hhouse : s.modes.house ≠ .closing) (hfields : creditSetFields p)
include hhouse hfields

theorem creditSetBody_stores (hmode : s.portMode (arg p 16 2) ≠ .service) :
    creditSetBody p s = okSlip (s.modCredit (arg p 16 2) (CreditSt.setTo p)) := by
  have hout : (s.portMode (arg p 16 2) == .service) = false := beq_eq_false_iff_ne.mpr hmode
  unfold creditSetFields at hfields
  unfold creditSetBody
  simp only [openQueues, houseOpen_ok s hhouse, hfields, hout, Bool.not_false, Bool.or_true, Bool.true_or, need_ok rfl]
  rfl

theorem creditSetBody_changes (hmode : s.portMode (arg p 16 2) = .service)
    (hfit : arg p 20 1 = 1 ∨ arg p 19 1 ≤ 2 ^ (s.port (arg p 16 2)).creditBits - 1) :
    creditSetBody p s = okSlip (setAllowance (arg p 16 2) (arg p 18 1)
      (if arg p 20 1 == 1 then defaultAllowance (s.port (arg p 16 2)).creditBits else arg p 19 1)
      (s.modCredit (arg p 16 2) (CreditSt.setTo p))) := by
  have hin : (s.portMode (arg p 16 2) == .service) = true := beq_iff_eq.mpr hmode
  have hneed : (arg p 20 1 == 1 || !true || decide (arg p 19 1 ≤ 2 ^ creditWidth (s.port (arg p 16 2)).neg.cur.rate
      (s.port (arg p 16 2)).neg.cur.width - 1)) = true := by
    simpa [PortSt.creditBits] using hfit
  unfold creditSetFields at hfields
  unfold creditSetBody
  simp only [openQueues, houseOpen_ok s hhouse, hfields, hin, need_ok hneed]
  rfl

/-- R390: an allowance past what the port's counters hold is out of range. -/
theorem creditSetBody_bad (hmode : s.portMode (arg p 16 2) = .service) (hset : arg p 20 1 ≠ 1)
    (hover : 2 ^ (s.port (arg p 16 2)).creditBits - 1 < arg p 19 1) : creditSetBody p s = .error (bad 19) := by
  have hin : (s.portMode (arg p 16 2) == .service) = true := beq_iff_eq.mpr hmode
  have hneed : (arg p 20 1 == 1 || !true || decide (arg p 19 1 ≤ 2 ^ creditWidth (s.port (arg p 16 2)).neg.cur.rate
      (s.port (arg p 16 2)).neg.cur.width - 1)) = false := by
    simpa [hset, PortSt.creditBits] using hover
  unfold creditSetFields at hfields
  unfold creditSetBody
  simp only [openQueues, houseOpen_ok s hhouse, hfields, hin, hneed]
  rfl

end

/-- An allowance of class c that has changed to a. -/
def CreditSt.allowing (c a : Nat) (x : CreditSt) : CreditSt :=
  { x with
    allowProt := if c = 0 then a else x.allowProt
    allowOrd := if c = 0 then x.allowOrd else a
    holdBack := (List.range 32).map fun i => x.holdBack.getD i 0 +
      (if i % 2 = c then ((if c = 0 then x.allowProt else x.allowOrd : Nat) : Int) - (a : Int) else 0) }

theorem setAllowance_eq (q c a : Nat) (s : State) : setAllowance q c a s = s.modCredit q (CreditSt.allowing c a) := rfl

/-- The allowance of the class is what the slip says, and the other class keeps its own. -/
theorem CreditSt.allowing_reads (c a : Nat) (x : CreditSt) :
    (if c = 0 then (x.allowing c a).allowProt else (x.allowing c a).allowOrd) = a ∧
      (if c = 0 then (x.allowing c a).allowOrd = x.allowOrd else (x.allowing c a).allowProt = x.allowProt) := by
  unfold allowing
  by_cases hc : c = 0 <;> simp only [hc, if_true, if_false, and_self]

theorem setAllowance_port {s : State} {q : Nat} (c a : Nat) (p : List Byte) (hr : Sparse.rises s.ports = true) (r : Nat) :
    (setAllowance q c a (s.modCredit q (CreditSt.setTo p))).port r =
      if r = q then { s.port q with credit := ((s.port q).credit.setTo p).allowing c a } else s.port r := by
  have hrises : Sparse.rises (s.modCredit q (CreditSt.setTo p)).ports = true := Sparse.rises_put _ _ _ _ hr
  rw [setAllowance_eq, State.modCredit_port _ _ _ _ hrises]
  simp only [s.modCredit_port _ _ _ hr, if_true]
  split <;> rfl

section
variable {s : State} {h : SlipHdr} {p : List Byte} (hhouse : s.modes.house ≠ .closing) (ht : s.takes 0x0707 .ordinary h p)
  (hfields : creditSetFields p)
include hhouse ht hfields

/-- Outside Service the setting is stored. -/
theorem creditSet_stores (hs : s.wf = true) (hmode : s.portMode (arg p 16 2) ≠ .service) :
    ∃ t, exec (.creditSet h p) s = .next t ∧ t.answered 0x0707 h St.ok [] ∧
      (t.port (arg p 16 2)).credit = (s.port (arg p 16 2)).credit.setTo p := by
  have hbody : creditSetBody p (s.begun 0x0707 h p) =
      okSlip ((s.begun 0x0707 h p).modCredit (arg p 16 2) (CreditSt.setTo p)) := by
    obtain ⟨x, g, n, hB⟩ := begun_reads s 0x0707 h p
    rw [hB]
    exact creditSetBody_stores (s := { s with slips := x, log := g, frame.freeCount := n }) hhouse hfields hmode
  obtain ⟨t, he, ha, -, hport⟩ := slip_ports (body := fun _ s => creditSetBody p s) ht hbody rfl
  refine ⟨t, he, ha, ?_⟩
  rw [hport, State.modCredit_port _ _ _ _ (begun_ports_rise s 0x0707 h p hs), if_pos rfl, begun_port]

/-- R199: in Service the allowance changes. -/
theorem creditSet_changes (hs : s.wf = true) (hmode : s.portMode (arg p 16 2) = .service)
    (hfit : arg p 20 1 = 1 ∨ arg p 19 1 ≤ 2 ^ (s.port (arg p 16 2)).creditBits - 1) :
    let c := (s.port (arg p 16 2)).credit
    ∃ t, exec (.creditSet h p) s = .next t ∧ t.answered 0x0707 h St.ok [] ∧
      (if arg p 18 1 = 0 then (t.port (arg p 16 2)).credit.allowProt else (t.port (arg p 16 2)).credit.allowOrd) =
        (if arg p 20 1 == 1 then defaultAllowance (s.port (arg p 16 2)).creditBits else arg p 19 1) ∧
      (if arg p 18 1 = 0 then (t.port (arg p 16 2)).credit.allowOrd = c.allowOrd
        else (t.port (arg p 16 2)).credit.allowProt = c.allowProt) ∧
      ∀ r, r ≠ arg p 16 2 → t.port r = s.port r := by
  intro c
  have hbody := creditSetBody_changes (s := s.begun 0x0707 h p) (p := p) (by rw [begun_eq]; exact hhouse) hfields
    (by rw [begun_eq]; exact hmode) (by rw [begun_port]; exact hfit)
  obtain ⟨t, he, ha, -, hport⟩ := slip_ports (body := fun _ s => creditSetBody p s) ht hbody rfl
  simp only [setAllowance_port _ _ _ (begun_ports_rise s 0x0707 h p hs), begun_port] at hport
  obtain ⟨hset, hkept⟩ := CreditSt.allowing_reads (arg p 18 1)
    (if arg p 20 1 == 1 then defaultAllowance (s.port (arg p 16 2)).creditBits else arg p 19 1) (c.setTo p)
  refine ⟨t, he, ha, ?_, ?_, fun r hr => (hport r).trans (if_neg hr)⟩ <;> rw [hport, if_pos rfl]
  · exact hset
  · exact hkept

/-- An allowance that does not fit is refused. -/
theorem creditSet_bad (hmode : s.portMode (arg p 16 2) = .service) (hset : arg p 20 1 ≠ 1)
    (hover : 2 ^ (s.port (arg p 16 2)).creditBits - 1 < arg p 19 1) :
    ∃ t, exec (.creditSet h p) s = .next t ∧ t.answered 0x0707 h St.badParam [] ∧ s.sameButSlips t := by
  have hbody := creditSetBody_bad (s := s.begun 0x0707 h p) (p := p) (by rw [begun_eq]; exact hhouse) hfields
    (by rw [begun_eq]; exact hmode) hset (by rw [begun_port]; exact hover)
  exact slip_error (body := fun _ s => creditSetBody p s) ht hbody rfl (by decide)

end

/-! ## The obligation -/

/-- Settles O37: EGRESS_SET by what becomes of its channel's pending set, CREDIT_SET by the port's mode. -/
theorem calendarAndCredit : Obligations.CalendarAndCredit := by
  unfold Obligations.CalendarAndCredit
  intro s h p hs hhouse port
  refine ⟨fun ht => ?_, fun ht => ?_⟩
  · intro np no ch e prot ord hfields hroom hentries hzero hfirst hmost hprot hord
    have hfits : s.egressSetFits ch p := ⟨hhouse, hfields, hroom, hentries, hzero, hfirst, hmost⟩
    refine ⟨fun hmore => ?_, fun hlast hgood => ?_, fun st hlast hbad hst => ?_⟩
    · obtain ⟨t, he, ha, hfab, hself, hother⟩ := egressSet_gathers hs ht hfits hmore
      obtain ⟨hprot', hord'⟩ := e.pending_reads ch prot ord
      exact ⟨t, he, ha, by rw [hself]; exact hprot', by rw [hself]; exact hord', by rw [hfab], hother⟩
    · obtain ⟨t, he, ha, hchanges, hself⟩ := egressSet_commits hs ht hfits hlast hgood
      obtain ⟨hprot', hord'⟩ := EgressSt.abandoned_reads (ch := ch) hprot hord
      exact ⟨t, _, he, ha, hchanges, rfl, rfl, rfl, by rw [hself]; exact hprot', by rw [hself]; exact hord', by rw [hself]; rfl,
        by rw [hself]; rfl⟩
    · obtain ⟨t, he, ha, hfab, hself⟩ := egressSet_refuses hs ht hfits hlast hst hbad
      obtain ⟨hprot', -⟩ := EgressSt.abandoned_reads (ch := ch) hprot hord
      exact ⟨t, he, ha, by rw [hfab], by rw [hself]; exact hprot', by rw [hself]; rfl, by rw [hself]; rfl⟩
  · intro cls a dflt c w hfields
    refine ⟨fun hmode => ?_, fun hmode hfit => ?_, fun hmode hset hover => ?_⟩
    · obtain ⟨t, he, ha, hself⟩ := creditSet_stores hhouse ht hfields hs hmode
      refine ⟨t, he, ha, hself.trans ?_⟩
      unfold CreditSt.setTo
      by_cases hcls : cls = 0
      · rw [if_pos hcls, if_pos hcls, if_pos hcls]
        rfl
      · rw [if_neg hcls, if_neg hcls, if_neg hcls]
        rfl
    · exact creditSet_changes hhouse ht hfields hs hmode (hfit.imp_left of_decide_eq_true)
    · exact creditSet_bad hhouse ht hfields hmode (of_decide_eq_false hset) hover

end Sys2Proof.Machine
end

section
/-! PROOFS. Every command has a next state but for two, and the state after reset has the form. -/

namespace Sys2Proof.Machine
open Sys2Proof

theorem memoryLayerRead_ends (req : Byte) (w : Nat) (f : Found) (s : State) :
    (∃ t, exec (.memoryLayerRead req w f) s = .next t) ∨
      (exec (.memoryLayerRead req w f) s = .fault .noSuchAddress ∧ layerSize ≤ 8 * w) := by
  by_cases hw : layerSize ≤ 8 * w
  · exact .inr ⟨if_pos hw, hw⟩
  · exact .inl ⟨_, if_neg hw⟩

theorem memoryLayerWrite_ends (req : Byte) (a : Nat) (data : List Byte) (f : Found) (s : State) :
    (∃ t, exec (.memoryLayerWrite req a data f) s = .next t) ∨
      (exec (.memoryLayerWrite req a data f) s = .fault .noSuchAddress ∧ layerSize < a + data.length) := by
  by_cases ha : layerSize < a + data.length
  · exact .inr ⟨if_pos ha, ha⟩
  · exact .inl ⟨_, if_neg ha⟩

theorem ite_next (c : Prop) [Decidable c] (a b : State) :
    ∃ t, (if c then .next a else .next b : Host.Outcome State Fault Refusal) = .next t :=
  ⟨if c then a else b, (apply_ite _ c a b).symm⟩

/-- Settles O2: the two accesses of the memory layer look at their address first, and every other command ends in `run` or
`done`. -/
theorem everyCommandEnds : Obligations.EveryCommandEnds := by
  intro c s
  cases c with
  | memoryLayerRead r w f =>
    exact (memoryLayerRead_ends r w f s).imp_right fun ⟨hfault, hpast⟩ => ⟨hfault, .inl ⟨r, w, f, rfl, hpast⟩⟩
  | memoryLayerWrite r a d f =>
    exact (memoryLayerWrite_ends r a d f s).imp_right fun ⟨hfault, hpast⟩ => ⟨hfault, .inr ⟨r, a, d, f, rfl, hpast⟩⟩
  | slipUnknownOpcode op h p => exact .inl (ite_next ..)
  | rrReg dr cycle => exact .inl (ite_next ..)
  | rrMem dr f path => exact .inl (ite_next ..)
  | _ => exact .inl ⟨_, rfl⟩

/-- Settles O4: at reset the stores and tables are empty but for the rights of R253, and the lists have their places. -/
theorem resetHasForm : Obligations.ResetHasForm := by
  unfold Obligations.ResetHasForm
  decide

end Sys2Proof.Machine
end

section
/-! PROOFS. Regions of the memory layer: a walk over the units of a region is one write, and layer addresses stand apart
(R217, R226, R229). -/

namespace Sys2Proof.Machine
open Sys2Proof

/-! ## A region of the layer is one write (R226, R229) -/

theorem layerWrite_append (a : Nat) (l m : List Byte) (s : State) :
    layerWrite a (l ++ m) s = layerWrite (a + l.length) m (layerWrite a l s) := by
  induction l generalizing a s with
  | nil => rfl
  | cons b l ih =>
    rw [List.cons_append, List.length_cons, show a + (l.length + 1) = a + 1 + l.length by omega]
    exact ih (a + 1) _

/-- What decides whether an access of the layer is served stands through a write of its bytes. -/
theorem layerWrite_servedAt (a : Nat) (l : List Byte) (s : State) (req x : Nat) :
    (layerWrite a l s).servedAt req x = s.servedAt req x := by
  rw [(layerWrite_onlyLayer a l s).1]
  rfl

theorem layerWrite_physRetired (a : Nat) (l : List Byte) (s : State) (x : Nat) :
    (layerWrite a l s).physRetired x = s.physRetired x := by
  rw [(layerWrite_onlyLayer a l s).1]
  rfl

/-- Bytes of a check word that is served and reads clean are written. -/
theorem writeWord_clean {s : State} {req a : Nat} (l : List Byte) (hserved : s.servedAt req a = true)
    (hheld : s.physRetired (s.layerPhys a / 65536) = false) : writeWord req a l .clean s = (.ok, layerWrite a l s) := by
  unfold writeWord
  rw [hserved, hheld]
  simp [foundBad, memFinding]

/-- The end of the first k pieces of a region. -/
def piecesEnd (unit a len k : Nat) : Nat := if k = 0 then a else min (a + len) ((a / unit + k) * unit)

theorem slice_inside {l : List Byte} {off n : Nat} (h : off + n ≤ l.length) : slice l off n = (l.drop off).take n := by
  have hlen : ((l.drop off).take n).length = n := by rw [List.length_take, List.length_drop]; omega
  simp [slice, hlen]

section
variable {s : State} {m req a : Nat} {data : List Byte} (hserved : ∀ i < data.length, s.servedAt req (a + i) = true)
  (hheld : ∀ i < data.length, s.physRetired (s.layerPhys (a + i) / 65536) = false)
include hserved hheld

/-- The walk has written what lies before the end of the pieces it has passed. -/
theorem writeRegion_upTo (k : Nat) (hk : k ≤ (a + data.length - 1) / 8 + 1 - a / 8) (hne : 0 < data.length) :
    ((List.range k).map fun i =>
        (max a ((a / 8 + i) * 8), min (a + data.length) ((a / 8 + i + 1) * 8) - max a ((a / 8 + i) * 8))).foldl
      (fun w (b, n) => w.next b (writePiece 0 m req b (slice data (b - a) n) (foundAt [] 8 b))) (Walk.start s) =
    ⟨.ok, noFail, [], layerWrite a (data.take (piecesEnd 8 a data.length k - a)) s⟩ := by
  induction k with
  | zero => simp [piecesEnd, layerWrite, Walk.start]
  | succ k ih =>
    rw [List.range_succ, List.map_append, List.foldl_append, ih (by omega)]
    have hb : max a ((a / 8 + k) * 8) = piecesEnd 8 a data.length k := by unfold piecesEnd; split <;> omega
    obtain ⟨j, hj⟩ : ∃ j, piecesEnd 8 a data.length k = a + j := ⟨piecesEnd 8 a data.length k - a, by omega⟩
    obtain ⟨n, hn⟩ : ∃ n, piecesEnd 8 a data.length (k + 1) = a + j + n :=
      ⟨piecesEnd 8 a data.length (k + 1) - (a + j), by
        unfold piecesEnd at hj ⊢
        split at hj <;> simp only [Nat.add_eq_zero_iff] <;> split <;> omega⟩
    have hend : min (a + data.length) ((a / 8 + k + 1) * 8) = a + j + n := by
      rw [← hn]; unfold piecesEnd; rw [if_neg (Nat.succ_ne_zero k), Nat.add_assoc]
    have hin : j + n ≤ data.length := by omega
    have hjlt : j < data.length := by unfold piecesEnd at hj; split at hj <;> omega
    have hw := writeWord_clean (s := layerWrite a (data.take j) s) (req := req) (a := a + j) ((data.drop j).take n)
      (by rw [layerWrite_servedAt]; exact hserved j hjlt)
      (by rw [layerWrite_physRetired, layerWrite_phys]; exact hheld j hjlt)
    have hlen : (data.take j).length = j := by rw [List.length_take]; omega
    have happ : layerWrite a (data.take (j + n)) s = layerWrite (a + j) ((data.drop j).take n) (layerWrite a (data.take j) s) := by
      rw [List.take_add, layerWrite_append, hlen]
    have hupto : a + j + n - a = j + n := by omega
    simp only [List.map_cons, List.map_nil, List.foldl_cons, List.foldl_nil, hb, hj, hn, hend, Nat.add_sub_cancel_left,
      slice_inside hin, hupto, happ]
    simp [Walk.next, Acc.isOk, writePiece, foundAt, hw]

/-- R226: the units of a region that is served and that no retirement touches are all written. -/
theorem writeRegion_layer (hne : 0 < data.length) :
    writeRegion 0 m req a data [] s = ⟨.ok, noFail, [], layerWrite a data s⟩ := by
  have hall := writeRegion_upTo (m := m) hserved hheld ((a + data.length - 1) / 8 + 1 - a / 8) le_rfl hne
  have hend : data.length ≤ piecesEnd 8 a data.length ((a + data.length - 1) / 8 + 1 - a / 8) - a := by
    unfold piecesEnd; split <;> omega
  rw [List.take_of_length_le hend] at hall
  unfold writeRegion pieces
  rw [if_neg (by omega)]
  exact hall

end

/-! ## Layer addresses stand apart (R11, R217) -/

theorem State.layerPhys_inj (s : State) {x y : Nat} (h : s.layerPhys x = s.layerPhys y) : x = y := by
  have hx := s.phys_lt (x / 65536 / 144) (Nat.mod_lt (x / 65536 / 4) (by decide : 36 > 0))
  have hy := s.phys_lt (y / 65536 / 144) (Nat.mod_lt (y / 65536 / 4) (by decide : 36 > 0))
  simp only [State.layerPhys, State.bankIndex] at h
  have hbay : x / 65536 / 144 = y / 65536 / 144 := by omega
  have hphys : s.phys (x / 65536 / 144) (x / 65536 / 4 % 36) = s.phys (y / 65536 / 144) (y / 65536 / 4 % 36) := by omega
  rw [hbay] at hphys
  have := s.phys_inj _ (Nat.mod_lt _ (by decide)) (Nat.mod_lt _ (by decide)) hphys
  omega

/-- A write changes the bytes behind its addresses alone. -/
theorem layerWrite_look_others (a : Nat) (l : List Byte) {s : State} (hr : Sparse.rises s.mem.layer = true) {x : Nat}
    (hx : ∀ i < l.length, x ≠ s.layerPhys (a + i)) : Sparse.look (layerWrite a l s).mem.layer x = Sparse.look s.mem.layer x := by
  induction l generalizing a s with
  | nil => rfl
  | cons b l ih =>
    have hcell := layerCell_rises s.mem.zeroed s.mem.layer (s.layerPhys a) b hr
    have hrest := ih (a + 1)
        (s := { s with mem.layer := layerCell s.mem.zeroed s.mem.layer (s.layerPhys a) b }) hcell fun i hi => by
      have := hx (i + 1) (Nat.succ_lt_succ hi)
      rwa [show a + (i + 1) = a + 1 + i by omega] at this
    exact hrest.trans (layerCell_look_apart _ _ b hr (hx 0 (Nat.succ_pos _)))

theorem layerWrite_byte_self (a : Nat) (l : List Byte) {s : State} (hr : Sparse.rises s.mem.layer = true) (i : Nat)
    (hi : i < l.length) : (layerWrite a l s).layerByte (s.layerPhys (a + i)) = l[i] := by
  induction l generalizing a s i with
  | nil => cases hi
  | cons b l ih =>
    have hcell := layerCell_rises s.mem.zeroed s.mem.layer (s.layerPhys a) b hr
    cases i with
    | zero =>
      have hlook := layerWrite_look_others (a + 1) l (s := { s with
        mem.layer := layerCell s.mem.zeroed s.mem.layer (s.layerPhys a) b }) hcell (x := s.layerPhys a) fun i _ h => by
          have := s.layerPhys_inj h
          omega
      unfold State.layerByte
      rw [(layerWrite_onlyLayer a (b :: l) s).1]
      show (Sparse.look (layerWrite (a + 1) l _).mem.layer (s.layerPhys a)).getD _ = b
      rw [hlook]
      exact layerCell_look_self s.mem.zeroed s.mem.layer (s.layerPhys a) b _ hr
    | succ i =>
      have := ih (a + 1) (s := { s with mem.layer := layerCell s.mem.zeroed s.mem.layer (s.layerPhys a) b }) hcell i
        (Nat.lt_of_succ_lt_succ hi)
      rwa [show a + 1 + i = a + (i + 1) by omega] at this

/-- A write reads back. -/
theorem layerWrite_readBack (a : Nat) (l : List Byte) {s : State} (hr : Sparse.rises s.mem.layer = true) :
    (layerWrite a l s).layerRead a l.length = l := by
  rw [State.layerRead_eq]
  refine List.ext_getElem (by simp) fun i hi hl => ?_
  rw [List.getElem_map, List.getElem_range, layerWrite_phys, layerWrite_byte_self a l hr i hl]

/-- Settles O22: the walk is one write of the layer (`writeRegion_layer`), and layer addresses stand apart. -/
theorem layerRegionReadsBack : Obligations.LayerRegionReadsBack := by
  intro s m req a data hs hserved hne hend hheld
  rw [writeRegion_layer hserved hheld hne]
  have hr := s.wf_mem_layer hs
  exact ⟨rfl, layerWrite_readBack a data hr, fun x hx => layerWrite_look_others a data hr hx⟩



end Sys2Proof.Machine
end

section
/-! PROOFS. One access of the memory layer: reads and writes by check word, errors and retired banks (R217, R227 to R229). -/

namespace Sys2Proof.Machine
open Sys2Proof

/-! ## One access of the layer (R217, R227 to R229) -/

theorem raise_mem (c : EvClass) (code : BitVec 16) (sub : Nat) (d : List (Nat × Nat)) (s : State) :
    (raise c code sub d s).mem = s.mem := by
  rw [raise_eq]

theorem State.onlyStores.tables {s t : State} (h : s.onlyStores t) : t.queues = s.queues ∧ t.flows = s.flows := by
  rw [h]
  exact ⟨rfl, rfl⟩

theorem memFinding_zeroed (req a : Nat) (f : Found) (write : Bool) (s : State) :
    (memFinding req a f write s).mem.zeroed = s.mem.zeroed := by
  cases f with
  | clean | macFail => rfl
  | corrected pos v =>
    show (raise _ _ _ _ _).mem.zeroed = _
    rw [raise_mem]
  | uncorrectable syn =>
    show (raise _ _ _ _ _).mem.zeroed = _
    rw [raise_mem]

/-- What a finding leaves of the layer: its bytes, where they stand, and the queues, flows and day book. -/
theorem memFinding_layer (req a : Nat) (f : Found) (write : Bool) (s : State) :
    (memFinding req a f write s).mem.layer = s.mem.layer ∧ (memFinding req a f write s).log.sameRing s.log ∧
      s.onlyStores (memFinding req a f write s) := by
  have hbeside := memFinding_besideFindings req a f write s
  simp only [State.besideFindings, Prod.mk.injEq] at hbeside
  obtain ⟨-, -, hlayer, -, hring, hrptr⟩ := hbeside
  exact ⟨hlayer, ⟨hring, hrptr⟩, memFinding_onlyStores (.refl s) req a f write⟩

theorem memFinding_layerRead (req a : Nat) (f : Found) (write : Bool) (s : State) (x n : Nat) :
    (memFinding req a f write s).layerRead x n = s.layerRead x n := by
  obtain ⟨hlayer, -, honly⟩ := memFinding_layer req a f write s
  unfold State.layerRead
  rw [hlayer, memFinding_zeroed, honly]
  rfl

theorem memFinding_corrected (req a : Nat) (pos : Nat) (v : Byte) (s : State) :
    (memFinding req a (.corrected pos v) false s).mem.ce = min 65535 (s.mem.ce + 1) ∧
      (memFinding req a (.corrected pos v) false s).told .info 0x0805 req :=
  ⟨congrArg MemSt.ce (raise_mem ..), raise_told ..⟩

theorem memFinding_uncorrectable (req a : Nat) (syn : Byte) (s : State) :
    (memFinding req a (.uncorrectable syn) false s).mem.ue = min 65535 (s.mem.ue + 1) ∧
      (memFinding req a (.uncorrectable syn) false s).told .alarm 0x0801 req :=
  ⟨congrArg MemSt.ue (raise_mem ..), raise_told ..⟩

/-- An access of the layer leaves queues, flows and day book as they were: its next state is what it did. -/
theorem layerAccess_runs {F : State → State} {s : State} (hup : s.awake = true) (hq : (F s).queues = s.queues)
    (hf : (F s).flows = s.flows) (hr : (F s).log.sameRing s.log) : run (when s.awake F) s = .next (inOneCycle F s) := by
  have hwhen : when s.awake F s = F s := by rw [hup]; rfl
  have hcycle : inOneCycle (when s.awake F) s = inOneCycle F s := by unfold inOneCycle; rw [hwhen]
  rw [run_same _ s (by rw [hwhen]; exact hq) (by rw [hwhen]; exact hf) (by rw [hwhen]; exact hr), hcycle]

/-- R217: a check word stands in one physical bank. -/
theorem State.layerPhys_word (s : State) {a i : Nat} (hi : a % 8 + i < 8) : s.layerPhys (a + i) = s.layerPhys a + i := by
  have hbank : (a + i) / 65536 = a / 65536 := by omega
  have hbyte : (a + i) % 65536 = a % 65536 + i := by omega
  simp only [State.layerPhys]
  rw [hbank, hbyte, Nat.add_assoc]

section
variable {s : State} {req : Byte} {w a : Nat} {data : List Byte} {f : Found} (hup : s.awake = true)
include hup

/-- R227: a word that is served is read as it stands, and what its check code finds is counted and logged. -/
theorem memoryLayerRead_reads (hw : 8 * w < layerSize) (hserved : s.servedAt req.toNat (8 * w) = true)
    (hheld : s.physRetired (s.layerPhys (8 * w) / 65536) = false) :
    ∃ t, exec (.memoryLayerRead req w f) s = .next t ∧ t.mem.layer = s.mem.layer ∧ t.mem.lastError = foundBad f ∧
      (foundBad f = false → t.mem.lastData = s.layerRead (8 * w) 8) ∧
      (∀ pos v, f = .corrected pos v → t.mem.ce = min 65535 (s.mem.ce + 1) ∧ t.told .info 0x0805 req.toNat) ∧
      (∀ syn, f = .uncorrectable syn → t.mem.ue = min 65535 (s.mem.ue + 1) ∧ t.told .alarm 0x0801 req.toNat) := by
  obtain ⟨hlayer, hring, honly⟩ := memFinding_layer req.toNat (8 * w) f false s
  have hread : layerWordRead req.toNat w f s = answer (if foundBad f then .uncorrectable else .ok) 0 (s.layerRead (8 * w) 8)
      (memFinding req.toNat (8 * w) f false s) := by
    simp only [layerWordRead, readWord, hserved, hheld, Bool.not_true, Bool.false_eq_true, if_false, memFinding_layerRead]
  refine ⟨inOneCycle (layerWordRead req.toNat w f) s, ?_, ?_, ?_, fun hgood => ?_, ?_, ?_⟩
  · show (if layerSize ≤ 8 * w then _ else _) = _
    rw [if_neg (by omega)]
    refine layerAccess_runs hup ?_ ?_ ?_
    · rw [hread]; exact honly.tables.1
    · rw [hread]; exact honly.tables.2
    · rw [hread]; exact hring
  · rw [inOneCycle_log, hread]; exact hlayer
  · rw [inOneCycle_log, hread]
    unfold answer
    cases foundBad f <;> rfl
  · rw [inOneCycle_log, hread, hgood]; rfl
  · rintro pos v rfl
    obtain ⟨hcount, htold⟩ := memFinding_corrected req.toNat (8 * w) pos v s
    rw [inOneCycle_told, inOneCycle_log, hread]
    exact ⟨hcount, htold⟩
  · rintro syn rfl
    obtain ⟨hcount, htold⟩ := memFinding_uncorrectable req.toNat (8 * w) syn s
    rw [inOneCycle_told, inOneCycle_log, hread]
    exact ⟨hcount, htold⟩

/-- R228: what a retired bank holds is not reached, and the access is counted. -/
theorem memoryLayerRead_retired (hw : 8 * w < layerSize) (hserved : s.servedAt req.toNat (8 * w) = true)
    (hgone : s.physRetired (s.layerPhys (8 * w) / 65536) = true) :
    ∃ t, exec (.memoryLayerRead req w f) s = .next t ∧ t.mem.lastError = true ∧ t.mem.lastData = [] ∧
      t.mem.retireHits = min 65535 (s.mem.retireHits + 1) ∧ t.mem.layer = s.mem.layer := by
  have hread : layerWordRead req.toNat w f s =
      { (retiredHit req.toNat s).useFree with mem.lastError := true, mem.lastData := [] } := by
    simp only [layerWordRead, readWord, hserved, hgone, Bool.not_true, Bool.false_eq_true, if_false, if_true]
    rfl
  have honly := retiredHit_onlyStores (.refl s) req.toNat
  have hhit : (retiredHit req.toNat s).mem.layer = s.mem.layer ∧ (retiredHit req.toNat s).log.sameRing s.log ∧
      (retiredHit req.toNat s).mem.retireHits = min 65535 (s.mem.retireHits + 1) := by
    unfold retiredHit
    dsimp only
    split
    · exact ⟨rfl, ⟨rfl, rfl⟩, rfl⟩
    · refine ⟨?_, raise_ring .., ?_⟩
      · show (raise _ _ _ _ _).mem.layer = _
        rw [raise_mem]
      · show (raise _ _ _ _ _).mem.retireHits = _
        rw [raise_mem]
        rfl
  obtain ⟨hlayer, hring, hcount⟩ := hhit
  refine ⟨inOneCycle (layerWordRead req.toNat w f) s, ?_, ?_, ?_, ?_, ?_⟩
  · show (if layerSize ≤ 8 * w then _ else _) = _
    rw [if_neg (by omega)]
    refine layerAccess_runs hup ?_ ?_ ?_
    · rw [hread]; exact honly.tables.1
    · rw [hread]; exact honly.tables.2
    · rw [hread]; exact hring
  · rw [inOneCycle_log, hread]
  · rw [inOneCycle_log, hread]
  · rw [inOneCycle_log, hread]; exact hcount
  · rw [inOneCycle_log, hread]; exact hlayer

/-- R229: bytes of a word are written whole, or merged with what the word's read finds good. -/
theorem memoryLayerWrite_writes (hs : s.wf = true) (hend : a + data.length ≤ layerSize) (hword : a % 8 + data.length ≤ 8)
    (hserved : s.servedAt req.toNat a = true) (hheld : s.physRetired (s.layerPhys a / 65536) = false)
    (hgood : (a % 8 = 0 ∧ data.length = 8) ∨ foundBad f = false) :
    ∃ t, exec (.memoryLayerWrite req a data f) s = .next t ∧ t.mem.lastError = false ∧
      t.layerRead a data.length = data ∧ t.mem.zeroed = s.mem.zeroed ∧
      (∀ x, (x < s.layerPhys a ∨ s.layerPhys a + data.length ≤ x) → Sparse.look t.mem.layer x = Sparse.look s.mem.layer x) := by
  obtain ⟨u, hwrite, hlayer, hzeroed, hring, honly⟩ : ∃ u, writeWord req.toNat a data f s = (.ok, layerWrite a data u) ∧
      u.mem.layer = s.mem.layer ∧ u.mem.zeroed = s.mem.zeroed ∧ u.log.sameRing s.log ∧ s.onlyStores u := by
    simp only [writeWord, hserved, hheld, Bool.not_true, Bool.false_eq_true, if_false]
    by_cases hwhole : a % 8 = 0 ∧ data.length = 8
    · refine ⟨s, ?_, rfl, rfl, ⟨rfl, rfl⟩, .refl s⟩
      rw [if_pos (by simpa using hwhole)]
    · obtain ⟨hlayer, hring, honly⟩ := memFinding_layer req.toNat a f true s
      refine ⟨memFinding req.toNat a f true s, ?_, hlayer, memFinding_zeroed .., hring, honly⟩
      rw [if_neg (by simpa using hwhole), if_neg (by simpa using hgood.resolve_left hwhole)]
  have hphys : ∀ x, u.layerPhys x = s.layerPhys x := fun x => by rw [honly]; rfl
  have hr : Sparse.rises u.mem.layer = true := by rw [hlayer]; exact s.wf_mem_layer hs
  have hback := layerWrite_readBack a data hr
  have hothers : ∀ x, (x < s.layerPhys a ∨ s.layerPhys a + data.length ≤ x) →
      Sparse.look (layerWrite a data u).mem.layer x = Sparse.look s.mem.layer x := fun x hx => by
    rw [layerWrite_look_others a data hr fun i hi => ?_, hlayer]
    have hin : a % 8 + i < 8 := by omega
    rw [hphys, s.layerPhys_word hin]
    omega
  have hkept := (layerWrite_onlyLayer a data u).1
  have hbytes : layerBytesWrite req.toNat a data f s =
      { layerWrite a data u with mem.lastError := false, mem.lastData := [] } := by
    simp only [layerBytesWrite, hwrite]
    rfl
  refine ⟨inOneCycle (layerBytesWrite req.toNat a data f) s, ?_, ?_, ?_, ?_, ?_⟩
  · show (if layerSize < a + data.length then _ else _) = _
    rw [if_neg (by omega)]
    refine layerAccess_runs hup ?_ ?_ ?_
    · rw [hbytes]; exact (congrArg State.queues hkept).trans honly.tables.1
    · rw [hbytes]; exact (congrArg State.flows hkept).trans honly.tables.2
    · rw [hbytes, hkept]; exact hring
  · rw [inOneCycle_log, hbytes]
  · rw [inOneCycle_log, hbytes]; exact hback
  · rw [inOneCycle_log, hbytes]; exact (congrArg (fun t : State => t.mem.zeroed) hkept).trans hzeroed
  · rw [inOneCycle_log, hbytes]; exact hothers

/-- R229: a partial write of a word that cannot be corrected is refused. -/
theorem memoryLayerWrite_refused (hend : a + data.length ≤ layerSize) (hserved : s.servedAt req.toNat a = true)
    (hheld : s.physRetired (s.layerPhys a / 65536) = false) (hpart : ¬(a % 8 = 0 ∧ data.length = 8)) (hbad : foundBad f = true) :
    ∃ t, exec (.memoryLayerWrite req a data f) s = .next t ∧ t.mem.lastError = true ∧ t.mem.layer = s.mem.layer ∧
      t.told .warning 0x0804 req.toNat := by
  obtain ⟨hlayer, hring, honly⟩ := memFinding_layer req.toNat a f true s
  have hrefused : layerBytesWrite req.toNat a data f s =
      { refuseWrite req.toNat (memFinding req.toNat a f true s) with mem.lastError := true, mem.lastData := [] } := by
    simp only [layerBytesWrite, writeWord, hserved, hheld, hbad, Bool.not_true, Bool.false_eq_true, if_false, if_true]
    rw [if_neg (by simpa using hpart)]
    rfl
  obtain ⟨hqueues, hflows⟩ : (refuseWrite req.toNat (memFinding req.toNat a f true s)).queues = s.queues ∧
      (refuseWrite req.toNat (memFinding req.toNat a f true s)).flows = s.flows := honly.raised.tables
  obtain ⟨hring', hrptr'⟩ := raise_ring .warning 0x0804 req.toNat [] (memFinding req.toNat a f true s)
  refine ⟨inOneCycle (layerBytesWrite req.toNat a data f) s, ?_, ?_, ?_, ?_⟩
  · show (if layerSize < a + data.length then _ else _) = _
    rw [if_neg (by omega)]
    refine layerAccess_runs hup ?_ ?_ ?_
    · rw [hrefused]; exact hqueues
    · rw [hrefused]; exact hflows
    · rw [hrefused]; exact ⟨hring'.trans hring.1, hrptr'.trans hring.2⟩
  · rw [inOneCycle_log, hrefused]
  · rw [inOneCycle_log, hrefused]
    simp only [refuseWrite, warn, raise_mem, hlayer]
  · rw [inOneCycle_told, hrefused]; exact raise_told ..

end

/-- Settles O20: a word that is served is read or written as its check code lets it be; past the last address is a fault. -/
theorem layerAccess : Obligations.LayerAccess := by
  intro s req w a data f hs
  refine ⟨fun hw => if_pos hw, fun ha => if_pos ha, ?_, ?_, ?_, ?_⟩
  · exact fun hw hup hserved hheld => memoryLayerRead_reads hup hw hserved hheld
  · exact fun hw hup hserved hgone => memoryLayerRead_retired hup hw hserved hgone
  · exact fun hend hword hup hserved hheld hgood => memoryLayerWrite_writes hup hs hend hword hserved hheld hgood
  · exact fun hend hup hserved hheld hpart hbad => memoryLayerWrite_refused hup hend hserved hheld hpart hbad

end Sys2Proof.Machine
end

section
/-! PROOFS. RETIRE and RETIRE_CLEAR (R231, R232, R392). -/

namespace Sys2Proof.Machine
open Sys2Proof

/-- The entry that RETIRE names: a page by its index, a bank by that of the physical bank behind it. -/
def State.retireEntry (s : State) (p : List Byte) : RetireEntry :=
  let n := arg p 20 4
  { bank := arg p 16 1 == 1, index := if arg p 16 1 = 0 then n else s.bankIndex (n / 144) (n / 4 % 36) (n % 4),
    inForce := arg p 16 1 == 0 || s.bayMode (n / 144) == .bindery }

/-- The table holds an entry for the same page or bank. -/
def State.holdsRetired (s : State) (e : RetireEntry) : Bool := s.mem.retired.any fun r => r.bank == e.bank && r.index == e.index

/-- The entry joins the table, unless it is held; a page of the loader's areas takes with it what stood there (R278). -/
def retireIn (p : List Byte) (s : State) : State :=
  if s.holdsRetired (s.retireEntry p) then s
  else { (if arg p 16 1 = 0 then loseArea (arg p 20 4) s else s) with mem.retired := s.mem.retired ++ [s.retireEntry p] }

/-- What RETIRE does, its checks passed. -/
def retireTo (p : List Byte) (s : State) : State :=
  if arg p 17 1 = 1 then persist (s.retireEntry p).record (retireIn p s) else retireIn p s

theorem retireBody_ok {p : List Byte} {s : State}
    (hfields : fields [⟨16, 1, arg p 16 1 < 2⟩, ⟨17, 1, arg p 17 1 < 2⟩,
      ⟨20, 4, if arg p 16 1 = 0 then arg p 20 4 < 2 ^ 23 else arg p 20 4 < 4608⟩] p = .ok ())
    (hroom : s.mem.retired.length < 1024)
    (hfree : arg p 16 1 = 0 ∨ (Sparse.get .dflt (s.banksAhead []) (arg p 20 4)).pool = false ∨
      (Sparse.get .dflt (s.banksAhead []) (arg p 20 4)).user = 0x13) :
    retireBody p s = okResult (retireTo p s) (leBytes 2 (retireTo p s).mem.retired.length) := by
  have hfull : (s.holdsRetired (s.retireEntry p) || decide (s.mem.retired.length < 1024)) = true := by simp [hroom]
  have huse : (s.holdsRetired (s.retireEntry p) || arg p 16 1 == 0 ||
      !(Sparse.get .dflt (s.banksAhead []) (arg p 20 4)).pool ||
      (Sparse.get .dflt (s.banksAhead []) (arg p 20 4)).user == 0x13) = true := by
    simpa [or_assoc] using Or.inr hfree
  have hneeds := And.intro (need_ok hfull (fail St.retireFull)) (need_ok huse (fail St.bankInUse))
  unfold State.holdsRetired State.retireEntry at hneeds
  unfold retireBody
  simp only [hfields, hneeds]
  rfl

/-- The table and the record to be written are all that RETIRE changes, but for what is lost of the loader's areas. -/
theorem retireIn_only (p : List Byte) (s : State) :
    retireIn p s = { s with mem := (retireIn p s).mem, cfg := (retireIn p s).cfg, fab := (retireIn p s).fab } := by
  unfold retireIn
  split
  · rfl
  · split <;> rfl

theorem persist_only (e : List Byte) (s : State) : persist e s = { s with stock := (persist e s).stock } := by
  unfold persist
  dsimp only
  split <;> rfl

theorem retireTo_mem (p : List Byte) (s : State) : (retireTo p s).mem = (retireIn p s).mem := by
  unfold retireTo
  split
  · rw [persist_only]
  · rfl

theorem retireTo_keeps (p : List Byte) (s : State) : (retireTo p s).queues = s.queues ∧ (retireTo p s).flows = s.flows ∧
    (retireTo p s).log = s.log ∧ (retireTo p s).slips = s.slips := by
  have hin : (retireIn p s).queues = s.queues ∧ (retireIn p s).flows = s.flows ∧ (retireIn p s).log = s.log ∧
      (retireIn p s).slips = s.slips := by
    rw [retireIn_only]
    exact ⟨rfl, rfl, rfl, rfl⟩
  unfold retireTo
  split
  · rw [persist_only]
    exact hin
  · exact hin

theorem retireTo_retired (p : List Byte) (s : State) : (retireTo p s).mem.retired =
    if s.holdsRetired (s.retireEntry p) then s.mem.retired else s.mem.retired ++ [s.retireEntry p] := by
  rw [retireTo_mem]
  unfold retireIn
  split <;> rfl

theorem retireTo_record {p : List Byte} (s : State) (h : arg p 17 1 = 0) : (retireTo p s).stock = s.stock := by
  unfold retireTo
  rw [if_neg (by omega), retireIn_only]

theorem State.holdsRetired_iff (s : State) (e : RetireEntry) :
    s.holdsRetired e = true ↔ ∃ r ∈ s.mem.retired, r.bank = e.bank ∧ r.index = e.index := by
  simp [State.holdsRetired]

/-- What a slip's start leaves of the table and of what RETIRE reads. -/
theorem begun_retireEntry (s : State) (op : BitVec 16) (h : SlipHdr) (p : List Byte) :
    (s.begun op h p).mem = s.mem ∧ (s.begun op h p).retireEntry p = s.retireEntry p ∧
      (s.begun op h p).banksAhead [] = s.banksAhead [] ∧ (s.begun op h p).stock = s.stock := by
  obtain ⟨x, g, n, hB⟩ := begun_reads s op h p
  rw [hB]
  exact ⟨rfl, rfl, rfl, rfl⟩

theorem retire_enters {s : State} {h : SlipHdr} {p : List Byte} (ht : s.takes 0x0805 .ordinary h p)
    (hfields : fields [⟨16, 1, arg p 16 1 < 2⟩, ⟨17, 1, arg p 17 1 < 2⟩,
      ⟨20, 4, if arg p 16 1 = 0 then arg p 20 4 < 2 ^ 23 else arg p 20 4 < 4608⟩] p = .ok ())
    (hroom : s.mem.retired.length < 1024)
    (hfree : arg p 16 1 = 0 ∨ (Sparse.get .dflt (s.banksAhead []) (arg p 20 4)).pool = false ∨
      (Sparse.get .dflt (s.banksAhead []) (arg p 20 4)).user = 0x13) :
    ∃ t, exec (.retire h p) s = .next t ∧ t.answered 0x0805 h St.ok (leBytes 2 t.mem.retired.length) ∧
      t.mem.retired = (if s.holdsRetired (s.retireEntry p) then s.mem.retired else s.mem.retired ++ [s.retireEntry p]) ∧
      (arg p 17 1 = 0 → t.stock = s.stock) := by
  obtain ⟨hmem, hentry, hbanks, hstock⟩ := begun_retireEntry s 0x0805 h p
  have hbody := retireBody_ok hfields (s := s.begun 0x0805 h p) (by rw [hmem]; exact hroom) (by rw [hbanks]; exact hfree)
  have hkeeps := retireTo_keeps p (s.begun 0x0805 h p)
  have hretired := retireTo_retired p (s.begun 0x0805 h p)
  have hrecord := retireTo_record (p := p) (s.begun 0x0805 h p)
  unfold State.holdsRetired at hretired
  rw [hmem, hentry] at hretired
  rw [hstock] at hrecord
  generalize retireTo p (s.begun 0x0805 h p) = u at hbody hkeeps hretired hrecord
  obtain ⟨hqueues, hflows, hlog, hslips⟩ := hkeeps
  obtain ⟨t, he, ha, -, ht'⟩ := slip_ok_same (body := fun _ s => retireBody p s) ht hbody rfl
    ((congrArg (fun s : SlipSt => s.chans.length) hslips).trans (begun_length ..))
    (hqueues.trans (congrArg State.queues (begun_eq s 0x0805 h p) :))
    (hflows.trans (congrArg State.flows (begun_eq s 0x0805 h p) :)) (hlog ▸ begun_ring ..)
  have htmem : t.mem = u.mem := (congrArg State.mem ht' :)
  exact ⟨t, he, by rw [htmem]; exact ha, by rw [htmem]; exact hretired,
    fun hkind => (congrArg State.stock ht' :).trans (hrecord hkind)⟩

/-- What RETIRE_CLEAR leaves of the table. -/
def clearedTable (p : List Byte) (l : List RetireEntry) : List RetireEntry :=
  l.filter fun r => !(arg p 16 1 == 2 || (r.bank == (arg p 16 1 == 1) && r.index == arg p 20 4))

theorem retireClear_removes {s : State} {h : SlipHdr} {p : List Byte} (ht : s.takes 0x0806 .fencing h p)
    (hmode : s.modes.house = .bindery)
    (hfields : fields [⟨16, 1, arg p 16 1 < 3⟩, ⟨20, 4, if arg p 16 1 = 0 then arg p 20 4 < 2 ^ 23
      else if arg p 16 1 = 1 then arg p 20 4 < 4864 else arg p 20 4 = 0⟩] p = .ok ()) :
    ∃ t, exec (.retireClear h p) s = .next t ∧
      t.answered 0x0806 h St.ok (leBytes 2 (s.mem.retired.length - t.mem.retired.length)) ∧
      t.mem.retired = clearedTable p s.mem.retired := by
  have hB := begun_eq s 0x0806 h p
  have hmem : (s.begun 0x0806 h p).mem = s.mem := (congrArg State.mem hB :)
  have hhouse : houseIn (s.begun 0x0806 h p) [.bindery] = .ok () :=
    need_ok (by rw [(congrArg State.modes hB :)]; simp [hmode, modeIn]) _
  obtain ⟨t, he, ha, -, ht'⟩ := slip_ok_same (body := fun _ s => retireClearBody p s) (o := {
      state := { s.begun 0x0806 h p with mem.retired := clearedTable p (s.begun 0x0806 h p).mem.retired }
      result := leBytes 2 ((s.begun 0x0806 h p).mem.retired.length -
        (clearedTable p (s.begun 0x0806 h p).mem.retired).length) }) ht
    (by unfold retireClearBody; simp only [hhouse, hfields]; rfl) rfl (begun_length ..) (congrArg State.queues hB :)
    (congrArg State.flows hB :) (begun_ring ..)
  have hleft := congrArg (fun t : State => t.mem.retired) ht'
  dsimp only at ha hleft
  rw [hmem] at ha hleft
  exact ⟨t, he, by rw [hleft]; exact ha, hleft⟩

/-- Settles O24: RETIRE's entry joins the table unless it stands there, RETIRE_CLEAR filters it. -/
theorem retireSlips : Obligations.RetireSlips := by
  intro s h p
  refine ⟨fun ht hfields hroom hfree => ?_, fun ht hmode hfields => retireClear_removes ht hmode hfields⟩
  obtain ⟨t, he, ha, hretired, hrecord⟩ := retire_enters ht hfields hroom hfree
  refine ⟨t, he, ha, ?_, fun hnew => ?_, fun hheld => ?_, fun hkind => congrArg StockSt.recordWrite (hrecord hkind)⟩
  · rw [hretired]
    split
    · next hheld => exact (s.holdsRetired_iff _).mp hheld
    · exact ⟨s.retireEntry p, by simp, rfl, rfl⟩
  · rw [hretired, if_neg fun hheld => ?_]
    · rfl
    · obtain ⟨r, hr, hbank, hindex⟩ := (s.holdsRetired_iff _).mp hheld
      exact hnew r hr hbank hindex
  · rw [hretired, if_pos ((s.holdsRetired_iff _).mpr hheld)]

end Sys2Proof.Machine
end

section
/-! PROOFS. What work in the stores leaves: the ledger's, the check codes', and that of walks over a region (R226 to R250). -/

namespace Sys2Proof.Machine
open Sys2Proof

/-! ## What the ledger and its findings leave (R227, R228, R236 to R250) -/

/-- The form of the parts that the stores' work may change. -/
theorem wf_withCrypto {s : State} (h : s.wf = true) (c : CryptoSt) (hn : Sparse.rises c.nodes = true)
    (hv : Sparse.rises c.vols = true) (hr : Sparse.rises c.rights = true) : { s with crypto := c }.wf = true :=
  Formed.wf { s.formed h with crypto_nodes := hn, crypto_vols := hv, crypto_rights := hr }

theorem wf_withSide {s : State} (h : s.wf = true) (m : List Host.Cell) (hm : Sparse.rises m = true) :
    { s with mem.side := m }.wf = true :=
  Formed.wf { s.formed h with mem_side := hm }

/-- t comes of s by work that reads the stores: counters, logs, ledger and events change, and no byte of a store. -/
structure State.LedgerWork (s t : State) : Prop where
  only : s.onlyStores t
  ring : t.log.sameRing s.log
  layer : t.mem.layer = s.mem.layer
  zeroed : t.mem.zeroed = s.mem.zeroed
  side : t.mem.side = s.mem.side
  form : s.wf = true → t.wf = true

namespace State.LedgerWork
variable {s t u : State}

theorem refl (s : State) : s.LedgerWork s := ⟨.refl s, ⟨rfl, rfl⟩, rfl, rfl, rfl, id⟩

theorem trans (h : s.LedgerWork t) (g : t.LedgerWork u) : s.LedgerWork u :=
  ⟨h.only.trans g.only, ⟨g.ring.1.trans h.ring.1, g.ring.2.trans h.ring.2⟩, g.layer.trans h.layer, g.zeroed.trans h.zeroed,
    g.side.trans h.side, fun hs => g.form (h.form hs)⟩

theorem foldl {α : Type} {step : State → α → State} (hstep : ∀ (t : State) a, s.LedgerWork t → s.LedgerWork (step t a))
    (l : List α) (h : s.LedgerWork t) : s.LedgerWork (l.foldl step t) := by
  induction l generalizing t with
  | nil => exact h
  | cons a l ih => exact ih (hstep t a h)

theorem ite {c : Prop} [Decidable c] (ht : s.LedgerWork t) (hu : s.LedgerWork u) : s.LedgerWork (if c then t else u) := by
  split
  · exact ht
  · exact hu

theorem tables (h : s.LedgerWork t) (c : CryptoSt) (hform : t.wf = true → { t with crypto := c }.wf = true) :
    s.LedgerWork { t with crypto := c } :=
  h.trans ⟨rfl, ⟨rfl, rfl⟩, rfl, rfl, rfl, hform⟩

/-- A change of the ledger's records that leaves its tables. -/
theorem crypto (h : s.LedgerWork t) (c : CryptoSt) (hn : c.nodes = t.crypto.nodes := by rfl)
    (hv : c.vols = t.crypto.vols := by rfl) (hr : c.rights = t.crypto.rights := by rfl) : s.LedgerWork { t with crypto := c } :=
  h.tables c fun ht => wf_withCrypto ht c (hn ▸ t.wf_crypto_nodes ht) (hv ▸ t.wf_crypto_vols ht) (hr ▸ t.wf_crypto_rights ht)

/-- A change of the stores' counters and logs. -/
theorem mem (h : s.LedgerWork t) (m : MemSt) (hl : m.layer = t.mem.layer := by rfl) (hz : m.zeroed = t.mem.zeroed := by rfl)
    (hd : m.side = t.mem.side := by rfl) : s.LedgerWork { t with mem := m } := by
  refine h.trans ⟨rfl, ⟨rfl, rfl⟩, hl, hz, hd, fun ht => ?_⟩
  have hf := t.formed ht
  refine Formed.wf { hf with mem_layer := ?_, mem_zeros := ?_, mem_side := ?_ }
  · exact (congrArg Sparse.rises hl).trans hf.mem_layer
  · show m.noZeros = true
    unfold MemSt.noZeros
    rw [hl, hz]
    exact hf.mem_zeros
  · exact (congrArg Sparse.rises hd).trans hf.mem_side

theorem modVol (h : s.LedgerWork t) (v : Nat) (f : VolSt → VolSt) : s.LedgerWork (t.modVol v f) :=
  h.tables _ fun ht => wf_withCrypto ht _ (t.wf_crypto_nodes ht) (Sparse.rises_put _ _ _ _ (t.wf_crypto_vols ht))
    (t.wf_crypto_rights ht)

theorem modLedger (h : s.LedgerWork t) (k : Nat) (f : LedgerNode → LedgerNode) : s.LedgerWork (t.modLedger k f) :=
  h.tables _ fun ht => wf_withCrypto ht _ (Sparse.rises_put _ _ _ _ (t.wf_crypto_nodes ht)) (t.wf_crypto_vols ht)
    (t.wf_crypto_rights ht)

theorem raised (h : s.LedgerWork t) {c : EvClass} {code : BitVec 16} {sub : Nat} {d : List (Nat × Nat)} :
    s.LedgerWork (raise c code sub d t) := by
  have hring := raise_ring c code sub d t
  refine h.trans ⟨.raised (.refl t), hring, ?_, ?_, ?_, fun ht => ?_⟩ <;> rw [raise_eq]
  exact ht

end State.LedgerWork

section
variable {s t u : State} (h : s.LedgerWork t)
include h
open State.LedgerWork

theorem memFinding_work (req a : Nat) (f : Found) (write : Bool) : s.LedgerWork (memFinding req a f write t) := by
  cases f with
  | clean | macFail => exact h
  | corrected pos v =>
    show s.LedgerWork (memCorrected req a pos write t)
    unfold memCorrected
    exact raised (h.mem _)
  | uncorrectable syn =>
    show s.LedgerWork (memUncorrectable req a syn.toNat write t)
    unfold memUncorrectable
    exact raised (h.mem _)

theorem sideFinding_work (req block : Nat) (f : Found) (write : Bool) : s.LedgerWork (sideFinding req block f write t) := by
  cases f with
  | clean => exact h
  | corrected pos v =>
    show s.LedgerWork (sideCorrected req block pos v.toNat write t)
    unfold sideCorrected
    exact raised (h.mem _)
  | uncorrectable syn =>
    show s.LedgerWork (sideUncorrectable req block syn.toNat write t)
    unfold sideUncorrectable
    exact raised (h.mem _)
  | macFail =>
    show s.LedgerWork (authFail block t)
    unfold authFail
    exact raised (h.crypto _)

theorem retiredHit_work (req : Nat) : s.LedgerWork (retiredHit req t) := by
  unfold retiredHit
  exact ite (h.mem _) (raised (h.mem _))

theorem refuseWrite_work (req : Nat) : s.LedgerWork (refuseWrite req t) := by
  unfold refuseWrite
  exact raised h

theorem touchNode_work (k : Nat) (dirty : Bool) : s.LedgerWork (touchNode k dirty t) := by
  unfold touchNode
  split
  · exact h.crypto _
  · exact h

theorem newKey_work (v : Nat) : s.LedgerWork (newKey v t) := by
  unfold newKey
  exact ite (raised ((h.crypto { t.crypto with keyCount := t.crypto.keyCount + 1 }).modVol v _)) h

theorem triggerRekey_work (v : Nat) : s.LedgerWork (triggerRekey v t) := by
  unfold triggerRekey
  exact ite (newKey_work ((h.modVol v _).crypto _) v) h

theorem bumpParent_work (k : Nat) : s.LedgerWork (bumpParent k t) := by
  have htouched := touchNode_work h (nparent k) true
  unfold bumpParent
  dsimp only
  split
  · exact modVol (ite (triggerRekey_work h _) h) _ _
  · split
    · exact htouched.modLedger _ _
    · exact crypto (modLedger (crypto (crypto (ite (triggerRekey_work htouched _) htouched) _) _) _ _) _

theorem evictNode_work (e : Nat × Bool) : s.LedgerWork (evictNode e t) := by
  unfold evictNode
  exact ite (bumpParent_work ((h.crypto _).crypto _) e.1) (h.crypto _)

theorem fetchNode_work (k : Nat) : s.LedgerWork (fetchNode k t) := by
  unfold fetchNode
  refine ite (touchNode_work h k false) ?_
  split
  · exact (evictNode_work h _).crypto _
  · exact h.crypto _

theorem poison_work (k cause : Nat) : s.LedgerWork (poison k cause t) := by
  have hlogged : ∀ {u}, s.LedgerWork u → s.LedgerWork (logNode k cause u) := fun hu => hu.crypto _
  unfold poison
  refine raised (ite (raised (crypto (hlogged (crypto ?_ _)) _)) (raised (hlogged (crypto ?_ _)))) <;>
  · refine bumpParent_work (touchNode_work (foldl (fun _ n hu => hu.modLedger n _) _ ?_) k true) k
    exact ite (triggerRekey_work h _) (h.modVol _ _)

theorem nodeFinding_work (k : Nat) (f : NodeFound) : s.LedgerWork (nodeFinding k f t) := by
  unfold nodeFinding
  split
  · exact ite (poison_work h k 3) (h.crypto _)
  · split
    · exact h
    · exact raised (crypto (crypto h _) _)
    · exact poison_work h k 1
    · exact poison_work h k 2

theorem walkPage_work (page : Nat) (path : List NodeFound) : s.LedgerWork (walkPage page path t) := by
  unfold walkPage
  dsimp only
  generalize hw : List.foldl _ t _ = w
  have hwalked : s.LedgerWork w := by
    rw [← hw]
    refine h.foldl (fun u l hu => fetchNode_work ?_ _) _
    split
    · exact ite hu (nodeFinding_work hu _ _)
    · exact hu
  exact ite (hwalked.modLedger _ _) hwalked

theorem settleRebuild_work (page : Nat) : s.LedgerWork (settleRebuild page t) := by
  unfold settleRebuild
  refine ite (foldl (fun u l hu => ?_) _ (h.modLedger _ _)) h
  unfold settleAbove
  exact ite (hu.modLedger _ _) hu

theorem bumpBlock_work {block : Nat} (hu : bumpBlock block t = some u) : s.LedgerWork u := by
  have htouched := touchNode_work h (nodeOver 0 (block / 64)) true
  simp only [bumpBlock] at hu
  split_ifs at hu <;> cases hu
  · exact settleRebuild_work (htouched.modLedger _ _) _
  · exact settleRebuild_work (modLedger (crypto htouched _) _ _) _
  · exact (triggerRekey_work htouched _).modLedger _ _

theorem readWord_work (req a : Nat) (f : Found) : s.LedgerWork (readWord req a f t).2 := by
  unfold readWord
  split_ifs
  · exact h
  · exact retiredHit_work h req
  · exact memFinding_work h ..
  · exact memFinding_work h ..

theorem readBlock_work (m req block : Nat) (f : Found) (path : List NodeFound) :
    s.LedgerWork (readBlock m req block f path t).2 := by
  have hwalked := walkPage_work h (block / 64) path
  unfold readBlock
  dsimp only
  split_ifs
  · exact h
  · exact h
  · exact h.crypto _
  · exact retiredHit_work h req
  · split
    · exact h
    · exact sideFinding_work h req block (.uncorrectable _) false
    · exact sideFinding_work h req block f false
  · exact hwalked
  · exact sideFinding_work hwalked ..
  · exact sideFinding_work hwalked ..

theorem readPiece_work (store m req a n : Nat) (f : Found) : s.LedgerWork (readPiece store m req a n f t).2.2 := by
  unfold readPiece
  split
  · exact readWord_work h ..
  · exact readBlock_work h ..

end

/-- A step of a walk over units leaves what each piece leaves. -/
theorem Walk.next_state {P : State → Prop} {w : Walk} {a : Nat} {f : State → Acc × List Byte × State} (h : P w.state)
    (hf : P (f w.state).2.2) : P (w.next a f).state := by
  unfold Walk.next
  dsimp only
  split_ifs
  · exact hf
  · exact hf
  · exact h

/-- A walk of pieces leaves what each piece leaves. -/
theorem Walk.foldl_state {P : State → Prop} {α : Type} {step : Walk → α → Walk} (hstep : ∀ w a, P w.state → P (step w a).state)
    (l : List α) (w : Walk) (h : P w.state) : P (l.foldl step w).state := by
  induction l generalizing w with
  | nil => exact h
  | cons a l ih => exact ih _ (hstep w a h)

/-- R226: reading a region changes no byte of it. -/
theorem readRegion_work (store m req a len : Nat) (bad : List UnitFound) (s : State) :
    s.LedgerWork (readRegion store m req a len bad s).state :=
  Walk.foldl_state (P := s.LedgerWork) (fun _ _ hw => Walk.next_state hw (readPiece_work hw ..)) _ _ (.refl s)

/-! ## What writes of the stores leave -/

/-- t comes of s by work of the stores: their bytes and records change, and events are raised. -/
structure State.StoreWork (s t : State) : Prop where
  only : s.onlyStores t
  ring : t.log.sameRing s.log
  form : s.wf = true → t.wf = true

namespace State.StoreWork
variable {s t u : State}

theorem refl (s : State) : s.StoreWork s := ⟨.refl s, ⟨rfl, rfl⟩, id⟩

theorem trans (h : s.StoreWork t) (g : t.StoreWork u) : s.StoreWork u :=
  ⟨h.only.trans g.only, ⟨g.ring.1.trans h.ring.1, g.ring.2.trans h.ring.2⟩, fun hs => g.form (h.form hs)⟩

theorem work (h : s.StoreWork t) (g : t.LedgerWork u) : s.StoreWork u := h.trans ⟨g.only, g.ring, g.form⟩

theorem layerWrite (h : s.StoreWork t) (a : Nat) (l : List Byte) : s.StoreWork (layerWrite a l t) := by
  have hl := layerWrite_onlyLayer a l t
  refine h.trans ⟨?_, ?_, onlyLayer_wf hl⟩
  · unfold State.onlyStores
    conv_lhs => rw [hl.1]
    rw [hl.1]
  · rw [hl.1]
    exact ⟨rfl, rfl⟩

theorem sidePut (h : s.StoreWork t) (a : Nat) (l : List Byte) : s.StoreWork (sidePut a l t) :=
  h.trans ⟨rfl, ⟨rfl, rfl⟩, fun ht => wf_withSide ht _ (cellsPut_rises _ _ _ (t.wf_mem_side ht))⟩

end State.StoreWork

section
variable {s t : State} (h : s.StoreWork t)
include h
open State.LedgerWork

theorem storeBlock_work (req block addr : Nat) (l : List Byte) : s.StoreWork (storeBlock req block addr l t) := by
  unfold storeBlock
  split
  · next hb => exact (h.work (bumpBlock_work (.refl t) hb)).sidePut _ _
  · exact h.work ((triggerRekey_work (.refl t) _).crypto _)

theorem writeWord_work (req a : Nat) (l : List Byte) (f : Found) : s.StoreWork (writeWord req a l f t).2 := by
  have hread := h.work (memFinding_work (.refl t) req a f true)
  unfold writeWord
  split_ifs
  · exact h
  · exact h.work (retiredHit_work (.refl t) req)
  · exact h.layerWrite a l
  · exact h.work (refuseWrite_work (memFinding_work (.refl t) req a f true) req)
  · exact hread.layerWrite a l

theorem writeBlockAs_work (req block addr : Nat) (l : List Byte) (f : Found) (path : List NodeFound) :
    s.StoreWork (writeBlockAs req block addr l f path t).2 := by
  have hwalked := walkPage_work (.refl t) (block / 64) path
  have hread := sideFinding_work hwalked req block f true
  unfold writeBlockAs
  dsimp only
  split_ifs
  · exact h.work (retiredHit_work (.refl t) req)
  · exact storeBlock_work (h.work hwalked) ..
  · exact h.work hwalked
  · exact h.work (refuseWrite_work hread req)
  · exact storeBlock_work (h.work hread) ..

theorem writeBlock_work (m req addr : Nat) (l : List Byte) (f : Found) (path : List NodeFound) :
    s.StoreWork (writeBlock m req addr l f path t).2 := by
  unfold writeBlock
  dsimp only
  split_ifs
  · exact h
  · exact h
  · exact h.work ((State.LedgerWork.refl t).crypto _)
  · exact h
  · exact writeBlockAs_work h ..

theorem writePiece_work (store m req a : Nat) (l : List Byte) (f : Found) :
    s.StoreWork (writePiece store m req a l f t).2.2 := by
  unfold writePiece
  dsimp only
  split
  · exact writeWord_work h ..
  · exact writeBlock_work h ..

theorem writeRegion_work (store m req a : Nat) (data : List Byte) (bad : List UnitFound) :
    s.StoreWork (writeRegion store m req a data bad t).state :=
  Walk.foldl_state (P := s.StoreWork) (fun _ _ hw => Walk.next_state hw (writePiece_work hw ..)) _ _ h

theorem writeUnit_work (store m req a : Nat) (l : List Byte) : s.StoreWork (writeUnit store m req a l t).2.2 := by
  unfold writeUnit
  dsimp only
  split
  · exact writeRegion_work h ..
  · exact writePiece_work h ..

theorem reaching_work (store a n : Nat) {f : State → Acc × List Byte × State} (hf : s.StoreWork (f t).2.2) :
    s.StoreWork (reaching store a n f t).2.2 := by
  unfold reaching
  split
  · exact hf
  · exact h

end

theorem fillRegion_work (w : MemWork) (s : State) : s.StoreWork (fillRegion w s).state :=
  Walk.foldl_state (P := s.StoreWork)
    (fun _ _ hw => Walk.next_state hw (reaching_work hw _ _ _ (writeUnit_work hw ..))) _ _ (.refl s)

theorem copyRegion_work (w : MemWork) (bad : List UnitFound) (s : State) : s.StoreWork (copyRegion w bad s).state := by
  refine Walk.foldl_state (P := s.StoreWork) (fun v x hv => ?_) _ _ (.refl s)
  have hread := reaching_work hv w.srcStore x.1 x.2 (f := fun s => (readRegion w.srcStore (actsAs w.id.ch.val)
    (actsReq w.id.ch.val) x.1 x.2 bad s).answer) (hv.work (readRegion_work ..))
  dsimp only
  split_ifs
  · exact Walk.next_state (P := s.StoreWork) (w := { v with state := _ }) hread
      (reaching_work hread _ _ _ (writeUnit_work hread ..))
  · exact hread
  · exact hv



end Sys2Proof.Machine
end

section
/-! PROOFS. The memory slips and the ends of the desk's work (R226, R392). -/

namespace Sys2Proof.Machine
open Sys2Proof

theorem State.StoreWork.kept {s t : State} (h : s.StoreWork t) : t.queues = s.queues ∧ t.flows = s.flows ∧
    t.slips.chans = s.slips.chans ∧ t.slips.rings = s.slips.rings := by
  rw [h.only]
  exact ⟨rfl, rfl, rfl, rfl⟩

/-- What a slip's start leaves of the stores and of what the memory slips' checks read. -/
theorem begun_stores (s : State) (op : BitVec 16) (h : SlipHdr) (p : List Byte) :
    (s.begun op h p).mem = s.mem ∧ (s.begun op h p).userReach = s.userReach ∧ (s.begun op h p).poolReach = s.poolReach ∧
      (s.begun op h p).sideMay = s.sideMay := by
  obtain ⟨x, g, n, hB⟩ := begun_reads s op h p
  rw [hB]
  exact ⟨rfl, rfl, rfl, rfl⟩

section
variable {op : BitVec 16} {h : SlipHdr} {p : List Byte} {body : SlipId → State → SlipOut} {s u : State}
  (ht : s.takes op .ordinary h p)
include ht

/-- A slip whose body works in the stores: what it leaves of them is what the work left. -/
theorem slip_region {st : BitVec 16} {r : List Byte}
    (hb : body (slipId s op h .ordinary) (s.begun op h p) = .ok { state := u.useFree, status := st, result := r })
    (hu : (s.begun op h p).StoreWork u) :
    ∃ t, slip op .ordinary h p body s = .next t ∧ t.answered op h st r ∧ t.mem = u.mem := by
  have hB := begun_eq s op h p
  have hring := begun_ring s op h p
  obtain ⟨hqueues, hflows, hchans, -⟩ := hu.kept
  obtain ⟨t, he, ha, -, ht'⟩ := slip_ok_same ht hb rfl
    ((congrArg List.length hchans).trans (begun_length s op h p)) (hqueues.trans (congrArg State.queues hB :))
    (hflows.trans (congrArg State.flows hB :)) ⟨hu.ring.1.trans hring.1, hu.ring.2.trans hring.2⟩
  exact ⟨t, he, ha, (congrArg State.mem ht' :)⟩

/-- A slip that leaves work for the desk is accepted, and its work waits behind what waits already. -/
theorem slip_works {w : MemWork}
    (hb : body (slipId s op h .ordinary) (s.begun op h p) =
      accept { s.begun op h p with mem.work := (s.begun op h p).mem.work ++ [w] }) :
    ∃ t, slip op .ordinary h p body s = .next t ∧ t.accepted op h ∧ t.mem = { s.mem with work := s.mem.work ++ [w] } := by
  have hB := begun_eq s op h p
  have hmem : (s.begun op h p).mem = s.mem := (congrArg State.mem hB :)
  obtain ⟨t, he, -, hacc, ht'⟩ := slip_ok_same ht hb rfl (begun_length s op h p) (congrArg State.queues hB :)
    (congrArg State.flows hB :) (begun_ring s op h p)
  have htmem := congrArg State.mem ht'
  dsimp only at htmem
  rw [hmem] at htmem
  exact ⟨t, he, hacc rfl rfl, htmem⟩

end

section
variable {s : State} {h : SlipHdr} {p : List Byte}

theorem read_answers (bad : List UnitFound) (ht : s.takes 0x0801 .ordinary h p)
    (hreach : s.userReach (arg p 16 1) (arg p 20 8) (arg p 28 4) = true)
    (hfields : fields [⟨16, 1, arg p 16 1 < 2⟩, ⟨20, 8, arg p 20 8 < storeEnd (arg p 16 1)⟩,
      ⟨28, 4, 1 ≤ arg p 28 4 && arg p 28 4 ≤ 4064 && regionIn (arg p 16 1) (arg p 20 8) (arg p 28 4)⟩] p = .ok ())
    (hpool : s.poolReach (arg p 16 1) (arg p 20 8) (arg p 28 4) = true) :
    ∃ t w, exec (.read h p bad) s = .next t ∧
      w = readRegion (arg p 16 1) (actsAs h.ch.val) (actsReq h.ch.val) (arg p 20 8) (arg p 28 4) bad (s.begun 0x0801 h p) ∧
      t.answered 0x0801 h w.acc.status (leBytes 8 w.at_ ++ leBytes 4 w.bytes.length ++ leBytes 4 0 ++ w.bytes) ∧
      t.mem = w.state.mem ∧ t.mem.layer = s.mem.layer ∧ t.mem.side = s.mem.side := by
  obtain ⟨hmem, huser, hdesk, -⟩ := begun_stores s 0x0801 h p
  have hwork := readRegion_work (arg p 16 1) (actsAs h.ch.val) (actsReq h.ch.val) (arg p 20 8) (arg p 28 4) bad
    (s.begun 0x0801 h p)
  have hneeds := And.intro (need_ok (huser ▸ hreach) (fail St.modeConflict)) (need_ok (hdesk ▸ hpool) (fail St.rights))
  obtain ⟨t, he, ha, htmem⟩ := slip_region (body := readBody p bad) ht
    (by unfold readBody; simp only [hneeds, hfields]; rfl) (State.StoreWork.refl _ |>.work hwork)
  refine ⟨t, _, he, rfl, ha, htmem, ?_, ?_⟩
  · rw [htmem, hwork.layer, hmem]
  · rw [htmem, hwork.side, hmem]

theorem write_answers (bad : List UnitFound) (ht : s.takes 0x0802 .ordinary h p)
    (hreach : s.userReach (arg p 16 1) (arg p 20 8) (arg p 28 4) = true)
    (hfields : fieldsTo [⟨16, 1, arg p 16 1 < 2⟩, ⟨20, 8, arg p 20 8 < storeEnd (arg p 16 1)⟩,
      ⟨28, 4, 1 ≤ arg p 28 4 && arg p 28 4 ≤ 4032 && regionIn (arg p 16 1) (arg p 20 8) (arg p 28 4)⟩] 32 p = .ok ())
    (hcount : counted p 28 (arg p 28 4) 1 4032 32 1 = .ok ()) (hzero : zeroFrom (32 + arg p 28 4) p = .ok ())
    (hpool : s.poolReach (arg p 16 1) (arg p 20 8) (arg p 28 4) = true) :
    ∃ t w, exec (.write h p bad) s = .next t ∧
      w = writeRegion (arg p 16 1) (actsAs h.ch.val) (actsReq h.ch.val) (arg p 20 8) (slice p 16 (arg p 28 4)) bad
        (s.begun 0x0802 h p) ∧
      t.answered 0x0802 h w.acc.status (leBytes 8 w.at_) ∧ t.mem = w.state.mem := by
  obtain ⟨-, huser, hdesk, -⟩ := begun_stores s 0x0802 h p
  have hneeds := And.intro (need_ok (huser ▸ hreach) (fail St.modeConflict)) (need_ok (hdesk ▸ hpool) (fail St.rights))
  obtain ⟨t, he, ha, htmem⟩ := slip_region (body := writeBody p bad) ht
    (by unfold writeBody; simp only [hneeds, hfields, hcount, hzero]; rfl) (writeRegion_work (.refl _) ..)
  exact ⟨t, _, he, rfl, ha, htmem⟩

theorem fill_waits (ht : s.takes 0x0803 .ordinary h p)
    (hreach : s.userReach (arg p 16 1) (arg p 20 8) (min (arg p 28 8) 0x40000000) = true)
    (hfields : fields [⟨16, 1, arg p 16 1 < 2⟩,
      ⟨20, 8, arg p 20 8 < storeEnd (arg p 16 1) && arg p 20 8 % fillUnit (arg p 16 1) == 0⟩,
      ⟨28, 8, 1 ≤ arg p 28 8 && arg p 28 8 ≤ 0x40000000 && arg p 28 8 % fillUnit (arg p 16 1) == 0 &&
        regionIn (arg p 16 1) (arg p 20 8) (arg p 28 8)⟩, ⟨36, 8, true⟩] p = .ok ())
    (hpool : s.poolReach (arg p 16 1) (arg p 20 8) (arg p 28 8) = true)
    (hfirst : s.sideMay (actsAs h.ch.val) (arg p 16 1) (arg p 20 8) true = true)
    (hlast : s.sideMay (actsAs h.ch.val) (arg p 16 1) (arg p 20 8 + arg p 28 8 - 1) true = true) :
    ∃ t w, exec (.fill h p) s = .next t ∧ t.accepted 0x0803 h ∧ t.mem.work = s.mem.work ++ [w] ∧ w.copy = false ∧
      w.dstStore = arg p 16 1 ∧ w.dst = arg p 20 8 ∧ w.len = arg p 28 8 ∧ w.pattern = BitVec.ofNat 64 (arg p 36 8) ∧
      w.id.seq = h.seq ∧ t.mem.layer = s.mem.layer ∧ t.mem.side = s.mem.side := by
  obtain ⟨-, huser, hdesk, hside⟩ := begun_stores s 0x0803 h p
  have hmay : ((s.begun 0x0803 h p).sideMay (actsAs h.ch.val) (arg p 16 1) (arg p 20 8) true &&
      (s.begun 0x0803 h p).sideMay (actsAs h.ch.val) (arg p 16 1) (arg p 20 8 + arg p 28 8 - 1) true) = true := by
    rw [hside, hfirst, hlast]; rfl
  have hneeds := And.intro (need_ok (huser ▸ hreach) (fail St.modeConflict)) (And.intro (need_ok (hdesk ▸ hpool) (fail St.rights))
    (need_ok hmay (denied (actsAs h.ch.val) (arg p 20 8))))
  obtain ⟨t, he, hacc, htmem⟩ := slip_works (body := fillBody p) (w := {
      id := slipId s 0x0803 h .ordinary, copy := false, srcStore := arg p 16 1, dstStore := arg p 16 1, src := arg p 20 8,
      dst := arg p 20 8, len := arg p 28 8, pattern := BitVec.ofNat 64 (arg p 36 8), moved := 0x400000 }) ht
    (by
      unfold fillBody
      have hch : (slipId s 0x0803 h .ordinary).ch = h.ch := rfl
      simp only [hch, hneeds, hfields]
      rfl)
  exact ⟨t, _, he, hacc, by rw [htmem], rfl, rfl, rfl, rfl, rfl, rfl, by rw [htmem], by rw [htmem]⟩

theorem copy_waits {ss ds src dst len : Nat} (ht : s.takes 0x0804 .ordinary h p) (hss : ss = arg p 16 1) (hds : ds = arg p 17 1)
    (hsrc : src = arg p 20 8) (hdst : dst = arg p 28 8) (hlen : len = arg p 36 8)
    (hreach : s.userReach ss src (min len 0x40000000) = true) (hreach' : s.userReach ds dst (min len 0x40000000) = true)
    (hfields : fields [⟨16, 1, ss < 2⟩, ⟨17, 1, ds < 2⟩, ⟨20, 8, src < storeEnd ss && src % fillUnit ss == 0⟩,
      ⟨28, 8, dst < storeEnd ds && dst % fillUnit ds == 0⟩,
      ⟨36, 8, 1 ≤ len && len ≤ 0x40000000 && len % copyUnit ss ds == 0 && regionIn ss src len && regionIn ds dst len &&
        !(ss == ds && overlaps src dst len)⟩] p = .ok ())
    (hpool : s.poolReach ss src len = true) (hpool' : s.poolReach ds dst len = true)
    (hfrom : s.sideMay (actsAs h.ch.val) ss src false = true) (hfirst : s.sideMay (actsAs h.ch.val) ds dst true = true)
    (hlast : s.sideMay (actsAs h.ch.val) ds (dst + len - 1) true = true) :
    ∃ t w, exec (.copy h p) s = .next t ∧ t.accepted 0x0804 h ∧ t.mem.work = s.mem.work ++ [w] ∧ w.copy = true ∧
      w.srcStore = ss ∧ w.dstStore = ds ∧ w.src = src ∧ w.dst = dst ∧ w.len = len ∧ w.id.seq = h.seq := by
  subst hss hds hsrc hdst hlen
  obtain ⟨-, huser, hdesk, hside⟩ := begun_stores s 0x0804 h p
  rw [← huser] at hreach hreach'
  rw [← hdesk] at hpool hpool'
  rw [← hside] at hfrom hfirst hlast
  have hneeds := And.intro (need_ok ((Bool.and_eq_true ..).mpr ⟨hreach, hreach'⟩) (fail St.modeConflict))
    (And.intro (need_ok ((Bool.and_eq_true ..).mpr ⟨hpool, hpool'⟩) (fail St.rights))
      (And.intro (need_ok hfrom (denied (actsAs h.ch.val) (arg p 20 8)))
        (need_ok ((Bool.and_eq_true ..).mpr ⟨hfirst, hlast⟩) (denied (actsAs h.ch.val) (arg p 28 8)))))
  obtain ⟨t, he, hacc, htmem⟩ := slip_works (body := copyBody p) (w := {
      id := slipId s 0x0804 h .ordinary, copy := true, srcStore := arg p 16 1, dstStore := arg p 17 1, src := arg p 20 8,
      dst := arg p 28 8, len := arg p 36 8, pattern := 0, moved := 0x400000 }) ht
    (by
      unfold copyBody
      have hch : (slipId s 0x0804 h .ordinary).ch = h.ch := rfl
      simp only [hch, hneeds, hfields]
      rfl)
  exact ⟨t, _, he, hacc, by rw [htmem], rfl, rfl, rfl, rfl, rfl, rfl, rfl⟩

/-- The desk's work that its frames let end completes its slip, and leaves the stores as its walk left them. -/
theorem memoryDone_completes {copy : Bool} {bad : List UnitFound} {w : MemWork} {r : Walk} (hs : s.wf = true) (hup : s.awake = true)
    (hnext : s.mem.work.find? (fun w => w.copy == copy && w.len ≤ w.moved) = some w) (hring : s.ringGone w.id = false)
    (hr : (if copy then copyRegion w bad { s with mem.work := s.mem.work.erase w }
      else fillRegion w { s with mem.work := s.mem.work.erase w }) = r)
    (hwork : State.StoreWork { s with mem.work := s.mem.work.erase w } r.state) (hwrites : w.id.writes r.acc.status = true) :
    ∃ t, run (when s.awake (memoryDone copy bad)) s = .next t ∧ t.completed w.id r.acc.status (leBytes 8 r.at_) ∧
      t.mem = r.state.mem := by
  have hdone : memoryDone copy bad s = complete w.id r.acc.status 0 (leBytes 8 r.at_) r.state.useFree := by
    unfold memoryDone
    rw [hnext]
    dsimp only
    rw [hr]
  have hcomplete := complete_eq w.id r.acc.status 0 (leBytes 8 r.at_) r.state.useFree
  have hlog := complete_ring w.id r.acc.status 0 (leBytes 8 r.at_) r.state.useFree
  obtain ⟨hqueues, hflows, hchans, hrings⟩ := hwork.kept
  have hgone : r.state.useFree.ringGone w.id = false := by
    rw [← hring]
    show State.ringGone r.state w.id = _
    simp only [State.ringGone, State.ring, hrings]
  have hch : w.id.ch.val < r.state.useFree.slips.chans.length := by
    show w.id.ch.val < r.state.slips.chans.length
    rw [hchans]
    show w.id.ch.val < s.slips.chans.length
    rw [s.wf_slips_chans hs]
    exact w.id.ch.isLt
  have hcompleted := complete_completed w.id r.acc.status 0 (leBytes 8 r.at_) r.state.useFree hgone hwrites hch
  refine ⟨_, layerAccess_runs hup ?_ ?_ ?_, ?_, ?_⟩
  · rw [hdone, hcomplete]; exact hqueues
  · rw [hdone, hcomplete]; exact hflows
  · rw [hdone]; exact ⟨hlog.1.trans hwork.ring.1, hlog.2.trans hwork.ring.2⟩
  · rw [inOneCycle_log, hdone]; exact hcompleted
  · rw [inOneCycle_log, hdone, hcomplete]; rfl

end

/-- Settles O23: each slip's checks pass and its walk or its work is what the reply and the stores show; work that ends completes
its slip (`memoryDone_completes`). -/
theorem memorySlips : Obligations.MemorySlips := by
  intro s h p bad hs
  refine ⟨fun ht hreach hfields hpool => read_answers bad ht hreach hfields hpool,
    fun ht hreach hfields hcount hzero hpool => write_answers bad ht hreach hfields hcount hzero hpool,
    fun ht hreach hfields hpool hfirst hlast => fill_waits ht hreach hfields hpool hfirst hlast,
    fun ss ds src dst len ht hss hds hsrc hdst hlen hreach hreach' hfields hpool hpool' hfrom hfirst hlast =>
      copy_waits ht hss hds hsrc hdst hlen hreach hreach' hfields hpool hpool' hfrom hfirst hlast,
    fun w hup hnext hring hwrites => ?_, fun w hup hnext hring hwrites => ?_⟩
  · obtain ⟨t, he, hc, hmem⟩ :=
      memoryDone_completes (copy := false) (bad := bad) hs hup hnext hring rfl (fillRegion_work ..) hwrites
    exact ⟨t, _, he, rfl, hc, hmem⟩
  · obtain ⟨t, he, hc, hmem⟩ :=
      memoryDone_completes (copy := true) (bad := bad) hs hup hnext hring rfl (copyRegion_work ..) hwrites
    exact ⟨t, _, he, rfl, hc, hmem⟩

end Sys2Proof.Machine
end

section
/-! PROOFS. The canonical form of the state, under updates of one entry, of one part, and under choices and folds. -/

namespace Sys2Proof.Machine

open Sys2Proof

/-! ## Choices, folds and tables -/

theorem ite_formed {c : Prop} [Decidable c] {a b : State} (ha : Formed a) (hb : Formed b) : Formed (if c then a else b) := by
  split
  · exact ha
  · exact hb

/-- A fold keeps what each of its steps keeps. -/
theorem foldl_invariant {α β : Type} {P : β → Prop} {l : List α} {f : β → α → β} {b : β} (hf : ∀ b a, P b → P (f b a)) (h : P b) :
    P (l.foldl f b) :=
  List.foldlRecOn _ _ h fun b hb a _ => hf b a hb

theorem foldl_formed {α : Type} {l : List α} {f : State → α → State} {s : State} (hf : ∀ s a, Formed s → Formed (f s a))
    (h : Formed s) : Formed (l.foldl f s) :=
  foldl_invariant hf h

theorem getD_formed {o : Option State} {s : State} (ho : ∀ t, o = some t → Formed t) (h : Formed s) : Formed (o.getD s) := by
  cases o with
  | none => exact h
  | some t => exact ho t rfl

theorem elim_formed {α : Type} {o : Option α} {s : State} {f : α → State} (h : Formed s) (hf : ∀ a, Formed (f a)) :
    Formed (o.elim s f) := by
  cases o with
  | none => exact h
  | some a => exact hf a

theorem when_formed {c : Bool} {f : State → State} {s : State} (hf : ∀ s, Formed s → Formed (f s)) (h : Formed s) :
    Formed (when c f s) :=
  ite_formed (hf s h) h

theorem ite_rises {α : Type} {c : Prop} [Decidable c] {a b : Sparse α} (ha : Sparse.rises a = true)
    (hb : Sparse.rises b = true) : Sparse.rises (if c then a else b) = true := by
  split
  · exact ha
  · exact hb

/-! ## Updates of one entry of the state -/

theorem setPort_formed {s : State} {p : Nat} {v : PortSt} (h : Formed s) : Formed (s.setPort p v) :=
  { h with ports := Sparse.rises_put _ _ _ _ h.ports }

theorem modPort_formed {s : State} {p : Nat} {f : PortSt → PortSt} (h : Formed s) : Formed (s.modPort p f) := setPort_formed h

theorem modNeg_formed {s : State} {p : Nat} {f : NegSt → NegSt} (h : Formed s) : Formed (s.modNeg p f) := modPort_formed h

theorem modLane_formed {s : State} {p : Nat} {f : LaneSt → LaneSt} (h : Formed s) : Formed (s.modLane p f) := modPort_formed h

theorem modTx_formed {s : State} {p : Nat} {f : TxSt → TxSt} (h : Formed s) : Formed (s.modTx p f) := modPort_formed h

theorem modCredit_formed {s : State} {p : Nat} {f : CreditSt → CreditSt} (h : Formed s) : Formed (s.modCredit p f) :=
  modPort_formed h

theorem modEgress_formed {s : State} {p : Nat} {f : EgressSt → EgressSt} (h : Formed s) : Formed (s.modEgress p f) :=
  modPort_formed h

/-- The words of a queue that is set have to rise too. -/
theorem setQueue_formed {s : State} {q : Nat} {d : QueueSt} (h : Formed s) (hd : Sparse.rises d.words = true) :
    Formed (s.setQueue q d) :=
  { h with queues := Sparse.rises_put _ _ _ _ h.queues, words := QueueSt.allRise_put _ _ _ hd h.words }

theorem queue_rises {s : State} (q : Nat) (h : Formed s) : Sparse.rises (s.queue q).words = true :=
  QueueSt.allRise_get _ _ h.words

theorem push_rises {w : Line} {d : QueueSt} (hd : Sparse.rises d.words = true) : Sparse.rises (d.push w).words = true :=
  Sparse.rises_ins _ _ _ hd

theorem allRise_map {m : Sparse QueueSt} {f : Nat × QueueSt → Nat × QueueSt} (hf : ∀ x, (f x).2.words = x.2.words)
    (h : QueueSt.allRise m = true) : QueueSt.allRise (m.map f) = true := by
  simpa only [QueueSt.allRise, List.all_map, Function.comp_def, hf] using h

/-- Most changes of a queue leave its words alone. -/
theorem modQueue_formed {s : State} {q : Nat} {f : QueueSt → QueueSt} (h : Formed s)
    (hf : ∀ d, Sparse.rises d.words = true → Sparse.rises (f d).words = true) :
    Formed (s.modQueue q f) :=
  setQueue_formed h (hf _ (queue_rises q h))

theorem modEngine_formed {s : State} {e : Nat} {f : EngineSt → EngineSt} (h : Formed s) : Formed (s.modEngine e f) :=
  { h with engines := Sparse.rises_put _ _ _ _ h.engines }

theorem setFlow_formed {s : State} {k : Nat} {v : FlowSt} (h : Formed s) : Formed (s.setFlow k v) :=
  { h with flows := Sparse.rises_put _ _ _ _ h.flows }

theorem modFlow_formed {s : State} {k : Nat} {f : FlowSt → FlowSt} (h : Formed s) : Formed (s.modFlow k f) := setFlow_formed h

theorem modBay_formed {s : State} {b : Nat} {f : BaySt → BaySt} (h : Formed s) : Formed (s.modBay b f) :=
  { h with fab_bays := Sparse.rises_put _ _ _ _ h.fab_bays }

theorem modCarrel_formed {s : State} {k : Nat} {f : CarrelSt → CarrelSt} (h : Formed s) : Formed (s.modCarrel k f) :=
  { h with fab_carrels := Sparse.rises_put _ _ _ _ h.fab_carrels }

theorem modFolio_formed {s : State} {k : Nat} {f : FolioSt → FolioSt} (h : Formed s) : Formed (s.modFolio k f) :=
  { h with fab_folios := Sparse.rises_put _ _ _ _ h.fab_folios }

theorem modNode_formed {s : State} {n : Nat} {f : NodeSt → NodeSt} (h : Formed s) : Formed (s.modNode n f) :=
  { h with thm_nodes := Sparse.rises_put _ _ _ _ h.thm_nodes }

theorem modVol_formed {s : State} {v : Nat} {f : VolSt → VolSt} (h : Formed s) : Formed (s.modVol v f) :=
  { h with crypto_vols := Sparse.rises_put _ _ _ _ h.crypto_vols }

theorem modLedger_formed {s : State} {k : Nat} {f : LedgerNode → LedgerNode} (h : Formed s) : Formed (s.modLedger k f) :=
  { h with crypto_nodes := Sparse.rises_put _ _ _ _ h.crypto_nodes }

theorem modSlice_formed {s : State} {k : Nat} {f : SliceSt → SliceSt} (h : Formed s) : Formed (s.modSlice k f) :=
  { h with stock_carrels := Sparse.rises_put _ _ _ _ h.stock_carrels }

theorem modChan_formed {s : State} {ch : Nat} {f : ChanSt → ChanSt} (h : Formed s) : Formed (s.modChan ch f) :=
  { h with slips_chans := (modChan_length s ch f).trans h.slips_chans }

theorem modRing_formed {s : State} {n : Nat} {f : RingSt → RingSt} (h : Formed s) : Formed (s.modRing n f) :=
  { h with slips_rings := (List.length_modify _ _ _).trans h.slips_rings }

theorem setMode_formed {s : State} {d : Domain} {m : Mode} (h : Formed s) : Formed (s.setMode d m) :=
  match d with
  | .house => { h with }
  | .bay _ => { h with modes_bays := Sparse.rises_put _ _ _ _ h.modes_bays }
  | .port _ => { h with modes_ports := Sparse.rises_put _ _ _ _ h.modes_ports }

theorem useFree_formed {s : State} (h : Formed s) : Formed s.useFree := { h with }

/-! ## Events -/

theorem msix_formed {v : Nat} {s : State} (h : Formed s) : Formed (msix v s) := by rw [msix_eq]; exact { h with }

theorem latch_formed {c : EvClass} {code : BitVec 16} {sub : Nat} {s : State} (h : Formed s) : Formed (latch c code sub s) := by
  rw [latch_eq]; exact { h with }

theorem raise_formed {c : EvClass} {code : BitVec 16} {sub : Nat} {d : List (Nat × Nat)} {s : State} (h : Formed s) :
    Formed (raise c code sub d s) := latch_formed { h with }

theorem warn_formed {code : BitVec 16} {sub : Nat} {d : List (Nat × Nat)} {s : State} (h : Formed s) :
    Formed (warn code sub d s) := raise_formed h

theorem alarm_formed {code : BitVec 16} {sub : Nat} {d : List (Nat × Nat)} {s : State} (h : Formed s) :
    Formed (alarm code sub d s) := raise_formed h

theorem info_formed {code : BitVec 16} {sub : Nat} {d : List (Nat × Nat)} {s : State} (h : Formed s) :
    Formed (info code sub d s) := raise_formed h

theorem nonMask_formed {code : BitVec 16} {sub : Nat} {d : List (Nat × Nat)} {s : State} (h : Formed s) :
    Formed (nonMask code sub d s) := raise_formed h

theorem inOneCycle_formed {f : State → State} {s : State} (hf : ∀ s, Formed s → Formed (f s)) (h : Formed s) :
    Formed (inOneCycle f s) := { hf s h with }

/-! ## The pool's bytes -/

theorem onlyLayer_formed {s t : State} (ht : onlyLayer s t) (h : Formed s) : Formed t := t.formed (onlyLayer_wf ht h.wf)

theorem layerWrite_formed {a : Nat} {l : List Byte} {s : State} (h : Formed s) : Formed (layerWrite a l s) :=
  onlyLayer_formed (layerWrite_onlyLayer a l s) h

theorem mirror_formed {s t : State} (h : Formed t) : Formed (mirror s t) := onlyLayer_formed (mirror_onlyLayer s t) h

/-- No zero stands in a cleared bank, where no byte is added and every bank now cleared was cleared or holds nothing. -/
theorem noZerosIn_mono {y z : List Nat} {l m : List Host.Cell} (h : noZerosIn z l)
    (hm : ∀ c ∈ m, c ∈ l ∧ (c.1 / 65536 ∈ y → c.1 / 65536 ∈ z)) : noZerosIn y m :=
  fun c hc hz => h c (hm c hc).1 ⟨(hm c hc).2 hz.1, hz.2⟩

theorem writeTables_formed {s : State} (h : Formed s) : Formed (writeTables s) := by
  refine mirror_formed { h with mem_layer := Sparse.rises_filter _ _ h.mem_layer, mem_zeros := ?_ }
  refine (noZeros_iff _).mpr (noZerosIn_mono ((noZeros_iff _).mp h.mem_zeros) fun c hc => ?_)
  simp only [List.mem_filter, Bool.not_eq_true', List.contains_eq_mem, decide_eq_false_iff_not] at hc
  exact ⟨hc.1, fun hz => (List.mem_filter.mp ((List.mem_append.mp hz).resolve_left hc.2)).1⟩

/-! ## Channels -/

theorem startSlip_formed {op : BitVec 16} {k : SlipHdr} {p : List Byte} {s : State} (h : Formed s) :
    Formed (startSlip op k p s) := by
  unfold startSlip
  extract_lets _ u _ s1 s2
  have h1 : Formed s1 := { h with }
  have h2 : Formed s2 := modChan_formed h1
  exact ite_formed (modRing_formed h2) (ite_formed { h2 with } { h2 with })

theorem noteSeq_formed {gap : Bool} {k : SlipHdr} {s : State} (h : Formed s) : Formed (noteSeq gap k s) :=
  ite_formed (warn_formed (modChan_formed h)) (modChan_formed h)

theorem queueReply_formed {r : Reply} {s : State} (h : Formed s) : Formed (queueReply r s) := ite_formed (modChan_formed h) h

theorem complete_formed {id : SlipId} {st : BitVec 16} {d : Nat} {l : List Byte} {s : State} (h : Formed s) :
    Formed (complete id st d l s) :=
  ite_formed (ite_formed (info_formed (modChan_formed h)) (modChan_formed h)) (queueReply_formed (modChan_formed h))

theorem completeAll_formed {ids : List SlipId} {st : BitVec 16} {s : State} (h : Formed s) : Formed (completeAll ids st s) :=
  foldl_formed (fun _ _ => complete_formed) h

theorem completeOpt_formed {id : Option SlipId} {st : BitVec 16} {s : State} (h : Formed s) : Formed (completeOpt id st s) :=
  match id with
  | some _ => complete_formed h
  | none => h

theorem countExcess_formed {ch : Nat} {s : State} (h : Formed s) : Formed (countExcess ch s) :=
  ite_formed (modRing_formed h) (ite_formed { h with } h)

/-! ## Parts replaced whole

Of a part that the form does not speak of anything may be written. -/

theorem withFrame_formed {s : State} {x : FrameSt} (h : Formed s) : Formed { s with frame := x } := { h with }

theorem withShelf_formed {s : State} {x : ShelfSt} (h : Formed s) : Formed { s with shelf := x } := { h with }

theorem withPwr_formed {s : State} {x : PwrSt} (h : Formed s) : Formed { s with pwr := x } := { h with }

theorem withTap_formed {s : State} {x : TapSt} (h : Formed s) : Formed { s with tap := x } := { h with }

theorem withStartDone_formed {s : State} {b : Bool} (h : Formed s) : Formed { s with cfg.startDone := b } := { h with }

theorem withRefresh_formed {s : State} {l : List (BitVec 2)} {b : Bool} (h : Formed s) :
    Formed { s with mem.refresh := l, mem.readWait := b } := { h with }

theorem withRetired_formed {s : State} {l : List RetireEntry} (h : Formed s) : Formed { s with mem.retired := l } := { h with }

theorem withDeclared_formed {s : State} {d n : BitVec 32} {m : Sparse Nat} (h : Formed s) (hm : Sparse.rises m = true) :
    Formed { s with stock.declared := d, stock.policy := m, stock.noWindowTold := n } :=
  { h with stock_policy := hm }

theorem withRemapped_formed {s : State} {l : List Nat} (h : Formed s) : Formed { s with fab.remapped := l } := { h with }

theorem withBanks_formed {s : State} {m : Sparse BankCfg} (h : Formed s) (hm : Sparse.rises m = true) :
    Formed { s with fab.banks := m } :=
  { h with fab_banks := hm }

theorem withBinds_formed {s : State} {m : Sparse BindSt} (h : Formed s) (hm : Sparse.rises m = true) :
    Formed { s with fab.binds := m } :=
  { h with fab_binds := hm }

theorem withEditions_formed {s : State} {m : Sparse EditionSt} (h : Formed s) (hm : Sparse.rises m = true) :
    Formed { s with fab.editions := m } :=
  { h with fab_editions := hm }

theorem withArms_formed {s : State} {l : List Arm} (h : Formed s) : Formed { s with regs.arms := l } := { h with }

theorem withLockout_formed {s : State} {w l : Sparse Nat} (h : Formed s) (hw : Sparse.rises w = true)
    (hl : Sparse.rises l = true) : Formed { s with regs.wrongKeys := w, regs.lockout := l } :=
  { h with regs_wrongKeys := hw, regs_lockout := hl }

theorem withMem_formed {s : State} {m : MemSt} (h : Formed s) (hl : Sparse.rises m.layer = true) (hz : m.noZeros = true)
    (hs : Sparse.rises m.side = true) : Formed { s with mem := m } :=
  { h with mem_layer := hl, mem_zeros := hz, mem_side := hs }

theorem withFlash_formed {s : State} {m : List Host.Cell} (h : Formed s) (hm : Sparse.rises m = true) :
    Formed { s with cfg.flash := m } :=
  { h with cfg_flash := hm }

theorem withRights_formed {s : State} {m : Sparse RightsSt} (h : Formed s) (hm : Sparse.rises m = true) :
    Formed { s with crypto.rights := m } :=
  { h with crypto_rights := hm }

/-- The loops' references, their consumers and the pairings keep their places, and the switches their order. -/
structure ClkSt.Formed (c : ClkSt) : Prop where
  goodRun : c.goodRun.length = 9
  loopRef : c.loopRef.length = 6
  consumer : c.consumer.length = 6
  switches : Sparse.rises c.switches = true

theorem clk_formed {s : State} (h : Formed s) : s.clk.Formed := ⟨h.clk_goodRun, h.clk_loopRef, h.clk_consumer, h.clk_switches⟩

theorem withClk_formed {s : State} {c : ClkSt} (h : Formed s) (hc : c.Formed) : Formed { s with clk := c } :=
  { h with clk_goodRun := hc.goodRun, clk_loopRef := hc.loopRef, clk_consumer := hc.consumer, clk_switches := hc.switches }

/-- The gates of the clocks are no part of the form. -/
theorem withGates_formed {s : State} {b : BitVec 32} {p : BitVec 144} {q : BitVec 16} {e d : Bool} (h : Formed s) :
    Formed { s with clk.gatedBay := b, clk.gatedPort := p, clk.gatedQe := q, clk.gatedPcie := e, clk.gatedSide0 := d } :=
  withClk_formed h { clk_formed h with }

/-! ## Work of the memory layer and of the side store -/

theorem State.LedgerWork.formed {s t : State} (w : s.LedgerWork t) (h : Formed s) : Formed t := t.formed (w.form h.wf)

theorem State.StoreWork.formed {s t : State} (w : s.StoreWork t) (h : Formed s) : Formed t := t.formed (w.form h.wf)

end Sys2Proof.Machine
end

section
/-! PROOFS. Modes, stores and the fabric of the bays keep the form. -/

namespace Sys2Proof.Machine

open Sys2Proof

/-! ## Domain modes -/

theorem noteMode_formed {d : Domain} {old new : Mode} {c : Cause} {thermal : Bool} {s : State} (h : Formed s) :
    Formed (noteMode d old new c thermal s) :=
  raise_formed h

theorem cancelDelayed_formed {d : Domain} {s : State} (h : Formed s) : Formed (cancelDelayed d s) :=
  foldl_formed (fun _ _ => complete_formed) { h with }

/-! ## The side store and the pool -/

theorem retiredHit_formed {req : Nat} {s : State} (h : Formed s) : Formed (retiredHit req s) :=
  (retiredHit_work (.refl s) ..).formed h

theorem memFinding_formed {req a : Nat} {f : Found} {write : Bool} {s : State} (h : Formed s) :
    Formed (memFinding req a f write s) :=
  (memFinding_work (.refl s) ..).formed h

theorem sideUncorrectable_formed {req block syndrome : Nat} {write : Bool} {s : State} (h : Formed s) :
    Formed (sideUncorrectable req block syndrome write s) :=
  alarm_formed { h with }

theorem sideFinding_formed {req block : Nat} {f : Found} {write : Bool} {s : State} (h : Formed s) :
    Formed (sideFinding req block f write s) :=
  (sideFinding_work (.refl s) ..).formed h

theorem newKey_formed {v : Nat} {s : State} (h : Formed s) : Formed (newKey v s) := (newKey_work (.refl s) ..).formed h

theorem triggerRekey_formed {v : Nat} {s : State} (h : Formed s) : Formed (triggerRekey v s) :=
  (triggerRekey_work (.refl s) ..).formed h

theorem bumpParent_formed {k : Nat} {s : State} (h : Formed s) : Formed (bumpParent k s) :=
  (bumpParent_work (.refl s) ..).formed h

theorem walkPage_formed {page : Nat} {path : List NodeFound} {s : State} (h : Formed s) : Formed (walkPage page path s) :=
  (walkPage_work (.refl s) ..).formed h

theorem deny_formed {m v : Nat} {s : State} (h : Formed s) : Formed (deny m v s) := { h with }

theorem readWord_formed {req a : Nat} {f : Found} {s : State} (h : Formed s) : Formed (readWord req a f s).2 :=
  (readWord_work (.refl s) ..).formed h

theorem writeWord_formed {req a : Nat} {l : List Byte} {f : Found} {s : State} (h : Formed s) :
    Formed (writeWord req a l f s).2 :=
  (writeWord_work (.refl s) ..).formed h

theorem readBlock_formed {m req block : Nat} {f : Found} {path : List NodeFound} {s : State} (h : Formed s) :
    Formed (readBlock m req block f path s).2 :=
  (readBlock_work (.refl s) ..).formed h

theorem storeBlock_formed {req block addr : Nat} {l : List Byte} {s : State} (h : Formed s) :
    Formed (storeBlock req block addr l s) :=
  (storeBlock_work (.refl s) ..).formed h

theorem writeBlockAs_formed {req block addr : Nat} {l : List Byte} {f : Found} {path : List NodeFound} {s : State}
    (h : Formed s) : Formed (writeBlockAs req block addr l f path s).2 :=
  (writeBlockAs_work (.refl s) ..).formed h

theorem writeBlock_formed {m req addr : Nat} {l : List Byte} {f : Found} {path : List NodeFound} {s : State} (h : Formed s) :
    Formed (writeBlock m req addr l f path s).2 :=
  (writeBlock_work (.refl s) ..).formed h

theorem areaWrite_formed {base off : Nat} {l : List Byte} {s : State} (h : Formed s) : Formed (areaWrite base off l s) :=
  foldl_formed (fun _ _ => writeBlockAs_formed) h

theorem placeCopy_formed {im : FolioImage} {bytes : List Byte} {s : State} (h : Formed s) : Formed (placeCopy im bytes s).2 :=
  { foldl_formed (fun _ _ => writeBlockAs_formed) h with }

theorem placeCopies_formed {l : List (Nat × FolioImage × Nat × Nat)} {s : State} (h : Formed s) : Formed (placeCopies l s).2 :=
  foldl_invariant (P := fun a : List (Nat × FolioImage) × State => Formed a.2)
    (fun _ x => placeCopy_formed (im := x.2.1)) h

theorem fetchCopy_formed {im : FolioImage} {s : State} (h : Formed s) : Formed (fetchCopy im s) :=
  foldl_formed (fun _ _ => walkPage_formed) h

theorem loseArea_formed {page : Nat} {s : State} (h : Formed s) : Formed (loseArea page s) :=
  { h with fab_editions := Sparse.rises_map _ _ (fun _ => rfl) h.fab_editions }

/-! ## Bays, folios and editions -/

theorem testRotas_formed {s : State} (h : Formed s) : Formed (testRotas s) := { h with }

theorem advanceChannel_formed {fk : Nat} {ls : List (BitVec 256)} {s : State} {c : Chan} (h : Formed s) :
    Formed (advanceChannel fk ls s c) :=
  { h with }

theorem clearChannels_formed {fk : Nat} {cs : List Chan} {s : State} (h : Formed s) : Formed (clearChannels fk cs s) :=
  { h with }

theorem sampleReady_formed {b : Nat} {s : State} (h : Formed s) : Formed (sampleReady b s) := ite_formed { h with } h

theorem driveReady_formed {fk : Nat} {v : Bool} {s : State} (h : Formed s) : Formed (driveReady fk v s) :=
  { h with fab_editions := Sparse.rises_map _ _ (fun _ => rfl) h.fab_editions }

theorem loadTest_formed {b ph : Nat} {s : State} (h : Formed s) : Formed (loadTest b ph s) := { h with }

theorem clearTest_formed {b ph : Nat} {s : State} (h : Formed s) : Formed (clearTest b ph s) := { h with }

theorem beginSlice_formed {k : Nat} {w : Word} {s : State} (h : Formed s) : Formed (beginSlice k w s) := by
  unfold beginSlice
  extract_lets s1
  have h1 : Formed s1 := modSlice_formed h
  exact loadTest_formed { h1 with }

theorem endSlice_formed {k : Nat} {s : State} (h : Formed s) : Formed (endSlice k s) := clearTest_formed (modSlice_formed h)

theorem leaveOutputs_formed {k f n : Nat} {t : TurnIn} {s : State} (h : Formed s) : Formed (leaveOutputs k f n t s) :=
  sampleReady_formed (driveReady_formed (modCarrel_formed (foldl_formed (fun _ _ => advanceChannel_formed) h)))

theorem readyCorrections_formed {fk : Nat} {s : State} (h : Formed s) : Formed (readyCorrections fk s) := { h with }

theorem turnOut_formed {k : Nat} {t : TurnIn} {s : State} (h : Formed s) : Formed (turnOut k t s) :=
  ite_formed (ite_formed (endSlice_formed h) h) (ite_formed (modFolio_formed h) (leaveOutputs_formed (modFolio_formed h)))

theorem noteParity_formed {b c f : Nat} {bad : BitVec 128} {s : State} (h : Formed s) : Formed (noteParity b c f bad s) :=
  ite_formed h (warn_formed (modBay_formed h))

theorem turnIn_formed {b c : Nat} {r : RotaSt} {j : Nat} {u : StoreUpset} {s : State} (h : Formed s) :
    Formed (turnIn b c r j u s) := by
  unfold turnIn
  extract_lets _ _ _ _ _ s1 _ s2 s3 _ _ s4
  have h1 : Formed s1 := modCarrel_formed h
  have h2 : Formed s2 := modFolio_formed h
  have h3 : Formed s3 := modCarrel_formed h2
  have h4 : Formed s4 := modCarrel_formed h2
  exact ite_formed (ite_formed (beginSlice_formed h1) h1) (ite_formed (ite_formed (modBay_formed h3) h3)
    (noteParity_formed (modFolio_formed h4)))

theorem turnCarrel_formed {b c : Nat} {t : TurnIn} {u : StoreUpset} {s : State} (h : Formed s) :
    Formed (turnCarrel b c t u s) := by
  unfold turnCarrel
  extract_lets _ _ _ s1 _ s2
  have h1 : Formed s1 := ite_formed (testRotas_formed h) h
  have h2 : Formed s2 := modCarrel_formed (turnOut_formed (readyCorrections_formed { h1 with }))
  exact ite_formed h2 (turnIn_formed h2)

theorem settleFolios_formed {k : Nat} {r : RotaSt} {s : State} (h : Formed s) : Formed (settleFolios k r s) :=
  foldl_formed (fun _ _ => modFolio_formed) (modBay_formed h)

theorem startBay_formed {b : Nat} {s : State} (h : Formed s) : Formed (startBay b s) :=
  foldl_formed (fun _ _ hu => settleFolios_formed (modCarrel_formed hu)) (modBay_formed h)

theorem beginEntry_formed {restores : List (Nat × StoreUpset)} {k : Nat} {s : State} (h : Formed s) :
    Formed (beginEntry restores k s) :=
  ite_formed (modCarrel_formed h) (turnIn_formed (modCarrel_formed h))

theorem atTurn_formed {n : Word} {f : State → State} {s : State} (hf : ∀ s, Formed s → Formed (f s)) (h : Formed s) :
    Formed (atTurn n f s) := by
  have ht : Formed (f { s with frame.number := n, frame.slot := 249 }) := hf _ { h with }
  exact { ht with }

theorem beginEntries_formed {n : Word} {restores : List (Nat × StoreUpset)} {s : State} (h : Formed s) :
    Formed (beginEntries n restores s) := by
  unfold beginEntries
  exact atTurn_formed (fun _ hu => foldl_formed (fun _ _ => beginEntry_formed) hu) h

theorem stopBay_formed {b : Nat} {s : State} (h : Formed s) : Formed (stopBay b s) :=
  foldl_formed (fun _ _ => modCarrel_formed) (modBay_formed h)

theorem initBay_formed {b : Nat} {s : State} (h : Formed s) : Formed (initBay b s) := by
  unfold initBay
  extract_lets _ s1
  have h1 : Formed s1 :=
    { h with
      fab_folios := Sparse.rises_map _ _ (fun x => by dsimp only; split <;> rfl) h.fab_folios
      fab_editions := Sparse.rises_map _ _ (fun _ => rfl) h.fab_editions }
  exact foldl_formed (fun _ _ => modCarrel_formed) h1

theorem raiseReady_formed {ns : List Nat} {s : State} (h : Formed s) : Formed (raiseReady ns s) :=
  { h with fab_editions := Sparse.rises_map _ _ (fun _ => rfl) h.fab_editions }

theorem dropCorrections_formed {k : Nat} {s : State} (h : Formed s) : Formed (dropCorrections k s) := { h with }

theorem takeFolio_formed {num : Nat} {keep : Bool} {k : Nat} {s : State} (h : Formed s) : Formed (takeFolio num keep k s) := by
  unfold takeFolio
  extract_lets _ _ s1
  have h1 : Formed s1 := modFolio_formed h
  exact dropCorrections_formed { h1 with }

theorem startRequest_formed {keep : Bool} {kind : LoadKind} {id : Option SlipId} {keys : List Nat} {s : State} (h : Formed s) :
    Formed (startRequest keep kind id keys s) :=
  foldl_formed (fun _ _ => takeFolio_formed) { h with }

theorem startLoad_formed {kind : LoadKind} {id : Option SlipId} {keys : List Nat} {s : State} (h : Formed s) :
    Formed (startLoad kind id keys s) :=
  startRequest_formed h

theorem installRota_formed {r : RotaRec} {s : State} (h : Formed s) : Formed (installRota r s) := modCarrel_formed h

theorem addEditions_formed {es : List EditionSt} {state : Nat} {copies : List (Nat × FolioImage)} {cats : List (Nat × List Nat)}
    {s : State} (h : Formed s) : Formed (addEditions es state copies cats s) := by
  unfold addEditions
  extract_lets copiesOf put
  exact withEditions_formed h (Sparse.rises_foldl _ put _ (fun _ _ => Sparse.rises_ins _ _ _) h.fab_editions)

theorem dropEditions_formed {b : Nat} {s : State} (h : Formed s) : Formed (dropEditions b s) :=
  { h with fab_editions := Sparse.rises_filter _ _ h.fab_editions, fab_binds := Sparse.rises_filter _ _ h.fab_binds }

theorem replaceArchive_formed {b : Nat} {c : BayContent} {s : State} (h : Formed s) : Formed (replaceArchive b c s) :=
  { placeCopies_formed (dropEditions_formed h) with }

theorem applyBaySettings_formed {b : Nat} {c : BayContent} {s : State} (h : Formed s) : Formed (applyBaySettings b c s) := by
  unfold applyBaySettings
  extract_lets s1 _ _ s2 s3 s4 _ s5 _ _ s6
  have h1 : Formed s1 := modBay_formed h
  have h2 : Formed s2 :=
    withBanks_formed h1 (Sparse.rises_foldl _ _ _ (fun _ _ => Sparse.rises_put _ _ _ _) (Sparse.rises_filter _ _ h1.fab_banks))
  have h3 : Formed s3 := foldl_formed (fun _ _ => modCarrel_formed) h2
  have h4 : Formed s4 := foldl_formed (fun _ _ => installRota_formed) h3
  have h5 : Formed s5 := addEditions_formed h4
  have h6 : Formed s6 := withBinds_formed h5 (Sparse.rises_foldl _ _ _ (fun _ _ => Sparse.rises_ins _ _ _) h5.fab_binds)
  exact foldl_formed (fun _ _ => layerWrite_formed) h6

theorem beginBays_formed {l : List BayContent} {s : State} (h : Formed s) : Formed (beginBays l s) := by
  induction l generalizing s with
  | nil => exact { h with }
  | cons c rest ih =>
    have h1 : Formed { replaceArchive c.bay c s with cfg.applyRest := rest } := { replaceArchive_formed h with }
    exact ite_formed (ih (applyBaySettings_formed h1)) (startLoad_formed h1)

theorem endRequest_formed {r : LoadReq} {s : State} (h : Formed s) : Formed (endRequest r s) := by
  unfold endRequest
  extract_lets _ s1
  have h1 : Formed s1 := { h with }
  split
  · exact completeOpt_formed h1
  · extract_lets s2
    have h2 : Formed s2 := by
      refine completeOpt_formed ?_
      split
      · exact applyBaySettings_formed h1
      · exact h1
    exact ite_formed (beginBays_formed h2) h2
  split
  · exact completeOpt_formed h1
  · extract_lets s2
    have h2 : Formed s2 := { h1 with fab_editions := Sparse.rises_ins _ _ _ h1.fab_editions }
    split
    · exact complete_formed h2
    · exact h2

theorem keepCopy_formed {k : Nat} {c : FolioImage × Option (List Nat)} {s : State} (h : Formed s) : Formed (keepCopy k c s) :=
  { h with }

theorem writeFolio_formed {it : LoadItem} {s : State} (h : Formed s) : Formed (writeFolio it s) := by
  unfold writeFolio
  extract_lets _ _ _ s1 _ s2
  have h1 : Formed s1 := modFolio_formed (keepCopy_formed (fetchCopy_formed h))
  clear_value s1
  have h2 : Formed s2 := { h1 with }
  split
  · exact ite_formed h2 (endRequest_formed h2)
  · exact h2

theorem returnFolios_formed {num : Nat} {s : State} (h : Formed s) : Formed (returnFolios num s) :=
  foldl_formed (fun _ _ => modFolio_formed) { h with }

theorem freeChannels_formed {k : Nat} {s : State} (h : Formed s) : Formed (freeChannels k s) :=
  modBay_formed (clearChannels_formed h)

theorem emptyFolio_formed {s : State} {k : Nat} (h : Formed s) : Formed (emptyFolio s k) :=
  freeChannels_formed (modFolio_formed h)

theorem unloadEdition_formed {n : Nat} {s : State} (h : Formed s) : Formed (unloadEdition n s) := by
  unfold unloadEdition
  extract_lets
  split
  · exact h
  · exact foldl_formed (fun _ _ => freeChannels_formed) { h with fab_editions := Sparse.rises_ins _ _ _ h.fab_editions }

theorem archiveError_formed {b : Bay} {it : LoadItem} {s : State} (h : Formed s) : Formed (archiveError b it s) := by
  unfold archiveError
  extract_lets _ _ s1 _ s2
  have h1 : Formed s1 := useFree_formed h
  have h2 : Formed s2 := sideUncorrectable_formed { h1 with }
  split
  · exact h2
  · extract_lets s3 s4
    have h3 : Formed s3 := returnFolios_formed { h2 with }
    have h4 : Formed s4 := by
      unfold s4
      split
      · exact unloadEdition_formed h3
      · exact h3
    split
    · exact complete_formed h4
    · exact h4

theorem folioWritten_formed {b : Bay} {it : LoadItem} {s : State} (h : Formed s) : Formed (folioWritten b it s) :=
  ite_formed (archiveError_formed h) (writeFolio_formed h)

theorem stopApply_formed {b : Bay} {s : State} (h : Formed s) : Formed (stopApply b s) := by
  unfold stopApply
  split
  · exact h
  · refine completeOpt_formed ?_
    split
    · exact ite_formed (emptyFolio_formed (returnFolios_formed { h with })) (returnFolios_formed { h with })
    · exact returnFolios_formed { h with }

/-! ## Channels of a rota -/

theorem grantChannels_formed {l : List ChanAlloc} {s : State} (h : Formed s) : Formed (grantChannels l s) :=
  foldl_formed (fun _ _ hu => modBay_formed (clearChannels_formed (freeChannels_formed hu))) h

theorem displace_formed {n : Nat} {keys : List Nat} {s : State} (h : Formed s) : Formed (displace n keys s) :=
  { h with fab_editions := Sparse.rises_map _ _ (fun x => by dsimp only; split <;> rfl) h.fab_editions }

theorem emptyFolios_formed {keys : List Nat} {s : State} (h : Formed s) : Formed (emptyFolios keys s) :=
  foldl_formed (fun _ _ => emptyFolio_formed) h

end Sys2Proof.Machine
end

section
/-! PROOFS. Queues and flows keep the form. -/

namespace Sys2Proof.Machine

open Sys2Proof

/-! ## Ingress queues -/

theorem chargeCredit_formed {p i n : Nat} {s : State} (h : Formed s) : Formed (chargeCredit p i n s) :=
  ite_formed (warn_formed (modCredit_formed h)) (modCredit_formed h)

theorem freeCredit_formed {c : Option (Nat × Nat × Nat)} {s : State} (h : Formed s) : Formed (freeCredit c s) := by
  unfold freeCredit
  split
  · exact modCredit_formed h
  · exact h

theorem countIngress_formed {p : Nat} {s : State} (h : Formed s) : Formed (countIngress p s) := modLane_formed h

theorem countEgress_formed {p : Nat} {s : State} (h : Formed s) : Formed (countEgress p s) := modLane_formed h

theorem leaveStage_formed {p : Nat} {w : Line} {s : State} (h : Formed s) : Formed (leaveStage p w s) :=
  ite_formed (modEgress_formed h) h

theorem closeFrom_formed {p : Nat} {s : State} (h : Formed s) : Formed (closeFrom p s) :=
  { h with
    queues := Sparse.rises_map _ _ (fun _ => rfl) h.queues
    words := allRise_map (fun x => by dsimp only; split <;> rfl) h.words }

theorem freeStored_formed {q : Nat} {s : State} (h : Formed s) : Formed (freeStored q s) :=
  freeCredit_formed (foldl_formed (fun _ _ => freeCredit_formed) h)

theorem countMarker_formed {e : Nat} {s : State} (h : Formed s) : Formed (countMarker e s) := modEngine_formed h

theorem faultLog_formed {q kind : Nat} {s : State} (h : Formed s) : Formed (faultLog q kind s) := modEngine_formed h

theorem resetQueue_formed {q kind : Nat} {rd : BitVec 17 × BitVec 17 × BitVec 17 × BitVec 17} {s : State} (h : Formed s) :
    Formed (resetQueue q kind rd s) := by
  unfold resetQueue
  extract_lets _ s1 _ _ d1 s2 s3 s4
  have h1 : Formed s1 := freeStored_formed h
  have h2 : Formed s2 := countMarker_formed (setQueue_formed h1 (Sparse.rises_one _ _))
  have h3 : Formed s3 := faultLog_formed (modEngine_formed h2)
  have h4 : Formed s4 := foldl_formed (fun _ _ => complete_formed) h3
  exact alarm_formed h4

theorem descFault_formed {q : Nat} {s : State} (h : Formed s) : Formed (descFault q s) := by
  unfold descFault
  extract_lets _ s1 d1 s2 s3
  have h1 : Formed s1 := freeStored_formed h
  have h2 : Formed s2 := faultLog_formed (modEngine_formed (setQueue_formed h1 Sparse.rises_nil))
  have h3 : Formed s3 := foldl_formed (fun _ _ => complete_formed) h2
  exact alarm_formed h3

theorem strikeQueue_formed {q : Nat} {u : Upset} {s : State} (h : Formed s) : Formed (strikeQueue q u s) := by
  unfold strikeQueue
  split
  · exact h
  · exact modQueue_formed h fun _ hd => hd
  · exact modQueue_formed h fun _ hd => hd
  · exact modQueue_formed h fun _ hd => hd

theorem useQueue_formed {q : Nat} {s t : State} (h : Formed s) (ht : useQueue q s = some t) : Formed t := by
  unfold useQueue at ht
  dsimp only at ht
  split_ifs at ht <;> cases ht
  · exact descFault_formed h
  · exact resetQueue_formed h
  · exact resetQueue_formed h

theorem markLoss_formed {q : Nat} {l : Loss} {s : State} (h : Formed s) : Formed (markLoss q l s) := by
  unfold markLoss
  extract_lets d
  have hd : Sparse.rises d.words = true := queue_rises q h
  split
  · next _ ht => exact useQueue_formed h ht
  · exact ite_formed (setQueue_formed h (Sparse.rises_ins _ _ _ hd)) (countMarker_formed (setQueue_formed h (push_rises hd)))

theorem dropItem_formed {q : Nat} {hdr : Line} {cause : Byte} {charge : Option (Nat × Nat × Nat)} {s : State} (h : Formed s) :
    Formed (dropItem q hdr cause charge s) :=
  freeCredit_formed (markLoss_formed (modEngine_formed h))

theorem disabledDrop_formed {e : Nat} {told : Bool} {s : State} (h : Formed s) : Formed (disabledDrop e told s) :=
  ite_formed (warn_formed (modEngine_formed h)) (modEngine_formed h)

theorem takeHeader_formed {q : Nat} {hdr : Line} {charge : Option (Nat × Nat × Nat)} {s : State} (h : Formed s) :
    Formed (takeHeader q hdr charge s).2 := by
  unfold takeHeader
  extract_lets
  split
  · exact dropItem_formed (warn_formed (modEngine_formed h))
  split
  · exact dropItem_formed h
  split
  · exact dropItem_formed (warn_formed (modEngine_formed h))
  split
  · exact dropItem_formed h
  · exact setQueue_formed h (push_rises (queue_rises q h))

theorem pushWord_formed {q : Nat} {w : Line} {s : State} (h : Formed s) : Formed (pushWord q w s) :=
  modQueue_formed h fun _ => push_rises

theorem poisonItem_formed {q : Nat} {s : State} (h : Formed s) : Formed (poisonItem q s) :=
  ite_formed (setQueue_formed h (queue_rises q h)) (dropItem_formed (setQueue_formed h (queue_rises q h)))

theorem writeFlush_formed {q : Nat} {s : State} (h : Formed s) : Formed (writeFlush q s) := by
  unfold writeFlush
  extract_lets d l _ s1 d1 d2 s2
  have h1 : Formed s1 := setQueue_formed h (queue_rises q h)
  have hd : Sparse.rises d2.words = true := push_rises (queue_rises q h1)
  have h2 : Formed s2 := by
    unfold s2
    split
    · exact h1
    · exact countMarker_formed (setQueue_formed h1 hd)
  exact foldl_formed (fun _ _ => complete_formed) h2

theorem endFlush_formed {q : Nat} {s : State} (h : Formed s) : Formed (endFlush q s) :=
  getD_formed (fun _ => useQueue_formed h) (writeFlush_formed h)

theorem beginFlush_formed {q : Nat} {s : State} (h : Formed s) : Formed (beginFlush q s) :=
  setQueue_formed (foldl_formed (fun _ _ => freeCredit_formed) h) (queue_rises q h)

theorem flushQueue_formed {q : Nat} {s : State} (h : Formed s) : Formed (flushQueue q s) := by
  have h1 : Formed (beginFlush q s) := beginFlush_formed h
  unfold flushQueue
  split
  · exact h
  split
  · next _ ht => exact useQueue_formed h ht
  · exact ite_formed h1 (endFlush_formed h1)

/-! ## Flows -/

theorem admitHeld_formed {q : Nat} {it : HeldItem} {s : State} (h : Formed s) : Formed (admitHeld q it s) := by
  have after {t : State} (ht : Formed t) :
      Formed (if it.complete then t else t.modQueue q fun d => { d with dropping := true, arriving := none }) :=
    ite_formed ht (modQueue_formed ht fun _ hd => hd)
  unfold admitHeld
  split
  · exact h
  · next hdr rest _ =>
    have hr : Formed (takeHeader q hdr it.charge s).2 := takeHeader_formed h
    have hw : Formed (rest.foldl (fun s w => pushWord q w s) (takeHeader q hdr it.charge s).2) :=
      foldl_formed (fun _ _ => pushWord_formed) hr
    dsimp only
    split
    · exact after (freeCredit_formed (disabledDrop_formed h))
    split
    · next _ ht => exact after (freeCredit_formed (useQueue_formed h ht))
    · exact ite_formed
        (ite_formed (modQueue_formed hw fun _ hd => hd)
          (ite_formed (poisonItem_formed hw) (modQueue_formed hw fun _ hd => hd)))
        (after hr)

theorem dlStore_formed {f : FlowSt} {p : Nat} {w : Line} {s : State} (h : Formed s) : Formed (dlStore f p w s) := by
  unfold dlStore
  exact storeBlock_formed (walkPage_formed h)

theorem dlReset_formed {k : Nat} {s : State} (h : Formed s) : Formed (dlReset k s) :=
  alarm_formed (dlStore_formed (countMarker_formed (modEngine_formed (setFlow_formed
    (foldl_formed (fun _ _ => freeCredit_formed) h)))))

theorem strikeLine_formed {k : Nat} {u : Upset} {s : State} (h : Formed s) : Formed (strikeLine k u s) := by
  unfold strikeLine
  split
  · exact modFlow_formed h
  · exact modFlow_formed h
  · exact h

theorem useLine_formed {k : Nat} {s t : State} (h : Formed s) (ht : useLine k s = some t) : Formed t := by
  unfold useLine at ht
  dsimp only at ht
  split_ifs at ht
  exact Option.some.inj ht ▸ dlReset_formed h

theorem dlMark_add_formed {k : Nat} {l : Loss} {s : State} {f : FlowSt} (h : Formed s) : Formed (dlMark.add k l s f) := by
  unfold dlMark.add
  exact dlStore_formed (countMarker_formed (setFlow_formed h))

theorem dlMark_formed {k : Nat} {l : Loss} {s : State} (h : Formed s) : Formed (dlMark k l s) := by
  unfold dlMark
  dsimp only
  split
  · next _ ht => exact useLine_formed h ht
  · exact ite_formed (dlStore_formed (setFlow_formed h)) (dlMark_add_formed h)
  · exact dlMark_add_formed h

theorem dlDrop_formed {k : Nat} {hdr : Line} {cause : Byte} {charge : Option (Nat × Nat × Nat)} {s : State} (h : Formed s) :
    Formed (dlDrop k hdr cause charge s) :=
  freeCredit_formed (dlMark_formed h)

theorem dlHeader_formed {k : Nat} {hdr : Line} {charge : Option (Nat × Nat × Nat)} {s : State} (h : Formed s) :
    Formed (dlHeader k hdr charge s).2 := by
  unfold dlHeader
  dsimp only
  split
  · next _ ht => exact freeCredit_formed (useLine_formed h ht)
  split
  · exact dlDrop_formed (warn_formed (modEngine_formed h))
  split
  · exact dlDrop_formed (modEngine_formed h)
  · dsimp only
    exact dlStore_formed (setFlow_formed h)

theorem addHead_formed {k : Nat} {it : HeldItem} {s : State} (h : Formed s) : Formed (addHead k it s) := by
  unfold addHead
  extract_lets s1
  have h1 : Formed s1 := modFlow_formed h
  exact modFlow_formed h1

theorem dropHead_formed {k : Nat} {s : State} (h : Formed s) : Formed (dropHead k s) := modFlow_formed h

theorem declareGap_formed {lo low : Nat} {s : State} (h : Formed s) : Formed (declareGap lo low s) := by
  unfold declareGap
  extract_lets _ _ _ _ s1 s2
  have h1 : Formed s1 := ite_formed (markLoss_formed h) h
  have h2 : Formed s2 := modEngine_formed h1
  exact modFlow_formed h2

theorem discardHead_formed {k : Nat} {it : HeldItem} {s : State} (h : Formed s) : Formed (discardHead k it s) :=
  ite_formed (freeCredit_formed (dropHead_formed h)) (modQueue_formed (freeCredit_formed (dropHead_formed h)) fun _ hd => hd)

theorem mergeHead_formed {lo k : Nat} {it : HeldItem} {s t : State} (h : Formed s) (ht : mergeHead lo k it s = some t) :
    Formed t := by
  unfold mergeHead at ht
  dsimp only at ht
  split_ifs at ht <;> cases ht
  · exact modFlow_formed (discardHead_formed h)
  · exact discardHead_formed h
  · exact admitHeld_formed (dropHead_formed (setFlow_formed h))
  · exact modEngine_formed (modFlow_formed (discardHead_formed (setFlow_formed h)))
  · exact admitHeld_formed (dropHead_formed (setFlow_formed h))
  · exact modEngine_formed (modFlow_formed (discardHead_formed (setFlow_formed h)))

theorem admitHead_formed {k : Nat} {s : State} (h : Formed s) : Formed (admitHead k s) := by
  unfold admitHead
  split
  · exact h
  · exact ite_formed h (admitHeld_formed (dropHead_formed h))

theorem beginWait_formed {lo : Nat} {it : HeldItem} {s : State} (h : Formed s) : Formed (beginWait lo it s) :=
  ite_formed h (modFlow_formed h)

theorem mergeStep_formed {k : Nat} {s : State} (h : Formed s) : Formed (mergeStep k s) := by
  unfold mergeStep
  dsimp only
  split
  · exact admitHead_formed h
  split
  · next _ ht =>
    obtain ⟨j, _, hj⟩ := List.exists_of_findSome?_eq_some ht
    obtain ⟨it, _, hm⟩ := Option.bind_eq_some_iff.mp hj
    exact mergeHead_formed h hm
  split
  · exact ite_formed h (declareGap_formed h)
  · exact beginWait_formed h
  · exact beginWait_formed h
  · exact h

theorem endPair_formed {k : Nat} {s : State} (h : Formed s) : Formed (endPair k s) :=
  ite_formed h (foldl_formed (fun _ _ => admitHead_formed) (foldl_formed (fun _ _ => modFlow_formed) h))

/-! ## Transmission -/

theorem idleTx_formed {p : Nat} {s : State} (h : Formed s) : Formed (idleTx p s) := modTx_formed (modLane_formed h)

theorem sendUnit_formed {p : Nat} {u : LineUnit} {s : State} (h : Formed s) : Formed (sendUnit p u s) :=
  ite_formed (modTx_formed h) h

theorem sendData_formed {p : Nat} {l : List Sym} {s : State} (h : Formed s) : Formed (sendData p l s) := modTx_formed h

theorem sendWord_formed {p : Nat} {opens ends abort : Bool} {w : Line} {s : State} (h : Formed s) :
    Formed (sendWord p opens ends abort w s) :=
  sendData_formed h

theorem closeTx_formed {p : Nat} {s : State} (h : Formed s) : Formed (closeTx p s) := by
  unfold closeTx
  extract_lets _ _ s1
  have h1 : Formed s1 := ite_formed (useFree_formed h) h
  exact modTx_formed h1

theorem sendSet_formed {p type : Nat} {x : Step} {f : BitVec 16} {s : State} (h : Formed s) : Formed (sendSet p type x f s) :=
  sendUnit_formed h

theorem sendDueSets_formed {p : Nat} {s : State} (h : Formed s) : Formed (sendDueSets p s) :=
  ite_formed h (modNeg_formed (modTx_formed (foldl_formed (fun _ _ => sendSet_formed) h)))

theorem sendMarks_formed {p : Nat} {s : State} (h : Formed s) : Formed (sendMarks p s) :=
  ite_formed h (sendUnit_formed (ite_formed (sendUnit_formed h) h))

theorem sendSkip_formed {p : Nat} {s : State} (h : Formed s) : Formed (sendSkip p s) :=
  ite_formed h (ite_formed (sendUnit_formed (modTx_formed h)) (modTx_formed h))

theorem sendPage_formed {p : Nat} {s : State} (h : Formed s) : Formed (sendPage p s) := ite_formed (sendUnit_formed h) h

theorem openTx_formed {p : Nat} {s : State} (h : Formed s) : Formed (openTx p s) :=
  sendPage_formed (sendSkip_formed (sendDueSets_formed (sendMarks_formed h)))

/-! ## Items into their queues -/

theorem startDropping_formed {q : Nat} {s : State} (h : Formed s) : Formed (startDropping q s) := modQueue_formed h fun _ hd => hd

theorem headerToQueue_formed {q : Nat} {hdr : Line} {c : Option (Nat × Nat × Nat)} {s : State} (h : Formed s) :
    Formed (headerToQueue q hdr c s) := by
  unfold headerToQueue
  split
  · exact startDropping_formed (freeCredit_formed (disabledDrop_formed h))
  split
  · next _ ht => exact startDropping_formed (freeCredit_formed (useQueue_formed h ht))
  · exact ite_formed (takeHeader_formed h) (startDropping_formed (takeHeader_formed h))

theorem strikeFor_formed {q : Nat} {line : Option Nat} {u : Upset} {s : State} (h : Formed s) :
    Formed (strikeFor q line u s) := by
  unfold strikeFor
  split
  · exact ite_formed (strikeLine_formed h) (strikeQueue_formed h)
  · exact strikeQueue_formed h

theorem headerTaken_formed {q : Nat} {x : XbarItem} {s : State} (h : Formed s) : Formed (headerTaken q x s) := by
  unfold headerTaken
  extract_lets _ _ _ s1
  have h1 : Formed s1 := modQueue_formed { h with } fun _ hd => hd
  exact ite_formed (startDropping_formed (freeCredit_formed (disabledDrop_formed h1)))
    (ite_formed (ite_formed (modQueue_formed (dlHeader_formed h1) fun _ hd => hd) (startDropping_formed (dlHeader_formed h1)))
    (ite_formed (modQueue_formed (addHead_formed h1) fun _ hd => hd) (headerToQueue_formed h1)))

theorem wordArrives_formed {k : Nat} {w : Line} {s : State} (h : Formed s) : Formed (wordArrives k w s) :=
  ite_formed (countIngress_formed h)
    (ite_formed (getD_formed (fun _ => useLine_formed h) (dlStore_formed (setFlow_formed h))) (setFlow_formed h))

theorem dropWord_formed {q : Nat} {s : State} (h : Formed s) : Formed (dropWord q s) :=
  ite_formed (elim_formed h fun _ => countIngress_formed h) (setQueue_formed h (queue_rises q h))

theorem leaveFor_formed {q : Nat} {w : Line} {s : State} (h : Formed s) : Formed (leaveFor q w s) :=
  elim_formed h fun _ => leaveStage_formed h

theorem wordWrite_formed {q : Nat} {w : Line} {s : State} (h : Formed s) : Formed (wordWrite q w s) := by
  unfold wordWrite
  extract_lets s1
  have h1 : Formed s1 := leaveFor_formed h
  split
  · exact dropWord_formed h1
  split
  · exact ite_formed (dropWord_formed h1) (wordArrives_formed h1)
  split
  · exact h1
  split
  · next _ ht => exact useQueue_formed h1 ht
  · exact ite_formed (countIngress_formed h1) (pushWord_formed h1)

theorem arrivalEnds_formed {k : Nat} {poisoned : Bool} {s : State} (h : Formed s) : Formed (arrivalEnds k poisoned s) := by
  unfold arrivalEnds
  dsimp only
  split
  · split
    · exact setFlow_formed h
    split
    · exact setFlow_formed h
    split
    · split
      · next _ ht => exact modFlow_formed (useLine_formed h ht)
      · exact dlDrop_formed (setFlow_formed h)
    · exact setFlow_formed h
  · exact setFlow_formed h

theorem endWritten_formed {q : Nat} {poisoned : Bool} {s : State} (h : Formed s) : Formed (endWritten q poisoned s) := by
  have hset {d : QueueSt} (hd : d.words = (s.queue q).words) : Formed (s.setQueue q d) :=
    setQueue_formed h (hd ▸ queue_rises q h)
  unfold endWritten
  dsimp only
  split
  · exact hset rfl
  split
  · exact modQueue_formed (arrivalEnds_formed h) fun _ hd => hd
  split
  · exact hset rfl
  split
  · split
    · split
      · next _ ht => exact modQueue_formed (useQueue_formed h ht) fun _ hd => hd
      · exact poisonItem_formed h
    · exact hset rfl
  · exact h

theorem itemEnds_formed {q : Nat} {poisoned : Bool} {s : State} (h : Formed s) : Formed (itemEnds q poisoned s) :=
  modQueue_formed (endWritten_formed h) fun _ hd => hd

theorem poisonFrom_formed {p : Nat} {s : State} (h : Formed s) : Formed (poisonFrom p s) :=
  foldl_formed (fun _ _ => itemEnds_formed) { h with }

theorem popFinding_formed {q : Nat} {f : Found} {s : State} (h : Formed s) : Formed (popFinding q f s) := by
  unfold popFinding
  split
  · exact h
  · exact memFinding_formed (useFree_formed h)

theorem popWord_rises {d : QueueSt} (hd : Sparse.rises d.words = true) : Sparse.rises (popWord d).queue.words = true := by
  unfold popWord
  extract_lets
  split
  · exact hd
  · exact hd

theorem popHeader_rises {d : QueueSt} (hd : Sparse.rises d.words = true) : Sparse.rises (popHeader d).queue.words = true := by
  unfold popHeader
  extract_lets
  split
  · exact hd
  · exact hd

theorem egressPop_formed {p q : Nat} {opens : Bool} {r : Popped} {s : State} (h : Formed s) :
    Formed (egressPop p q opens r s) := by
  unfold egressPop
  extract_lets _ _ s1 s2 _ _ s3
  have h1 : Formed s1 := modCredit_formed h
  have h2 : Formed s2 := ite_formed (sendWord_formed h1) h1
  have h3 : Formed s3 := modEgress_formed h2
  exact ite_formed
    { h3 with fab_binds := Sparse.rises_map _ _ (fun x => by dsimp only; split <;> rfl) h3.fab_binds } h3

theorem queuePop_formed {q : Nat} {f : Found} {s : State} (h : Formed s) : Formed (queuePop q f s) := by
  have hd : Sparse.rises (s.queue q).words = true := queue_rises q h
  have h1 : Formed (popFinding q f s) := popFinding_formed h
  have finish {p : Nat} {opens : Bool} {r : Popped} {t : State} (hr : Sparse.rises r.queue.words = true) (ht : Formed t) :
      Formed (egressPop p q opens r (freeCredit r.frees (t.setQueue q { r.queue with popped := some r.word }))) :=
    egressPop_formed (freeCredit_formed (setQueue_formed ht hr))
  unfold queuePop
  dsimp only
  split
  · exact h
  split
  · exact setQueue_formed h hd
  split
  · next _ ht => exact useQueue_formed h ht
  split_ifs
  · exact finish hd h
  · exact finish hd (modEngine_formed h1)
  · exact resetQueue_formed (modEngine_formed h1)
  · exact finish (popWord_rises hd) h1
  · exact finish (popHeader_rises hd) h1

/-! ## Flows into the pool and the crossbar -/

theorem contextFindings_formed {f : Nat} {found : List Found} {s : State} (h : Formed s) : Formed (contextFindings f found s) :=
  foldl_invariant (P := fun a : State × Nat => Formed a.1) (fun _ _ => memFinding_formed) h

theorem returnUnits_formed {p : Nat} {hdr : Line} {s : State} (h : Formed s) : Formed (returnUnits p hdr s) := by
  unfold returnUnits
  exact freeCredit_formed (chargeCredit_formed h)

theorem lookupMiss_formed {p : Nat} {hdr : Line} {s : State} (h : Formed s) : Formed (lookupMiss p hdr s) :=
  returnUnits_formed (ite_formed (modEngine_formed h) (warn_formed (modEngine_formed h)))

theorem contextError_formed {p : Nat} {hdr : Line} {found : List Found} {s : State} (h : Formed s) :
    Formed (contextError p hdr found s) :=
  returnUnits_formed (ite_formed (modFlow_formed (modEngine_formed h)) (alarm_formed (modFlow_formed (modEngine_formed h))))

theorem placeItem_formed {p : Nat} {hdr : Line} {open_ poisoned : Bool} {s : State} (h : Formed s) :
    Formed (placeItem p hdr open_ poisoned s) :=
  chargeCredit_formed { setFlow_formed h with }

theorem skipItem_formed {p : Nat} {hdr : Line} {s : State} (h : Formed s) : Formed (skipItem p hdr s) := modEgress_formed h

theorem flowLookup_formed {p : Nat} {hdr : Line} {found : List Found} {s : State} (h : Formed s) :
    Formed (flowLookup p hdr found s) := by
  unfold flowLookup
  extract_lets _ s1
  have h1 : Formed s1 := contextFindings_formed (leaveStage_formed h)
  exact ite_formed (contextError_formed (skipItem_formed h1)) (ite_formed (placeItem_formed h1)
    (lookupMiss_formed (skipItem_formed h1)))

theorem dlRead_formed {f : FlowSt} {a : Nat} {found : Found} {s : State} (h : Formed s) : Formed (dlRead f a found s).2 :=
  readBlock_formed h

theorem dlReads_formed {f : FlowSt} {n p : Nat} {found : List Found} {s : State} (h : Formed s) :
    Formed (dlReads f n p found s).2 :=
  foldl_invariant (P := fun a : List Bool × State => Formed a.2) (fun _ _ => dlRead_formed) h

theorem goOn_formed {k : Nat} {it : HeldItem} {s : State} (h : Formed s) : Formed (goOn k it s) :=
  ite_formed (addHead_formed h) (admitHeld_formed h)

theorem delayRelease_formed {k : Nat} {found : List Found} {s : State} (h : Formed s) : Formed (delayRelease k found s) := by
  unfold delayRelease
  dsimp only
  split
  · exact h
  split
  · exact h
  split
  · next _ ht => exact useLine_formed h ht
  · exact ite_formed (dlReset_formed (dlReads_formed h))
      (ite_formed (goOn_formed (modFlow_formed (dlReads_formed h)))
        (goOn_formed (freeCredit_formed (countMarker_formed (modEngine_formed (modFlow_formed (dlReads_formed h)))))))

theorem mergeTimeout_formed {k : Nat} {s : State} (h : Formed s) : Formed (mergeTimeout k s) := by
  unfold mergeTimeout
  extract_lets
  split
  · split
    · exact declareGap_formed h
    · exact declareGap_formed h
    · exact h
  · exact h

theorem resync_formed {lo : Nat} {s : State} (h : Formed s) : Formed (resync lo s) := modFlow_formed h

/-! ## Pairs of lines -/

theorem joinPair_formed {a b : Nat} {s : State} (h : Formed s) : Formed (joinPair a b s) := by
  unfold joinPair
  extract_lets s1 s2
  have h1 : Formed s1 := modFlow_formed h
  have h2 : Formed s2 := modFlow_formed h1
  exact modFlow_formed h2

theorem setAllowance_formed {port cls a : Nat} {s : State} (h : Formed s) : Formed (setAllowance port cls a s) :=
  modCredit_formed h

end Sys2Proof.Machine
end

section
/-! PROOFS. Editions, attachments, the memory layer and the ledger keep the form. -/

namespace Sys2Proof.Machine

open Sys2Proof

/-! ## Editions installed and switched -/

theorem installAt_formed {r : RotaRec} {s : State} (h : Formed s) : Formed (installAt r s) :=
  ite_formed (settleFolios_formed (installRota_formed h)) (installRota_formed h)

theorem leaveSwitches_formed {ports : List Nat} {s : State} (h : Formed s) : Formed (leaveSwitches ports s) := { h with }

theorem endSwitches_formed {s : State} (h : Formed s) : Formed (endSwitches s) :=
  foldl_formed (fun _ _ => complete_formed) { h with }

theorem offerAt_formed {p : Nat} {s : State} (h : Formed s) : Formed (offerAt p s) :=
  ite_formed h { h with fab_binds := Sparse.rises_map _ _ (fun _ => rfl) h.fab_binds }

theorem joinTakes_formed {p : Nat} {s : State} (h : Formed s) : Formed (joinTakes p s) := modEgress_formed h

theorem setBankCfg_rises {l : Sparse BankCfg} {k : Nat} {v : BankCfg} (h : Sparse.rises l = true) :
    Sparse.rises (setBankCfg l k v) = true :=
  Sparse.rises_put _ _ _ _ h

theorem bankAfter_rises {l : Sparse BankCfg} {c : Step4} (h : Sparse.rises l = true) : Sparse.rises (bankAfter l c) = true := by
  unfold bankAfter
  split
  · exact Sparse.rises_foldl _ _ _ (fun _ _ => setBankCfg_rises) h
  · exact Sparse.rises_put _ _ _ _ (Sparse.rises_put _ _ _ _ h)
  · exact h

theorem bindAfter_rises {b : Sparse BindSt} {c : Step4} (h : Sparse.rises b = true) : Sparse.rises (bindAfter b c) = true := by
  unfold bindAfter
  split
  · exact Sparse.rises_foldl _ _ _ (fun _ _ => Sparse.rises_ins _ _ _) h
  · exact Sparse.rises_foldl _ _ _ (fun _ _ => Sparse.rises_del _ _) h
  · exact Sparse.rises_foldl _ _ _ (fun _ _ => Sparse.rises_ins _ _ _) h
  · exact h

theorem bindPorts_formed {c : Step4} {ports : List Nat} {s : State} (h : Formed s) : Formed (bindPorts c ports s) := by
  unfold bindPorts
  extract_lets s1
  have h1 : Formed s1 := foldl_formed (fun _ _ hu => ite_formed (joinTakes_formed hu) hu) h
  exact foldl_formed (fun _ _ => offerAt_formed)
    (endSwitches_formed (leaveSwitches_formed { h1 with fab_binds := bindAfter_rises h1.fab_binds }))

theorem layerPhys_bank (s : State) (n : Nat) : s.layerPhys (n * 65536) % 65536 = 0 := by simp [State.layerPhys]

/-- The bytes of one bank stand in another: it is cleared where the first was, and then holds no zero either. -/
theorem copyBank_noZeros {l : List Host.Cell} {z : List Nat} {x y : Nat} (hx : x % 65536 = 0) (hy : y % 65536 = 0)
    (h : noZerosIn z l) :
    noZerosIn (if z.contains (x / 65536) then y / 65536 :: z.filter (· != y / 65536) else z.filter (· != y / 65536))
      ((l.filter fun c => x ≤ c.1 && c.1 < x + 65536).foldl (fun m c => Sparse.ins m (c.1 - x + y) c.2)
        (cellsDrop l y 65536)) := by
  refine List.foldlRecOn _ _ (noZerosIn_mono h fun c hc => ?_) fun m hm c hc e he => ?_
  · obtain ⟨hcl, hout⟩ := List.mem_filter.mp hc
    refine ⟨hcl, fun hz => ?_⟩
    have hne : c.1 / 65536 ≠ y / 65536 := by simp at hout; omega
    split at hz
    · exact (List.mem_filter.mp ((List.mem_cons.mp hz).resolve_left hne)).1
    · exact (List.mem_filter.mp hz).1
  · rcases mem_ins m _ _ he with rfl | he
    · obtain ⟨hcl, hin⟩ := List.mem_filter.mp hc
      simp only [Bool.and_eq_true, decide_eq_true_eq] at hin
      have hto : (c.1 - x + y) / 65536 = y / 65536 := by omega
      have hfrom : c.1 / 65536 = x / 65536 := by omega
      rintro ⟨hz, h0⟩
      simp only [hto] at hz
      split at hz
      · next hzero => exact h c hcl ⟨hfrom ▸ by simpa using hzero, h0⟩
      · simp at hz
    · exact hm e he

theorem copyBank_formed {a b : Nat} {s : State} (h : Formed s) : Formed (copyBank a b s) :=
  withMem_formed h (Sparse.rises_foldl _ _ _ (fun _ _ => Sparse.rises_ins _ _ _) (cellsDrop_rises _ _ _ h.mem_layer))
    ((noZeros_iff _).mpr (copyBank_noZeros (layerPhys_bank s a) (layerPhys_bank s b) ((noZeros_iff _).mp h.mem_zeros)))
      h.mem_side

theorem installChange_formed {c : Change4} {s : State} (h : Formed s) : Formed (installChange c s) := by
  unfold installChange
  split
  · exact completeOpt_formed (foldl_formed (fun _ _ => installAt_formed) h)
  · exact bindPorts_formed h
  · exact bindPorts_formed h
  · extract_lets s1 _ s2
    have h1 : Formed s1 := foldl_formed (fun _ _ => installAt_formed) (bindPorts_formed h)
    have h2 : Formed s2 := by
      unfold s2
      split
      · exact { h1 with fab_editions := Sparse.rises_ins _ _ _ h1.fab_editions }
      · exact h1
    split
    · exact { h2 with }
    · exact h2
  · exact { h with fab_banks := bankAfter_rises h.fab_banks }
  · exact completeOpt_formed { copyBank_formed h with fab_banks := bankAfter_rises h.fab_banks }
  · exact modEgress_formed h

theorem dropDisallowed_formed {s : State} (h : Formed s) : Formed (dropDisallowed s) :=
  foldl_formed (fun _ _ => completeOpt_formed) { h with }

theorem exchangeStep_formed {s : State} (h : Formed s) : Formed (exchangeStep s) := { h with }

theorem installAll_formed {cs : List Change4} {s : State} (h : Formed s) : Formed (installAll cs s) :=
  foldl_formed (fun _ _ => installChange_formed) { h with }

theorem boundaryStep4_formed {s : State} (h : Formed s) : Formed (boundaryStep4 s) := by
  unfold boundaryStep4
  extract_lets s1 _ s2 _ s3
  have h2 : Formed s2 := installAll_formed (dropDisallowed_formed h)
  clear_value s2
  have h3 : Formed s3 := exchangeStep_formed { h2 with }
  clear_value s3
  exact { h3 with }

theorem abandonChange_formed {ch : Channel} {s : State} (h : Formed s) : Formed (abandonChange ch s) := by
  unfold abandonChange
  extract_lets
  split
  · exact h
  · extract_lets _ s1 s2 _ s3 s4
    have h1 : Formed s1 := { h with }
    have h2 : Formed s2 := warn_formed (completeOpt_formed h1)
    have h3 : Formed s3 := installAll_formed h2
    have h4 : Formed s4 := foldl_formed (fun _ _ hu => ite_formed (beginEntry_formed hu) hu) h3
    clear_value s4
    exact ite_formed h { h4 with }

/-! ## The attachments of a port -/

theorem strayData_formed {p : Nat} {s : State} (h : Formed s) : Formed (strayData p s) :=
  ite_formed h (countIngress_formed (modLane_formed h))

theorem lineIngress_formed {p : Nat} {data : List (Byte × Bool)} {s : State} (h : Formed s) : Formed (lineIngress p data s) :=
  ite_formed h (ite_formed (strayData_formed h) (ite_formed (countIngress_formed h)
    (ite_formed (countIngress_formed (modEgress_formed h)) (modEgress_formed h))))

theorem lineTake_formed {p : Nat} {succ : Bool} {s : State} (h : Formed s) : Formed (lineTake p succ s) := by
  unfold lineTake
  split
  · exact h
  · exact ite_formed h (modEgress_formed h)

theorem lineSend_formed {p : Nat} {succ : Bool} {data : BitVec 64} {k : BitVec 8} {s : State} (h : Formed s) :
    Formed (lineSend p succ data k s) := by
  unfold lineSend
  extract_lets
  split
  · exact h
  · exact ite_formed h (ite_formed (countEgress_formed h) (modEgress_formed h))

theorem lineFill_formed {p : Nat} {s : State} (h : Formed s) : Formed (lineFill p s) := sendData_formed (modEgress_formed h)

theorem egressUnderrun_formed {p : Nat} {s : State} (h : Formed s) : Formed (egressUnderrun p s) :=
  ite_formed h (ite_formed (sendData_formed (countEgress_formed (modEgress_formed (lineFill_formed (modLane_formed h)))))
    (lineFill_formed (modLane_formed h)))

theorem poisonPart_formed {p : Nat} {s : State} (h : Formed s) : Formed (poisonPart p s) :=
  ite_formed h (ite_formed (modEgress_formed h) (poisonFrom_formed h))

theorem loseBeat_formed {p : Nat} {s : State} (h : Formed s) : Formed (loseBeat p s) :=
  ite_formed (countIngress_formed h) (poisonPart_formed (modEgress_formed (countIngress_formed h)))

theorem itemBeat_formed {p : Nat} {succ : Bool} {beat : BitVec 64} {s : State} (h : Formed s) :
    Formed (itemBeat p succ beat s) := by
  unfold itemBeat
  extract_lets _ s1 s2
  have h1 : Formed s1 := ite_formed h (ite_formed (loseBeat_formed h) (modEgress_formed h))
  have h2 : Formed s2 := modEgress_formed h1
  split
  · exact h
  · exact ite_formed h (ite_formed (countIngress_formed h) (ite_formed (closeFrom_formed h2) h2))

theorem egressTake_formed {p : Nat} {succ : Bool} {s : State} (h : Formed s) : Formed (egressTake p succ s) := by
  unfold egressTake
  split
  · exact h
  · exact ite_formed h (modEgress_formed h)

theorem endSwitch_formed {p : Nat} {s : State} (h : Formed s) : Formed (endSwitch p s) := by
  unfold endSwitch
  extract_lets
  split
  · exact joinTakes_formed (endSwitches_formed
      (leaveSwitches_formed { h with fab_binds := Sparse.rises_ins _ _ _ h.fab_binds }))
  · exact h

theorem release_formed {p : Nat} {g : SwitchBind → SwitchBind} {s : State} (h : Formed s) : Formed (release p g s) := by
  unfold release
  extract_lets
  split
  · split
    · extract_lets _ s1
      have h1 : Formed s1 := { h with fab_binds := Sparse.rises_ins _ _ _ h.fab_binds }
      exact ite_formed (endSwitch_formed h1) h1
    · exact h
  · exact h

theorem noteRelease_formed {p : Nat} {line : Bool} {s : State} (h : Formed s) : Formed (noteRelease p line s) := by
  unfold noteRelease
  extract_lets
  split
  · exact h
  · exact { h with }

theorem poisonAttach_formed {p : Nat} {s : State} (h : Formed s) : Formed (poisonAttach p s) := by
  unfold poisonAttach
  extract_lets _ s1
  have h1 : Formed s1 := ite_formed (poisonPart_formed h) h
  exact modEgress_formed h1

theorem forceSwitch_formed {p : Nat} {s : State} (h : Formed s) : Formed (forceSwitch p s) := by
  unfold forceSwitch
  split
  · split
    · exact ite_formed (warn_formed (endSwitch_formed (ite_formed h (poisonAttach_formed h)))) h
    · exact h
  · exact h

theorem forceSwitches_formed {s : State} (h : Formed s) : Formed (forceSwitches s) :=
  foldl_formed (fun _ _ => forceSwitch_formed) h

/-! ## The memory layer -/

theorem answer_formed {a : Acc} {zeros : Nat} {l : List Byte} {s : State} (h : Formed s) : Formed (answer a zeros l s) :=
  { useFree_formed h with }

theorem layerWordRead_formed {req word : Nat} {f : Found} {s : State} (h : Formed s) : Formed (layerWordRead req word f s) :=
  answer_formed (readWord_formed h)

theorem layerBytesWrite_formed {req addr : Nat} {data : List Byte} {f : Found} {s : State} (h : Formed s) :
    Formed (layerBytesWrite req addr data f s) :=
  { writeWord_formed h with }

theorem blockRead_formed {m block : Nat} {f : Found} {path : List NodeFound} {s : State} (h : Formed s) :
    Formed (blockRead m block f path s) :=
  answer_formed (readBlock_formed h)

theorem blockWrite_formed {m addr : Nat} {data : List Byte} {f : Found} {path : List NodeFound} {s : State} (h : Formed s) :
    Formed (blockWrite m addr data f path s) := by
  unfold blockWrite
  have hw : Formed (writeBlock m (s.reqOf m) addr data f path s).2.useFree := useFree_formed (writeBlock_formed h)
  exact ite_formed h { hw with }

theorem setBankErr_formed {b c k : Nat} {v : Bool} {s : State} (h : Formed s) : Formed (setBankErr b c k v s) := by
  unfold setBankErr
  exact modCarrel_formed h

theorem calViolation_formed {b c k : Nat} {read write : Bool} {s : State} (h : Formed s) :
    Formed (calViolation b c k read write s) :=
  ite_formed (setBankErr_formed { modBay_formed h with }) (modBay_formed h)

theorem lineFindings_formed {req a : Nat} {found : List Found} {s : State} (h : Formed s) :
    Formed (lineFindings req a found s) :=
  foldl_formed (fun _ _ => memFinding_formed) h

theorem carrelRead_formed {b c k a phys : Nat} {found : List Found} {s : State} (h : Formed s) :
    Formed (carrelRead b c k a phys found s) :=
  setBankErr_formed { useFree_formed (ite_formed (retiredHit_formed h) (lineFindings_formed h)) with }

theorem carrelWrite_formed {b phys a : Nat} {pool : Bool} {w : Line} {s : State} (h : Formed s) :
    Formed (carrelWrite b phys a pool w s) :=
  ite_formed (retiredHit_formed h) (ite_formed h (layerWrite_formed h))

theorem carrelAccess_formed {b c k cycle : Nat} {rd : Option (BitVec 11)} {wr : Option (BitVec 11 × Line)}
    {found : List Found} {s : State} (h : Formed s) : Formed (carrelAccess b c k cycle rd wr found s) := by
  unfold carrelAccess
  extract_lets _ _ _ _ s1 s2
  have h1 : Formed s1 := { h with }
  have h2 : Formed s2 := by
    unfold s2
    split
    · exact carrelRead_formed h1
    · exact h1
  split
  · exact h1
  split
  · exact calViolation_formed h1
  split
  · exact carrelWrite_formed h2
  · exact h2

theorem readPiece_formed {store m req a n : Nat} {f : Found} {s : State} (h : Formed s) :
    Formed (readPiece store m req a n f s).2.2 :=
  (readPiece_work (.refl s) ..).formed h

theorem writePiece_formed {store m req a : Nat} {l : List Byte} {f : Found} {s : State} (h : Formed s) :
    Formed (writePiece store m req a l f s).2.2 :=
  (writePiece_work (.refl s) ..).formed h

theorem workFrame_formed {s : State} (h : Formed s) : Formed (workFrame s) := { h with }

theorem memoryDone_formed {copy : Bool} {badUnits : List UnitFound} {s : State} (h : Formed s) :
    Formed (memoryDone copy badUnits s) := by
  unfold memoryDone
  split
  · exact h
  · next w _ =>
    extract_lets _ s1 r
    have h1 : Formed s1 := { h with }
    have hr : Formed r.state := by
      unfold r
      split
      · exact (copyRegion_work w badUnits s1).formed h1
      · exact (fillRegion_work w s1).formed h1
    exact complete_formed (useFree_formed hr)

theorem persist_formed {e : List Byte} {s : State} (h : Formed s) : Formed (persist e s) := ite_formed h { h with }

theorem retireBanks_formed {b : Nat} {s : State} (h : Formed s) : Formed (retireBanks b s) := { h with }

/-! ## Keys, the ledger and the random source -/

theorem setRights_formed {m acc : Nat} {view : Bool} {mask : Nat} {s : State} (h : Formed s) :
    Formed (setRights m acc view mask s) :=
  withRights_formed h (Sparse.rises_put _ _ _ _ h.crypto_rights)

theorem sweepPage_formed {v page : Nat} {s : State} (h : Formed s) : Formed (sweepPage v page s) :=
  ite_formed h (modLedger_formed h)

theorem sweepAbove_formed {v page : Nat} {s : State} (h : Formed s) : Formed (sweepAbove v page s) :=
  foldl_formed (fun _ _ hu => ite_formed (modLedger_formed (ite_formed (modVol_formed hu) hu)) hu) h

theorem endRekey_formed {v : Nat} {s : State} (h : Formed s) : Formed (endRekey v s) :=
  completeAll_formed (info_formed (modVol_formed { h with }))

theorem sweepFrame_formed {v : Nat} {s : State} (h : Formed s) : Formed (sweepFrame v s) := by
  unfold sweepFrame
  extract_lets _ _ s1
  have h1 : Formed s1 := foldl_formed (fun _ _ hu => sweepAbove_formed (sweepPage_formed hu)) h
  exact ite_formed (endRekey_formed h1) (modVol_formed h1)

theorem releaseHeld_formed {v : Nat} {s : State} (h : Formed s) : Formed (releaseHeld v s) :=
  foldl_formed (fun _ _ => storeBlock_formed) { h with }

theorem retryKey_formed {v : Nat} {s : State} (h : Formed s) : Formed (retryKey v s) :=
  ite_formed h (ite_formed (releaseHeld_formed (newKey_formed (ite_formed h (useFree_formed { h with }))))
    (newKey_formed (ite_formed h (useFree_formed { h with }))))

theorem rekeyFrame_formed {s : State} (h : Formed s) : Formed (rekeyFrame s) := by
  unfold rekeyFrame
  extract_lets s1
  have h1 : Formed s1 := foldl_formed (fun _ _ => retryKey_formed) h
  split
  · exact ite_formed (sweepFrame_formed h1) h1
  · exact h1

theorem rngFail_formed {s : State} (h : Formed s) : Formed (rngFail s) := alarm_formed { h with }

theorem startVolumes_formed {s : State} (h : Formed s) : Formed (startVolumes s) := by
  unfold startVolumes
  extract_lets
  refine foldl_formed (fun _ _ hu => ?_) h
  extract_lets _ s2
  have h2 : Formed s2 := modVol_formed hu
  exact { h2 with }

/-! ## Book entries -/

theorem countLost_formed {n : Nat} {s : State} (h : Formed s) : Formed (countLost n s) := { h with }

theorem pushEntry_formed {e : Entry} {ours : Bool} {s : State} (h : Formed s) : Formed (pushEntry e ours s) := { h with }

theorem dropEntry_formed {s : State} (h : Formed s) : Formed (dropEntry s) := { h with }

theorem setTail_formed {e : Entry} {s : State} (h : Formed s) : Formed (setTail e s) := { h with }

theorem markBookLoss_formed {l : Entry} {s : State} (h : Formed s) : Formed (markBookLoss l s) := by
  unfold markBookLoss
  split
  · exact setTail_formed h
  · exact pushEntry_formed h

theorem shed_formed {e : Entry} {s : State} (h : Formed s) : Formed (shed e s) := ite_formed { h with } { h with }

theorem writeNew_formed {e : Entry} {s : State} (h : Formed s) : Formed (writeNew e s) :=
  ite_formed (shed_formed h) (ite_formed (pushEntry_formed h) (markBookLoss_formed (ite_formed h (countLost_formed h))))

theorem resetBook_formed {s : State} (h : Formed s) : Formed (resetBook s) :=
  alarm_formed (countLost_formed (pushEntry_formed { useFree_formed h with }))

theorem writeTail_formed {s : State} (h : Formed s) : Formed (writeTail s) :=
  withFlash_formed h (flashPut_rises _ _ _ (cellsDrop_rises _ _ _ h.cfg_flash))

theorem loadTail_formed {s : State} (h : Formed s) : Formed (loadTail s) := by
  unfold loadTail
  extract_lets
  split
  · exact h
  · exact ite_formed (warn_formed h) { h with cfg_flash := cellsDrop_rises _ _ _ h.cfg_flash }

end Sys2Proof.Machine
end

section
/-! PROOFS. Reset, clocks, stock tests and the loader keep the form. -/

namespace Sys2Proof.Machine

open Sys2Proof

/-! ## Reset -/

theorem partialWrite_rises {n : Nat} {flash : List Host.Cell} {w : CfgWork} (h : Sparse.rises flash = true) :
    Sparse.rises (partialWrite n flash w) = true := by
  unfold partialWrite
  split
  · exact foldl_invariant (P := fun m : List Host.Cell × Nat => Sparse.rises m.1 = true) (fun _ _ => Sparse.rises_ins _ _ _) h
  · exact h

theorem resetCore_formed {clk : ClkSt} {pkg : PkgSt} {s : State} (hc : clk.Formed) (h : Formed s) :
    Formed (resetCore clk pkg s) :=
  { State.reset.formed rfl with
    clk_goodRun := hc.goodRun, clk_loopRef := hc.loopRef, clk_consumer := hc.consumer, clk_switches := hc.switches
    cfg_flash := Sparse.rises_foldl _ _ _ (fun _ _ => partialWrite_rises) h.cfg_flash }

theorem monitorOf_formed {c : ClkSt} (h : c.Formed) : c.monitorOf.Formed := ⟨h.goodRun, rfl, rfl, rfl⟩

theorem reset_clk_formed : ClkSt.reset.Formed := ⟨rfl, rfl, rfl, rfl⟩

theorem porst_formed {rails low : Bool} {s : State} (h : Formed s) : Formed (porst rails low s) :=
  resetCore_formed (monitorOf_formed (clk_formed h)) h

/-! ## Clocks -/

theorem idleTrunks_formed {moved : List Nat} {s : State} (h : Formed s) : Formed (idleTrunks moved s) :=
  foldl_formed (fun _ _ hu => ite_formed (modLane_formed (idleTx_formed hu)) hu) h

theorem goCold_formed {s : State} (h : Formed s) : Formed (goCold s) := ite_formed { h with } h

theorem moveRef_formed {n : Nat} {dst : ClkRef} {c : ClkSt} (h : c.Formed) : (moveRef n dst c).Formed :=
  { h with loopRef := List.length_set.trans h.loopRef, switches := Sparse.rises_ins _ _ _ h.switches }

theorem moveCons_formed {n : Nat} {dst : ClkRef} {c : ClkSt} (h : c.Formed) : (moveCons n dst c).Formed :=
  { h with consumer := List.length_set.trans h.consumer, switches := Sparse.rises_ins _ _ _ h.switches }

theorem moveOne_formed {c : ClkSt} {k : Nat} (h : c.Formed) : (moveOne c k).Formed := by
  unfold moveOne
  split
  · exact moveRef_formed h
  · exact moveCons_formed h

theorem unqualify_formed {u : ClkUnit} {c : ClkSt} (h : c.Formed) : (unqualify u c).Formed := by
  unfold unqualify
  split_ifs <;> exact { h with goodRun := List.length_set.trans h.goodRun }

theorem tripUnit_formed {u : ClkUnit} {s : State} (h : Formed s) : Formed (tripUnit u s) := by
  have hc : (((unqualify u s.clk).movers u).foldl moveOne (unqualify u s.clk)).Formed :=
    foldl_invariant (P := ClkSt.Formed) (fun _ _ => moveOne_formed) (unqualify_formed (clk_formed h))
  unfold tripUnit
  extract_lets c m c' _ _ _ t
  have ht : Formed t := { withClk_formed h (c := c') hc with }
  exact goCold_formed (nonMask_formed (idleTrunks_formed ht))

theorem warmUp_formed {s : State} (h : Formed s) : Formed (warmUp s) := by
  have hstep {c : ClkSt} {k : Nat} (hc : c.Formed) :
      (if k < 6 then moveRef k .ioscF c else moveCons (k - 6) .ioscF c).Formed := by
    split
    · exact moveRef_formed hc
    · exact moveCons_formed hc
  unfold warmUp
  extract_lets on c
  have hc : c.Formed := foldl_invariant (P := ClkSt.Formed) (fun _ _ => hstep) (clk_formed h)
  exact ite_formed (warn_formed (withClk_formed h { hc with })) h

theorem qualifyRuns_formed {c : ClkSt} (h : c.Formed) : (qualifyRuns c).Formed := { h with }

theorem monitorWindowEnd_formed {counts : List Nat} {refA refB : Nat} {lock : BitVec 6} {s : State} (h : Formed s) :
    Formed (monitorWindowEnd counts refA refB lock s) := by
  unfold monitorWindowEnd
  extract_lets c0 badp c1 failed _ s1
  have hc : c1.Formed := { clk_formed h with goodRun := by simp [c1] }
  have h1 : Formed s1 := { withClk_formed h (qualifyRuns_formed hc) with }
  exact warmUp_formed (foldl_formed (fun _ _ => tripUnit_formed) h1)

theorem clockStopped_formed {n : Nat} {s : State} (h : Formed s) : Formed (clockStopped n s) :=
  foldl_formed (fun _ _ => tripUnit_formed)
    (withClk_formed h { clk_formed h with goodRun := List.length_set.trans h.clk_goodRun })

theorem relockLoop_formed {n : Nat} {s : State} (h : Formed s) : Formed (relockLoop n s) := { h with }

theorem overrideTimeout_formed {refB : Bool} {s : State} (h : Formed s) : Formed (overrideTimeout refB s) := by
  unfold overrideTimeout
  extract_lets
  split
  · exact ite_formed (completeOpt_formed { h with }) h
  · exact h

theorem followRefs_formed {n : Nat} {c : ClkSt} (h : c.Formed) : (followRefs n c).Formed := by
  unfold followRefs
  extract_lets
  split
  · exact h
  · exact moveRef_formed h

theorem goHome_formed {n : Nat} {c : ClkSt} (h : c.Formed) : (goHome n c).Formed := by
  unfold goHome
  extract_lets c1
  have h1 : c1.Formed := by
    unfold c1
    split
    · exact moveCons_formed h
    · exact h
  split
  · exact moveRef_formed h1
  · exact h1

theorem applyClkChange_formed {s : State} {ch : ClkChange} (h : Formed s) : Formed (applyClkChange s ch) := by
  have hc : s.clk.Formed := clk_formed h
  have hite {p : Prop} [Decidable p] {a b : ClkSt} (ha : a.Formed) (hb : b.Formed) : (if p then a else b).Formed := by
    split
    · exact ha
    · exact hb
  unfold applyClkChange
  split
  · exact withClk_formed h (followRefs_formed (hite { hc with } { hc with }))
  · exact { h with }
  · exact complete_formed (withClk_formed h (foldl_invariant (P := ClkSt.Formed) (fun _ _ => goHome_formed) hc))
  · have hmoved {f : ClkSt → Nat → ClkSt} {l : List Nat} {c : ClkSt} (hf : ∀ c n, c.Formed → (f c n).Formed) (h1 : c.Formed) :
        Formed { s with clk := l.foldl f c } :=
      withClk_formed h (foldl_invariant (P := ClkSt.Formed) hf h1)
    exact ite_formed
      (ite_formed (hmoved (fun _ _ => moveRef_formed) (hite { hc with } { hc with }))
        (completeOpt_formed (hmoved (fun _ _ => moveRef_formed) (hite { hc with } { hc with })))) { h with }

theorem clockStep3_formed {s : State} (h : Formed s) : Formed (clockStep3 s) :=
  foldl_formed (fun _ _ => applyClkChange_formed) { h with }

/-! ## Frame synchronisation -/

theorem sourceLoss_formed {s : State} (h : Formed s) : Formed (sourceLoss s) := warn_formed { h with }

theorem sourceQualified_formed {s : State} (h : Formed s) : Formed (sourceQualified s) := { h with }

theorem sourceQualifyTimeout_formed {s : State} (h : Formed s) : Formed (sourceQualifyTimeout s) := by
  unfold sourceQualifyTimeout
  extract_lets
  split
  · exact ite_formed (complete_formed { h with }) h
  · exact h

theorem measure_formed {i : FrameIn} {s : State} (h : Formed s) : Formed (measure i s) := { h with }

theorem discipline_formed {i : FrameIn} {s : State} (h : Formed s) : Formed (discipline i s) := ite_formed h { h with }

theorem forgetPhase_formed {s : State} (h : Formed s) : Formed (forgetPhase s) := { h with }

theorem startQualifying_formed {s : State} (h : Formed s) : Formed (startQualifying s) := by
  unfold startQualifying
  extract_lets s1
  have h1 : Formed s1 := by
    unfold s1
    split
    · exact complete_formed h
    · exact h
  split
  · exact h
  · exact { h1 with }

theorem changeOver_formed {s : State} (h : Formed s) : Formed (changeOver s) := by
  unfold changeOver
  extract_lets
  split
  · exact ite_formed (complete_formed { h with }) h
  · exact h

theorem countFrames_formed {s : State} (h : Formed s) : Formed (countFrames s) := { h with }

theorem revert_formed {s : State} (h : Formed s) : Formed (revert s) := ite_formed { h with } h

theorem advanceNumber_formed {s : State} (h : Formed s) : Formed (advanceNumber s) := by
  unfold advanceNumber
  extract_lets
  split
  · exact { h with }
  split
  · exact ite_formed (complete_formed { h with }) { h with }
  · exact { h with }

/-! ## Stock tests -/

theorem grantSlices_formed {s : State} (h : Formed s) : Formed (grantSlices s) :=
  foldl_formed
    (fun _ _ hu => foldl_formed (fun _ _ hv => ite_formed (beginSlice_formed (modCarrel_formed hv)) hv) { hu with }) h

theorem settleSlices_formed {s : State} (h : Formed s) : Formed (settleSlices s) := by
  have hstep {t : State} {k : Nat} {f : SliceSt → SliceSt} {n : List Nat} (ht : Formed t) :
      Formed { t.modSlice k f with stock.discarded := n } :=
    { modSlice_formed ht with }
  unfold settleSlices
  extract_lets s1
  have h1 : Formed s1 := foldl_formed (fun _ _ hu => ite_formed (hstep hu) hu) h
  exact { h1 with }

theorem keepResult_formed {l : List Byte} {s : State} (h : Formed s) : Formed (keepResult l s) := ite_formed { h with } h

theorem noteFail_formed {log bit outcome : Nat} {s : State} (h : Formed s) : Formed (noteFail log bit outcome s) := { h with }

theorem handleResult_formed {w : ResultWork} {s : State} (h : Formed s) : Formed (handleResult w s) :=
  ite_formed (info_formed (ite_formed (keepResult_formed h) { h with })) (alarm_formed (keepResult_formed (noteFail_formed h)))

theorem deskResult_formed {w : ResultWork} {s : State} (h : Formed s) : Formed (deskResult w s) :=
  ite_formed (handleResult_formed { useFree_formed h with }) { h with }

theorem deskResults_formed {s : State} (h : Formed s) : Formed (deskResults s) :=
  foldl_formed (fun _ _ => deskResult_formed) { h with }

theorem loseBank_formed {n : Nat} {s : State} (h : Formed s) : Formed (loseBank n s) := by
  refine withMem_formed h (cellsDrop_rises _ _ _ h.mem_layer) ((noZeros_iff _).mpr ?_) h.mem_side
  exact noZerosIn_mono ((noZeros_iff _).mp h.mem_zeros) fun c hc =>
    ⟨(List.mem_filter.mp hc).1, fun hz => (List.mem_filter.mp hz).1⟩

theorem remapTo_formed {b c ph : Nat} {s : State} (h : Formed s) : Formed (remapTo b c ph s) := by
  unfold remapTo
  extract_lets _ s1 s2 s3
  have h1 : Formed s1 := modBay_formed h
  have h2 : Formed s2 := foldl_formed (fun _ _ => modFolio_formed) h1
  have h3 : Formed s3 := foldl_formed (fun _ _ => loseBank_formed) h2
  exact withRemapped_formed (modSlice_formed h3)

theorem persistIf_formed {c : Bool} {e : List Byte} {s : State} (h : Formed s) : Formed (persistIf c e s) :=
  ite_formed (persist_formed h) h

theorem markSpare_formed {b ph : Nat} {keep : Bool} {s : State} (h : Formed s) : Formed (markSpare b ph keep s) :=
  ite_formed (persistIf_formed { h with }) h

theorem repairCarrel_formed {b ph : Nat} {keep : Bool} {s : State} (h : Formed s) : Formed (repairCarrel b ph keep s).2 := by
  unfold repairCarrel
  split
  · exact h
  split
  · extract_lets s1
    have h1 : Formed s1 := persistIf_formed h
    split
    · exact remapTo_formed h1
    · exact { h1 with }
  · exact alarm_formed h

theorem useRow_formed {n sp row : Nat} {keep : Bool} {s : State} (h : Formed s) : Formed (useRow n sp row keep s) :=
  persistIf_formed (loseBank_formed { h with })

theorem useCol_formed {n col : Nat} {keep : Bool} {s : State} (h : Formed s) : Formed (useCol n col keep s) :=
  persistIf_formed (loseBank_formed { h with })

theorem repairBank_formed {b ph k : Nat} {cells : List (Nat × Nat)} {keep : Bool} {s : State} (h : Formed s) :
    Formed (repairBank b ph k cells keep s).2 := by
  unfold repairBank
  extract_lets
  split
  · extract_lets s1 s2
    have h1 : Formed s1 := by
      unfold s1
      split
      · exact useCol_formed h
      · exact h
    have h2 : Formed s2 := foldl_formed (fun _ _ => useRow_formed) h1
    exact h2
  · exact repairCarrel_formed (markSpare_formed h)

theorem testFault_formed {b mode : Nat} {f : TestFault} {s : State} (h : Formed s) : Formed (testFault b mode f s) := by
  unfold testFault
  split
  · refine deskResult_formed ?_
    split
    · exact markSpare_formed h
    · exact repairCarrel_formed (markSpare_formed h)
  · refine deskResult_formed ?_
    split
    · exact h
    · exact repairBank_formed h

theorem sliceFail_formed {b c block : Nat} {s : State} (h : Formed s) : Formed (sliceFail b c block s) := by
  unfold sliceFail
  extract_lets _ _ _ s1 _ s2
  have h1 : Formed s1 := modSlice_formed h
  have h2 : Formed s2 := ite_formed h1 { h1 with }
  exact deskResult_formed h2

theorem slicePass_formed {b c block : Nat} {s : State} (h : Formed s) : Formed (slicePass b c block s) := by
  unfold slicePass
  extract_lets _ _ _ s1
  have h1 : Formed s1 := modSlice_formed h
  clear_value s1
  exact ite_formed (deskResult_formed { h1 with }) h1

theorem countRound_formed {q : Nat} {s : State} (h : Formed s) : Formed (countRound q s) :=
  ite_formed h { foldl_formed (fun _ _ => modSlice_formed) h with }

theorem blockCompare_formed {b c : Nat} {pass : Bool} {s : State} (h : Formed s) : Formed (blockCompare b c pass s) :=
  ite_formed h (ite_formed (countRound_formed (slicePass_formed h)) (ite_formed (countRound_formed (sliceFail_formed h))
    (modSlice_formed h)))

theorem applyRemap_formed {b c : Nat} {keep : Bool} {named : Option Nat} {s : State} (h : Formed s) :
    Formed (applyRemap b c keep named s) := by
  unfold applyRemap
  extract_lets _ s1
  have h1 : Formed s1 := markSpare_formed h
  split
  · exact remapTo_formed h1
  · exact repairCarrel_formed h1

theorem applyPendRemaps_formed {b : Nat} {s : State} (h : Formed s) : Formed (applyPendRemaps b s) :=
  foldl_formed (fun _ _ hu => applyRemap_formed { hu with }) h

theorem loadRemapped_formed {b : Nat} {s : State} (h : Formed s) : Formed (loadRemapped b s) :=
  ite_formed { h with } (startLoad_formed { h with })

theorem setTest_formed {s : State} {b : Nat} {t : TestSt} (h : Formed s) : Formed (s.setTest b t) :=
  { h with stock_tests := Sparse.rises_ins _ _ _ h.stock_tests }

theorem noteConditions_formed {s : State} (h : Formed s) : Formed (noteConditions s) := { h with }

theorem closeTested_formed {b : Nat} {s : State} (h : Formed s) : Formed (closeTested b s) := { h with }

theorem refuseTest_formed {b : Nat} {id : Option SlipId} {s : State} (h : Formed s) : Formed (refuseTest b id s) :=
  warn_formed (completeOpt_formed (closeTested_formed
    { noteConditions_formed h with stock_tests := Sparse.rises_del _ _ h.stock_tests }))

theorem loadTests_formed {b : Nat} {s : State} (h : Formed s) : Formed (loadTests b s) :=
  foldl_formed (fun _ _ => loadTest_formed) h

theorem clearTests_formed {b : Nat} {s : State} (h : Formed s) : Formed (clearTests b s) :=
  foldl_formed (fun _ _ => clearTest_formed) h

theorem testStart_formed {b : Nat} {s : State} (h : Formed s) : Formed (testStart b s) := by
  unfold testStart
  split
  · exact h
  · exact ite_formed (when_formed (fun _ => loadTests_formed) (setTest_formed h)) (refuseTest_formed h)

theorem restartPassed_formed {b : Nat} {faults : List TestFault} {s : State} (h : Formed s) :
    Formed (restartPassed b faults s) :=
  foldl_formed (fun _ _ hu => ite_formed (modSlice_formed hu) hu) h

theorem testEnd_formed {b : Nat} {how : TestEnd} {blocks : Nat} {tested : List Nat} {faults : List TestFault} {s : State}
    (h : Formed s) : Formed (testEnd b how blocks tested faults s) := by
  unfold testEnd
  extract_lets
  split
  · exact h
  · extract_lets
    split
    · exact h
    · extract_lets _ s1 s2 s3 s4 s5 _ s6
      have h1 : Formed s1 := clearTests_formed (foldl_formed (fun _ _ => loseBank_formed)
        { h with stock_tests := Sparse.rises_del _ _ h.stock_tests })
      have h2 : Formed s2 := by
        unfold s2
        refine foldl_formed (fun _ _ hu => ?_) h1
        split
        · exact markSpare_formed hu
        · exact hu
      have h3 : Formed s3 := foldl_formed (fun _ _ => testFault_formed) h2
      have h4 : Formed s4 := ite_formed (restartPassed_formed h3) h3
      have h5 : Formed s5 := ite_formed (noteConditions_formed h4) h4
      have h6 : Formed s6 := closeTested_formed h5
      split
      · exact complete_formed h6
      · exact h6

theorem countTest_formed {b : Nat} {t : TestSt} {s : State} (h : Formed s) : Formed (countTest b t s) :=
  setTest_formed (ite_formed h (noteConditions_formed h))

theorem countTests_formed {s : State} (h : Formed s) : Formed (countTests s) := by
  unfold countTests
  extract_lets s1
  have h1 : Formed s1 := by
    unfold s1
    refine foldl_formed (fun _ _ hu => ?_) h
    split
    · exact ite_formed (countTest_formed hu) hu
  exact { h1 with }

theorem recordDone_formed {s : State} (h : Formed s) : Formed (recordDone s) := by
  unfold recordDone
  split
  · exact h
  · extract_lets _ s1 a b c seq
    have h1 : Formed s1 := { h with }
    have h2 : Formed { s1 with
        cfg.flash := flashPut (cellsDrop s1.cfg.flash (copyBase c) copySize) (copyBase c) (copyBytes seq ‹_›) } :=
      withFlash_formed h1 (flashPut_rises _ _ _ (cellsDrop_rises _ _ _ h1.cfg_flash))
    exact ite_formed (warn_formed h1) { h2 with }

theorem applyRecord_formed {acc : State × Nat} {e : List Byte} (h : Formed acc.1) : Formed (applyRecord acc e).1 := by
  unfold applyRecord
  dsimp only
  split_ifs
  · exact remapTo_formed h
  · exact { h with }
  · exact { h with }
  · exact { h with }
  · exact { h with }
  · exact { h with }
  · exact h

theorem loadRecord_formed {s : State} (h : Formed s) : Formed (loadRecord s) := by
  unfold loadRecord
  extract_lets best
  clear_value best
  split
  · exact alarm_formed h
  · extract_lets _ s1 _ s2
    have h1 : Formed s1 :=
      foldl_invariant (P := fun a : State × Nat => Formed a.1) (fun _ _ => applyRecord_formed) { h with }
    have h2 : Formed s2 := { h1 with }
    exact ite_formed h2 (alarm_formed h2)

theorem tellUntested_formed {s : State} (h : Formed s) : Formed (tellUntested s) :=
  foldl_formed (fun _ _ hu => ite_formed (warn_formed { hu with }) hu) h

/-! ## The loader and the configuration store -/

theorem stagePart_formed {l : List Byte} {s : State} (h : Formed s) : Formed (stagePart l s) := areaWrite_formed { h with }

theorem clearStage_formed {s : State} (h : Formed s) : Formed (clearStage s) := { h with }

theorem emptyBay_formed {b : Nat} {s : State} (h : Formed s) : Formed (emptyBay b s) := by
  unfold emptyBay
  extract_lets _ s1 s2
  have h1 : Formed s1 :=
    { h with fab_folios := Sparse.rises_filter _ _ h.fab_folios, fab_banks := Sparse.rises_filter _ _ h.fab_banks }
  have h2 : Formed s2 := foldl_formed (fun _ _ => modCarrel_formed) h1
  exact modBay_formed h2

theorem setInband_formed {fIn fOut : Nat} {s : State} (h : Formed s) : Formed (setInband fIn fOut s) :=
  modChan_formed { h with }

theorem applyPort_formed {p : Nat} {c : PortCfg} {s : State} (h : Formed s) : Formed (applyPort p c s) := modPort_formed h

theorem applyHouse_formed {c : PartContent} {s : State} (h : Formed s) : Formed (applyHouse c s) := by
  unfold applyHouse
  extract_lets s1 s2 s3 s4 s5 _ s6 _ _ s7 s8 _ s9
  have h1 : Formed s1 := foldl_formed (fun _ _ => setFlow_formed) { h with flows := rfl }
  have h2 : Formed s2 := foldl_formed (fun _ _ hu => setQueue_formed hu rfl) h1
  have h3 : Formed s3 := foldl_formed (fun _ _ => modEgress_formed) h2
  have h4 : Formed s4 := foldl_formed (fun _ _ => modCredit_formed) h3
  have h5 : Formed s5 := foldl_formed (fun _ _ => applyPort_formed) h4
  have h6 : Formed s6 := by
    unfold s6
    split
    · exact { h5 with }
    · exact h5
  have h7 : Formed s7 := by
    unfold s7
    split
    · exact { h6 with }
    · exact h6
  have h8 : Formed s8 := by
    unfold s8
    split
    · exact setInband_formed h7
    · exact h7
  have h9 : Formed s9 := by
    unfold s9
    split
    · exact { h8 with }
    · exact h8
  exact { h9 with }

theorem startContent_formed {c : PartContent} {s : State} (h : Formed s) : Formed (startContent c s) :=
  applyHouse_formed (foldl_formed (fun _ _ => emptyBay_formed) { h with fab_editions := rfl, fab_binds := rfl })

theorem beginApply_formed {s : State} (h : Formed s) : Formed (beginApply s) := by
  unfold beginApply
  split
  · exact h
  · exact beginBays_formed (startContent_formed h)

theorem waitHost_formed {s : State} (h : Formed s) : Formed (waitHost s) := alarm_formed (clearStage_formed { h with })

theorem reserveFails_formed {cause : Nat} {s : State} (h : Formed s) : Formed (reserveFails cause s) :=
  waitHost_formed { h with }

theorem startReserve_formed {s : State} (h : Formed s) : Formed (startReserve s) := by
  unfold startReserve
  extract_lets _ s1
  have h1 : Formed s1 := clearStage_formed { h with }
  split
  · exact reserveFails_formed h1
  split
  · exact reserveFails_formed h1
  · exact stagePart_formed h1

theorem firstFails_formed {cause : Nat} {s : State} (h : Formed s) : Formed (firstFails cause s) :=
  ite_formed (waitHost_formed { h with }) (startReserve_formed { h with })

theorem partFails_formed {cause : Nat} {s : State} (h : Formed s) : Formed (partFails cause s) :=
  ite_formed (reserveFails_formed h) (firstFails_formed h)

theorem chainSend_formed {sym : List Byte} {s : State} (h : Formed s) : Formed (chainSend sym s) := ite_formed h { h with }

theorem headSends_formed {s : State} (h : Formed s) : Formed (headSends s) := by
  unfold headSends
  extract_lets _ s1
  have h1 : Formed s1 := chainSend_formed { h with }
  split
  · exact h
  split
  · exact h1
  · extract_lets _ s2
    have h2 : Formed s2 := foldl_formed (fun _ _ hu => foldl_formed (fun _ _ => chainSend_formed) hu) h1
    exact chainSend_formed { h2 with }

theorem beginLoad_formed {s : State} (h : Formed s) : Formed (beginLoad s) := by
  unfold beginLoad
  extract_lets _ s1 _ s2 _ s3
  have h1 : Formed s1 := clearStage_formed { h with }
  have h2 : Formed s2 := ite_formed (warn_formed h1) h1
  have h3 : Formed s3 := headSends_formed { h2 with }
  split
  · exact { h1 with }
  split
  · exact { h1 with }
  split
  · exact firstFails_formed h3
  split
  · exact firstFails_formed h3
  · exact stagePart_formed h3

theorem streamLoadStart_formed {s : State} (h : Formed s) : Formed (streamLoadStart s) :=
  beginLoad_formed (ite_formed h (withStartDone_formed (startVolumes_formed (loadRecord_formed h))))

theorem trailerCheck_formed {tagOk : Bool} {f : Found} {s : State} (h : Formed s) : Formed (trailerCheck tagOk f s) := by
  unfold trailerCheck
  extract_lets _ s1
  have h1 : Formed s1 := sideFinding_formed h
  split
  · exact partFails_formed h1
  · exact ite_formed (partFails_formed h1) (ite_formed (partFails_formed h1)
      (ite_formed (partFails_formed h1) (beginApply_formed { h1 with })))

theorem applyComplete_formed {s : State} (h : Formed s) : Formed (applyComplete s) := by
  unfold applyComplete
  extract_lets _ _ s1 s2
  have h1 : Formed s1 := writeTables_formed (clearStage_formed { h with })
  have h2 : Formed s2 := ite_formed (alarm_formed h1) h1
  exact completeOpt_formed { h2 with }

theorem restartStream_formed {s : State} (h : Formed s) : Formed (restartStream s) :=
  ite_formed (beginApply_formed { h with }) (beginLoad_formed { h with })

theorem chainStart_formed {pos : Byte} {s : State} (h : Formed s) : Formed (chainStart pos s) :=
  ite_formed { h with } (ite_formed (ite_formed (firstFails_formed { h with }) { h with }) (chainSend_formed { h with }))

theorem chainOwn_formed {b : ChainBlock} {s : State} (h : Formed s) : Formed (chainOwn b s) :=
  ite_formed h (ite_formed (firstFails_formed { h with }) (stagePart_formed { h with }))

theorem chainData_formed {sym : List Byte} {s : State} (h : Formed s) : Formed (chainData sym s) := by
  unfold chainData
  extract_lets _ _ s1
  have h1 : Formed s1 := { h with }
  split
  · exact h1
  · exact ite_formed (chainOwn_formed h1) (chainSend_formed { h1 with })

theorem chainEnd_formed {sym : List Byte} {s : State} (h : Formed s) : Formed (chainEnd sym s) := by
  unfold chainEnd
  extract_lets _ s1
  have h1 : Formed s1 := chainSend_formed { h with }
  split
  · exact h
  · exact ite_formed (firstFails_formed h1) h1

theorem stepA_formed {s : State} (h : Formed s) : Formed (stepA s) := ite_formed { h with } { h with }

theorem takeStep_formed {s : State} (h : Formed s) : Formed (takeStep s) := ite_formed h (ite_formed { h with } { h with })

theorem endRendezvous_formed {s : State} (h : Formed s) : Formed (endRendezvous s) := { h with }

theorem startApply_formed {b : Bay} {c : Option BayContent} {s : State} (h : Formed s) : Formed (startApply b c s) :=
  ite_formed (endRequest_formed (startLoad_formed (foldl_formed (fun _ _ => modFolio_formed) h)))
    (startLoad_formed (foldl_formed (fun _ _ => modFolio_formed) h))

theorem bayApply_formed {b : Bay} {s : State} (h : Formed s) : Formed (bayApply b s) := by
  unfold bayApply
  extract_lets _ s1
  have h1 : Formed s1 := { h with }
  split
  · exact startApply_formed h1
  · exact ite_formed (startApply_formed (replaceArchive_formed h1)) (warn_formed { h1 with })

end Sys2Proof.Machine
end

section
/-! PROOFS. Rails, channels and lanes keep the form. -/

namespace Sys2Proof.Machine

open Sys2Proof

/-! ## Rails, temperature and voltage -/

theorem rampVolts_formed {s : State} (h : Formed s) : Formed (rampVolts s) :=
  { h with fab_bays := Sparse.rises_map _ _ (fun _ => rfl) h.fab_bays }

theorem sampleSlot_formed {i : SlotIn} {s : State} (h : Formed s) : Formed (sampleSlot i s) := { h with }

theorem closeSamples_formed {s : State} (h : Formed s) : Formed (closeSamples s) := ite_formed h { h with }

theorem sensorRuns_formed {s : State} (h : Formed s) : Formed (sensorRuns s) := { h with }

theorem judgeSensor_formed {n kind : Nat} {s : State} (h : Formed s) : Formed (judgeSensor n kind s) := { h with }

theorem ceilings_formed {old : NodeSt} {i : Nat} {s : State} (h : Formed s) : Formed (ceilings old i s) := by
  unfold ceilings
  extract_lets _ _ s1 _ _ _ s2 _ _ _ s3
  have h1 : Formed s1 := ite_formed (alarm_formed { h with }) h
  have h2 : Formed s2 := ite_formed { h1 with } h1
  have h3 : Formed s3 := { h2 with }
  exact ite_formed (ite_formed h3 (nonMask_formed h3)) h2

theorem updateModel_formed {dt : Nat} {s : State} (h : Formed s) : Formed (updateModel dt s) := by
  unfold updateModel
  extract_lets nodes _ s1
  have hn : Sparse.rises nodes = true := Sparse.rises_foldl _ _ _ (fun _ _ => Sparse.rises_put _ _ _ _) h.thm_nodes
  have h1 : Formed s1 := { h with thm_nodes := hn, thm_before := h.thm_nodes }
  exact foldl_formed (fun _ _ => ceilings_formed) h1

theorem thermalTask_formed {dt : Nat} {s : State} (h : Formed s) : Formed (thermalTask dt s) := by
  unfold thermalTask
  extract_lets s1 _ s2
  have h1 : Formed s1 := sensorRuns_formed (closeSamples_formed h)
  have h2 : Formed s2 := ite_formed h1 { h1 with }
  exact ite_formed h (ite_formed h2 (updateModel_formed h2))

theorem loseUpdate_formed {s : State} (h : Formed s) : Formed (loseUpdate s) :=
  ite_formed h { h with thm_nodes := h.thm_before }

theorem slopeWarn_formed {n : Nat} {s : State} (h : Formed s) : Formed (slopeWarn n s) := by
  have hset {f : NodeSt → NodeSt} {e : BitVec 6} : Formed { s.modNode n f with thm.event := e } := { modNode_formed h with }
  exact ite_formed (warn_formed hset) (ite_formed (warn_formed (modNode_formed h)) h)

theorem bandChange_formed {n : Nat} {s : State} (h : Formed s) : Formed (bandChange n s) := ite_formed h { h with }

theorem moveBand_formed {n b : Nat} {s : State} (h : Formed s) : Formed (moveBand n b s) :=
  ite_formed h (info_formed (modNode_formed h))

theorem pinSensor_formed {n kind : Nat} {s : State} (h : Formed s) : Formed (pinSensor n kind s) :=
  foldl_formed (fun _ _ hu => moveBand_formed (modNode_formed hu)) (alarm_formed { h with })

theorem releaseNode_formed {i : Nat} {s : State} (h : Formed s) : Formed (releaseNode i s) :=
  ite_formed (withPwr_formed (modNode_formed h)) h

theorem thermalStep5_formed {s : State} (h : Formed s) : Formed (thermalStep5 s) := by
  unfold thermalStep5
  extract_lets _ s1 _ s2 s3 _ s4 _ s5 s6 _ s7
  have h1 : Formed s1 := by
    unfold s1
    split
    · exact { h with }
    · exact h
  clear_value s1
  have h2 : Formed s2 := foldl_formed (fun _ _ => modBay_formed) { h1 with }
  have h3 : Formed s3 := foldl_formed (fun _ _ => releaseNode_formed) h2
  clear_value s2 s3
  have h4 : Formed s4 := foldl_formed (fun _ _ => pinSensor_formed) { h3 with }
  have h5 : Formed s5 := foldl_formed (fun _ _ hu => ite_formed hu (moveBand_formed hu)) { h4 with }
  have h6 : Formed s6 := foldl_formed (fun _ _ => modNode_formed) h5
  have h7 : Formed s7 := foldl_formed (fun _ _ => modNode_formed) h6
  exact withRefresh_formed h7

theorem forceThrottle_formed {s : State} (h : Formed s) : Formed (forceThrottle s) :=
  foldl_formed (fun _ _ => modNode_formed) (foldl_formed (fun _ _ => modNode_formed) h)

theorem startVoltages_formed {s : State} (h : Formed s) : Formed (startVoltages s) :=
  foldl_formed (fun _ _ hu => ite_formed (modBay_formed (useFree_formed hu)) hu) h

theorem writeBoundary_formed {v : Word} {s : State} (h : Formed s) : Formed (writeBoundary v s) :=
  ite_formed { h with } (warn_formed { h with })

theorem setRail_formed {lg : Bool} {i : Nat} {off : Bool} {s : State} (h : Formed s) : Formed (setRail lg i off s) :=
  ite_formed { h with } { h with }

theorem loseFlops_formed {b : Nat} {s : State} (h : Formed s) : Formed (loseFlops b s) :=
  foldl_formed (fun _ _ hu => modCarrel_formed (useFree_formed hu)) h

theorem railRestored_formed {lg : Bool} {i : Nat} {s : State} (h : Formed s) : Formed (railRestored lg i s) :=
  ite_formed h (foldl_formed (fun _ _ => complete_formed) (setRail_formed { h with }))

theorem ungateRails_formed {s : State} (h : Formed s) : Formed (ungateRails s) :=
  foldl_formed (fun _ _ hu => ite_formed { hu with } { hu with }) { h with }

/-! ## Slips, rings and the sideband -/

theorem resetRing_formed {n : Nat} {s : State} (h : Formed s) : Formed (resetRing n s) := modChan_formed (modRing_formed h)

theorem writeRingCtrl_formed {n : Nat} {v : Word} {s : State} (h : Formed s) : Formed (writeRingCtrl n v s) := by
  unfold writeRingCtrl
  extract_lets _ _ s1 s2
  have h1 : Formed s1 := modRing_formed h
  have h2 : Formed s2 := modRing_formed h1
  exact ite_formed (ite_formed h2 (resetRing_formed h2)) (ite_formed (modRing_formed h1) h1)

theorem drainComplete_formed {n : Nat} {s : State} (h : Formed s) : Formed (drainComplete n s) :=
  ite_formed (resetRing_formed (modChan_formed (modRing_formed h))) (modChan_formed (modRing_formed h))

theorem writeRingBase_formed {n : Nat} {reply : Bool} {v : Word} {s : State} (h : Formed s) :
    Formed (writeRingBase n reply v s) :=
  modRing_formed h

theorem writeProd_formed {n : Nat} {v : Word} {s : State} (h : Formed s) : Formed (writeProd n v s) :=
  ite_formed (warn_formed h) (modRing_formed h)

theorem writeRcons_formed {n : Nat} {v : Word} {s : State} (h : Formed s) : Formed (writeRcons n v s) :=
  ite_formed (warn_formed h) (modChan_formed (modRing_formed h))

theorem dmaFault_formed {n : Nat} {kind : Byte} {s : State} (h : Formed s) : Formed (dmaFault n kind s) :=
  alarm_formed (modRing_formed h)

theorem replyGone_formed {ch : Nat} {s : State} (h : Formed s) : Formed (replyGone ch s) := modChan_formed h

theorem replyWrite_formed {ch : Nat} {s : State} (h : Formed s) : Formed (replyWrite ch s) := by
  unfold replyWrite
  extract_lets _ _ _ s1
  have h1 : Formed s1 := { h with }
  split
  · exact h
  · extract_lets _ _ s2 s3
    have h2 : Formed s2 := modChan_formed (replyGone_formed h)
    have h3 : Formed s3 := modRing_formed h2
    exact ite_formed (ite_formed (ite_formed (msix_formed h3) h3) h) (ite_formed
      (ite_formed (modChan_formed (replyGone_formed h)) h) (ite_formed h (admitHeld_formed (replyGone_formed h1))))

theorem sbAnswer_formed {ack : Bool} {data : List Byte} {s : State} (h : Formed s) : Formed (sbAnswer ack data s) := { h with }

theorem slipWrite_formed {l : List Byte} {s : State} (h : Formed s) : Formed (slipWrite l s) :=
  ite_formed (sbAnswer_formed h) (ite_formed (sbAnswer_formed h) (ite_formed (sbAnswer_formed h) (sbAnswer_formed { h with })))

theorem newSeries_formed {ch : Nat} {s : State} (h : Formed s) : Formed (newSeries ch s) := modChan_formed h

theorem sbSubmit_formed {s : State} (h : Formed s) : Formed (sbSubmit s) := by
  unfold sbSubmit
  extract_lets s1
  have h1 : Formed s1 := ite_formed (newSeries_formed h) h
  exact ite_formed (sbAnswer_formed h) (sbAnswer_formed { h1 with })

theorem sbReplyRead_formed {l : List Byte} {s : State} (h : Formed s) : Formed (sbReplyRead l s) := by
  unfold sbReplyRead
  extract_lets
  split
  · exact sbAnswer_formed h
  · exact ite_formed (sbAnswer_formed h) (sbAnswer_formed h)

theorem sbStatus_formed {s : State} (h : Formed s) : Formed (sbStatus s) := sbAnswer_formed h

theorem sbRelease_formed {s : State} (h : Formed s) : Formed (sbRelease s) :=
  ite_formed (sbAnswer_formed h) (sbAnswer_formed (modChan_formed h))

theorem deskPop_formed {q : Nat} {f : Found} {s : State} (h : Formed s) : Formed (deskPop q f s).2 := by
  have hd : Sparse.rises (s.queue q).words = true := queue_rises q h
  have h1 : Formed (popFinding q f s) := popFinding_formed h
  have finish {r : Popped} {t : State} (hr : Sparse.rises r.queue.words = true) (ht : Formed t) :
      Formed (freeCredit r.frees (t.setQueue q { r.queue with popped := some r.word })) :=
    freeCredit_formed (setQueue_formed ht hr)
  unfold deskPop
  dsimp only
  split
  · exact h
  split
  · next _ ht => exact useQueue_formed h ht
  split_ifs
  · exact finish hd h
  · exact finish hd (modEngine_formed h1)
  · exact resetQueue_formed (modEngine_formed h1)
  · exact finish (popWord_rises hd) h1
  · exact finish (popHeader_rises hd) h1

theorem deskItem_formed {q fuel i : Nat} {found : List Found} {s : State} (h : Formed s) :
    Formed (deskItem q fuel i found s).2 := by
  induction fuel generalizing i s with
  | zero => exact h
  | succ n ih =>
    have hp : Formed (deskPop q (found.getD i .clean) s).2 := deskPop_formed h
    unfold deskItem
    split
    · next _ ht => rw [ht] at hp; exact hp
    · next _ _ ht =>
      rw [ht] at hp
      split
      · exact hp
      · exact ih hp

theorem inbandTooLong_formed {l : List Byte} {s : State} (h : Formed s) : Formed (inbandTooLong l s) :=
  queueReply_formed (noteSeq_formed { h with })

theorem inbandTake_formed {words : List Line} {lost : Bool} {s : State} (h : Formed s) : Formed (inbandTake words lost s) :=
  ite_formed (warn_formed h) (ite_formed { h with } (inbandTooLong_formed h))

theorem inbandItem_formed {found : List Found} {u : Upset} {s : State} (h : Formed s) : Formed (inbandItem found u s) := by
  have hi : Formed (deskItem s.slips.qIn.toNat 321 0 found (strikeQueue s.slips.qIn.toNat u s)).2 :=
    deskItem_formed (strikeQueue_formed h)
  unfold inbandItem
  dsimp only
  split
  · next _ ht => rw [ht] at hi; exact inbandTake_formed hi
  · next _ ht => rw [ht] at hi; exact hi

theorem lockstepMismatch_formed {s : State} (h : Formed s) : Formed (lockstepMismatch s) :=
  ite_formed (alarm_formed (loseUpdate_formed { h with })) (nonMask_formed (forceThrottle_formed { h with }))

theorem takeOver_formed {s : State} (h : Formed s) : Formed (takeOver s) :=
  ite_formed h { h with slips_chans := List.length_map _ |>.trans h.slips_chans }

theorem clearSlip_formed {off : Nat} {s : State} (h : Formed s) : Formed (clearSlip off s) :=
  ite_formed (ite_formed (modChan_formed (modRing_formed h)) h) (ite_formed { h with } (ite_formed { h with } h))

theorem writeSlip_formed {off : Nat} {v : Word} {s : State} (h : Formed s) : Formed (writeSlip off v s) :=
  ite_formed h (ite_formed (writeRingCtrl_formed h) (ite_formed (writeRingBase_formed h)
    (ite_formed (writeRingBase_formed h) (ite_formed (writeProd_formed h) (ite_formed (writeRcons_formed h) h)))))

/-! ## Clock gates and cleaning -/

theorem cleanNode_formed {k : Nat} {s : State} (h : Formed s) : Formed (cleanNode k s) :=
  ite_formed (bumpParent_formed { h with }) h

theorem cleanSide0_formed {s : State} (h : Formed s) : Formed (cleanSide0 s) :=
  foldl_formed (fun _ _ hu => foldl_formed (fun _ _ => cleanNode_formed) hu) h

theorem setGated_formed {g : GateBlock} {s : State} (h : Formed s) : Formed (setGated g s) :=
  match g with
  | .bay _ => withGates_formed h
  | .port _ => withGates_formed h
  | .engine _ => withGates_formed h
  | .side0 => withGates_formed (cleanSide0_formed h)
  | .pcie => { withGates_formed h with }

theorem writeGateBay_formed {k : Nat} {v : Word} {s : State} (h : Formed s) : Formed (writeGateBay k v s) := { h with }

theorem writeGatePort_formed {k : Nat} {v : Word} {s : State} (h : Formed s) : Formed (writeGatePort k v s) := { h with }

theorem writeGateQe_formed {v : Word} {s : State} (h : Formed s) : Formed (writeGateQe v s) := { h with }

theorem writeGateOther_formed {v : Word} {s : State} (h : Formed s) : Formed (writeGateOther v s) := { h with }

theorem writeFrameOut_formed {v : Word} {s : State} (h : Formed s) : Formed (writeFrameOut v s) := { h with }

/-! ## Lanes -/

theorem closePoisoned_formed {p : Nat} {s : State} (h : Formed s) : Formed (closePoisoned p s) :=
  ite_formed (poisonFrom_formed (modLane_formed h)) h

theorem poisonOpen_formed {p : Nat} {s : State} (h : Formed s) : Formed (poisonOpen p s) :=
  ite_formed (countIngress_formed (modLane_formed (closePoisoned_formed h))) h

theorem laneSyncLost_formed {p k : Nat} {s : State} (h : Formed s) : Formed (laneSyncLost p k s) :=
  poisonOpen_formed (ite_formed (modNeg_formed (modLane_formed h)) (modLane_formed h))

theorem deliverSym_formed {p : Nat} {y : Sym} {s : State} (h : Formed s) : Formed (deliverSym p y s) :=
  ite_formed h (ite_formed (ite_formed (poisonOpen_formed h) h) (lineIngress_formed h))

theorem codedErrors_formed {p k n : Nat} {s : State} (h : Formed s) : Formed (codedErrors p k n s) :=
  ite_formed (modLane_formed h) h

theorem codeError_formed {p k : Nat} {s : State} (h : Formed s) : Formed (codeError p k s) :=
  codedErrors_formed (deliverSym_formed (modLane_formed h))

theorem invalidSymbol_formed {p k : Nat} {b : BadSymbol} {s : State} (h : Formed s) : Formed (invalidSymbol p k b s) := by
  unfold invalidSymbol
  split
  · exact codeError_formed h
  · extract_lets s1
    have h1 : Formed s1 := modLane_formed h
    split
    · exact codeError_formed h1
    · exact ite_formed (codeError_formed h1) h1
    · exact ite_formed (codeError_formed h1) (deliverSym_formed (modLane_formed h1))

theorem countCrc_formed {p : Nat} {s : State} (h : Formed s) : Formed (countCrc p s) := modLane_formed h

theorem countMark_formed {p n : Nat} {everyLane : Bool} {s : State} (h : Formed s) : Formed (countMark p n everyLane s) :=
  foldl_formed (fun _ _ => codedErrors_formed) (countCrc_formed h)

theorem alignCheck_formed {p : Nat} {aligned : Bool} {s : State} (h : Formed s) : Formed (alignCheck p aligned s) :=
  ite_formed h (modLane_formed h)

theorem frameMark_formed {p : Nat} {sym : List Byte} {copies : List (List Byte)} {aligned : Bool} {phase : Int} {s : State}
    (h : Formed s) : Formed (frameMark p sym copies aligned phase s) := by
  unfold frameMark
  extract_lets _ _ s1 s2
  have h1 : Formed s1 := alignCheck_formed h
  have h2 : Formed s2 := modNeg_formed h1
  exact ite_formed (countMark_formed h) (ite_formed (modLane_formed h) (ite_formed { h2 with } h2))

theorem slotMark_formed {p : Nat} {sym : List Byte} {s : State} (h : Formed s) : Formed (slotMark p sym s) :=
  ite_formed (countMark_formed (modLane_formed h)) (ite_formed (modCredit_formed (modLane_formed h)) (modLane_formed h))

theorem judgeSlot_formed {p : Nat} {s : State} (h : Formed s) : Formed (judgeSlot p s) :=
  ite_formed (modLane_formed h) (modLane_formed h)

theorem skipSet_formed {p : Nat} {fill : List Nat} {s : State} (h : Formed s) : Formed (skipSet p fill s) := by
  unfold skipSet
  exact modLane_formed h

theorem skipOnSlot_formed {p : Nat} {s : State} (h : Formed s) : Formed (skipOnSlot p s) :=
  foldl_formed (fun _ _ => codeError_formed) h

theorem elasticSlip_formed {p : Nat} {s : State} (h : Formed s) : Formed (elasticSlip p s) :=
  warn_formed (poisonOpen_formed (modLane_formed h))

theorem phaseLimit_formed {p k : Nat} {high : Bool} {s : State} (h : Formed s) : Formed (phaseLimit p k high s) :=
  ite_formed (modLane_formed h) (warn_formed (modLane_formed h))

theorem moveTrack_formed {key : Nat} {d : Int} {s : State} (h : Formed s) : Formed (moveTrack key d s) :=
  ite_formed h (modLane_formed h)

theorem itemStart_formed {p : Nat} {s : State} (h : Formed s) : Formed (itemStart p s) :=
  ite_formed (countIngress_formed (modLane_formed (closePoisoned_formed h))) (modLane_formed (closePoisoned_formed h))

theorem endRun_formed {p : Nat} {s : State} (h : Formed s) : Formed (endRun p s) := modLane_formed h

theorem itemEnd_formed {p bytes : Nat} {s : State} (h : Formed s) : Formed (itemEnd p bytes s) :=
  endRun_formed (ite_formed h (ite_formed (closeFrom_formed h) (closePoisoned_formed h)))

theorem hearGroups_formed {p k : Nat} {positive : Bool} {l : List Nat} {s : State} (h : Formed s) :
    Formed (hearGroups p k positive l s) := by
  refine foldl_invariant (P := fun a : State × Bool => Formed a.1) (fun a g ha => ?_) h
  dsimp only
  split
  · exact ite_formed ha (ite_formed (codeError_formed ha) (codedErrors_formed ha))
  · exact invalidSymbol_formed ha

theorem hearInjected_formed {p k : Nat} {c : Word} {s : State} (h : Formed s) : Formed (hearInjected p k c s) :=
  ite_formed h (ite_formed (modLane_formed h) (ite_formed (codeError_formed h) (hearGroups_formed (useFree_formed h))))

theorem inject_formed {p k : Nat} {s : State} (h : Formed s) : Formed (inject p k s) :=
  ite_formed h (hearInjected_formed (modLane_formed h))

theorem injOnce_formed {p k : Nat} {s : State} (h : Formed s) : Formed (injOnce p k s) := modLane_formed (inject_formed h)

theorem writeLoop_formed {p v : Nat} {s : State} (h : Formed s) : Formed (writeLoop p v s) := ite_formed h (modLane_formed h)

theorem writeTest_formed {p k : Nat} {guarded : Bool} {v : Word} {s : State} (h : Formed s) :
    Formed (writeTest p k guarded v s) :=
  ite_formed (modLane_formed h) (modTx_formed (modLane_formed h))

/-! ## Training and negotiation -/

theorem retarget_formed {p : Nat} {s : State} (h : Formed s) : Formed (retarget p s) := by
  unfold retarget
  exact modNeg_formed h

theorem switchTo_formed {x : Step} {p : Nat} {s : State} (h : Formed s) : Formed (switchTo x p s) :=
  idleTx_formed (modLane_formed (modNeg_formed h))

theorem beginBringUp_formed {p : Nat} {s : State} (h : Formed s) : Formed (beginBringUp p s) := by
  unfold beginBringUp
  extract_lets s1 _ _ s2 s3 s4
  have h1 : Formed s1 := modPort_formed h
  have h2 : Formed s2 := switchTo_formed h1
  have h3 : Formed s3 := modLane_formed h2
  have h4 : Formed s4 := retarget_formed (modNeg_formed h3)
  exact ite_formed h4 (modNeg_formed h4)

theorem enterBringUp_formed {p : Nat} {s : State} (h : Formed s) : Formed (enterBringUp p s) :=
  modLane_formed (modNeg_formed (beginBringUp_formed h))

theorem leaveBringUp_formed {p : Nat} {s : State} (h : Formed s) : Formed (leaveBringUp p s) := modLane_formed (modNeg_formed h)

theorem confirmStep_formed {p : Nat} {s : State} (h : Formed s) : Formed (confirmStep p s) := modNeg_formed h

theorem failStep_formed {p : Nat} {tell : Bool} {s : State} (h : Formed s) : Formed (failStep p tell s) := by
  unfold failStep
  extract_lets _ _ s1 s2 _ s3
  have h1 : Formed s1 := modNeg_formed h
  have h2 : Formed s2 := ite_formed (sendSet_formed h1) h1
  have h3 : Formed s3 := ite_formed (retarget_formed (modNeg_formed h2)) h2
  exact ite_formed (ite_formed (warn_formed (retarget_formed (modNeg_formed h2))) (modNeg_formed h2)) (modNeg_formed h3)

theorem countBadSet_formed {p : Nat} {s : State} (h : Formed s) : Formed (countBadSet p s) := modNeg_formed h

theorem capsReceived_formed {p : Nat} {sym : List Byte} {s : State} (h : Formed s) : Formed (capsReceived p sym s) :=
  ite_formed (countBadSet_formed h) (modNeg_formed (retarget_formed (modNeg_formed h)))

theorem countRefusal_formed {p : Nat} {s : State} (h : Formed s) : Formed (countRefusal p s) := modNeg_formed h

theorem countCollision_formed {p : Nat} {s : State} (h : Formed s) : Formed (countCollision p s) := modNeg_formed h

theorem refuse_formed {p : Nat} {sym : List Byte} {s : State} (h : Formed s) : Formed (refuse p sym s) :=
  countRefusal_formed (sendSet_formed h)

theorem answerPropose_formed {p : Nat} {sym : List Byte} {s : State} (h : Formed s) : Formed (answerPropose p sym s) :=
  ite_formed h (ite_formed (sendSet_formed (modNeg_formed h)) (modNeg_formed (refuse_formed h)))

theorem collide_formed {p : Nat} {own : BitVec 16} {sym : List Byte} {s : State} (h : Formed s) :
    Formed (collide p own sym s) := by
  unfold collide
  extract_lets _ _ s1
  have h1 : Formed s1 := modNeg_formed h
  exact ite_formed (ite_formed h1 (refuse_formed h1)) (ite_formed (answerPropose_formed (modNeg_formed h))
    (countCollision_formed (modNeg_formed { h with })))

theorem proposeReceived_formed {p : Nat} {sym : List Byte} {s : State} (h : Formed s) : Formed (proposeReceived p sym s) := by
  unfold proposeReceived
  extract_lets
  split
  · exact countCollision_formed (refuse_formed h)
  split
  · exact countBadSet_formed h
  split
  · exact collide_formed h
  · exact ite_formed (countBadSet_formed h) (answerPropose_formed h)

theorem acceptReceived_formed {p : Nat} {sym : List Byte} {s : State} (h : Formed s) : Formed (acceptReceived p sym s) := by
  unfold acceptReceived
  extract_lets
  split
  · exact ite_formed (modNeg_formed h) (countBadSet_formed h)
  · exact ite_formed (modNeg_formed h) (ite_formed h (countBadSet_formed h))

theorem confirmReceived_formed {p : Nat} {sym : List Byte} {s : State} (h : Formed s) : Formed (confirmReceived p sym s) :=
  ite_formed (ite_formed (confirmStep_formed (modNeg_formed h)) (modNeg_formed h)) (ite_formed h (countBadSet_formed h))

theorem failReceived_formed {p : Nat} {sym : List Byte} {s : State} (h : Formed s) : Formed (failReceived p sym s) :=
  ite_formed (failStep_formed h) (countBadSet_formed h)

theorem refuseReceived_formed {p : Nat} {sym : List Byte} {s : State} (h : Formed s) : Formed (refuseReceived p sym s) := by
  unfold refuseReceived
  split
  · exact ite_formed (countRefusal_formed (modNeg_formed h)) (countBadSet_formed h)
  · exact countBadSet_formed h

theorem actOnSet_formed {p : Nat} {sym : List Byte} {s : State} (h : Formed s) : Formed (actOnSet p sym s) := by
  unfold actOnSet
  split
  · exact capsReceived_formed h
  · exact proposeReceived_formed h
  · exact acceptReceived_formed h
  · exact confirmReceived_formed h
  · exact failReceived_formed h
  · exact refuseReceived_formed h
  · exact countBadSet_formed h

theorem onSet_formed {p : Nat} {sym : List Byte} {s : State} (h : Formed s) : Formed (onSet p sym s) :=
  ite_formed (countCrc_formed h) (ite_formed (countBadSet_formed h) (actOnSet_formed (modNeg_formed h)))

theorem portTrained_formed {p : Nat} {ui0 ui1 : Int} {f0 f1 : Nat} {s : State} (h : Formed s) :
    Formed (portTrained p ui0 ui1 f0 f1 s) := by
  unfold portTrained
  extract_lets _ s1
  have h1 : Formed s1 := ite_formed h (modLane_formed h)
  exact modNeg_formed h1

theorem openWindow_formed {p : Nat} {s : State} (h : Formed s) : Formed (openWindow p s) := modTx_formed (modNeg_formed h)

theorem startSearch_formed {p : Nat} {s : State} (h : Formed s) : Formed (startSearch p s) := modLane_formed (modNeg_formed h)

theorem checkerLock_formed {p k : Nat} {s : State} (h : Formed s) : Formed (checkerLock p k s) :=
  ite_formed (modLane_formed h) (ite_formed (openWindow_formed (modNeg_formed (modLane_formed h)))
    (modNeg_formed (modLane_formed h)))

theorem lockLost_formed {p k errors : Nat} {s : State} (h : Formed s) : Formed (lockLost p k errors s) :=
  ite_formed (modNeg_formed (modLane_formed h)) (modLane_formed h)

theorem checkErrors_formed {key n : Nat} {s : State} (h : Formed s) : Formed (checkErrors key n s) :=
  ite_formed h (ite_formed (modNeg_formed h) (modLane_formed h))

theorem windowEnd_formed {p : Nat} {pass : Bool} {s : State} (h : Formed s) : Formed (windowEnd p pass s) := by
  unfold windowEnd
  extract_lets _ s1 s2 s3
  have h1 : Formed s1 := modNeg_formed h
  have h2 : Formed s2 := modLane_formed h1
  have h3 : Formed s3 := sendSet_formed h2
  exact ite_formed (failStep_formed h2) (ite_formed (confirmStep_formed h3) h3)

theorem countTimeout_formed {p : Nat} {s : State} (h : Formed s) : Formed (countTimeout p s) := modNeg_formed h

theorem countSlot_formed {p : Nat} {s : State} (h : Formed s) : Formed (countSlot p s) := ite_formed h (modNeg_formed h)

theorem foreignLinkUp_formed {p : Nat} {page : BitVec 16} {s : State} (h : Formed s) : Formed (foreignLinkUp p page s) :=
  ite_formed (modLane_formed (modNeg_formed (modLane_formed h))) (modLane_formed h)

theorem noteAuto_formed {d : Domain} {m : Mode} {s : State} (h : Formed s) : Formed (noteAuto d m s) := { h with }

theorem refLost_formed {t : Nat} {s : State} (h : Formed s) : Formed (refLost t s) :=
  foldl_formed (fun _ _ hu => ite_formed (warn_formed (modLane_formed hu)) hu) h

theorem proposeNext_formed {p : Nat} {s : State} (h : Formed s) : Formed (proposeNext p s) := by
  unfold proposeNext
  extract_lets
  split
  · exact modNeg_formed h
  split
  · split
    · exact modNeg_formed h
    · exact modNeg_formed h
  · exact h

theorem takePreset_formed {p : Nat} {s : State} (h : Formed s) : Formed (takePreset p s) := ite_formed h (modNeg_formed h)

theorem negStep6_formed {p : Nat} {s : State} (h : Formed s) : Formed (negStep6 p s) := by
  unfold negStep6
  extract_lets
  split
  · exact beginBringUp_formed h
  split
  · exact switchTo_formed h
  split
  · exact switchTo_formed h
  · exact ite_formed (switchTo_formed h) (modNeg_formed h)
  · exact proposeNext_formed (modNeg_formed h)

theorem portStep6_formed {p : Nat} {s : State} (h : Formed s) : Formed (portStep6 p s) :=
  ite_formed h (takePreset_formed (negStep6_formed h))

end Sys2Proof.Machine
end

section
/-! PROOFS. Mode moves, the book, registers, boundaries and the test access port keep the form. -/

namespace Sys2Proof.Machine

open Sys2Proof

/-! ## Egress -/

theorem scheduleSlot_formed {p : Nat} {d : Domain} {s : State} (h : Formed s) : Formed (scheduleSlot p d s) := by
  unfold scheduleSlot
  exact modEgress_formed h

theorem creditSlot_formed {p : Nat} {s : State} (h : Formed s) : Formed (creditSlot p s) := ite_formed h (modCredit_formed h)

theorem lineSlot_formed {p : Nat} {d : Domain} {s : State} (h : Formed s) : Formed (lineSlot p d s) :=
  ite_formed h (lineFill_formed h)

theorem slotPort_formed {p : Nat} {s : State} (h : Formed s) : Formed (slotPort p s) :=
  scheduleSlot_formed (lineSlot_formed (openTx_formed (creditSlot_formed h)))

theorem endSlotPort_formed {p : Nat} {s : State} (h : Formed s) : Formed (endSlotPort p s) :=
  closeTx_formed (judgeSlot_formed h)

theorem slotPorts_formed {s : State} (h : Formed s) : Formed (slotPorts s) := foldl_formed (fun _ _ => slotPort_formed) h

theorem cutQueue_formed {q : Nat} {s : State} (h : Formed s) : Formed (cutQueue q s) := by
  unfold cutQueue
  exact ite_formed h (freeCredit_formed (setQueue_formed h (queue_rises q h)))

theorem cutOff_formed {p : Nat} {s : State} (h : Formed s) : Formed (cutOff p s) := by
  unfold cutOff
  extract_lets s1
  have h1 : Formed s1 := ite_formed h (sendData_formed h)
  split
  · exact ite_formed (countEgress_formed (modEgress_formed (cutQueue_formed h1))) h
  · exact h

/-! ## Moves between modes -/

theorem dropRequest_formed {r : LoadReq} {s : State} (h : Formed s) : Formed (dropRequest r s) := by
  unfold dropRequest
  extract_lets
  split
  · exact stopApply_formed h
  · exact completeOpt_formed (returnFolios_formed { h with })
  · exact completeOpt_formed (unloadEdition_formed (returnFolios_formed { h with }))

theorem dropLoads_formed {b : Nat} {s : State} (h : Formed s) : Formed (dropLoads b s) :=
  foldl_formed (fun _ _ => dropRequest_formed) h

theorem bayBringUp_formed {b : Nat} {s : State} (h : Formed s) : Formed (bayBringUp b s) := startBay_formed { h with }

theorem haltBay_formed {b : Nat} {s : State} (h : Formed s) : Formed (haltBay b s) := ite_formed (stopBay_formed h) h

theorem bayMoved_formed {b : Bay} {old new : Mode} {s : State} (h : Formed s) : Formed (bayMoved b old new s) := by
  unfold bayMoved
  extract_lets _ s1 s2 s3
  have h1 : Formed s1 := ite_formed (loadRemapped_formed h) h
  have h2 : Formed s2 := initBay_formed (haltBay_formed (ite_formed h1 (dropLoads_formed h1)))
  have h3 : Formed s3 := ite_formed (stopApply_formed h1) h1
  split
  · exact ite_formed h2 (bayApply_formed h2)
  · exact bayBringUp_formed h1
  · exact applyPendRemaps_formed (retireBanks_formed (haltBay_formed h1))
  · exact ite_formed (startBay_formed h3) h3
  · exact h1

theorem portService_formed {p : Nat} {s : State} (h : Formed s) : Formed (portService p s) :=
  ite_formed (warn_formed (modEgress_formed (modCredit_formed (modLane_formed h))))
    (modEgress_formed (modCredit_formed (modLane_formed h)))

theorem portMoved_formed {p : Nat} {old new : Mode} {s : State} (h : Formed s) : Formed (portMoved p old new s) := by
  unfold portMoved
  extract_lets s1 s2
  have h1 : Formed s1 := ite_formed (closePoisoned_formed (cutOff_formed h)) h
  have h2 : Formed s2 := ite_formed (leaveBringUp_formed h1) (ite_formed (modLane_formed h1) h1)
  split
  · exact idleTx_formed (modLane_formed (modNeg_formed h2))
  · exact enterBringUp_formed h2
  · exact ite_formed (modCredit_formed h2) (portService_formed h2)
  · exact h2

theorem houseIntake_formed {s : State} (h : Formed s) : Formed (houseIntake s) :=
  restartStream_formed { foldl_formed (fun _ _ => dropRequest_formed) h with }

theorem houseMoved_formed {new : Mode} {s : State} (h : Formed s) : Formed (houseMoved new s) := by
  unfold houseMoved
  extract_lets _ s1
  have h1 : Formed s1 := { h with }
  split
  · exact houseIntake_formed h1
  · exact startVoltages_formed h1
  · exact { h1 with }
  · exact h1

theorem leaveClosing_formed {d : Domain} {s : State} (h : Formed s) : Formed (leaveClosing d s) :=
  foldl_formed (fun _ _ => completeOpt_formed) { h with }

theorem applyMove_formed {m : Move} {s : State} (h : Formed s) : Formed (applyMove m s) := by
  unfold applyMove
  dsimp only
  split
  · split
    · exact { (houseMoved_formed (noteMode_formed (setMode_formed (leaveClosing_formed h)))) with }
    · exact { (bayMoved_formed (noteMode_formed (setMode_formed (leaveClosing_formed h)))) with }
    · exact { (portMoved_formed (noteMode_formed (setMode_formed (leaveClosing_formed h)))) with }
  · refine completeOpt_formed ?_
    split
    · exact houseMoved_formed (noteMode_formed (setMode_formed (leaveClosing_formed h)))
    · exact bayMoved_formed (noteMode_formed (setMode_formed (leaveClosing_formed h)))
    · exact portMoved_formed (noteMode_formed (setMode_formed (leaveClosing_formed h)))

theorem trySlips_formed {l : List PendMode} {s : State} (h : Formed s) : Formed (trySlips l s) := by
  induction l generalizing s with
  | nil => exact h
  | cons m rest ih =>
    exact ite_formed (ih (complete_formed h)) (ite_formed (ih (complete_formed h))
      (ite_formed (ih (complete_formed h)) (applyMove_formed { h with })))

theorem loseSlips_formed {l : List PendMode} {s : State} (h : Formed s) : Formed (loseSlips l s) :=
  foldl_formed (fun _ _ => complete_formed) h

theorem domainStep_formed {before : State} {forced : Option (Mode × Nat)} {due : List PendMode} {s : State} {d : Domain}
    (h : Formed s) : Formed (domainStep before forced due s d) := by
  unfold domainStep
  extract_lets _ s1
  have h1 : Formed s1 := loseSlips_formed h
  split
  · exact ite_formed h1 (applyMove_formed h1)
  split
  · exact applyMove_formed (loseSlips_formed h)
  · exact trySlips_formed h

theorem houseStep_formed {before : State} {holds : Bool} {due : List PendMode} {s : State} (h : Formed s) :
    Formed (houseStep before holds due s) := by
  unfold houseStep
  extract_lets
  split
  · exact applyMove_formed (loseSlips_formed h)
  · exact ite_formed (loseSlips_formed h) (trySlips_formed h)

theorem boundaryStep2_formed {holds : Bool} {s : State} (h : Formed s) : Formed (boundaryStep2 holds s) := by
  unfold boundaryStep2
  extract_lets _ _ _ _ s1 _ s2
  have h1 : Formed s1 := houseStep_formed { h with }
  have h2 : Formed s2 := foldl_formed (fun _ _ => domainStep_formed) h1
  exact ite_formed (takeStep_formed h2) h2

theorem boundaryHold_formed {old : Mode} {s : State} (h : Formed s) : Formed (boundaryHold old s) := by
  unfold boundaryHold
  extract_lets
  split
  · exact h
  split
  · extract_lets s1
    have h1 : Formed s1 := { h with }
    exact applyMove_formed h1
  · exact h

theorem setDrained_formed {d : Domain} {s : State} (h : Formed s) : Formed (setDrained d s) := { h with }

theorem flushPort_formed {p : Nat} {s : State} (h : Formed s) : Formed (flushPort p s) :=
  foldl_formed (fun _ _ hu => ite_formed hu (flushQueue_formed hu)) h

theorem expireDrain_formed {d : Domain} {s : State} (h : Formed s) : Formed (expireDrain d s) := by
  unfold expireDrain
  split
  · exact flushPort_formed h
  · exact foldl_formed (fun _ _ => flushPort_formed) h
  · refine foldl_formed (fun _ _ hu => ?_) h
    split
    split
    · exact ite_formed (poisonAttach_formed hu) hu
    · exact hu

theorem endDrain_formed {d : Domain} {s : State} (h : Formed s) : Formed (endDrain d s) := by
  unfold endDrain
  split
  · exact haltBay_formed (setDrained_formed h)
  · exact setDrained_formed h

theorem gateClosed_formed {b : Nat} {s : State} (h : Formed s) : Formed (gateClosed b s) := loseFlops_formed { h with }

theorem completeClosing_formed {d : Domain} {s : State} (h : Formed s) : Formed (completeClosing d s) := by
  unfold completeClosing
  extract_lets
  split
  · exact h
  · extract_lets s1
    have h1 : Formed s1 := completeOpt_formed { h with }
    split
    · exact h
    split
    · exact idleTx_formed h1
    · exact gateClosed_formed h1
    · exact writeTail_formed { h1 with }

theorem drainEnd_formed {d : Domain} {s : State} (h : Formed s) : Formed (drainEnd d s) := by
  unfold drainEnd
  split
  · exact h
  · exact completeClosing_formed (ite_formed (endDrain_formed h) h)

theorem drainFrame_formed {s : State} {d : Domain} (h : Formed s) : Formed (drainFrame s d) := by
  unfold drainFrame
  extract_lets _ s1
  have h1 : Formed s1 := { h with }
  split
  · exact h
  · exact ite_formed (completeClosing_formed h) (ite_formed (completeClosing_formed (endDrain_formed h1))
      (ite_formed (completeClosing_formed (endDrain_formed (expireDrain_formed h1))) h1))

theorem drainFrames_formed {s : State} (h : Formed s) : Formed (drainFrames s) := foldl_formed (fun _ _ => drainFrame_formed) h

/-! ## The day book -/

theorem entryFinding_formed {i : Nat} {f : Found} {s : State} (h : Formed s) : Formed (entryFinding i f s) := by
  unfold entryFinding
  split
  · exact h
  · exact memFinding_formed (useFree_formed h)

theorem countCoalesced_formed {s : State} (h : Formed s) : Formed (countCoalesced s) := { h with }

theorem writeEntry_formed {o : Entry} {f : Found} {s : State} (h : Formed s) : Formed (writeEntry o f s) := by
  unfold writeEntry
  split
  · exact writeNew_formed h
  · extract_lets s1
    have h1 : Formed s1 := entryFinding_formed h
    exact ite_formed (writeNew_formed (countLost_formed { h1 with })) (countCoalesced_formed { h1 with })

theorem holdEntry_formed {o : Entry} {s : State} (h : Formed s) : Formed (holdEntry o s) := by
  unfold holdEntry
  extract_lets
  split
  · exact countCoalesced_formed { h with }
  · exact ite_formed { h with } (countLost_formed { h with })

theorem loggerStep_formed {f : Found} {u : Upset} {s : State} (h : Formed s) : Formed (loggerStep f u s) := by
  unfold loggerStep
  split
  split
  · exact h
  · exact ite_formed { h with } (holdEntry_formed { h with })
  split
  · exact ite_formed (resetBook_formed { h with }) (writeNew_formed { h with })
  · exact ite_formed (resetBook_formed { h with }) (writeNew_formed { h with })
  · exact ite_formed { h with } (ite_formed (resetBook_formed { h with }) (writeEntry_formed { h with }))
  · exact h

theorem headEntry_formed {f : Found} {s t : State} {e : Entry} (h : Formed s) (ht : headEntry f s = some (e, t)) :
    Formed t := by
  have hf : Formed (entryFinding 0 f s) := entryFinding_formed h
  unfold headEntry at ht
  split at ht
  · cases ht
  · dsimp only at ht
    split_ifs at ht <;> cases ht
    · exact countLost_formed hf
    · exact hf

theorem drainCopy_formed {f : Found} {u : Upset} {s : State} (h : Formed s) : Formed (drainCopy f u s) := by
  unfold drainCopy
  split
  · exact resetBook_formed h
  split
  · exact h
  · next ht =>
    extract_lets _ _ _ s1
    have h1 : Formed s1 := dropEntry_formed { headEntry_formed h ht with }
    exact ite_formed (msix_formed h1) h1

theorem summaryEnd_formed {s : State} (h : Formed s) : Formed (summaryEnd s) := { h with }

theorem clearLatches_formed {f : Nat → Bool} {s : State} (h : Formed s) : Formed (clearLatches f s) := { h with }

theorem clearLog_formed {off : Nat} {s : State} (h : Formed s) : Formed (clearLog off s) :=
  ite_formed { h with } (ite_formed { h with } (ite_formed { h with } h))

theorem writeLogCtrl_formed {v : Word} {s : State} (h : Formed s) : Formed (writeLogCtrl v s) := { h with }

theorem writeNmLatch_formed {v : Word} {s : State} (h : Formed s) : Formed (writeNmLatch v s) := clearLatches_formed h

theorem writeAlarm_formed {f : Nat} {v : Word} {s : State} (h : Formed s) : Formed (writeAlarm f v s) := clearLatches_formed h

theorem writeDrainCons_formed {v : Word} {s : State} (h : Formed s) : Formed (writeDrainCons v s) := ite_formed { h with } h

theorem takeEntries_formed {bad : List Nat} {n i : Nat} {s : State} (h : Formed s) : Formed (takeEntries bad n i s).2 := by
  induction n generalizing i s with
  | zero => exact h
  | succ k ih =>
    unfold takeEntries
    dsimp only
    split
    · exact h
    · next _ _ ht => exact ih (dropEntry_formed (headEntry_formed h ht))

/-! ## The shelf -/

theorem passFrame_formed {pos : Nat} {s : State} (h : Formed s) : Formed (passFrame pos s) := by
  unfold passFrame
  extract_lets s1 _ s2
  have h1 : Formed s1 := ite_formed (withShelf_formed h) h
  have h2 : Formed s2 := withShelf_formed h1
  exact ite_formed (withShelf_formed h2) h2

theorem strikeFrame_formed {fk frame : Nat} {strike : BitVec 1036} {s : State} (h : Formed s) :
    Formed (strikeFrame fk frame strike s) :=
  ite_formed h (modFolio_formed h)

theorem takeAction_formed {fk a : Nat} {s : State} (h : Formed s) : Formed (takeAction fk a s) := by
  unfold takeAction
  extract_lets
  split
  · exact ite_formed (startRequest_formed h) h
  split
  · split
    · exact { h with }
    · exact h
  · exact h

theorem writeCorrection_formed {c : Correction} {s : State} (h : Formed s) : Formed (writeCorrection c s) := modFolio_formed h

theorem correct_formed {fk frame bit : Nat} {s : State} (h : Formed s) : Formed (correct fk frame bit s) :=
  ite_formed { h with } (writeCorrection_formed h)

theorem logShelf_formed {ue : Bool} {b carrel f frame bit a : Nat} {s : State} (h : Formed s) :
    Formed (logShelf ue b carrel f frame bit a s) :=
  withShelf_formed h

theorem shelfOutcome_formed {pos : Nat} {found : FrameFound} {s : State} (h : Formed s) :
    Formed (shelfOutcome pos found s) := by
  unfold shelfOutcome
  extract_lets _ _ _ _ _ _ _ _ s1
  have h1 : Formed s1 := logShelf_formed { h with }
  split
  · exact h
  · extract_lets s2 _ _ s3
    have h2 : Formed s2 := correct_formed h
    have h3 : Formed s3 := logShelf_formed { h2 with }
    exact ite_formed (takeAction_formed (warn_formed h3)) { h2 with }
  · exact takeAction_formed (alarm_formed h1)

theorem shelfFault_formed {setting : Bool} {s : State} (h : Formed s) : Formed (shelfFault setting s) := alarm_formed { h with }

theorem shelfFrameRead_formed {strike : BitVec 1036} {u : Upset} {s : State} (h : Formed s) :
    Formed (shelfFrameRead strike u s) := by
  unfold shelfFrameRead
  split
  · exact shelfFault_formed h
  split
  · exact h
  · extract_lets s1
    have h1 : Formed s1 := strikeFrame_formed h
    exact ite_formed h (shelfOutcome_formed (passFrame_formed h1))

theorem shelfCorrectionWrite_formed {s : State} (h : Formed s) : Formed (shelfCorrectionWrite s) := by
  unfold shelfCorrectionWrite
  extract_lets
  split
  · exact h
  · exact writeCorrection_formed { h with }

theorem shelfBoundary_formed {s : State} (h : Formed s) : Formed (shelfBoundary s) := { h with }

theorem writeSweepEn_formed {v : Word} {s : State} (h : Formed s) : Formed (writeSweepEn v s) := { h with }

theorem writeShelfAction_formed {hi : Bool} {v : Word} {s : State} (h : Formed s) : Formed (writeShelfAction hi v s) :=
  ite_formed (withShelf_formed h) (withShelf_formed h)

theorem clearShelf_formed {off : Nat} {s : State} (h : Formed s) : Formed (clearShelf off s) :=
  ite_formed { h with } (ite_formed { h with } (ite_formed { h with } h))

/-! ## Work that a slip drops -/

theorem dropWork_formed {w : CfgWork} {s : State} (h : Formed s) : Formed (dropWork w s) := { h with }

theorem endStage_formed {id : SlipId} {status : BitVec 16} {cause : Nat} {s : State} (h : Formed s) :
    Formed (endStage id status cause s) :=
  complete_formed h

theorem stageFlash_formed {id : SlipId} {part : Except Nat (List Byte)} {f : Found} {s : State} (h : Formed s) :
    Formed (stageFlash id part f s) := by
  unfold stageFlash
  extract_lets
  split
  · exact endStage_formed (clearStage_formed h)
  · exact ite_formed (endStage_formed (clearStage_formed h)) (ite_formed (endStage_formed (clearStage_formed h))
      (endStage_formed (stagePart_formed { h with })))

theorem stageDone_formed {f : Found} {s : State} (h : Formed s) : Formed (stageDone f s) := by
  unfold stageDone
  split
  · exact h
  · extract_lets s1
    have h1 : Formed s1 := sideFinding_formed (dropWork_formed h)
    split
    · exact endStage_formed h1
    split
    · exact stageFlash_formed h1
    split
    · exact stageFlash_formed h1
    split
    · exact endStage_formed h1
    · exact ite_formed (endStage_formed h1) (ite_formed (endStage_formed h1) (endStage_formed (stagePart_formed { h1 with })))

theorem authDone_formed {tagOk : Bool} {s : State} (h : Formed s) : Formed (authDone tagOk s) := by
  unfold authDone
  split
  · exact h
  · extract_lets s1
    have h1 : Formed s1 := dropWork_formed h
    split
    · exact complete_formed { h1 with }
    · exact complete_formed { h1 with }

theorem flashWriteDone_formed {s : State} (h : Formed s) : Formed (flashWriteDone s) := by
  unfold flashWriteDone
  split
  · exact h
  · extract_lets s1
    have h1 : Formed s1 := dropWork_formed h
    exact ite_formed (complete_formed h1) (complete_formed { h1 with cfg_flash := flashPut_rises _ _ _ h1.cfg_flash })

theorem flashEraseDone_formed {s : State} (h : Formed s) : Formed (flashEraseDone s) := by
  unfold flashEraseDone
  split
  · exact h
  · extract_lets s1
    have h1 : Formed s1 := dropWork_formed h
    exact complete_formed { h1 with cfg_flash := cellsDrop_rises _ _ _ h.cfg_flash }

theorem addArchive_formed {b : Nat} {c : BayContent} {s : State} (h : Formed s) : Formed (addArchive b c s) :=
  addEditions_formed { placeCopies_formed h with }

theorem archiveAddDone_formed {s : State} (h : Formed s) : Formed (archiveAddDone s) := by
  unfold archiveAddDone
  split
  · exact h
  · extract_lets s1
    have h1 : Formed s1 := dropWork_formed h
    split
    · exact ite_formed (complete_formed h1) (complete_formed h1)
    · exact ite_formed (complete_formed h1) (complete_formed (addArchive_formed h1))

/-! ## Registers of a port -/

theorem clearPort_formed {p off : Nat} {s : State} (h : Formed s) : Formed (clearPort p off s) :=
  ite_formed (modNeg_formed h) (ite_formed (modNeg_formed h) (modLane_formed h))

theorem clearEngine_formed {e off : Nat} {s : State} (h : Formed s) : Formed (clearEngine e off s) :=
  ite_formed (modCredit_formed h) (ite_formed (modEgress_formed h) (modEngine_formed h))

theorem clearSide_formed {off : Nat} {s : State} (h : Formed s) : Formed (clearSide off s) :=
  ite_formed (ite_formed h { h with }) (ite_formed { h with } (ite_formed { h with }
    (ite_formed { h with } (ite_formed { h with } (ite_formed { h with }
    (ite_formed { h with } (ite_formed (modVol_formed h) h)))))))

theorem clearStock_formed {off : Nat} {s : State} (h : Formed s) : Formed (clearStock off s) :=
  ite_formed { h with } (ite_formed { h with } (ite_formed { h with } h))

theorem clearReg_formed {b : Block} {off : Nat} {s : State} (h : Formed s) : Formed (clearReg b off s) := by
  unfold clearReg
  extract_lets
  split
  · exact ite_formed { h with } (ite_formed { h with } h)
  · exact ite_formed { h with } (ite_formed { h with } h)
  · exact h
  · exact h
  · exact ite_formed { h with } (ite_formed { h with } h)
  · exact clearShelf_formed h
  · exact clearStock_formed h
  · exact ite_formed { h with } (ite_formed { h with } h)
  · exact clearSide_formed h
  · exact clearLog_formed h
  · exact clearSlip_formed h
  · exact ite_formed (modBay_formed h) (ite_formed (modBay_formed h) (ite_formed (modBay_formed h) h))
  · exact clearPort_formed h
  · exact clearEngine_formed h
  · exact h

/-! ## Registers -/

theorem regAnswer_formed {m : Master} {data : Word} {err : Bool} {s : State} (h : Formed s) : Formed (regAnswer m data err s) :=
  { h with
    regs_readData := Sparse.rises_put _ _ _ _ h.regs_readData
    regs_readErr := Sparse.rises_put _ _ _ _ h.regs_readErr }

theorem regError_formed {m : Master} {off cause : Nat} {s : State} (h : Formed s) : Formed (regError m off cause s) :=
  warn_formed (regAnswer_formed { h with })

theorem dropArm_formed {m : Master} {n : Nat} {s : State} (h : Formed s) : Formed (dropArm m n s) := { h with }

theorem writeUnlock_formed {m : Master} {b : Block} {off : Nat} {v : Word} {s : State} (h : Formed s) :
    Formed (writeUnlock m b off v s) := by
  have h1 : Formed (dropArm m b.num s) := dropArm_formed h
  unfold writeUnlock
  extract_lets
  split
  · exact regError_formed h
  split
  · exact regAnswer_formed (withArms_formed h1)
  · exact regError_formed (withLockout_formed h1 (Sparse.rises_put _ _ _ _ h.regs_wrongKeys)
      (ite_rises (Sparse.rises_put _ _ _ _ h.regs_lockout) h.regs_lockout))

theorem readEffects_formed {m : Master} {b : Block} {off cycle : Nat} {s : State} (h : Formed s) :
    Formed (readEffects m b off cycle s) :=
  ite_formed { h with } (ite_formed { h with regs_shadow := Sparse.rises_put _ _ _ _ h.regs_shadow } (clearReg_formed h))

theorem regRead_formed {m : Master} {off cycle : Nat} {s : State} (h : Formed s) : Formed (regRead m off cycle s) := by
  unfold regRead
  split
  · exact regError_formed h
  · exact ite_formed (regError_formed h) (ite_formed (regAnswer_formed h) (regAnswer_formed (readEffects_formed h)))

theorem writeReg_formed {b : Block} {off : Nat} {v : Word} {s : State} (h : Formed s) : Formed (writeReg b off v s) := by
  unfold writeReg
  extract_lets
  split
  · exact ite_formed { h with } h
  · exact ite_formed { h with } (ite_formed (writeGateBay_formed h) (ite_formed (writeGatePort_formed h)
      (ite_formed (writeGateQe_formed h) (ite_formed (writeGateOther_formed h) (ite_formed (writeFrameOut_formed h) h)))))
  · exact ite_formed (writeBoundary_formed h) (ite_formed { h with } h)
  · exact ite_formed (writeSweepEn_formed h) (ite_formed (writeShelfAction_formed h) (ite_formed (writeShelfAction_formed h) h))
  · exact ite_formed { h with } h
  · exact ite_formed (writeLogCtrl_formed h) (ite_formed (writeNmLatch_formed h)
      (ite_formed (writeAlarm_formed h) (ite_formed (writeDrainCons_formed h) h)))
  · exact writeSlip_formed h
  · exact ite_formed (writeLoop_formed h) (ite_formed (writeTest_formed h) (ite_formed (modLane_formed h) h))
  · exact ite_formed (modEngine_formed h) h
  · exact ite_formed (flushQueue_formed h) h
  · exact h

theorem writeShelfId_formed {m : Master} {off : Nat} {v : Word} {s : State} (h : Formed s) : Formed (writeShelfId m off v s) :=
  ite_formed (regError_formed h) (regAnswer_formed { h with })

theorem regWrite_formed {m : Master} {off : Nat} {v : Word} {s : State} (h : Formed s) : Formed (regWrite m off v s) := by
  unfold regWrite
  split
  · exact regError_formed h
  split
  · exact regError_formed h
  · exact ite_formed (regError_formed h) (ite_formed (regAnswer_formed h)
      (ite_formed (writeUnlock_formed h) (ite_formed (ite_formed (regAnswer_formed (writeReg_formed (dropArm_formed h)))
      (regError_formed h)) (ite_formed (writeShelfId_formed h) (regAnswer_formed (writeReg_formed h))))))

theorem shelfCtrlWrite_formed {m : Master} {v : Word} {parityFault : Bool} {s : State} (h : Formed s) :
    Formed (shelfCtrlWrite m v parityFault s) := by
  unfold shelfCtrlWrite
  extract_lets _ t t1
  have ht : Formed t := regWrite_formed h
  have h1 : Formed t1 := shelfFault_formed ht
  clear_value t1
  have h2 : Formed (writeSweepEn v t1) := writeSweepEn_formed h1
  exact ite_formed (ite_formed { h2 with } h1) ht

theorem sidebandWrite_formed {l : List Byte} {s : State} (h : Formed s) : Formed (sidebandWrite l s) :=
  ite_formed (sbAnswer_formed h) (sbAnswer_formed (regWrite_formed h))

theorem sidebandRead_formed {l : List Byte} {cycle : Nat} {s : State} (h : Formed s) : Formed (sidebandRead l cycle s) :=
  ite_formed (sbAnswer_formed h) (ite_formed (sbAnswer_formed (regRead_formed h)) (sbAnswer_formed (regRead_formed h)))

/-! ## Frame and slot boundaries -/

theorem noteOverruns_formed {s : State} (h : Formed s) : Formed (noteOverruns s) := withFrame_formed h

theorem clearTold_formed {s : State} (h : Formed s) : Formed (clearTold s) :=
  { h with ports := Sparse.rises_map _ _ (fun _ => rfl) h.ports, engines := Sparse.rises_map _ _ (fun _ => rfl) h.engines }

theorem freshBudgets_formed {s : State} (h : Formed s) : Formed (freshBudgets s) := { h with }

theorem countUnlocks_formed {s : State} (h : Formed s) : Formed (countUnlocks s) :=
  { h with regs_wrongKeys := rfl, regs_lockout := Sparse.rises_map _ _ (fun _ => rfl) h.regs_lockout }

theorem countWaits_formed {s : State} (h : Formed s) : Formed (countWaits s) :=
  { h with
    fab_binds := Sparse.rises_map _ _ (fun _ => rfl) h.fab_binds
    flows := Sparse.rises_map _ _ (fun _ => rfl) h.flows }

theorem deliverIrqs_formed {s : State} (h : Formed s) : Formed (deliverIrqs s) := { h with }

theorem endSlots_formed {s : State} (h : Formed s) : Formed (endSlots s) :=
  foldl_formed (fun _ _ hu => countSlot_formed (endSlotPort_formed hu)) h

theorem laneSlot_formed {i : SlotIn} {s : State} (h : Formed s) : Formed (laneSlot i s) :=
  foldl_formed (fun _ _ => checkErrors_formed) (foldl_formed (fun _ _ => moveTrack_formed) h)

theorem slotEnds_formed {i : SlotIn} {s : State} (h : Formed s) : Formed (slotEnds i s) :=
  endSlots_formed (rampVolts_formed (laneSlot_formed h))

theorem endFrame_formed {i : FrameIn} {s : State} (h : Formed s) : Formed (endFrame i s) := by
  unfold endFrame
  extract_lets s1 s2 s3
  have h1 : Formed s1 := { h with }
  have h2 : Formed s2 := forgetPhase_formed (countFrames_formed (discipline_formed (measure_formed h1)))
  have h3 : Formed s3 := noteOverruns_formed (rekeyFrame_formed (countTests_formed (settleSlices_formed (workFrame_formed h2))))
  exact deliverIrqs_formed (countUnlocks_formed (freshBudgets_formed (clearTold_formed
    (countWaits_formed (shelfBoundary_formed h3)))))

theorem sourceStep3_formed {s : State} (h : Formed s) : Formed (sourceStep3 s) :=
  revert_formed (startQualifying_formed (changeOver_formed (clockStep3_formed h)))

theorem finishClosings_formed {s : State} (h : Formed s) : Formed (finishClosings s) :=
  foldl_formed (fun _ _ => completeClosing_formed) h

theorem boundarySteps_formed {i : FrameIn} {s : State} (h : Formed s) : Formed (boundarySteps i s) := by
  unfold boundarySteps
  extract_lets _ _ s1 s2 s3 s4
  have h1 : Formed s1 := boundaryStep2_formed (drainFrames_formed (advanceNumber_formed (testRotas_formed h)))
  have h2 : Formed s2 := boundaryHold_formed (sourceStep3_formed h1)
  have h3 : Formed s3 := boundaryStep4_formed (forceSwitches_formed (finishClosings_formed h2))
  have h4 : Formed s4 := thermalStep5_formed (tellUntested_formed (beginEntries_formed h3))
  exact foldl_formed (fun _ _ => portStep6_formed) h4

theorem slotStep_formed {i : SlotIn} {s : State} (h : Formed s) : Formed (slotStep i s) :=
  ungateRails_formed (sampleSlot_formed (slotPorts_formed h))

theorem beginFrame_formed {i : FrameIn} {s : State} (h : Formed s) : Formed (beginFrame i s) :=
  deskResults_formed (grantSlices_formed (takeOver_formed (thermalTask_formed h)))

theorem closeBoundary_formed {s : State} (h : Formed s) : Formed (closeBoundary s) := { h with }

theorem frameBoundary_formed {i : FrameIn} {s : State} (h : Formed s) : Formed (frameBoundary i s) :=
  closeBoundary_formed (slotStep_formed (beginFrame_formed (boundarySteps_formed
    (ite_formed (freshBudgets_formed h) (endFrame_formed (slotEnds_formed h))))))

theorem slotBoundary_formed {i : SlotIn} {s : State} (h : Formed s) : Formed (slotBoundary i s) :=
  slotStep_formed { slotEnds_formed h with }

/-! ## The test access port -/

theorem loadTap_formed {i : TapInstr} {capture : Nat} {s : State} (h : Formed s) : Formed (loadTap i capture s) := { h with }

theorem rrRegDone_formed {off : Nat} {s : State} (h : Formed s) : Formed (rrRegDone off s) := withTap_formed h

theorem rrRegAccess_formed {dr : BitVec 56} {cycle : Nat} {s : State} (h : Formed s) : Formed (rrRegAccess dr cycle s) :=
  rrRegDone_formed (ite_formed (regWrite_formed h) (regRead_formed h))

theorem rrMemOp_formed {store a : Nat} {write : Bool} {data : Nat} {f : Found} {path : List NodeFound} {s : State}
    (h : Formed s) : Formed (rrMemOp store a write data f path s).2.2 := by
  unfold rrMemOp
  dsimp only
  split_ifs
  · exact h
  · exact writePiece_formed h
  · exact readPiece_formed h
  · exact writeBlock_formed h
  · exact readBlock_formed h

theorem rrMemAccess_formed {dr : BitVec 102} {f : Found} {path : List NodeFound} {s : State} (h : Formed s) :
    Formed (rrMemAccess dr f path s) :=
  withTap_formed (useFree_formed (rrMemOp_formed h))

end Sys2Proof.Machine
end

section
/-! PROOFS. Slips keep the form: a slip runs checks and an effect, and either commits what the effect leaves or fails. -/

namespace Sys2Proof.Machine

open Sys2Proof

/-! ## Checks and effects of a slip -/

/-- What a failing slip discards of a pending set leaves the form (R93, R391). -/
def SlipErr.Keeps (e : SlipErr) : Prop := ∀ s, Formed s → Formed (e.discard s)

/-- A check or an effect ends in what has P, or in an error that keeps the form. -/
def Leaves {α : Type} (P : α → Prop) (x : Except SlipErr α) : Prop :=
  match x with
  | .ok a => P a
  | .error e => e.Keeps

/-- A check whose errors keep the form. -/
abbrev Harmless (x : Except SlipErr Unit) : Prop := Leaves (fun _ => True) x

/-- A slip whose effect, and whose errors, keep the form. -/
abbrev SlipFormed (x : SlipOut) : Prop := Leaves (fun o => Formed o.state) x

section
variable {α : Type} {P : α → Prop} {s : State} {p : List Byte}

theorem Leaves.check {x : Except SlipErr Unit} {k : Unit → Except SlipErr α} (hx : Harmless x) (hk : Leaves P (k ())) :
    Leaves P (x >>= k) := by
  cases x with
  | error e => exact hx
  | ok u => exact hk

theorem Leaves.ite {c : Prop} [Decidable c] {x y : Except SlipErr α} (hx : Leaves P x) (hy : Leaves P y) :
    Leaves P (if c then x else y) := by
  split
  · exact hx
  · exact hy

theorem fail_keeps {st : BitVec 16} : (fail st).Keeps := fun _ h => h

theorem bad_keeps {off : Nat} : (bad off).Keeps := fun _ h => h

theorem tooLong_keeps {off : Nat} : (tooLong off).Keeps := fun _ h => h

theorem denied_keeps {m a : Nat} : (denied m a).Keeps := fun _ => deny_formed

theorem error_slipFormed {e : SlipErr} (he : e.Keeps) : SlipFormed (.error e) := he

theorem ok_slipFormed {o : SlipOk} (h : Formed o.state) : SlipFormed (.ok o) := h

theorem okSlip_slipFormed (h : Formed s) : SlipFormed (okSlip s) := h

theorem okResult_slipFormed {r : List Byte} (h : Formed s) : SlipFormed (okResult s r) := h

theorem accept_slipFormed (h : Formed s) : SlipFormed (accept s) := h

theorem acceptDone_slipFormed {st : BitVec 16} {r : List Byte} (h : Formed s) : SlipFormed (acceptDone s st r) := h

theorem need_harmless_of {c : Bool} {e : SlipErr} (he : e.Keeps) : Harmless (need c e) := by
  unfold need
  split
  · trivial
  · exact he

/-- Most errors discard nothing. -/
theorem need_harmless {c : Bool} {st : BitVec 16} {d : Nat} {r : List Byte} : Harmless (need c ⟨st, d, r, id⟩) :=
  need_harmless_of fun _ h => h

theorem fieldsTo_harmless {l : List PField} {stop : Nat} : Harmless (fieldsTo l stop p) := by
  unfold fieldsTo
  split
  · exact bad_keeps
  · trivial

theorem fields_harmless {l : List PField} : Harmless (fields l p) := fieldsTo_harmless

theorem zeroFrom_harmless {off : Nat} : Harmless (zeroFrom off p) := by
  unfold zeroFrom
  split
  · exact bad_keeps
  · trivial

theorem counted_harmless {off cnt lo hi first size : Nat} : Harmless (counted p off cnt lo hi first size) :=
  .ite bad_keeps (.ite tooLong_keeps trivial)

theorem entriesOk_harmless {first size n : Nat} {f : Nat → Option Nat} : Harmless (entriesOk first size n f) := by
  unfold entriesOk
  split
  · exact bad_keeps
  · trivial

theorem houseOpen_harmless : Harmless (houseOpen s) := need_harmless

theorem houseIn_harmless {l : List Mode} : Harmless (houseIn s l) := need_harmless

theorem bayIn_harmless {b : Nat} {l : List Mode} : Harmless (bayIn s b l) := need_harmless

theorem portIn_harmless {q : Nat} {l : List Mode} : Harmless (portIn s q l) := need_harmless

theorem baysIn_harmless {l : List Nat} : Harmless (baysIn s l) := need_harmless

theorem openQueues_harmless : Harmless (openQueues s) := houseOpen_harmless

theorem stockHouse_harmless : Harmless (stockHouse s) := houseIn_harmless

theorem flashMode_harmless {a : Nat} : Harmless (flashMode s a) := houseIn_harmless

end

/-! ## A slip from its start to its reply -/

theorem commitSlip_formed {id : SlipId} {o : SlipOk} (h : Formed o.state) : Formed (commitSlip id o) := by
  unfold commitSlip
  extract_lets _ _ _ s1 s2
  have h1 : Formed s1 := { h with }
  have h2 : Formed s2 := raise_formed (queueReply_formed h1)
  split
  · split
    · exact modChan_formed h2
    · exact complete_formed h2
  · exact h2

theorem failSlip_formed {r : Reply} {c : Prop} [Decidable c] {ch : Nat} {s : State} (h : Formed s) :
    Formed (queueReply r (if c then countExcess ch s else s)) :=
  queueReply_formed (ite_formed (countExcess_formed h) h)

theorem runSlip_formed {op : BitVec 16} {c : OrdClass} {k : SlipHdr} {p : List Byte} {body : SlipId → State → SlipOut}
    {s : State} (hb : ∀ id s, Formed s → SlipFormed (body id s)) (h : Formed s) : Formed (runSlip op c k p body s) := by
  have hbegun : Formed (noteSeq (s.gapIn k) k (startSlip op k p s)) := noteSeq_formed (startSlip_formed h)
  unfold runSlip
  split
  · split
    · exact failSlip_formed hbegun
    · extract_lets id _ _
      have hbody := hb id _ hbegun
      split
      · next he => rw [he] at hbody; exact failSlip_formed (hbody _ hbegun)
      · next ho => rw [ho] at hbody; exact commitSlip_formed hbody
  · exact ite_formed (modChan_formed h) h

/-! ## What a command ends in -/

/-- The next state, where there is one, has the form. -/
def NextFormed (o : Host.Outcome State Fault Refusal) : Prop := ∀ t, o = .next t → Formed t

theorem done_nextFormed {s : State} (h : Formed s) : NextFormed (done s) := by
  rintro t ⟨⟩
  exact h

theorem run_nextFormed {f : State → State} {s : State} (hf : ∀ s, Formed s → Formed (f s)) (h : Formed s) :
    NextFormed (run f s) := by
  rintro t ⟨⟩
  exact mirror_formed (inOneCycle_formed hf h)

theorem slip_nextFormed {op : BitVec 16} {c : OrdClass} {k : SlipHdr} {p : List Byte} {body : SlipId → State → SlipOut} {s : State}
    (hb : ∀ id s, Formed s → SlipFormed (body id s)) (h : Formed s) : NextFormed (slip op c k p body s) :=
  run_nextFormed (fun _ => runSlip_formed hb) h

theorem fault_nextFormed {f : Fault} : NextFormed (.fault f) := by
  rintro t ⟨⟩

theorem ite_nextFormed {c : Prop} [Decidable c] {x y : Host.Outcome State Fault Refusal} (hx : NextFormed x) (hy : NextFormed y) :
    NextFormed (if c then x else y) := by
  split
  · exact hx
  · exact hy

theorem access_nextFormed {m : Master} {f : State → State} {s : State} (hf : ∀ s, Formed s → Formed (f s)) (h : Formed s) :
    NextFormed (access m f s) :=
  run_nextFormed (fun _ => when_formed hf) h

theorem sideband_nextFormed {f : State → State} {s : State} (hf : ∀ s, Formed s → Formed (f s)) (h : Formed s) :
    NextFormed (sideband f s) :=
  run_nextFormed (fun _ hs => ite_formed (hf _ hs) (sbAnswer_formed hs)) h

end Sys2Proof.Machine
end

section
/-! PROOFS. Slips' effects, and commands of more than one case, keep the form. -/

namespace Sys2Proof.Machine

open Sys2Proof

/-! ## Domain modes -/

theorem modeSetBody_slipFormed {p : List Byte} {archiveOk : Bool} {id : SlipId} {s : State} (h : Formed s) :
    SlipFormed (modeSetBody p archiveOk id s) :=
  .check fields_harmless <| .ite (acceptDone_slipFormed (cancelDelayed_formed h))
    (.check need_harmless <| accept_slipFormed { cancelDelayed_formed h with })

/-! ## Bays, folios and editions -/

theorem execFolioWriteComplete_nextFormed {b : Bay} {c : Pos} {f : Folio} {s : State} (h : Formed s) :
    NextFormed (execFolioWriteComplete b c f s) := by
  unfold execFolioWriteComplete
  split
  · exact run_nextFormed (fun _ => when_formed fun _ => folioWritten_formed) h
  · exact run_nextFormed (fun _ => id) h

theorem execArchiveReadError_nextFormed {b : Bay} {s : State} (h : Formed s) : NextFormed (execArchiveReadError b s) := by
  unfold execArchiveReadError
  split
  · exact run_nextFormed (fun _ => archiveError_formed) h
  · exact run_nextFormed (fun _ => id) h

/-! ## Slips of the fabric -/

theorem rotaSetBody_slipFormed {p : List Byte} {id : SlipId} {s : State} (h : Formed s) : SlipFormed (rotaSetBody p id s) := by
  unfold rotaSetBody
  refine .check need_harmless <| .check fieldsTo_harmless <| .check counted_harmless <| .check entriesOk_harmless <|
    .check zeroFrom_harmless <| .check need_harmless ?_
  split
  · exact okSlip_slipFormed { h with }
  split
  · exact okSlip_slipFormed { h with }
  split
  · exact error_slipFormed (fun _ hu => { hu with })
  · exact .ite (acceptDone_slipFormed (foldl_formed (fun _ _ => installRota_formed) { h with })) (accept_slipFormed { h with })

theorem rotaQueryBody_slipFormed {p : List Byte} {id : SlipId} {s : State} (h : Formed s) : SlipFormed (rotaQueryBody p id s) :=
  .check bayIn_harmless <| .check fields_harmless <| okResult_slipFormed h

theorem folioLoadBody_slipFormed {p : List Byte} {id : SlipId} {s : State} (h : Formed s) : SlipFormed (folioLoadBody p id s) :=
  .check baysIn_harmless <| .check fieldsTo_harmless <| .check counted_harmless <| .check entriesOk_harmless <|
    .check zeroFrom_harmless <| .check need_harmless <| .check need_harmless <| accept_slipFormed (startLoad_formed h)

theorem editionLoadBody_slipFormed {p : List Byte} {id : SlipId} {s : State} (h : Formed s) :
    SlipFormed (editionLoadBody p id s) := by
  refine .check baysIn_harmless <| .check fields_harmless ?_
  split
  · exact error_slipFormed fail_keeps
  · have hd {n : Nat} {keys : List Nat} {l : List ChanAlloc} : Formed (displace n keys (grantChannels l s)) :=
      displace_formed (grantChannels_formed h)
    exact .check need_harmless <| .check need_harmless <| .check need_harmless <|
      accept_slipFormed (startLoad_formed (withEditions_formed hd (Sparse.rises_ins _ _ _ hd.fab_editions)))

theorem editionBindBody_slipFormed {p : List Byte} {id : SlipId} {s : State} (h : Formed s) :
    SlipFormed (editionBindBody p id s) :=
  .check baysIn_harmless <| .check fieldsTo_harmless <| .check counted_harmless <| .check entriesOk_harmless <|
    .check zeroFrom_harmless <| .ite (.check need_harmless <| .check entriesOk_harmless <| .check need_harmless <|
    .check need_harmless <| okSlip_slipFormed { h with }) (.check need_harmless <| okSlip_slipFormed { h with })

theorem editionSwitchBody_slipFormed {p : List Byte} {id : SlipId} {s : State} (h : Formed s) :
    SlipFormed (editionSwitchBody p id s) := by
  unfold editionSwitchBody
  refine .check baysIn_harmless <| .check fieldsTo_harmless <| .check need_harmless <| .check need_harmless <|
    .check entriesOk_harmless <| .check entriesOk_harmless <| .check zeroFrom_harmless <| .check entriesOk_harmless <|
    .check need_harmless <| .check need_harmless <| .check need_harmless ?_
  split
  · exact error_slipFormed fail_keeps
  · exact .check need_harmless <| accept_slipFormed { h with }

theorem editionQueryBody_slipFormed {p : List Byte} {s : State} (h : Formed s) : SlipFormed (editionQueryBody p s) := by
  unfold editionQueryBody
  refine .check fields_harmless ?_
  split
  · exact error_slipFormed bad_keeps
  · exact okResult_slipFormed h

theorem editionRetireBody_slipFormed {p : List Byte} {s : State} (h : Formed s) : SlipFormed (editionRetireBody p s) := by
  unfold editionRetireBody
  dsimp only
  refine .check baysIn_harmless <| .check fields_harmless ?_
  split
  · exact error_slipFormed bad_keeps
  · refine .check need_harmless ?_
    split
    · refine okSlip_slipFormed ?_
      split
      · exact { emptyFolios_formed h with fab_editions := Sparse.rises_del _ _ ((emptyFolios_formed h).fab_editions) }
      · exact { h with fab_editions := Sparse.rises_del _ _ h.fab_editions }
    · refine okSlip_slipFormed ?_
      split
      · exact { emptyFolios_formed h with fab_editions := Sparse.rises_ins _ _ _ ((emptyFolios_formed h).fab_editions) }
      · exact { h with fab_editions := Sparse.rises_ins _ _ _ h.fab_editions }

theorem bankSetBody_slipFormed {p : List Byte} {id : SlipId} {s : State} (h : Formed s) : SlipFormed (bankSetBody p id s) := by
  unfold bankSetBody
  refine .check bayIn_harmless <| .check fieldsTo_harmless <| .check counted_harmless <| .check entriesOk_harmless <|
    .check zeroFrom_harmless ?_
  split
  · refine .check need_harmless ?_
    split
    · exact .check need_harmless <| accept_slipFormed { h with }
  · exact .check entriesOk_harmless <| .check need_harmless <| .check need_harmless <| .check need_harmless <|
      .check need_harmless <| okSlip_slipFormed { h with }

theorem channelQueryBody_slipFormed {p : List Byte} {s : State} (h : Formed s) : SlipFormed (channelQueryBody p s) :=
  .check bayIn_harmless <| .check fields_harmless <| okResult_slipFormed h

/-! ## Items into their queues -/

theorem execItemHeaderTaken_nextFormed {q : Queue} {header : Line} {u : Upset} {s : State} (h : Formed s) :
    NextFormed (execItemHeaderTaken q header u s) := by
  unfold execItemHeaderTaken
  split
  · exact run_nextFormed (fun _ => when_formed fun _ hv => headerTaken_formed (strikeFor_formed hv)) h
  · exact run_nextFormed (fun _ => id) h

/-! ## Slips of queues and flows -/

theorem queueSetBody_slipFormed {p : List Byte} {s : State} (h : Formed s) : SlipFormed (queueSetBody p s) := by
  have hd : Sparse.rises (s.queue (arg p 16 2)).words = true := queue_rises _ h
  exact .check openQueues_harmless <| .check fields_harmless <| .check need_harmless <| .check need_harmless <|
    .check need_harmless <| .check need_harmless <| .check need_harmless <| .check need_harmless <| .check need_harmless <|
    .ite (okSlip_slipFormed (setQueue_formed h hd))
      (.ite (okSlip_slipFormed (setQueue_formed h Sparse.rises_nil)) (okSlip_slipFormed (setQueue_formed h hd)))

theorem queueQueryBody_slipFormed {p : List Byte} {s : State} (h : Formed s) : SlipFormed (queueQueryBody p s) :=
  .check fields_harmless <| okResult_slipFormed h

theorem queueFlushBody_slipFormed {p : List Byte} {id : SlipId} {s : State} (h : Formed s) :
    SlipFormed (queueFlushBody p id s) := by
  refine .check fields_harmless (.ite (acceptDone_slipFormed h) ?_)
  split
  · next _ ht => exact acceptDone_slipFormed (useQueue_formed h ht)
  · exact .ite (accept_slipFormed (modQueue_formed (beginFlush_formed h) fun _ hd => hd))
      (acceptDone_slipFormed (endFlush_formed (beginFlush_formed h)))

theorem queueSpaceBody_slipFormed {p : List Byte} {s : State} (h : Formed s) : SlipFormed (queueSpaceBody p s) :=
  .check fields_harmless <| okResult_slipFormed h

theorem flowSetBody_slipFormed {p : List Byte} {s : State} (h : Formed s) : SlipFormed (flowSetBody p s) :=
  .check openQueues_harmless <| .check fields_harmless <| .ite (okSlip_slipFormed (modFlow_formed (endPair_formed h)))
    (.check need_harmless <| .check need_harmless <| .check need_harmless <| .check need_harmless <| .check need_harmless <|
    .check need_harmless <| .check need_harmless <| .check need_harmless <| .check need_harmless <| .check need_harmless <|
    okSlip_slipFormed (setFlow_formed h))

theorem flowQueryBody_slipFormed {p : List Byte} {s : State} (h : Formed s) : SlipFormed (flowQueryBody p s) :=
  .check fields_harmless <| okResult_slipFormed h

theorem pairSetBody_slipFormed {p : List Byte} {s : State} (h : Formed s) : SlipFormed (pairSetBody p s) :=
  .check openQueues_harmless <| .check fields_harmless <| .ite (.check need_harmless <| .check need_harmless <|
    .check need_harmless <| .check need_harmless <| .check need_harmless <| .check need_harmless <| .check need_harmless <|
    okSlip_slipFormed (joinPair_formed h)) (.check need_harmless <| okSlip_slipFormed
    (ite_formed (endPair_formed h) (resync_formed h)))

theorem flowCountClearBody_slipFormed {p : List Byte} {s : State} (h : Formed s) : SlipFormed (flowCountClearBody p s) :=
  .check openQueues_harmless <| .check fieldsTo_harmless <| .check counted_harmless <| .check zeroFrom_harmless <|
    okSlip_slipFormed (foldl_formed (fun _ _ => modFlow_formed) h)

theorem egressSetBody_slipFormed {p : List Byte} {id : SlipId} {s : State} (h : Formed s) :
    SlipFormed (egressSetBody p id s) := by
  have hclear {st : BitVec 16} {d : Nat} {r : List Byte} {k : Nat} {f : EgressSt → EgressSt} :
      SlipErr.Keeps ⟨st, d, r, fun s => s.modEgress k f⟩ := fun _ => modEgress_formed
  refine .check openQueues_harmless <| .check fieldsTo_harmless <| .check need_harmless <| .check need_harmless <|
    .check entriesOk_harmless <| .check zeroFrom_harmless <| .check need_harmless <|
    .check (need_harmless_of hclear) <| .ite (okSlip_slipFormed (modEgress_formed h)) ?_
  split
  · exact error_slipFormed hclear
  · exact okSlip_slipFormed { modEgress_formed h with }

theorem egressQueryBody_slipFormed {p : List Byte} {s : State} (h : Formed s) : SlipFormed (egressQueryBody p s) :=
  .check fields_harmless <| okResult_slipFormed h

theorem creditSetBody_slipFormed {p : List Byte} {s : State} (h : Formed s) : SlipFormed (creditSetBody p s) :=
  .check openQueues_harmless <| .check fields_harmless <| .check need_harmless <|
    okSlip_slipFormed (ite_formed (setAllowance_formed (modCredit_formed h)) (modCredit_formed h))

/-! ## The memory layer -/

theorem readBody_slipFormed {p : List Byte} {badUnits : List UnitFound} {id : SlipId} {s : State} (h : Formed s) :
    SlipFormed (readBody p badUnits id s) :=
  .check need_harmless <| .check fields_harmless <| .check need_harmless <|
    ok_slipFormed (useFree_formed ((readRegion_work ..).formed h))

theorem writeBody_slipFormed {p : List Byte} {badUnits : List UnitFound} {id : SlipId} {s : State} (h : Formed s) :
    SlipFormed (writeBody p badUnits id s) :=
  .check need_harmless <| .check fieldsTo_harmless <| .check counted_harmless <| .check zeroFrom_harmless <|
    .check need_harmless <| ok_slipFormed (useFree_formed ((writeRegion_work (.refl s) ..).formed h))

theorem fillBody_slipFormed {p : List Byte} {id : SlipId} {s : State} (h : Formed s) : SlipFormed (fillBody p id s) :=
  .check need_harmless <| .check fields_harmless <| .check need_harmless <| .check (need_harmless_of denied_keeps) <|
    accept_slipFormed { h with }

theorem copyBody_slipFormed {p : List Byte} {id : SlipId} {s : State} (h : Formed s) : SlipFormed (copyBody p id s) :=
  .check need_harmless <| .check fields_harmless <| .check need_harmless <| .check (need_harmless_of denied_keeps) <|
    .check (need_harmless_of denied_keeps) <| accept_slipFormed { h with }

theorem retireBody_slipFormed {p : List Byte} {s : State} (h : Formed s) : SlipFormed (retireBody p s) := by
  have hadded {c d : Prop} [Decidable c] [Decidable d] {n : Nat} {l : List RetireEntry} :
      Formed (if c then s else { if d then loseArea n s else s with mem.retired := l }) :=
    ite_formed h (withRetired_formed (ite_formed (loseArea_formed h) h))
  exact .check fields_harmless <| .check need_harmless <| .check need_harmless <|
    okResult_slipFormed (ite_formed (persist_formed hadded) hadded)

theorem retireClearBody_slipFormed {p : List Byte} {s : State} (h : Formed s) : SlipFormed (retireClearBody p s) :=
  .check houseIn_harmless <| .check fields_harmless <| okResult_slipFormed { h with }

theorem retireQueryBody_slipFormed {p : List Byte} {s : State} (h : Formed s) : SlipFormed (retireQueryBody p s) :=
  .check fields_harmless <| okResult_slipFormed h

/-! ## Keys, the ledger and the random source -/

theorem rightsSetBody_slipFormed {p : List Byte} {s : State} (h : Formed s) : SlipFormed (rightsSetBody p s) :=
  .check houseOpen_harmless <| .check fields_harmless <| .check need_harmless <| .check need_harmless <| .check need_harmless <|
    okSlip_slipFormed (setRights_formed h)

theorem rightsQueryBody_slipFormed {p : List Byte} {s : State} (h : Formed s) : SlipFormed (rightsQueryBody p s) :=
  .check houseOpen_harmless <| .check fields_harmless <| okResult_slipFormed h

theorem rekeyBody_slipFormed {p : List Byte} {id : SlipId} {s : State} (h : Formed s) : SlipFormed (rekeyBody p id s) :=
  .check houseOpen_harmless <| .check fields_harmless <| accept_slipFormed (modVol_formed (triggerRekey_formed h))

theorem rekeyQueryBody_slipFormed {p : List Byte} {s : State} (h : Formed s) : SlipFormed (rekeyQueryBody p s) :=
  .check houseOpen_harmless <| .check fields_harmless <| okResult_slipFormed h

theorem ledgerReadBody_slipFormed {p : List Byte} {id : SlipId} {s : State} (h : Formed s) :
    SlipFormed (ledgerReadBody p id s) := by
  have hdiscard {c : Prop} [Decidable c] {m v : Nat} {t : State} (ht : Formed t) :
      Formed ((if c then ledgerReadBody.id_ else deny m v) t) := by
    split
    · exact ht
    · exact deny_formed ht
  exact .check houseOpen_harmless <| .check fields_harmless <| .check (need_harmless_of fun _ => hdiscard) <|
    .ite (ok_slipFormed (retiredHit_formed h)) (okResult_slipFormed (walkPage_formed h))

theorem keyFuseBody_slipFormed {p : List Byte} {s : State} (h : Formed s) : SlipFormed (keyFuseBody p s) :=
  .check houseIn_harmless <| .check fields_harmless <| .ite (okSlip_slipFormed { h with })
    (.check need_harmless <| okSlip_slipFormed { h with })

/-! ## Power and reset -/

theorem execVstbyRise_nextFormed {s : State} (h : Formed s) : NextFormed (execVstbyRise s) :=
  done_nextFormed (when_formed (fun _ hu => { withClk_formed hu reset_clk_formed with }) h)

theorem execVstbyLoss_nextFormed {s : State} (h : Formed s) : NextFormed (execVstbyLoss s) :=
  done_nextFormed (withTap_formed (resetCore_formed reset_clk_formed h))

theorem execLeaveReset_nextFormed {s : State} (h : Formed s) : NextFormed (execLeaveReset s) :=
  run_nextFormed (fun _ hu => when_formed (fun _ hv => loadTail_formed { hv with clk_loopRef := rfl }) hu) h

/-! ## Clocks -/

theorem execSwitchForced_nextFormed {sw : Fin 12} {s : State} (h : Formed s) : NextFormed (execSwitchForced sw s) := by
  unfold execSwitchForced
  refine done_nextFormed ?_
  split
  · exact { h with clk_switches := Sparse.rises_ins _ _ _ h.clk_switches }
  · exact h

theorem clockSetBody_slipFormed {p : List Byte} {id : SlipId} {s : State} (h : Formed s) : SlipFormed (clockSetBody p id s) :=
  .check houseOpen_harmless <| .check fields_harmless <| .ite (accept_slipFormed { h with }) (okSlip_slipFormed { h with })

theorem clockRestoreBody_slipFormed {p : List Byte} {id : SlipId} {s : State} (h : Formed s) :
    SlipFormed (clockRestoreBody p id s) :=
  .check houseOpen_harmless <| .check fields_harmless <| .check need_harmless <| accept_slipFormed { h with }

/-! ## Frame synchronisation -/

theorem frameSourceBody_slipFormed {p : List Byte} {id : SlipId} {s : State} (h : Formed s) :
    SlipFormed (frameSourceBody p id s) := by
  unfold frameSourceBody
  refine .check houseOpen_harmless <| .check fields_harmless ?_
  refine accept_slipFormed ?_
  split
  · exact { complete_formed h with }
  · exact { h with }

theorem frameNumberSetBody_slipFormed {p : List Byte} {id : SlipId} {s : State} (h : Formed s) :
    SlipFormed (frameNumberSetBody p id s) := by
  unfold frameNumberSetBody
  refine .check houseOpen_harmless <| .check fields_harmless ?_
  refine accept_slipFormed ?_
  split
  · exact { complete_formed h with }
  · exact { h with }

/-! ## Stock tests -/

theorem stockDeclareBody_slipFormed {p : List Byte} {s : State} (h : Formed s) : SlipFormed (stockDeclareBody p s) := by
  have hset {t : State} {d n : BitVec 32} {b v : Nat} (ht : Formed t) :
      Formed { t with stock.declared := d, stock.policy := Sparse.put 0 t.stock.policy b v, stock.noWindowTold := n } :=
    withDeclared_formed ht (Sparse.rises_put _ _ _ _ ht.stock_policy)
  exact .check bayIn_harmless <| .check fields_harmless <| .ite (okSlip_slipFormed (withDeclared_formed h h.stock_policy)) <|
    .check need_harmless <| okSlip_slipFormed (hset (foldl_formed (fun _ _ hu => ite_formed (modSlice_formed hu) hu) h))

theorem stockRunBody_slipFormed {p : List Byte} {id : SlipId} {s : State} (h : Formed s) : SlipFormed (stockRunBody p id s) :=
  .check bayIn_harmless <| .check fields_harmless <| .check need_harmless <| .check need_harmless <|
    accept_slipFormed (setTest_formed h)

theorem stockRepairBody_slipFormed {p : List Byte} {s : State} (h : Formed s) : SlipFormed (stockRepairBody p s) :=
  .check bayIn_harmless <| .check fields_harmless <| .ite (.check need_harmless <|
    okSlip_slipFormed (persistIf_formed (remapTo_formed h))) (.ite (.check need_harmless <| okSlip_slipFormed (useRow_formed h))
    (.check need_harmless <| okSlip_slipFormed (useCol_formed h)))

theorem stockResultBody_slipFormed {p : List Byte} {s : State} (h : Formed s) : SlipFormed (stockResultBody p s) :=
  .check stockHouse_harmless <| .check fields_harmless <| okResult_slipFormed { h with }

/-! ## Rails, temperature and voltage -/

theorem thermalSetBody_slipFormed {p : List Byte} {s : State} (h : Formed s) : SlipFormed (thermalSetBody p s) :=
  .check fields_harmless <| okSlip_slipFormed { h with }

theorem thermalReleaseBody_slipFormed {p : List Byte} {s : State} (h : Formed s) : SlipFormed (thermalReleaseBody p s) :=
  .check fields_harmless <| .ite (okSlip_slipFormed h) (.check need_harmless <| okSlip_slipFormed (modNode_formed h))

theorem thermalQueryBody_slipFormed {p : List Byte} {s : State} (h : Formed s) : SlipFormed (thermalQueryBody p s) :=
  .check fields_harmless <| okResult_slipFormed h

theorem powerSetBody_slipFormed {p : List Byte} {s : State} (h : Formed s) : SlipFormed (powerSetBody p s) :=
  .check fields_harmless <| okSlip_slipFormed { h with }

theorem powerGateBody_slipFormed {p : List Byte} {id : SlipId} {s : State} (h : Formed s) : SlipFormed (powerGateBody p id s) :=
  .check fields_harmless <| .ite (.ite (accept_slipFormed { h with }) (acceptDone_slipFormed h))
    (.ite (acceptDone_slipFormed h) (.check need_harmless <| acceptDone_slipFormed
    (ite_formed (setRail_formed h) (loseFlops_formed (setRail_formed h)))))

theorem powerQueryBody_slipFormed {p : List Byte} {s : State} (h : Formed s) : SlipFormed (powerQueryBody p s) :=
  .check fields_harmless <| okResult_slipFormed h

/-! ## Slips, rings and the sideband -/

theorem inbandSetBody_slipFormed {p : List Byte} {s : State} (h : Formed s) : SlipFormed (inbandSetBody p s) :=
  .check fields_harmless <| .ite (okSlip_slipFormed { h with }) (.check need_harmless <| .check need_harmless <|
    okSlip_slipFormed (setInband_formed h))

/-! ## Clock gates and cleaning -/

theorem clockQueryBody_slipFormed {p : List Byte} {s : State} (h : Formed s) : SlipFormed (clockQueryBody p s) :=
  .check houseOpen_harmless <| .check fields_harmless <| okResult_slipFormed h

/-! ## Lanes -/

theorem execSkipSetReceived_nextFormed {p : Port} {fill : List Nat} {s : State} (h : Formed s) :
    NextFormed (execSkipSetReceived p fill s) := by
  unfold execSkipSetReceived
  split
  · exact run_nextFormed (fun _ => when_formed fun _ => skipSet_formed) h
  · exact run_nextFormed (fun _ => when_formed fun _ => skipOnSlot_formed) h

/-! ## Training and negotiation -/

theorem receiveSet_nextFormed {p : Port} {sym : List Byte} {s : State} (h : Formed s) : NextFormed (receiveSet p sym s) :=
  run_nextFormed (fun _ hu => when_formed (fun _ => onSet_formed) hu) h

theorem execLoopRelocked_nextFormed {loop : Fin 6} {port : Option Port} {s : State} (h : Formed s) :
    NextFormed (execLoopRelocked loop port s) := by
  unfold execLoopRelocked
  refine done_nextFormed ?_
  split
  · exact when_formed (fun _ => modLane_formed) h
  · exact when_formed (fun _ => relockLoop_formed) h

theorem portSetBody_slipFormed {p : List Byte} {s : State} (h : Formed s) : SlipFormed (portSetBody p s) := by
  unfold portSetBody
  exact .check portIn_harmless <| .check fields_harmless <| .check need_harmless <| .check need_harmless <|
    .check need_harmless <| .check need_harmless <| .ite (okSlip_slipFormed
    (ite_formed (modNeg_formed (ite_formed (modLane_formed (modPort_formed h)) (modPort_formed h)))
    (retarget_formed (modNeg_formed (ite_formed (modLane_formed (modPort_formed h)) (modPort_formed h))))))
    (okSlip_slipFormed (ite_formed (modLane_formed (modPort_formed h)) (modPort_formed h)))

/-! ## The day book -/

theorem eventAckBody_slipFormed {p : List Byte} {s : State} (h : Formed s) : SlipFormed (eventAckBody p s) :=
  .check fields_harmless <| okResult_slipFormed (clearLatches_formed h)

theorem daybookReadBody_slipFormed {p : List Byte} {bad : List Nat} {s : State} (h : Formed s) :
    SlipFormed (daybookReadBody p bad s) :=
  .check fields_harmless <| .check need_harmless <| okResult_slipFormed (takeEntries_formed h)

theorem drainSetBody_slipFormed {p : List Byte} {id : SlipId} {s : State} (h : Formed s) : SlipFormed (drainSetBody p id s) :=
  .check fields_harmless <| .check need_harmless <| okSlip_slipFormed { h with }

theorem eventFilterBody_slipFormed {p : List Byte} {s : State} (h : Formed s) : SlipFormed (eventFilterBody p s) :=
  .check fields_harmless <| okSlip_slipFormed { h with }

/-! ## Slips of a port -/

theorem portQueryBody_slipFormed {p : List Byte} {s : State} (h : Formed s) : SlipFormed (portQueryBody p s) :=
  .check portIn_harmless <| .check fields_harmless <| okResult_slipFormed h

theorem laneTestSetBody_slipFormed {p : List Byte} {s : State} (h : Formed s) : SlipFormed (laneTestSetBody p s) :=
  .check portIn_harmless <| .check fields_harmless <| okSlip_slipFormed
    (ite_formed (foldl_formed (fun _ _ => modLane_formed) (foldl_formed (fun _ _ => writeTest_formed)
    (ite_formed h (writeLoop_formed h)))) (foldl_formed (fun _ _ => writeTest_formed) (ite_formed h (writeLoop_formed h))))

theorem laneTestQueryBody_slipFormed {p : List Byte} {s : State} (h : Formed s) : SlipFormed (laneTestQueryBody p s) :=
  .check portIn_harmless <| .check fields_harmless <| okResult_slipFormed h

/-! ## Slips of the loader -/

theorem streamStageBody_slipFormed {p : List Byte} {host : Option (List Byte)} {id : SlipId} {s : State} (h : Formed s) :
    SlipFormed (streamStageBody p host id s) := by
  unfold streamStageBody
  refine .check houseIn_harmless <| .check fields_harmless <| .check (need_harmless_of (fun _ => deny_formed)) <|
    .check need_harmless ?_
  refine accept_slipFormed ?_
  split
  · exact { (clearStage_formed (by exact { h with })) with }
  · exact { h with }

theorem streamAuthBody_slipFormed {p : List Byte} {id : SlipId} {s : State} (h : Formed s) :
    SlipFormed (streamAuthBody p id s) :=
  .check houseIn_harmless <| .check fields_harmless <| accept_slipFormed { h with }

theorem streamApplyBody_slipFormed {p : List Byte} {id : SlipId} {s : State} (h : Formed s) :
    SlipFormed (streamApplyBody p id s) :=
  .check houseIn_harmless <| .check fields_harmless <| .check need_harmless <|
    .check (need_harmless_of (fun _ hu => { hu with })) <| accept_slipFormed (beginApply_formed { h with })

theorem flashWriteBody_slipFormed {p : List Byte} {host : Option (List Byte)} {id : SlipId} {s : State} (h : Formed s) :
    SlipFormed (flashWriteBody p host id s) := by
  unfold flashWriteBody
  dsimp only
  refine .check flashMode_harmless ?_
  split
  · refine .check fields_harmless ?_
    split
    · exact acceptDone_slipFormed h
    · exact accept_slipFormed { h with }
  · refine .check fieldsTo_harmless <| .check need_harmless <| .check zeroFrom_harmless ?_
    split
    · exact acceptDone_slipFormed h
    · exact accept_slipFormed { h with }

theorem flashEraseBody_slipFormed {p : List Byte} {id : SlipId} {s : State} (h : Formed s) :
    SlipFormed (flashEraseBody p id s) :=
  .check flashMode_harmless <| .check fields_harmless <| accept_slipFormed { h with }

theorem archiveAddBody_slipFormed {p : List Byte} {id : SlipId} {s : State} (h : Formed s) :
    SlipFormed (archiveAddBody p id s) :=
  .check houseIn_harmless <| .check bayIn_harmless <| .check fields_harmless <| .check need_harmless <| .check need_harmless <|
    accept_slipFormed { h with }

/-! ## The test access port -/

theorem execExtest_nextFormed {cells : BitVec 20} {s : State} (h : Formed s) : NextFormed (execExtest cells s) :=
  done_nextFormed (withTap_formed (loadTap_formed h))

theorem execSamplePreload_nextFormed {update : Option (BitVec 20)} {pins : BitVec 20} {s : State} (h : Formed s) :
    NextFormed (execSamplePreload update pins s) :=
  done_nextFormed (withTap_formed (loadTap_formed h))

end Sys2Proof.Machine
end

section
/-! PROOFS. Every step keeps the form. -/

namespace Sys2Proof.Machine

open Sys2Proof

theorem exec_nextFormed {i : Instr} {s : State} (h : Formed s) : NextFormed (exec i s) := by
  cases i with
  | vstbyRise => exact execVstbyRise_nextFormed h
  | vstbyLoss => exact execVstbyLoss_nextFormed h
  | vin12Rise => exact done_nextFormed (when_formed (fun _ hu => { hu with }) h)
  | vin12Shutdown => exact done_nextFormed (when_formed (fun _ => porst_formed) h)
  | porstNAssert => exact done_nextFormed (porst_formed h)
  | porstNRelease => exact done_nextFormed (when_formed (fun _ hu => { hu with }) h)
  | leaveReset => exact execLeaveReset_nextFormed h
  | monitorWindowEnd => exact run_nextFormed (fun _ hu => when_formed (fun _ => monitorWindowEnd_formed) hu) h
  | clockStoppedDetect => exact run_nextFormed (fun _ hu => when_formed (fun _ => clockStopped_formed) hu) h
  | ioscSStopped => exact done_nextFormed (when_formed (fun _ hu => { hu with }) h)
  | glitchFreeSwitchDone => exact done_nextFormed { h with clk_switches := Sparse.rises_del _ _ h.clk_switches }
  | switchForced => exact execSwitchForced_nextFormed h
  | overrideQualifyTimeout => exact run_nextFormed (fun _ => overrideTimeout_formed) h
  | trunkRefLost => exact run_nextFormed (fun _ hu => when_formed (fun _ => refLost_formed) hu) h
  | frameBoundary => exact run_nextFormed (fun _ hu => when_formed (fun _ => frameBoundary_formed) hu) h
  | slotBoundary => exact run_nextFormed (fun _ hu => when_formed (fun _ => slotBoundary_formed) hu) h
  | changeAbandoned => exact run_nextFormed (fun _ => abandonChange_formed) h
  | frameOutEdge => exact done_nextFormed (ite_formed (when_formed (fun _ hu => { hu with }) h) { h with })
  | frameInEdge => exact done_nextFormed (when_formed (fun _ hu => { hu with }) h)
  | frameSourceLoss => exact run_nextFormed (fun _ hu => when_formed (fun _ => sourceLoss_formed) hu) h
  | frameSourceQualified => exact done_nextFormed (when_formed (fun _ => sourceQualified_formed) h)
  | frameSourceQualifyTimeout => exact run_nextFormed (fun _ => sourceQualifyTimeout_formed) h
  | loopLocked => exact done_nextFormed (when_formed (fun _ hu => { hu with }) h)
  | frameUnlocked => exact run_nextFormed (fun _ hu => when_formed (fun _ hv => warn_formed { hv with }) hu) h
  | frameOverrun => exact run_nextFormed (fun _ hu => when_formed (fun _ hv => warn_formed { hv with }) hu) h
  | bayNotReady => exact run_nextFormed (fun _ hu => when_formed (fun _ hv => warn_formed { hv with }) hu) h
  | closingDrainEnd => exact run_nextFormed (fun _ hu => when_formed (fun _ => drainEnd_formed) hu) h
  | turn => exact run_nextFormed (fun _ hu => when_formed (fun _ => turnCarrel_formed) hu) h
  | stockBlockCompare => exact run_nextFormed (fun _ hu => when_formed (fun _ => blockCompare_formed) hu) h
  | carrelBankAccess => exact run_nextFormed (fun _ hu => when_formed (fun _ => carrelAccess_formed) hu) h
  | folioWriteComplete => exact execFolioWriteComplete_nextFormed h
  | reloadRewriteStart => exact done_nextFormed (when_formed (fun _ hu => { hu with }) h)
  | archiveReadError => exact execArchiveReadError_nextFormed h
  | lineAttachTake => exact done_nextFormed (lineTake_formed h)
  | lineAttachSend => exact done_nextFormed (lineSend_formed h)
  | itemAttachBeat => exact run_nextFormed (fun _ => itemBeat_formed) h
  | egressTake => exact done_nextFormed (egressTake_formed h)
  | liRelease => exact run_nextFormed (fun _ hu => when_formed (fun _ => release_formed) hu) h
  | loRelease => exact run_nextFormed (fun _ hu => when_formed (fun _ hv => release_formed (noteRelease_formed hv)) hu) h
  | ixRelease => exact run_nextFormed (fun _ hu => when_formed (fun _ hv => release_formed (noteRelease_formed hv)) hu) h
  | editionSwitchForced => exact run_nextFormed (fun _ => forceSwitch_formed) h
  | laneSyncAcquired => exact done_nextFormed (when_formed (fun _ => modLane_formed) h)
  | laneSyncLost => exact run_nextFormed (fun _ hu => when_formed (fun _ => laneSyncLost_formed) hu) h
  | invalidSymbol => exact run_nextFormed (fun _ hu => when_formed (fun _ => invalidSymbol_formed) hu) h
  | frameMarkReceived => exact done_nextFormed (when_formed (fun _ => frameMark_formed) h)
  | slotMarkReceived => exact done_nextFormed (when_formed (fun _ => slotMark_formed) h)
  | skipSetReceived => exact execSkipSetReceived_nextFormed h
  | qColumnReceived => exact done_nextFormed (when_formed (fun _ => countIngress_formed) h)
  | negCapabilitiesReceived => exact receiveSet_nextFormed h
  | negProposeReceived => exact receiveSet_nextFormed h
  | negAcceptReceived => exact receiveSet_nextFormed h
  | negConfirmReceived => exact receiveSet_nextFormed h
  | negFailReceived => exact receiveSet_nextFormed h
  | negRefuseReceived => exact receiveSet_nextFormed h
  | portTrained => exact done_nextFormed (when_formed (fun _ => portTrained_formed) h)
  | prbsWindowStart => exact done_nextFormed (when_formed (fun _ hu => openWindow_formed (startSearch_formed hu)) h)
  | prbsWindowEnd => exact run_nextFormed (fun _ hu => when_formed (fun _ => windowEnd_formed) hu) h
  | trainingTimeout =>
    exact run_nextFormed (fun _ hu => when_formed (fun _ hv => failStep_formed (countTimeout_formed hv)) hu) h
  | confirmTimeout => exact run_nextFormed (fun _ hu => when_formed (fun _ => failStep_formed) hu) h
  | negTimeout =>
    exact run_nextFormed (fun _ hu => when_formed (fun _ hv => warn_formed (countTimeout_formed (modNeg_formed hv))) hu) h
  | confirmedStepSyncLoss => exact done_nextFormed (when_formed (fun _ => modNeg_formed) h)
  | portNoPartner => exact run_nextFormed (fun _ hu => when_formed (fun _ hv => warn_formed (modNeg_formed hv)) hu) h
  | collisionBackoffExpiry => exact done_nextFormed (when_formed (fun _ => modNeg_formed) h)
  | foreignLinkUp => exact done_nextFormed (when_formed (fun _ => foreignLinkUp_formed) h)
  | portMarksLost => exact done_nextFormed (when_formed (fun _ => noteAuto_formed) h)
  | portMarksRestored => exact done_nextFormed (when_formed (fun _ => noteAuto_formed) h)
  | portMarksAbsent => exact done_nextFormed (when_formed (fun _ => noteAuto_formed) h)
  | itemStartReceived => exact run_nextFormed (fun _ hu => when_formed (fun _ => itemStart_formed) hu) h
  | itemEndReceived => exact run_nextFormed (fun _ hu => when_formed (fun _ => itemEnd_formed) hu) h
  | itemPoisonReceived =>
    exact run_nextFormed (fun _ hu => when_formed (fun _ hv => endRun_formed (closePoisoned_formed hv)) hu) h
  | elasticSlip => exact run_nextFormed (fun _ hu => when_formed (fun _ => elasticSlip_formed) hu) h
  | receiveBufferRecentre => exact done_nextFormed (when_formed (fun _ => countIngress_formed) h)
  | lanePhaseLimit => exact run_nextFormed (fun _ hu => when_formed (fun _ => phaseLimit_formed) hu) h
  | prbsCheckerLock => exact done_nextFormed (when_formed (fun _ => checkerLock_formed) h)
  | prbsLockLost => exact done_nextFormed (when_formed (fun _ => lockLost_formed) h)
  | errorInjection => exact done_nextFormed (when_formed (fun _ => inject_formed) h)
  | injOnce => exact done_nextFormed (when_formed (fun _ => injOnce_formed) h)
  | flowLookup => exact run_nextFormed (fun _ hu => when_formed (fun _ => flowLookup_formed) hu) h
  | delayLineRelease => exact run_nextFormed (fun _ hu => delayRelease_formed (strikeLine_formed hu)) h
  | mergeStep => exact run_nextFormed (fun _ => mergeStep_formed) h
  | mergeGapTimeout => exact run_nextFormed (fun _ => mergeTimeout_formed) h
  | mergeAutoResync => exact run_nextFormed (fun _ hu => when_formed (fun _ => resync_formed) hu) h
  | itemHeaderTaken => exact execItemHeaderTaken_nextFormed h
  | itemWordWrite => exact run_nextFormed (fun _ hu => wordWrite_formed (strikeFor_formed hu)) h
  | itemComplete => exact run_nextFormed (fun _ => itemEnds_formed) h
  | itemPoisonedEnd => exact run_nextFormed (fun _ => itemEnds_formed) h
  | queuePop => exact run_nextFormed (fun _ hu => queuePop_formed (strikeQueue_formed hu)) h
  | flushMarkerWrite => exact run_nextFormed (fun _ hu => when_formed (fun _ => endFlush_formed) hu) h
  | qdFlushWrite => exact access_nextFormed (fun _ => regWrite_formed) h
  | memoryLayerRead =>
    exact ite_nextFormed fault_nextFormed (run_nextFormed (fun _ hu => when_formed (fun _ => layerWordRead_formed) hu) h)
  | memoryLayerWrite =>
    exact ite_nextFormed fault_nextFormed (run_nextFormed (fun _ hu => when_formed (fun _ => layerBytesWrite_formed) hu) h)
  | sideStoreRead => exact run_nextFormed (fun _ hu => when_formed (fun _ => blockRead_formed) hu) h
  | sideStoreWrite => exact run_nextFormed (fun _ hu => when_formed (fun _ => blockWrite_formed) hu) h
  | sideRefresh => exact done_nextFormed (when_formed (fun _ hu => { hu with }) h)
  | rngFail => exact run_nextFormed (fun _ hu => when_formed (fun _ => rngFail_formed) hu) h
  | streamLoadStart => exact run_nextFormed (fun _ hu => when_formed (fun _ => streamLoadStart_formed) hu) h
  | partTrailerCheck => exact run_nextFormed (fun _ hu => when_formed (fun _ => trailerCheck_formed) hu) h
  | streamApplyComplete => exact run_nextFormed (fun _ hu => when_formed (fun _ => applyComplete_formed) hu) h
  | chainStartBlockReceived => exact run_nextFormed (fun _ hu => when_formed (fun _ => chainStart_formed) hu) h
  | chainDataBlockReceived => exact run_nextFormed (fun _ hu => when_formed (fun _ => chainData_formed) hu) h
  | chainEndBlockReceived => exact run_nextFormed (fun _ hu => when_formed (fun _ => chainEnd_formed) hu) h
  | chainStartTimeout => exact run_nextFormed (fun _ hu => when_formed (fun _ => firstFails_formed) hu) h
  | chainBlockTimeout => exact run_nextFormed (fun _ hu => when_formed (fun _ => firstFails_formed) hu) h
  | startupStepAComplete => exact done_nextFormed (when_formed (fun _ => stepA_formed) h)
  | rendezvousMet => exact done_nextFormed (when_formed (fun _ => endRendezvous_formed) h)
  | rendezvousTimeout =>
    exact run_nextFormed (fun _ hu => when_formed (fun _ hv => alarm_formed (endRendezvous_formed { hv with })) hu) h
  | shelfFrameRead => exact run_nextFormed (fun _ hu => when_formed (fun _ => shelfFrameRead_formed) hu) h
  | shelfCorrectionWrite => exact done_nextFormed (when_formed (fun _ => shelfCorrectionWrite_formed) h)
  | sweepLate => exact run_nextFormed (fun _ hu => when_formed (fun _ hv => warn_formed { hv with }) hu) h
  | shelfStall => exact run_nextFormed (fun _ hu => when_formed (fun _ hv => alarm_formed { hv with }) hu) h
  | stockTestStart => exact run_nextFormed (fun _ hu => when_formed (fun _ => testStart_formed) hu) h
  | stockTestEnd => exact run_nextFormed (fun _ => testEnd_formed) h
  | repairRecordWriteDone => exact run_nextFormed (fun _ hu => when_formed (fun _ => recordDone_formed) hu) h
  | boundaryStale => exact run_nextFormed (fun _ hu => when_formed (fun _ hv => warn_formed { hv with }) hu) h
  | thermBoundaryWrite => exact access_nextFormed (fun _ => regWrite_formed) h
  | slopeWarn => exact run_nextFormed (fun _ hu => when_formed (fun _ => slopeWarn_formed) hu) h
  | bandChange => exact done_nextFormed (when_formed (fun _ => bandChange_formed) h)
  | sensorFault => exact done_nextFormed (when_formed (fun _ => judgeSensor_formed) h)
  | railFault => exact run_nextFormed (fun _ hu => when_formed (fun _ hv => alarm_formed { hv with }) hu) h
  | vinFault => exact run_nextFormed (fun _ hu => when_formed (fun _ hv => alarm_formed { hv with }) hu) h
  | railRestored => exact run_nextFormed (fun _ => railRestored_formed) h
  | gateTakesEffect => exact done_nextFormed (when_formed (fun _ => setGated_formed) h)
  | pcieLinkUp => exact done_nextFormed (when_formed (fun _ hu => { hu with }) h)
  | bayGateRequest => exact access_nextFormed (fun _ => regWrite_formed) h
  | portGateRequest => exact access_nextFormed (fun _ => regWrite_formed) h
  | qeGateRequest => exact access_nextFormed (fun _ => regWrite_formed) h
  | side0GateRequest => exact access_nextFormed (fun _ => regWrite_formed) h
  | pcieGateRequest => exact access_nextFormed (fun _ => regWrite_formed) h
  | registerWrite => exact access_nextFormed (fun _ => regWrite_formed) h
  | unlockWrite => exact access_nextFormed (fun _ => regWrite_formed) h
  | unlockArmLapse => exact done_nextFormed { h with }
  | lockoutEnd =>
    exact done_nextFormed (when_formed (fun _ hu => { hu with regs_lockout := Sparse.rises_del _ _ hu.regs_lockout }) h)
  | deskShelfIdWrite => exact access_nextFormed (fun _ => regWrite_formed) h
  | deskTimeLoRead => exact access_nextFormed (fun _ => regRead_formed) h
  | pcieZeroLengthRead => exact access_nextFormed (fun _ => regAnswer_formed) h
  | pcieBadRequest => exact access_nextFormed (fun _ => regError_formed) h
  | logNmLatchClear => exact access_nextFormed (fun _ => regWrite_formed) h
  | logAlarmClear => exact access_nextFormed (fun _ => regWrite_formed) h
  | shelfCtrlWrite => exact access_nextFormed (fun _ => shelfCtrlWrite_formed) h
  | shelfActionWrite => exact access_nextFormed (fun _ => regWrite_formed) h
  | portLoopWrite => exact access_nextFormed (fun _ => regWrite_formed) h
  | laneTestCtrlWrite => exact access_nextFormed (fun _ => regWrite_formed) h
  | frameOutCtrlWrite => exact access_nextFormed (fun _ => regWrite_formed) h
  | slipRingEnable => exact access_nextFormed (fun _ => regWrite_formed) h
  | slipRingDisable => exact access_nextFormed (fun _ => regWrite_formed) h
  | ringDrainComplete => exact done_nextFormed (when_formed (fun _ => drainComplete_formed) h)
  | slipProdWrite => exact access_nextFormed (fun _ => regWrite_formed) h
  | slipRconsWrite => exact access_nextFormed (fun _ => regWrite_formed) h
  | logDrainConsWrite => exact access_nextFormed (fun _ => regWrite_formed) h
  | replyWrite => exact run_nextFormed (fun _ hu => when_formed (fun _ => replyWrite_formed) hu) h
  | slipDmaFault => exact run_nextFormed (fun _ hu => when_formed (fun _ => dmaFault_formed) hu) h
  | sidebandRegWrite => exact sideband_nextFormed (fun _ => sidebandWrite_formed) h
  | sidebandRegRead => exact sideband_nextFormed (fun _ => sidebandRead_formed) h
  | sidebandSlipWrite => exact sideband_nextFormed (fun _ => slipWrite_formed) h
  | sidebandSubmit => exact sideband_nextFormed (fun _ => sbSubmit_formed) h
  | sidebandReplyRead => exact sideband_nextFormed (fun _ => sbReplyRead_formed) h
  | sidebandStatus => exact sideband_nextFormed (fun _ => sbStatus_formed) h
  | sidebandRelease => exact sideband_nextFormed (fun _ => sbRelease_formed) h
  | sidebandBadCommand => exact sideband_nextFormed (fun _ hu => when_formed (fun _ => sbAnswer_formed) hu) h
  | sidebandSeriesReset => exact done_nextFormed (when_formed (fun _ => newSeries_formed) h)
  | inbandItem => exact run_nextFormed (fun _ hu => when_formed (fun _ => inbandItem_formed) hu) h
  | slipUnknownOpcode => exact ite_nextFormed (done_nextFormed h) (slip_nextFormed (fun _ _ _ => error_slipFormed fail_keeps) h)
  | lockstepMismatch => exact run_nextFormed (fun _ hu => when_formed (fun _ => lockstepMismatch_formed) hu) h
  | standbyReloadComplete => exact done_nextFormed (when_formed (fun _ hu => { hu with }) h)
  | daybookEntryWrite => exact run_nextFormed (fun _ hu => when_formed (fun _ => loggerStep_formed) hu) h
  | daybookDrainCopy =>
    exact run_nextFormed (fun _ hu => when_formed (fun _ hv => drainCopy_formed { useFree_formed hv with }) hu) h
  | summaryPeriodEnd => exact done_nextFormed (when_formed (fun _ => summaryEnd_formed) h)
  | streamStageDone => exact run_nextFormed (fun _ hu => when_formed (fun _ => stageDone_formed) hu) h
  | streamAuthDone => exact run_nextFormed (fun _ hu => when_formed (fun _ => authDone_formed) hu) h
  | flashWriteDone => exact run_nextFormed (fun _ hu => when_formed (fun _ => flashWriteDone_formed) hu) h
  | flashEraseDone => exact run_nextFormed (fun _ hu => when_formed (fun _ => flashEraseDone_formed) hu) h
  | archiveAddDone => exact run_nextFormed (fun _ hu => when_formed (fun _ => archiveAddDone_formed) hu) h
  | memoryFillDone => exact run_nextFormed (fun _ hu => when_formed (fun _ => memoryDone_formed) hu) h
  | memoryCopyDone => exact run_nextFormed (fun _ hu => when_formed (fun _ => memoryDone_formed) hu) h
  | frameSource => exact slip_nextFormed (fun _ _ => frameSourceBody_slipFormed) h
  | frameNumberSet => exact slip_nextFormed (fun _ _ => frameNumberSetBody_slipFormed) h
  | clockSet => exact slip_nextFormed (fun _ _ => clockSetBody_slipFormed) h
  | clockRestore => exact slip_nextFormed (fun _ _ => clockRestoreBody_slipFormed) h
  | clockQuery => exact slip_nextFormed (fun _ _ => clockQueryBody_slipFormed) h
  | thermalSet => exact slip_nextFormed (fun _ _ => thermalSetBody_slipFormed) h
  | thermalRelease => exact slip_nextFormed (fun _ _ => thermalReleaseBody_slipFormed) h
  | thermalQuery => exact slip_nextFormed (fun _ _ => thermalQueryBody_slipFormed) h
  | powerSet => exact slip_nextFormed (fun _ _ => powerSetBody_slipFormed) h
  | powerGate => exact slip_nextFormed (fun _ _ => powerGateBody_slipFormed) h
  | powerQuery => exact slip_nextFormed (fun _ _ => powerQueryBody_slipFormed) h
  | streamStage => exact slip_nextFormed (fun _ _ => streamStageBody_slipFormed) h
  | streamAuth => exact slip_nextFormed (fun _ _ => streamAuthBody_slipFormed) h
  | streamApply => exact slip_nextFormed (fun _ _ => streamApplyBody_slipFormed) h
  | flashWrite => exact slip_nextFormed (fun _ _ => flashWriteBody_slipFormed) h
  | flashErase => exact slip_nextFormed (fun _ _ => flashEraseBody_slipFormed) h
  | streamQuery =>
    exact slip_nextFormed (fun _ _ hu => .check houseIn_harmless <| .check fields_harmless <| okResult_slipFormed hu) h
  | archiveAdd => exact slip_nextFormed (fun _ _ => archiveAddBody_slipFormed) h
  | rotaSet => exact slip_nextFormed (fun _ _ => rotaSetBody_slipFormed) h
  | rotaQuery => exact slip_nextFormed (fun _ _ => rotaQueryBody_slipFormed) h
  | folioLoad => exact slip_nextFormed (fun _ _ => folioLoadBody_slipFormed) h
  | editionLoad => exact slip_nextFormed (fun _ _ => editionLoadBody_slipFormed) h
  | editionBind => exact slip_nextFormed (fun _ _ => editionBindBody_slipFormed) h
  | editionSwitch => exact slip_nextFormed (fun _ _ => editionSwitchBody_slipFormed) h
  | editionQuery => exact slip_nextFormed (fun _ _ => editionQueryBody_slipFormed) h
  | bankSet => exact slip_nextFormed (fun _ _ => bankSetBody_slipFormed) h
  | channelQuery => exact slip_nextFormed (fun _ _ => channelQueryBody_slipFormed) h
  | editionRetire => exact slip_nextFormed (fun _ _ => editionRetireBody_slipFormed) h
  | portSet => exact slip_nextFormed (fun _ _ => portSetBody_slipFormed) h
  | portQuery => exact slip_nextFormed (fun _ _ => portQueryBody_slipFormed) h
  | queueSet => exact slip_nextFormed (fun _ _ => queueSetBody_slipFormed) h
  | queueQuery => exact slip_nextFormed (fun _ _ => queueQueryBody_slipFormed) h
  | queueFlush => exact slip_nextFormed (fun _ _ => queueFlushBody_slipFormed) h
  | queueSpaceQuery => exact slip_nextFormed (fun _ _ => queueSpaceBody_slipFormed) h
  | flowSet => exact slip_nextFormed (fun _ _ => flowSetBody_slipFormed) h
  | flowQuery => exact slip_nextFormed (fun _ _ => flowQueryBody_slipFormed) h
  | pairSet => exact slip_nextFormed (fun _ _ => pairSetBody_slipFormed) h
  | flowCountClear => exact slip_nextFormed (fun _ _ => flowCountClearBody_slipFormed) h
  | egressSet => exact slip_nextFormed (fun _ _ => egressSetBody_slipFormed) h
  | egressQuery => exact slip_nextFormed (fun _ _ => egressQueryBody_slipFormed) h
  | creditSet => exact slip_nextFormed (fun _ _ => creditSetBody_slipFormed) h
  | read => exact slip_nextFormed (fun _ _ => readBody_slipFormed) h
  | write => exact slip_nextFormed (fun _ _ => writeBody_slipFormed) h
  | fill => exact slip_nextFormed (fun _ _ => fillBody_slipFormed) h
  | copy => exact slip_nextFormed (fun _ _ => copyBody_slipFormed) h
  | retire => exact slip_nextFormed (fun _ _ => retireBody_slipFormed) h
  | retireClear => exact slip_nextFormed (fun _ _ => retireClearBody_slipFormed) h
  | retireQuery => exact slip_nextFormed (fun _ _ => retireQueryBody_slipFormed) h
  | rightsSet => exact slip_nextFormed (fun _ _ => rightsSetBody_slipFormed) h
  | rightsQuery => exact slip_nextFormed (fun _ _ => rightsQueryBody_slipFormed) h
  | rekey => exact slip_nextFormed (fun _ _ => rekeyBody_slipFormed) h
  | rekeyQuery => exact slip_nextFormed (fun _ _ => rekeyQueryBody_slipFormed) h
  | ledgerRead => exact slip_nextFormed (fun _ _ => ledgerReadBody_slipFormed) h
  | keyFuseSet => exact slip_nextFormed (fun _ _ => keyFuseBody_slipFormed) h
  | stockDeclare => exact slip_nextFormed (fun _ _ => stockDeclareBody_slipFormed) h
  | stockRun => exact slip_nextFormed (fun _ _ => stockRunBody_slipFormed) h
  | stockRepair => exact slip_nextFormed (fun _ _ => stockRepairBody_slipFormed) h
  | stockResult => exact slip_nextFormed (fun _ _ => stockResultBody_slipFormed) h
  | stockQuery =>
    exact slip_nextFormed (fun _ _ hu => .check stockHouse_harmless <| .check fields_harmless <| okResult_slipFormed hu) h
  | eventAck => exact slip_nextFormed (fun _ _ => eventAckBody_slipFormed) h
  | daybookRead => exact slip_nextFormed (fun _ _ => daybookReadBody_slipFormed) h
  | daybookDrainSet => exact slip_nextFormed (fun _ _ => drainSetBody_slipFormed) h
  | eventFilterSet => exact slip_nextFormed (fun _ _ => eventFilterBody_slipFormed) h
  | eventQuery => exact slip_nextFormed (fun _ _ hu => .check fields_harmless <| okResult_slipFormed hu) h
  | inbandSet => exact slip_nextFormed (fun _ _ => inbandSetBody_slipFormed) h
  | modeSet => exact slip_nextFormed (fun _ _ => modeSetBody_slipFormed) h
  | modeQuery => exact slip_nextFormed (fun _ _ hu => .check fields_harmless <| okResult_slipFormed hu) h
  | laneTestSet => exact slip_nextFormed (fun _ _ => laneTestSetBody_slipFormed) h
  | laneTestQuery => exact slip_nextFormed (fun _ _ => laneTestQueryBody_slipFormed) h
  | tapReset => exact done_nextFormed (loadTap_formed h)
  | extest => exact execExtest_nextFormed h
  | idcode => exact done_nextFormed (loadTap_formed h)
  | samplePreload => exact execSamplePreload_nextFormed h
  | highz => exact done_nextFormed (loadTap_formed h)
  | clamp => exact done_nextFormed (loadTap_formed h)
  | bypass => exact done_nextFormed (loadTap_formed h)
  | rrReg => exact ite_nextFormed (access_nextFormed (fun _ => rrRegAccess_formed) { h with }) (done_nextFormed { h with })
  | rrMem =>
    exact ite_nextFormed (run_nextFormed (fun _ hu => when_formed (fun _ => rrMemAccess_formed) hu) { h with })
      (done_nextFormed { h with })
  | ioscSRunsAgain => exact done_nextFormed (when_formed (fun _ hu => { hu with }) h)
  | editionReady => exact done_nextFormed (when_formed (fun _ hu => { raiseReady_formed hu with }) h)
  | registerRead => exact access_nextFormed (fun _ => regRead_formed) h
  | lineAttachIngress => exact done_nextFormed (lineIngress_formed h)
  | egressUnderrun => exact done_nextFormed (egressUnderrun_formed h)
  | loopRelocked => exact execLoopRelocked_nextFormed h

theorem step_nextFormed {s : State} (h : Formed s) : NextFormed (step s) := by
  unfold step
  split
  · exact done_nextFormed h
  · exact exec_nextFormed { h with }

/-- Settles O3: every command's effect keeps the form, part by part. -/
theorem stepKeepsForm : Obligations.StepKeepsForm := by
  intro s t hs ht
  exact (step_nextFormed (s.formed hs) t ht).wf

end Sys2Proof.Machine
end
